-- ==== Sys2Proof/Word.lean ====
section
/-!
DEFINITION. The word types of the module and their plainest arithmetic: widths, sign extension (R11),
little-endian assembly of bytes (R7).
-/
namespace Sys2Proof

abbrev Byte := BitVec 8
abbrev Word := BitVec 32
abbrev Dword := BitVec 64
/-- A 256-bit vector register (R94). -/
abbrev Vec := BitVec 256

/-- SignExtend(v, n) of R11 for a field already cut to its width. -/
def sext {n : Nat} (v : BitVec n) : Dword := v.signExtend 64
/-- ZeroExtend(v, n) of R11. -/
def zext {n : Nat} (v : BitVec n) : Dword := v.zeroExtend 64

/-- Bits [lo+len-1:lo] of a word, as a natural number (R7). -/
def bits {n : Nat} (v : BitVec n) (lo len : Nat) : Nat := v.toNat / 2 ^ lo % 2 ^ len

/-- Bit n of a word (R7). -/
def bitAt {n : Nat} (v : BitVec n) (i : Nat) : Bool := v.getLsbD i

/-- A Bool as a number, for placing one-bit fields. -/
def b2n (b : Bool) : Nat := if b then 1 else 0

/-- The little-endian value of a list of bytes: the first byte holds bits [7:0] (R7). -/
def leVal : List Byte → Nat
  | [] => 0
  | b :: bs => b.toNat + 256 * leVal bs

/-- The n little-endian bytes of a value (R7). -/
def leBytes : Nat → Nat → List Byte
  | 0, _ => []
  | n + 1, v => BitVec.ofNat 8 v :: leBytes n (v / 256)

/-- Whether a list holds an element (Nat lists; by structural recursion). -/
def memNat (a : Nat) : List Nat → Bool
  | [] => false
  | b :: bs => a == b || memNat a bs

/-- The ids 0, 1, …, n-1. -/
def upTo (n : Nat) : List Nat := List.range n

end Sys2Proof
end

