-- ==== Sys2Proof/Wire.lean ====
section
/-!
DEFINITION. What travels between the units of the module and to other modules: who sends a request, where it is
performed, and what it asks for or reports (R63, R128, R181, R182, R269). The spec gives these messages no layout of
their own, only what each carries.
-/
namespace Sys2Proof

/-- The atomic operations of a home port (R133, R173). -/
inductive AmoOp where
  | swap | add | xor | and | or | min | max | minu | maxu
  | fadd | faddBf | fmax | fmin | incb | cas
  deriving DecidableEq, Repr

/-- Who sent a request (R63, R182, R272). -/
inductive Party where
  /-- a thread's request -/
  | thread
  /-- a copy engine's step, its channel in slot -/
  | copy
  | ladle
  | matrix
  | barrier
  | host
  deriving DecidableEq, Repr

/-- The source of a request: the party, its tile and slot, and what the request carries of it. -/
structure Origin where
  party : Party := .thread
  tile : Nat := 0
  slot : Nat := 0
  epoch : Nat := 0
  /-- logical core index on its own module (R22) -/
  lidx : Nat := 0
  pid : Nat := 0
  job : Nat := 0
  fab : Bool := false
  omod : Nat := 0
  machine : Bool := false
  deriving DecidableEq, Repr

/-- Where a request is performed (R181). -/
inductive Home where
  /-- a tile's storage and registers, by tile -/
  | tile (t : Nat)
  /-- an HBM pseudo-channel, by global number -/
  | chan (g : Nat)
  /-- a package's management block -/
  | mgmt (pkg : Nat)
  /-- a package's host port -/
  | host (pkg : Nat)
  /-- another module of the job, through the gateway -/
  | module (m y x : Nat)
  deriving DecidableEq, Repr

/-- A spawn or message: entry, arguments, identity and priority (R45, R50). -/
structure Message where
  entry : Dword := 0
  a0 : Dword := 0
  a1 : Dword := 0
  a2 : Dword := 0
  a3 : Dword := 0
  ident : Dword := 0
  prio : Nat := 0
  deriving DecidableEq, Repr

/-- What a packet asks for or reports. -/
inductive Op where
  | load (size : Nat)
  | store (size data : Nat)
  | amo (op : AmoOp) (size : Nat) (s cmp : Dword)
  | radd (amount : Nat)
  | rsig (amount : Nat)
  | rpoison (cls : Nat)
  | counted (size data roff : Nat)
  | binit (w0 w1 : Dword)
  | barv (gtag : Nat)
  | bexp (i o : Nat)
  | bpoison (cls : Nat)
  /-- a transfer completion: inbound or outbound, failed or not (R167, R274) -/
  | done (inbound failed : Bool)
  /-- a barrier's release signal (R168) -/
  | release (n : Nat) (poison : Bool) (cls : Nat)
  | capq (kcaps : Nat)
  | spawn (m : Message)
  | message (m : Message)
  | check (module sent : Nat)
  /-- replies: a result with the poison reason it carries, a completion, a rejection, a refusal, a status -/
  | result (data : Nat) (poison : Nat)
  | complete
  | reject (reason remote : Nat) (fab : Bool)
  /-- a spawn or message refused by a full intake or inbox (R51) -/
  | refused
  | status (v : Nat)
  | answer (kind rcvd : Nat)
  /-- a tile-to-tile packet: bytes, direction, tiles skipped (R144) -/
  | nb (bytes : List Byte) (dir skip : Nat)
  deriving DecidableEq, Repr

/-- A packet in flight. -/
structure Packet where
  id : Nat := 0
  op : Op := .complete
  org : Origin := {}
  home : Home := .tile 0
  /-- the location within the home: TOFF, address in the pseudo-channel, register offset or host address -/
  off : Nat := 0
  /-- the address as the request carried it (R269) -/
  addr : Dword := 0
  /-- the address class of R186 (0: never ordered), and the storage block's number -/
  cls : Nat := 0
  /-- the request entry, spawn record or command the packet belongs to -/
  req : Nat := 0
  /-- the request was named in space 0x4, so the partition checks do not apply (R34) -/
  absolute : Bool := false
  /-- the pc of the instruction that sent it, or that queued the command, and that thread's slot and epoch (R270) -/
  opc : Dword := 0
  bySlot : Nat := 0
  byEpoch : Nat := 0
  /-- the data carries the mark of a page with XN = 1 (R289) -/
  xn : Bool := false
  /-- the fabric port by which the packet arrived (R303), and the number its own module gave it -/
  port : Nat := 0
  extId : Nat := 0
  /-- an answer: the logical index of the core, or of the pseudo-channel's tile, at whose home the request was (R270) -/
  src : Nat := 0
  /-- an element of a vector access: the access and the element's number (R254, R255) -/
  group : Option (Nat × Nat) := none
  deriving DecidableEq, Repr

/-- The header of a flit (R302): its sequence number, the acknowledged sequence, which is that of the first flit of the
other direction not yet accepted, whether that flit has been refused, and the flow credits: how many flits from that one on
its sender has room for (log 31). -/
structure FlitHeader where
  seq : Nat
  ack : Nat
  again : Bool
  credits : Nat
  deriving DecidableEq, Repr

/-- The sensors as one 1 ms sample reads them (R312, R317, R320): temperatures in mK, the highest of an HBM stack's
among them, and for each island its number, temperature and path-delay margin. TMAX is what firmware makes of them. -/
structure Sensors where
  tmax : Nat := 77000
  hbm : Nat := 77000
  tbath : Nat := 77000
  carrierMin : Nat := 77000
  carrierMax : Nat := 77000
  islands : List (Nat × Nat × Nat) := []
  deriving DecidableEq, Repr, Inhabited

/-- What the hardware answers during CALIBRATE (R329): a step that fails of itself (0 none); known-answer tests that
fail, each a tile and a class, with whether the second run failed too (R309); router sides without a trained link; the
fabric ports that lead to each fabric-wide module number (R303). -/
structure Calibration where
  failStep : Nat := 0
  tests : List (Nat × Nat × Bool) := []
  dead : List (Nat × Nat) := []
  routes : List (Nat × List Nat) := []
  deriving DecidableEq, Repr, Inhabited

end Sys2Proof
end

