-- ==== Sys2Proof/Syntax.lean ====
section
/-!
DEFINITION. The instructions of spec/opcode_table.json as one inductive: the 189 encoded instructions (R100-R109)
with the operands their words carry, and the 108 events and steps of the part, which carry no word. An event's
operands say which unit it happens at and what the environment supplies (a flit, a sensor reading, a host write).
Tiles are named by physical module coordinates, py * 1024 + px (R17).
-/
namespace Sys2Proof

/-- An x register number (R94). -/
abbrev Reg := BitVec 5
/-- A vector register number (R101: the field's high bit is 0). -/
abbrev VReg := BitVec 4
/-- An accumulator number (R101: bits 4 and 3 of the field are 0). -/
abbrev Acc := BitVec 3
/-- A register pair, named by half its even first register (R101). -/
abbrev Pair := BitVec 4
/-- A copy channel (R107). -/
abbrev Ch := BitVec 2

/-- Element suffixes of the vector instructions, in code order (R109). -/
inductive Sfx where
  | w | h | b | hu | bu | f32 | bf
  deriving DecidableEq, Repr

/-- The two FP8 element formats (R70). -/
inductive Fp8 where
  | e4m3 | e5m2
  deriving DecidableEq, Repr

/-- One step of a ladle command, or of several that make one step of the port (R184, R226, R228, R229): a block of its
descriptor, of the choice array or of the route records; a route record, a gate or an expert's table entry of a choice of
a row; a block of a row's bytes, by the number of its first byte, read or written; a row's riser step; a block of a PLAN's
results, by its offset. -/
inductive LadleStep where
  | desc (blk : Nat)
  | table (blk : Nat)
  | record (row k : Nat)
  | gate (row k : Nat)
  | entry (row k : Nat)
  | read (row byte : Nat)
  | write (row byte : Nat)
  | riser (row : Nat)
  | result (off : Nat)
  deriving DecidableEq, Repr

/-- A turn of a ladle engine: the command, by its serial, and the step of it. -/
structure LadleTurn where
  serial : Nat
  step : LadleStep
  deriving DecidableEq, Repr

inductive Instr where
  | lui (rd : Reg) (imm : BitVec 20)   -- R118
  | auipc (rd : Reg) (imm : BitVec 20)   -- R118
  | jal (rd : Reg) (off : BitVec 20)   -- R122
  | jalr (rd rs1 : Reg) (imm : BitVec 12)   -- R122
  | beq (rs1 rs2 : Reg) (off : BitVec 12)   -- R122
  | bne (rs1 rs2 : Reg) (off : BitVec 12)   -- R122
  | blt (rs1 rs2 : Reg) (off : BitVec 12)   -- R122
  | bge (rs1 rs2 : Reg) (off : BitVec 12)   -- R122
  | bltu (rs1 rs2 : Reg) (off : BitVec 12)   -- R122
  | bgeu (rs1 rs2 : Reg) (off : BitVec 12)   -- R122
  | lb (rd rs1 : Reg) (imm : BitVec 12)   -- R125
  | lh (rd rs1 : Reg) (imm : BitVec 12)   -- R125
  | lw (rd rs1 : Reg) (imm : BitVec 12)   -- R125
  | ld (rd rs1 : Reg) (imm : BitVec 12)   -- R125
  | lbu (rd rs1 : Reg) (imm : BitVec 12)   -- R125
  | lhu (rd rs1 : Reg) (imm : BitVec 12)   -- R125
  | lwu (rd rs1 : Reg) (imm : BitVec 12)   -- R125
  | sb (rs1 rs2 : Reg) (imm : BitVec 12)   -- R125
  | sh (rs1 rs2 : Reg) (imm : BitVec 12)   -- R125
  | sw (rs1 rs2 : Reg) (imm : BitVec 12)   -- R125
  | sd (rs1 rs2 : Reg) (imm : BitVec 12)   -- R125
  | addi (rd rs1 : Reg) (imm : BitVec 12)   -- R118
  | slti (rd rs1 : Reg) (imm : BitVec 12)   -- R118
  | sltiu (rd rs1 : Reg) (imm : BitVec 12)   -- R118
  | xori (rd rs1 : Reg) (imm : BitVec 12)   -- R118
  | ori (rd rs1 : Reg) (imm : BitVec 12)   -- R118
  | andi (rd rs1 : Reg) (imm : BitVec 12)   -- R118
  | slli (rd rs1 : Reg) (sh : BitVec 6)   -- R118
  | srli (rd rs1 : Reg) (sh : BitVec 6)   -- R118
  | srai (rd rs1 : Reg) (sh : BitVec 6)   -- R118
  | add (rd rs1 rs2 : Reg)   -- R118
  | sub (rd rs1 rs2 : Reg)   -- R118
  | sll (rd rs1 rs2 : Reg)   -- R118
  | slt (rd rs1 rs2 : Reg)   -- R118
  | sltu (rd rs1 rs2 : Reg)   -- R118
  | xor (rd rs1 rs2 : Reg)   -- R118
  | srl (rd rs1 rs2 : Reg)   -- R118
  | sra (rd rs1 rs2 : Reg)   -- R118
  | or (rd rs1 rs2 : Reg)   -- R118
  | and (rd rs1 rs2 : Reg)   -- R118
  | addiw (rd rs1 : Reg) (imm : BitVec 12)   -- R118
  | slliw (rd rs1 : Reg) (sh : BitVec 5)   -- R118
  | srliw (rd rs1 : Reg) (sh : BitVec 5)   -- R118
  | sraiw (rd rs1 : Reg) (sh : BitVec 5)   -- R118
  | addw (rd rs1 rs2 : Reg)   -- R118
  | subw (rd rs1 rs2 : Reg)   -- R118
  | sllw (rd rs1 rs2 : Reg)   -- R118
  | srlw (rd rs1 rs2 : Reg)   -- R118
  | sraw (rd rs1 rs2 : Reg)   -- R118
  | mul (rd rs1 rs2 : Reg)   -- R120
  | mulh (rd rs1 rs2 : Reg)   -- R120
  | mulhsu (rd rs1 rs2 : Reg)   -- R120
  | mulhu (rd rs1 rs2 : Reg)   -- R120
  | div (rd rs1 rs2 : Reg)   -- R120
  | divu (rd rs1 rs2 : Reg)   -- R120
  | rem (rd rs1 rs2 : Reg)   -- R120
  | remu (rd rs1 rs2 : Reg)   -- R120
  | mulw (rd rs1 rs2 : Reg)   -- R120
  | divw (rd rs1 rs2 : Reg)   -- R120
  | divuw (rd rs1 rs2 : Reg)   -- R120
  | remw (rd rs1 rs2 : Reg)   -- R120
  | remuw (rd rs1 rs2 : Reg)   -- R120
  | lrW (rd rs1 : Reg) (aq rl : Bool)   -- R135
  | lrD (rd rs1 : Reg) (aq rl : Bool)   -- R135
  | scW (rd rs1 rs2 : Reg) (aq rl : Bool)   -- R135
  | scD (rd rs1 rs2 : Reg) (aq rl : Bool)   -- R135
  | amoswapW (rd rs1 rs2 : Reg) (aq rl : Bool)   -- R133
  | amoswapD (rd rs1 rs2 : Reg) (aq rl : Bool)   -- R133
  | amoaddW (rd rs1 rs2 : Reg) (aq rl : Bool)   -- R133
  | amoaddD (rd rs1 rs2 : Reg) (aq rl : Bool)   -- R133
  | amoxorW (rd rs1 rs2 : Reg) (aq rl : Bool)   -- R133
  | amoxorD (rd rs1 rs2 : Reg) (aq rl : Bool)   -- R133
  | amoandW (rd rs1 rs2 : Reg) (aq rl : Bool)   -- R133
  | amoandD (rd rs1 rs2 : Reg) (aq rl : Bool)   -- R133
  | amoorW (rd rs1 rs2 : Reg) (aq rl : Bool)   -- R133
  | amoorD (rd rs1 rs2 : Reg) (aq rl : Bool)   -- R133
  | amominW (rd rs1 rs2 : Reg) (aq rl : Bool)   -- R133
  | amominD (rd rs1 rs2 : Reg) (aq rl : Bool)   -- R133
  | amomaxW (rd rs1 rs2 : Reg) (aq rl : Bool)   -- R133
  | amomaxD (rd rs1 rs2 : Reg) (aq rl : Bool)   -- R133
  | amominuW (rd rs1 rs2 : Reg) (aq rl : Bool)   -- R133
  | amominuD (rd rs1 rs2 : Reg) (aq rl : Bool)   -- R133
  | amomaxuW (rd rs1 rs2 : Reg) (aq rl : Bool)   -- R133
  | amomaxuD (rd rs1 rs2 : Reg) (aq rl : Bool)   -- R133
  | fence (pred succ : BitVec 4)   -- R137
  | fenceTso (pred succ : BitVec 4)   -- R137
  | csrrw (rd : Reg) (csr : BitVec 12) (rs1 : Reg)   -- R142
  | csrrs (rd : Reg) (csr : BitVec 12) (rs1 : Reg)   -- R142
  | csrrc (rd : Reg) (csr : BitVec 12) (rs1 : Reg)   -- R142
  | csrrwi (rd : Reg) (csr : BitVec 12) (uimm : BitVec 5)   -- R142
  | csrrsi (rd : Reg) (csr : BitVec 12) (uimm : BitVec 5)   -- R142
  | csrrci (rd : Reg) (csr : BitVec 12) (uimm : BitVec 5)   -- R142
  | setprio (rs1 : Reg)   -- R162
  | spawna (rd rs1 rs2 : Reg)   -- R53
  | capq (rd rs1 : Reg)   -- R163
  | utrap (rs1 : Reg)   -- R164
  | rmark (rs1 : Reg)   -- R165
  | rwaitImm (rd rs1 : Reg) (off : BitVec 5) (tgt : BitVec 7)   -- R154
  | rwait (rd rs1 rs2 : Reg)   -- R154
  | radd (rd rs1 rs2 : Reg)   -- R157
  | rpoison (rs1 rs2 : Reg)   -- R157
  | binit (rs1 rs2 : Reg)   -- R169
  | barv (rd rs1 : Reg)   -- R170
  | bexp (rd rs1 rs2 : Reg)   -- R171
  | bpoison (rs1 rs2 : Reg)   -- R172
  | spawn (rd rs1 rs2 rs3 : Reg)   -- R159
  | spawnm (rd rs1 rs2 rs3 : Reg)   -- R161
  | amsg (rd rs1 rs2 rs3 : Reg)   -- R55
  | rwaitt (rd rs1 rs2 rs3 : Reg)   -- R154
  | nbsend (rd rs1 rs2 : Reg)   -- R144
  | rcfg (rs1 rs2 : Reg)   -- R146
  | capset (rs1 rs2 : Reg)   -- R147
  | sdc (rs1 rs2 rs3 : Reg)   -- R158
  | swc (rs1 rs2 rs3 : Reg)   -- R158
  | amofaddS (rd rs1 rs2 : Reg)   -- R91
  | amofaddBf (rd rs1 rs2 : Reg)   -- R91
  | amofmaxS (rd rs1 rs2 : Reg)   -- R91
  | amofminS (rd rs1 rs2 : Reg)   -- R91
  | amoincbW (rd rs1 rs2 : Reg)   -- R173
  | amoincbD (rd rs1 rs2 : Reg)   -- R173
  | amocasD (rd rs1 rs2 : Reg)   -- R173
  | rsig (rs1 rs2 : Reg)   -- R157
  | fencef (rd : Reg)   -- R178
  | cpq (rd rs1 : Reg) (ch : Ch)   -- R207
  | cpqn (rd rs1 : Reg) (ch : Ch)   -- R207
  | cpwait (rs1 : Reg) (ch : Ch)   -- R209
  | ldlq (rd rs1 : Reg)   -- R223
  | mmaE4e4 (acc : Acc) (a b : Pair)   -- R241
  | mmaE4e5 (acc : Acc) (a b : Pair)   -- R241
  | mmaE5e4 (acc : Acc) (a b : Pair)   -- R241
  | mmaE5e5 (acc : Acc) (a b : Pair)   -- R241
  | mmaBf (acc : Acc) (a b : Pair)   -- R241
  | mzero (acc : Acc)   -- R240
  | mld (acc : Acc) (p : Pair)   -- R240
  | mstF32 (acc : Acc) (p : Pair)   -- R240
  | mstBf (acc : Acc) (p : Pair)   -- R240
  | mstE4m3 (acc : Acc) (p : Pair)   -- R240
  | mstE5m2 (acc : Acc) (p : Pair)   -- R240
  | mgate (rs1 rs2 : Reg)   -- R242
  | mburst (rs1 : Reg)   -- R246
  | mrowv (vd : VReg) (acc : Acc) (row : BitVec 3)   -- R244
  | vadd (f : Sfx) (vd vs1 vs2 : VReg)   -- R256
  | vsub (f : Sfx) (vd vs1 vs2 : VReg)   -- R256
  | vmul (f : Sfx) (vd vs1 vs2 : VReg)   -- R256
  | vfma (f : Sfx) (vd vs1 vs2 : VReg)   -- R256
  | vmax (f : Sfx) (vd vs1 vs2 : VReg)   -- R256
  | vmin (f : Sfx) (vd vs1 vs2 : VReg)   -- R256
  | vabs (f : Sfx) (vd vs1 : VReg)   -- R256
  | vneg (f : Sfx) (vd vs1 : VReg)   -- R256
  | vand (vd vs1 vs2 : VReg)   -- R257
  | vor (vd vs1 vs2 : VReg)   -- R257
  | vxor (vd vs1 vs2 : VReg)   -- R257
  | vsll (f : Sfx) (vd vs1 vs2 : VReg)   -- R257
  | vsrl (f : Sfx) (vd vs1 vs2 : VReg)   -- R257
  | vsra (f : Sfx) (vd vs1 vs2 : VReg)   -- R257
  | vcmpeq (f : Sfx) (vd vs1 vs2 : VReg)   -- R258
  | vcmplt (f : Sfx) (vd vs1 vs2 : VReg)   -- R258
  | vcmple (f : Sfx) (vd vs1 vs2 : VReg)   -- R258
  | vsel (f : Sfx) (vd vs1 vs2 : VReg)   -- R258
  | vrcp (vd vs1 : VReg)   -- R259
  | vrsq (vd vs1 : VReg)   -- R259
  | vexp2 (vd vs1 : VReg)   -- R259
  | vlog2 (vd vs1 : VReg)   -- R259
  | vcvt (dst src : Sfx) (vd vs1 : VReg)   -- R260
  | vpack (f : Sfx) (m : Fp8) (vd vs1 : VReg)   -- R261
  | vunpack (f : Sfx) (m : Fp8) (vd vs1 : VReg)   -- R261
  | vredsum (f : Sfx) (vd vs1 : VReg)   -- R262
  | vredmax (f : Sfx) (vd vs1 : VReg)   -- R262
  | vscan (f : Sfx) (excl : Bool) (vd vs1 : VReg)   -- R262
  | vperm (f : Sfx) (vd vs1 vs2 : VReg)   -- R263
  | vslide (f : Sfx) (vd vs1 : VReg) (rs2 : Reg)   -- R263
  | vbcast (f : Sfx) (vd : VReg) (rs1 : Reg)   -- R263
  | vmvx (f : Sfx) (rd : Reg) (vs1 : VReg) (rs2 : Reg)   -- R263
  | vld (vd : VReg) (rs1 : Reg)   -- R252
  | vlds (f : Sfx) (vd : VReg) (rs1 rs2 : Reg)   -- R254
  | vldx (f : Sfx) (vd : VReg) (rs1 : Reg) (vs2 : VReg)   -- R254
  | vst (vs3 : VReg) (rs1 : Reg)   -- R252
  | vsts (f : Sfx) (vs3 : VReg) (rs1 rs2 : Reg)   -- R254
  | vstx (f : Sfx) (vs3 : VReg) (rs1 : Reg) (vs2 : VReg)   -- R254
  | vstc (vs3 : VReg) (rs1 rs2 : Reg)   -- R253
  -- events and steps: threads, messages and requests
  | issueSelect (tile : Nat)                      -- R47
  | firmwareThreadFill (tile : Nat)               -- R267
  | divideComplete (tile : Nat)                   -- R121
  | lrHoldExpiry (tile slot : Nat)                -- R136
  | spawnRequestArrival (pkt : Nat)               -- R51
  | spawnIntakeDrain (tile : Nat)                 -- R51
  | spawnRefusalReturn (pkt : Nat)                -- R51
  | spawnResend (entry : Nat)                     -- R51
  | spawnStatusReturn (pkt : Nat)                 -- R52
  | messageArrival (pkt : Nat)                    -- R55
  | handlerDispatch (tile : Nat)                  -- R56
  | routedLoadArrival (pkt : Nat)                 -- R183
  | routedStoreArrival (pkt : Nat)                -- R182
  | routedAmoArrival (pkt : Nat)                  -- R133
  | riserStepArrival (pkt : Nat)                  -- R157
  | countedStoreArrival (pkt : Nat)               -- R158
  | barrierStepArrival (pkt : Nat)                -- R167
  | transferCompletionStep (pkt : Nat)            -- R167
  | releaseSignalArrival (pkt : Nat)              -- R168
  | capqArrival (pkt : Nat)                       -- R163
  | responseReturn (pkt : Nat)                    -- R128
  | storeCompletionReturn (pkt : Nat)             -- R128
  | impreciseFaultArrival (pkt : Nat)             -- R268
  | rwaitWake (tile slot : Nat)                   -- R155
  | rwaittTimeout (tile slot : Nat)               -- R154
  | jcloadRefresh (tile : Nat)                    -- R53
  | intervalCheckArrival (pkt : Nat)              -- R177
  | intervalCheckAnswer (pkt : Nat)               -- R178
  | fabricStoreReceive (pkt : Nat) (bad : Bool)   -- R176
  | pageWalkComplete (walk : Nat)                 -- R285
  -- events and steps: engines
  | copyCommandStart (tile : Nat) (ch : Ch)       -- R205
  | copyEngineStep (tile : Nat) (ch : Ch) (serial : Nat) (write : Bool) (byte : Nat)   -- R205
  | copyDestinationRiserStep (tile : Nat) (ch : Ch) (serial dst : Nat)   -- R214
  | copyCompletionStep (tile : Nat) (ch : Ch) (serial : Nat)   -- R214
  | mcastFlitForward (tile serial byte node : Nat)   -- R218
  | mcastAckCombine (tile serial node : Nat)      -- R218
  | pftimeout (tile : Nat)                        -- R221
  | uioCompletion (pkt : Nat) (poisoned : Bool)   -- R301
  | ladleCommandStart (tile : Nat)                -- R223
  | planScanComplete (tile : Nat)                 -- R227
  | ladleEngineStep (tile : Nat) (turn : LadleTurn)   -- R228
  | ladleCompletionStep (tile : Nat)              -- R223
  | ladleReset (tile serial : Nat)                -- R227
  | matrixGateEvaluate (tile : Nat)               -- R242
  | matrixFetch (tile blk : Nat)                  -- R237
  | mmaCompute (tile : Nat)                       -- R241
  | mzeroCompute (tile : Nat)                     -- R240
  | mldCompute (tile : Nat)                       -- R240
  | mstCompute (tile serial : Nat)                -- R240
  | matrixRampUpDone (tile : Nat)                 -- R246
  | matrixRampDownDone (tile : Nat)               -- R246
  | burstGapExpiry (tile : Nat)                   -- R246
  -- events and steps: firmware packets and register writes
  | nbsendReceive (pkt : Nat)                     -- R145
  | nbsendStatusReturn (pkt : Nat)                -- R144
  | rcfgAck (tile slot : Nat)                     -- R146
  -- events and steps: the mailbox, the host and the fabric
  | closeDrainComplete (pid : Nat)                -- R66
  | suspendSave (pid : Nat)                       -- R280
  | invalComplete (pkg : Nat)                     -- R288
  -- events and steps: cryogenic operation, health and power
  | latticeResponder (tile : Nat)                 -- R334
  | patrolScrubStep (chan addr : Nat) (error : BitVec 2)    -- R323
  | islandPowerDown (island : Nat)                -- R325
  | islandWake (island : Nat)                     -- R325
  -- instructions without operands, register writes, the mailbox, and what comes from outside or from the timer
  | fenceI   -- R138
  | ecall   -- R139
  | ebreak   -- R139
  | mret   -- R140
  | wfi   -- R141
  | quit   -- R46
  | yield   -- R49
  | hret   -- R162
  | mfence   -- R245
  | routerConfigWrite (tile : Nat) (v : Dword)    -- R146
  | evpendWrite (tile : Nat) (v : Dword)          -- R267
  | jcodewinWrite (tile : Nat) (v : Dword)        -- R37
  | jsrseedWrite (tile slot : Nat) (v : Dword)    -- R86
  | jrmarkWrite (tile slot : Nat) (v : Dword)     -- R165
  | jmgateWrite (tile slot : Nat) (csr : BitVec 12) (v : Dword)   -- R242
  | jutcauseWrite (tile slot : Nat) (v : Dword)   -- R266
  | jmpartWrite (tile : Nat) (csr : BitVec 12) (v : Dword)   -- R62
  | registerWrite (home : Home) (off size : Nat) (v : Dword)   -- R9
  | openPart (pkg seq : Nat)                      -- R336
  | closePart (pkg seq : Nat)                     -- R66
  | suspend (pkg seq : Nat)                       -- R277
  | resume (pkg seq : Nat)                        -- R281
  | inval (pkg seq : Nat)                         -- R288
  | hriser (pkg seq : Nat)                        -- R298
  | cryoCool (pkg seq : Nat)                      -- R322
  | cryoWarm (pkg seq : Nat)                      -- R322
  | cryoRecal (pkg seq : Nat) (c : Calibration)   -- R322
  | attest (pkg seq : Nat)                        -- R332
  | svncommit (pkg seq : Nat)                     -- R331
  | imageUpdate (pkg seq : Nat)                   -- R328
  | hostMeshRead (pkg off size : Nat)             -- R294
  | hostMeshWrite (pkg off : Nat) (data : List Byte)   -- R294
  | hostSpawnWrite (pkg off : Nat) (data : List Byte)  -- R295
  | hostSignalWrite (pkg off : Nat) (data : List Byte) -- R295
  | hostMemoryAccess (pkg off size : Nat) (data : Option (List Byte))   -- R297
  | fabricFlitReceive (port : Nat) (header : FlitHeader) (crcOk : Bool) (payload : List Packet)   -- R302
  | atsTranslationResponse (pkg pasid page : Nat) (grant : Option (Nat × Bool))   -- R301
  | atsInvalidationRequest (pkg pasid page pages : Nat)   -- R301
  | pageRequestResponseFailure (pkg pasid page : Nat)   -- R301
  | pooledPageResident (tile : Nat)               -- R221
  | carrierPowerOn (strap : Bool)                 -- R320
  | carrierPowerOff                               -- R320
  | mailboxSubmission (pkg : Nat) (v : Dword)     -- R291
  | tmaxSample (x : Sensors)                      -- R317
  | soakTimerExpiry (c : Calibration)             -- R320
  | precoolTimeout                                -- R320
  | guardAdjust (island : Nat) (fails : List (Nat × Nat))   -- R313
  | eolFit (island : Nat)                         -- R314
  | shareGrant (pkg : Nat) (power : List (Nat × Nat))   -- R326
  | envelopeCheck (power : List (Nat × Nat))      -- R327
  | islandWakeComplete (island : Nat)             -- R325
  | periodicTest (tile : Nat) (fails : List (Nat × Bool))   -- R309
  | linkFailureTimeout (port : Nat)               -- R305
  | quiesceBoundExceeded (pid : Nat)              -- R273
  | quietSample (pid : Nat)                       -- R68
  deriving DecidableEq, Repr

end Sys2Proof
end

