-- ==== Sys2Proof/Config.lean ====
section
/-!
DEFINITION. What an implementation fixes and the spec leaves open, as opaque constants: nothing can evaluate them,
so a statement about them holds whatever they are. Each is named in a log entry.
-/
namespace Sys2Proof.Config

/-- The n-th fresh free value: a value the spec leaves unstated (log 3). -/
opaque freeNat : Nat → Nat
/-- Whether the k-th event that could happen in the n-th tick happens in it (log 4). -/
opaque occurs : Nat → Nat → Bool
/-- A choice of the n-th tick, named by a list of numbers: an order, a piece of a transfer (log 4). -/
opaque choice : Nat → List Nat → Nat
/-- What the world outside the module does in the n-th tick: the host, the fabric's links and the carrier's power
(log 5). -/
opaque inputs : Nat → List Instr
/-- Host reads of management windows in the n-th tick: package, offset, size (R291; log 5). -/
opaque windowReads : Nat → List (Nat × Nat × Nat)
/-- What the hardware measures or answers in the n-th tick: sensors, power in mW by island or package, known-answer tests
that fail, and a calibration (log 5). -/
opaque sensors : Nat → Sensors
opaque measured : Nat → List (Nat × Nat)
opaque packagePower : Nat → List (Nat × Nat)
opaque testFails : Nat → Nat → List (Nat × Bool)
opaque screenFails : Nat → Nat → List (Nat × Nat)
opaque calibration : Nat → Calibration
/-- The words of a save area's MQUEUE and ENGINES, whose layout R280 does not give: what is saved there, as numbers, and the
index of the word (log 44). -/
opaque areaWord : List Nat → Nat → Nat
/-- Errors of memory cells that the reads and fetches of the n-th tick meet: the word, as key / 8, and whether it is
uncorrectable (R276; log 56). -/
opaque upsets : Nat → List (Nat × Bool)
/-- The HBM address of the firmware body's copy in machine-owned HBM (R329, R330; log 62). -/
opaque bodyPlace : Nat
/-- SHA-384 of a list of bytes, as a number (R328, R332; log 11). -/
opaque sha384 : List Byte → Nat
/-- ECDSA P-384 verification: key, digest, signature (R328; log 11). -/
opaque ecdsaVerify : Nat → Nat → Nat → Bool
/-- ECDSA P-384 signature of a digest by a device key (R332; log 11). -/
opaque ecdsaSign : Nat → Nat → Nat
/-- The hash of the vendor's public key burned in fuses (R328), and the device identity key (R332; log 11). -/
opaque keyHash : Nat
opaque deviceKey : Nat
/-- The hash of R303: destination module, source core and slot, and the number of ports to choose from (log 32). -/
opaque routeHash : Nat → Nat → Nat → Nat

/-- The column along row 127 of its die at which a fabric port's gateway sits (R14 gives the row only; log 32), and that
of a package's host port on die 0 (R14, R16; log 81). -/
opaque gatewayColumn : Nat → Nat
opaque hostColumn : Nat → Nat
/-- The tile whose router serves a package's management block: die, and die-frame column and row, as one number (R132 gives
no place; log 81). -/
opaque mgmtSite : Nat → Nat
/-- The registers of a management block, by number, that hold a die's orientation (R18) and a width w_c (R24): R307 lists no
offset for either (log 82). -/
opaque orientReg : Nat → Nat
opaque widthReg : Nat → Nat

end Sys2Proof.Config
end

