-- ==== Sys2Proof/Machine/Assoc.lean ====
section
/-!
DEFINITION. Sparse data by number: a list of (number, value) pairs with rising numbers. Memory and the tiles of the
module are held this way.
-/
namespace Sys2Proof.Machine

/-- The value listed for a key, or a default. -/
def Assoc.get {α : Type} (d : α) : List (Nat × α) → Nat → α
  | [], _ => d
  | (k, v) :: r, a => if k = a then v else Assoc.get d r a

/-- Lists a value for a key, replacing an earlier one, in the place its number has. -/
def Assoc.put {α : Type} (a : Nat) (v : α) : List (Nat × α) → List (Nat × α)
  | [] => [(a, v)]
  | (k, w) :: r => if a = k then (a, v) :: r else if a < k then (a, v) :: (k, w) :: r else (k, w) :: Assoc.put a v r

/-- Drops every entry of a key. -/
def Assoc.del {α : Type} (a : Nat) : List (Nat × α) → List (Nat × α)
  | [] => []
  | (k, w) :: r => if a = k then Assoc.del a r else (k, w) :: Assoc.del a r

/-- Keys strictly rise. -/
def Assoc.rising {α : Type} : List (Nat × α) → Bool
  | [] => true
  | (k, _) :: r => r.all (fun p => k < p.1) && Assoc.rising r

/-- Whether a key is listed. -/
def Assoc.has {α : Type} : List (Nat × α) → Nat → Bool
  | [], _ => false
  | (k, _) :: r, a => k == a || Assoc.has r a

/-- Every entry of a vector changed. -/
def mapV {α β : Type} {n : Nat} (v : Vector α n) (f : α → β) : Vector β n := Vector.ofFn fun i => f v[i]

end Sys2Proof.Machine
end

