-- ==== Sys2Proof/Machine/State.lean ====
section
/-!
DEFINITION. The state of one module (R13): its tiles, with their cores' threads, registers and engines; memory; the
requests in flight; the packages; the partitions; the firmware's and the cryogenic plant's state; and the outcomes
a step can have other than a next state. All of it is plain data.
-/
namespace Sys2Proof.Machine

set_option autoImplicit false

/-- A privilege mode (R30, R98). -/
inductive Mode where
  | user | machine
  deriving DecidableEq, Repr

/-- The states of a slot (R44). -/
inductive SlotState where
  | empty | ready | score | sleep | queue | unit
  deriving DecidableEq, Repr

/-- What a thread in SLEEP waits for (R154, R209). -/
inductive Wait where
  /-- RWAIT or RWAITT on the word at a scratchpad offset, with the timer tick at which its timeout expires (R318) -/
  | riser (off : Nat) (target : Nat) (expires : Option Nat) (rd : Reg)
  /-- CPWAIT on a channel's watermark -/
  | copy (ch : Nat) (mark : Word)
  deriving DecidableEq, Repr

/-- What a thread in QUEUE or UNIT needs (R44). -/
inductive Need where
  | none
  | entry
  /-- a translation of a page (va / 4096) -/
  | translation (page : Nat)
  | intervalCheck
  | channel (ch : Nat)
  | matrix
  | ladle
  | divider
  | result (cycle : Nat)
  | hold
  | acknowledge
  /-- the next local element of a vector access -/
  | element
  deriving DecidableEq, Repr

/-- A fault record's fields (R270), with the trap value of R269. -/
structure FaultRec where
  cause : Nat := 0
  val : Dword := 0
  opc : Dword := 0
  target : Dword := 0
  reason : Nat := 0
  fab : Bool := false
  remote : Nat := 0
  ts : Nat := 0
  /-- the core cycle in which its report arrived, and the number of the request (R268) -/
  cycle : Nat := 0
  age : Nat := 0
  /-- the vector access that it is reported for, and the element (R255) -/
  group : Option (Nat × Nat) := none
  deriving DecidableEq, Repr

/-- One entry of a thread's interval table (R175), in allocation order. -/
structure Interval where
  module : Nat
  sent : Nat
  idx : Nat
  deriving DecidableEq, Repr

/-- An interval check and its answer: 0 matched, 1 mismatched, 2 unchecked, with the count received (R177). -/
structure Check where
  id : Nat := 0
  /-- the pc of the FENCEF or of the store that forced the check (R270) -/
  opc : Dword := 0
  /-- sent by FENCEF -/
  explicit : Bool := false
  idx : Nat
  module : Nat
  sent : Nat
  answer : Option (Nat × Nat) := none
  deriving DecidableEq, Repr

/-- The local elements of a vector access that are still to be performed, one step each (R254): element number, address,
offset and the value to store, in ascending order. -/
structure VecRun where
  write : Bool := false
  size : Nat := 0
  vd : VReg := 0
  /-- the group of the access's routed elements -/
  group : Option Nat := none
  rest : List (Nat × Dword × Nat × Nat) := []
  /-- the bytes read so far, in their places in the register -/
  buf : Nat := 0
  deriving DecidableEq, Repr

/-- A reservation: an aligned 8-byte granule of the tile's own storage, and a size (R135). -/
structure Reservation where
  granule : Nat
  size : Nat
  deriving DecidableEq, Repr

/-- A thread's context (R43), its thread CSRs (R97-R99), and the state the core keeps with its slot. -/
structure Thread where
  st : SlotState := .empty
  mode : Mode := .user
  /-- a firmware thread of R267, which has no budget -/
  firmware : Bool := false
  /-- counts the occupants of the slot, so that a late result finds its thread gone (R46) -/
  epoch : Nat := 0
  x : Vector Dword 32 := Vector.replicate 32 0
  v : Vector Vec 16 := Vector.replicate 16 0
  pc : Dword := 0
  prio : Nat := 0
  budget : Nat := 0
  -- machine CSRs
  /-- UXL reads 2 (R98) -/
  mstatus : Dword := 0x200000000
  mie : Dword := 0
  mtvec : Dword := 0
  mscratch : Dword := 0
  mepc : Dword := 0
  mcause : Dword := 0
  mtval : Dword := 0
  instret : Dword := 0
  -- user CSRs
  jsrseed : Dword := 0
  jmcfg : Dword := 0
  jvcfg : Dword := 0
  jutvec : Dword := 0
  jutcause : Dword := 0
  jutepc : Dword := 0
  jutval : Dword := 0
  jmgate : Dword := 0
  jmgatev : Dword := 0
  jrmark : Dword := 0
  uhold : Bool := false
  /-- the mark snapshot of x1-x31 (R165); index 0 unused -/
  snap : Vector Dword 32 := Vector.replicate 32 0
  -- issue state
  wait : Nat := 0
  /-- cycle of the last issue, for the handlers' least-recent rule (R47) -/
  lastIssue : Nat := 0
  need : Need := .none
  sleep : Option Wait := none
  /-- time stamp and cycle at which the present wait began (R69) -/
  sleepTs : Nat := 0
  /-- a wait whose result is fixed, and the cycle in which the thread wakes (R155) -/
  woken : Option (Dword × Nat) := none
  /-- destinations not yet readable: x register and first cycle it may be read (R121, R127) -/
  lat : List (Reg × Nat) := []
  vlat : List (VReg × Nat) := []
  pend : List FaultRec := []
  resv : Option Reservation := none
  /-- the hold of the last LR: the cycle it ends (R136) -/
  holdEnd : Option Nat := none
  /-- the cycle in which the previous hold ended -/
  lastHold : Option Nat := none
  intervals : List Interval := []
  unchk : Bool := false
  /-- the interval checks in progress (R177, R178) -/
  checks : List Check := []
  /-- AQ: hold later memory instructions until entries complete (R134) -/
  acquire : Bool := false
  /-- MFENCE and MROWV: the entries awaited, by serial (R244, R245) -/
  awaits : Option (List Nat) := none
  /-- routed elements of the vector store at pc already sent (R175, R254) -/
  vecAt : Nat := 0
  /-- the group of that store's elements, kept when the store issues again (R254, R255) -/
  vecGid : Nat := 0
  /-- the vector access at pc, while its local elements are performed (R254) -/
  vec : Option VecRun := none
  /-- the fetch buffer: base pc and the words fetched ahead (R138) -/
  fbuf : List (Dword × Word) := []
  /-- the page (va / 4096) whose walk found a page fault, which the access takes when it issues again (R285) -/
  walkFault : Option Nat := none
  /-- an RCFG that waits for its router's acknowledgement: the target tile, the word and x[rs2] (R146) -/
  rcfg : Option (Nat × Dword × Dword) := none
  /-- an undelegated U-mode trap waits for the firmware's disposition (R273): cause and INT -/
  fwTrap : Option (Nat × Nat) := none
  deriving DecidableEq, Repr

/-- One request entry of a core (R128). -/
structure ReqEntry where
  id : Nat := 0
  slot : Nat := 0
  epoch : Nat := 0
  /-- the scoreboarded x register, none for a posted request or x0 (R95) -/
  rd : Option Reg := none
  /-- an element of a vector access: the access and the element's number (R254, R255) -/
  group : Option (Nat × Nat) := none
  size : Nat := 8
  signed : Bool := false
  opc : Dword := 0
  target : Dword := 0
  /-- issued in M-mode or by a handler: its faults are only logged (R268) -/
  quiet : Bool := false
  /-- results still owed are discarded (R278) -/
  discard : Bool := false
  /-- SPAWNM: answers still awaited, and cores that refused (R54) -/
  awaited : Nat := 0
  refusals : Nat := 0
  /-- SPAWNA: the cluster index chosen, in its place of the result (R53) -/
  tag : Nat := 0
  deriving DecidableEq, Repr

/-- A routed vector access (R252-R255): the elements still out, what has returned, and the faults found so far, each
with its element. -/
structure VGroup where
  id : Nat := 0
  slot : Nat := 0
  epoch : Nat := 0
  /-- the destination of a load -/
  vd : Option VReg := none
  /-- bytes per element -/
  width : Nat := 4
  left : Nat := 0
  buf : Vec := 0
  rejects : List (Nat × FaultRec) := []
  poisons : List (Nat × FaultRec) := []
  deriving DecidableEq, Repr

/-- A spawn or message on its way, with its attempts (R51). -/
structure SpawnRec where
  id : Nat := 0
  org : Origin := {}
  home : Home := .tile 0
  op : Op := .complete
  addr : Dword := 0
  /-- refusals so far -/
  refusals : Nat := 0
  /-- in back-off: the tick at which it is sent again -/
  due : Option Nat := none
  /-- the request entry its status returns to -/
  req : Nat := 0
  /-- a part of a SPAWNM -/
  many : Bool := false
  /-- a host spawn: the package of the port, STADDR and TAG (R295) -/
  host : Option (Nat × Nat × Nat) := none
  deriving DecidableEq, Repr

/-- A spawn waiting in a core's intake (R51). -/
structure Intake where
  recId : Nat := 0
  msg : Message := {}
  org : Origin := {}
  req : Nat := 0
  many : Bool := false
  deriving DecidableEq, Repr

/-- The core-scope registers of a tile (R97-R99, R62, R58, R37), each as software reads it. -/
structure CoreRegs where
  jmpart0 : Dword := 0
  jmpart1 : Dword := 0
  jmrcb : Dword := 0
  jmstall : Dword := 0
  jmtrace : Dword := 0
  jmtrhead : Dword := 0
  jmdeleg : Dword := 0
  jcaps : Dword := 0x3FFFF
  jkcaps : Dword := 0
  jcload : Dword := 0
  jmodule : Dword := 0
  jcodewin : Dword := 0
  /-- GY and GX of jcore (R25, R146) -/
  gy : Nat := 0
  gx : Nat := 0
  /-- the translation root, its ASID and the job identifier, loaded at open (R336) -/
  ptroot : Nat := 0
  asid : Nat := 0
  jobid : Nat := 0
  deriving DecidableEq, Repr

/-- One entry of the machine error log (R272): its words after the time stamp. -/
structure LogEntry where
  ts : Nat
  w1 : Dword
  addr : Dword
  info : Dword
  deriving DecidableEq, Repr

/-- A copy command as it was queued (R207, R270). -/
structure CopyCmd where
  serial : Nat := 0
  id : Nat := 0
  w0 : Dword := 0
  w1 : Dword := 0
  w2 : Dword := 0
  w3 : Dword := 0
  slot : Nat := 0
  epoch : Nat := 0
  opc : Dword := 0
  machine : Bool := false
  quiet : Bool := false
  deriving DecidableEq, Repr

/-- A started copy command and how far it has come (R193, R205, R214). Its bytes are numbered in the order of its rows
and of the bytes in each. -/
structure CopyRun where
  cmd : CopyCmd := {}
  /-- the tensor map a WALK has read: its eight words (R216) -/
  map : List Dword := []
  /-- indices read so far: row and index (R211) -/
  idx : List (Nat × Nat) := []
  /-- first byte numbers of the pieces read and of the pieces written, and how many bytes are written or skipped -/
  reads : List Nat := []
  writes : List Nat := []
  done : Nat := 0
  /-- bytes read and not yet written: byte number and value -/
  buf : List (Nat × Byte) := []
  /-- bytes that carry the mark of a page with XN = 1: first number and length (R289) -/
  xn : List (Nat × Nat) := []
  /-- accesses to other modules or to pooled memory outstanding: packet, first byte, length -/
  outstanding : List (Nat × Nat × Nat) := []
  /-- destinations whose riser or barrier step has been taken or sent, steps sent that are not yet performed, and the
  destination of each of them by its packet (R214, R220) -/
  stepped : List Nat := []
  owed : Nat := 0
  sent : List (Nat × Nat) := []
  /-- the reason and class with which the command fails -/
  bad : Option (Nat × Nat) := none
  /-- the completion step to a barrier, or of a failed command its failed completion, has been sent -/
  final : Bool := false
  /-- multicast: flits at routers (first byte, router), bytes written at each destination (tile, count), destinations
  that failed, and routers whose combined acknowledgement has been passed back (R218) -/
  flits : List (Nat × Nat) := []
  landed : List (Nat × Nat) := []
  failed : List Nat := []
  acks : List Nat := []
  /-- the tick of the command's first page fault in pooled memory (R221) -/
  faulted : Option Nat := none
  deriving DecidableEq, Repr

/-- A copy channel (R203-R205) with its registers. -/
structure Channel where
  fifo : List CopyCmd := []
  /-- the last evaluation of the head's gate: 0 not reached, 1 reached, 2 poisoned (R213) -/
  gate : Nat := 0
  /-- time stamp at which the head began to wait (R69) -/
  gateTs : Nat := 0
  started : List CopyRun := []
  jcpnext : Word := 0
  jcpdone : Word := 0
  jcperr : Dword := 0
  /-- channel 3: the command and page of a translation request that is out, and of the fault that holds the channel (R221,
  R301) -/
  ask : Option (Nat × Nat) := none
  stall : Option (Nat × Nat) := none
  deriving DecidableEq, Repr

/-- A row that a SCATTER or a COMBINE moves (R228, R229). Its bytes are those of the token row, or of the expert output
rows in the order of the choices. -/
structure LadleRow where
  row : Nat
  /-- COMBINE: route records and gates read, each with its choice -/
  recs : List (Nat × Nat) := []
  gates : List (Nat × Nat) := []
  /-- for each choice whose place is known, the address of its first byte; SCATTER: the riser, 0 for none, and the core
  that RCORE or SPRCORE names -/
  places : List (Nat × Dword) := []
  riser : Nat := 0
  core : Dword := 0
  /-- first byte numbers of the pieces read and written, how many bytes are written, and the bytes read -/
  reads : List Nat := []
  writes : List Nat := []
  done : Nat := 0
  buf : List (Nat × Byte) := []
  /-- bytes that come from a page with XN = 1: first number and length (R289) -/
  xn : List (Nat × Nat) := []
  /-- accesses to other modules outstanding: packet, first byte, length -/
  outstanding : List (Nat × Nat × Nat) := []
  deriving DecidableEq, Repr

/-- A ladle command (R223). -/
structure LadleCmd where
  serial : Nat := 0
  w0 : Dword := 0
  w1 : Dword := 0
  slot : Nat := 0
  epoch : Nat := 0
  opc : Dword := 0
  machine : Bool := false
  /-- the command may evaluate its gate: it is at the head of the queue, or a RESET (R223) -/
  watching : Bool := false
  /-- the last evaluation of the gate: 0 not reached, 1 reached, 2 poisoned -/
  gate : Nat := 0
  gateTs : Nat := 0
  started : Bool := false
  /-- blocks of the descriptor, then of the choices or records, read so far: their offsets and bytes -/
  parts : List (Nat × List Byte) := []
  /-- the descriptor as read, its sixteen words; and the choices of a PLAN or the records of a SCATTER as read -/
  desc : List Dword := []
  table : Option (List Nat) := none
  /-- SCATTER and COMBINE: the rows being moved; those written whole; those whose riser step has been taken -/
  rows : List LadleRow := []
  moved : List Nat := []
  stepped : List Nat := []
  /-- riser steps sent to other modules and not yet performed: packet and row -/
  out : List (Nat × Nat) := []
  bad : Option Nat := none
  /-- a failed command has written LFAIL (R230) -/
  lfail : Bool := false
  /-- PLAN: has joined a round; has its result; the blocks of it still to be written, by offset -/
  joined : Bool := false
  finished : Bool := false
  todo : List (Nat × List Byte) := []
  deriving DecidableEq, Repr

/-- The ladle engine (R223-R230). -/
structure Ladle where
  queue : List LadleCmd := []
  /-- PLANs started since the partition opened or since the last RESET (R227) -/
  rounds : Nat := 0
  /-- the next PLAN fails with ABORT when it starts (R227) -/
  abortNext : Bool := false
  deriving DecidableEq, Repr

/-- One member's part of a scan round: tile, the same-fields words, and n[k][e] in row-major order (R226, R227). -/
structure Joined where
  tile : Nat
  same : List Nat
  counts : List Nat
  bad : Bool := false
  deriving DecidableEq, Repr

/-- A round of PLANs over one rectangle of one partition (R227): the rectangle as y0, x0, h, w. -/
structure Round where
  pid : Nat
  rect : List Nat
  n : Nat
  members : List Joined := []
  /-- members that have taken the result -/
  taken : List Nat := []
  deriving DecidableEq, Repr

/-- The queued matrix operations (R237). -/
inductive MOp where
  | mzero | mld
  | mstF32 | mstBf | mstFp8 (f : Fp8)
  | mma (a b : Fp8) | mmaBf
  deriving DecidableEq, Repr

/-- The stages of a matrix entry (R237). -/
inductive MStage where
  | waiting | gate | fetch | compute
  deriving DecidableEq, Repr

/-- An entry of the matrix queue with all it captured at issue (R237). -/
structure MEntry where
  serial : Nat := 0
  op : MOp := .mzero
  acc : Nat := 0
  d0 : Dword := 0
  d1 : Dword := 0
  e0 : Dword := 0
  e1 : Dword := 0
  gated : Bool := false
  gateOff : Nat := 0
  gateTgt : Nat := 0
  /-- evaluations still to take, each with the word as it stood: on entering the stage and after each write -/
  evals : List Dword := []
  gateTs : Nat := 0
  jmcfg : Dword := 0
  seed : Dword := 0
  stage : MStage := .waiting
  /-- 64-byte blocks already fetched, and the bytes fetched by offset -/
  blocks : List Nat := []
  fetched : List (Nat × Byte) := []
  bad : Bool := false
  /-- MST, once its compute has begun: the steps still to be taken, each the bytes of one block, and whether the
  accumulator was marked (R240) -/
  out : Option (List (List (Nat × Byte)) × Bool) := none
  /-- MMA: the cycle its compute began -/
  began : Option Nat := none
  deriving DecidableEq, Repr

/-- An accumulator: 64 FP32 elements in row-major order and its mark (R94, R236). -/
structure AccReg where
  el : Vector Word 64 := Vector.replicate 64 0
  mark : Word := 0
  deriving DecidableEq, Repr

/-- The power states of the matrix array (R246). -/
inductive MPower where
  | idle | rampUp | active | rampDown
  deriving DecidableEq, Repr

/-- The matrix unit of a core (R236-R247). -/
structure Matrix where
  accs : Vector AccReg 8 := Vector.replicate 8 {}
  queue : List MEntry := []
  power : MPower := .idle
  since : Nat := 0
  burst : Nat := 0
  gaps : Nat := 0
  deriving DecidableEq, Repr

/-- A table walk in progress (R285): the level it reads next and the table's address. -/
structure Walk where
  id : Nat := 0
  /-- the tile whose access started it, and its die's translation service -/
  tile : Nat := 0
  die : Nat := 0
  asid : Nat := 0
  root : Nat := 0
  page : Nat := 0
  level : Nat := 0
  table : Nat := 0
  /-- the engine commands that wait for it, by serial -/
  engines : List Nat := []
  deriving DecidableEq, Repr

/-- A translation held by a TLB (R287): the whole leaf, its tag and the first page it maps. -/
structure TlbEntry where
  asid : Nat := 0
  page : Nat := 0
  pages : Nat := 1
  leaf : Dword := 0
  deriving DecidableEq, Repr

/-- What a lattice responder has still to do: to write a router, or to send a packet in a direction (R334). -/
inductive LatTask where
  | cfg (tile : Nat) (word : Dword)
  | send (bytes : List Byte) (dir : Nat)
  deriving DecidableEq, Repr

/-- The lattice responder of a tile (R334). -/
structure Responder where
  py : Nat := 0
  px : Nat := 0
  w : Nat := 0
  south : Nat := 2
  row : Option Nat := none
  rsouth : Option Nat := none
  todo : List LatTask := []
  deriving DecidableEq, Repr

/-- A write that an LR hold has made wait at a tile's port (R136): a packet, by its number; a piece of a copy command's
transfer, its riser or barrier step at a destination, or its completion step; a piece of a row or of the results of a ladle
command, a row's riser step, or the command's end; a block of a matrix entry; a write of a tile's lattice responder. A unit's
own are named by its tile and the command's serial. -/
inductive Waiter where
  | packet (id : Nat)
  | copyPiece (t serial b : Nat)
  | copyStep (t serial d : Nat)
  | copyEnd (t serial : Nat)
  | ladlePiece (t serial row b : Nat)
  | ladleRiser (t serial row : Nat)
  | ladleEnd (t serial : Nat)
  | matrixStep (t serial left : Nat)
  | lattice (t : Nat)
  deriving DecidableEq, Repr

/-- A tile: its router, its core's registers, threads and engines, and the queues at its port. -/
structure Tile where
  /-- FUSED fuse (R144, R146) -/
  fused : Bool := false
  router : Dword := 0
  core : CoreRegs := {}
  /-- the core registers before a CSR write that retired in the present cycle: what the port still goes by (R37, R62) -/
  was : Option CoreRegs := none
  /-- core cycles since core reset (R335) -/
  cycle : Nat := 0
  threads : Vector Thread 8 := Vector.replicate 8 {}
  /-- LastIssued of each priority level (R47) -/
  last0 : Nat := 5
  last1 : Nat := 5
  last2 : Nat := 5
  last3 : Nat := 5
  /-- the divider: the cycle it finishes, its thread, destination and result (R121) -/
  divider : Option (Nat × Nat × Nat × Reg × Dword) := none
  reqs : List ReqEntry := []
  groups : List VGroup := []
  /-- the cycle from which the special-function unit accepts again (R251) -/
  sfuFree : Nat := 0
  /-- interval checks of ended threads, with their slots (R180) -/
  lateChecks : List (Nat × Check) := []
  /-- spawn intake, at most 4, oldest first (R51) -/
  intake : List Intake := []
  /-- inbox, at most 32, oldest first (R55, R56) -/
  inbox : List Message := []
  chans : Vector Channel 4 := Vector.replicate 4 {}
  /-- the command whose step had the port's last engine turn (R205) -/
  turn : Nat := 0
  ladle : Ladle := {}
  matrix : Matrix := {}
  /-- the writes that LR holds have delayed at the port, in arrival order, each with the bytes it names: first offset and
  number (R136) -/
  delayed : List (Waiter × List (Nat × Nat)) := []
  /-- vector accesses to other modules a rejection of which has been reported (R255) -/
  told : List Nat := []
  /-- EVPEND and the error log (R267, R272) -/
  evpend : Dword := 0
  elhead : Nat := 0
  elog : List (Nat × LogEntry) := []
  /-- host-riser entries 0-3 (R298) -/
  hriser : Vector Dword 4 := Vector.replicate 4 0
  /-- the pseudo-channel controller's registers (R34) -/
  pcTrained : Bool := false
  pcPowered : Bool := false
  scrubPtr : Nat := 0
  ueCount : Nat := 0
  /-- the core's translations, most recent first (R287) -/
  tlb : List TlbEntry := []
  /-- engine commands, by serial, whose walk for a page (va / 4096) found a page fault (R219, R230) -/
  engineFaults : List (Nat × Nat) := []
  /-- general threads stop at their boundaries and no inbox message starts a handler: a suspension or a close (R66,
  R277) -/
  halted : Bool := false
  /-- no engine command starts any more: from step 4 of a suspension or a close (R66, R222) -/
  sealed : Bool := false
  /-- an uncorrectable word of machine RAM awaits the firmware's disposition (R273, R276) -/
  ramBad : Bool := false
  /-- transient counts of the known-answer tests, by class (R309), the tick of the last test, and of the last cycle in an
  open partition -/
  transient : List (Nat × Nat) := []
  tested : Nat := 0
  partTick : Nat := 0
  /-- MarginScreen is owed to the core once its partition closes or suspends (R313) -/
  unscreened : Bool := false
  /-- the responder that slot 0 runs in a lattice boot (R334) -/
  lattice : Option Responder := none
  /-- the first tick since which the core has been quiet (R67, R68) -/
  busyTick : Nat := 0
  deriving DecidableEq, Repr

/-- The cursor: the thread whose instruction executes, and the word fetched for it. -/
structure Cursor where
  tile : Nat := 0
  slot : Fin 8 := 0
  word : Word := 0
  deriving DecidableEq, Repr

/-- An island's registers (R312) and what the firmware and the arbiter keep with them (R313, R314, R325, R326). -/
structure Island where
  pstate : Nat := 0
  temp : Nat := 0
  guard : Nat := 0
  margin : Nat := 0
  vdd : Nat := 0
  freq : Nat := 250
  ceCount : Nat := 0
  eolDays : Nat := 0xFFFFFFFF
  worn : Bool := false
  share : Nat := 0
  /-- the margins of the last 1,000 samples, latest first (R313) -/
  margins : List Nat := []
  /-- the guard history: the daily GUARD values, latest first, in the service flash (R312, R314) -/
  daily : List Nat := []
  /-- compute may begin in this many of every 16 cycles (R326) -/
  throttle : Nat := 16
  /-- the tick at which a wake completes (R324) -/
  waking : Option Nat := none
  deriving DecidableEq, Repr

/-- A partition as the firmware knows it (R60-R62, R68, R277, R292): the effective fields of its RCB. -/
structure Part where
  pid : Nat := 0
  /-- address of its RCB, and of its parent's (0 for none) -/
  rcb : Nat := 0
  parent : Nat := 0
  /-- 1 open, 2 suspended, 3 closing -/
  state : Nat := 1
  orgY : Nat := 0
  orgX : Nat := 0
  height : Nat := 0
  width : Nat := 0
  jobid : Nat := 0
  fdom : Nat := 0
  gslots : Nat := 0
  /-- the export index, with EXPORT = 1 (R292) -/
  eidx : Option Nat := none
  prio : Nat := 0
  power : Nat := 0
  inheritsPower : Bool := false
  caps : Nat := 0
  ptroot : Nat := 0
  asid : Nat := 0
  save : Nat := 0
  stallto : Nat := 0
  hostlat : Nat := 0
  report : Nat := 0
  image : Nat := 0
  /-- jmdeleg of every core (R292) -/
  deleg : Dword := 0
  jmodule : Dword := 0
  /-- jkcaps and jcodewin as the image's header gives them (R58, R116) -/
  kcaps : Nat := 0
  codewin : Dword := 0
  /-- the job module table of a fabric partition: fabric-wide numbers by job module; empty for none (R303) -/
  table : List Nat := []
  /-- t_open, the quiet samples in a row, and whether a stall stands declared (R68) -/
  opened : Nat := 0
  quietRun : Nat := 0
  declared : Bool := false
  /-- a declaration's notice is owed (R273) -/
  owesNotice : Bool := false
  /-- the first tick since which the partition has been quiet (R67) -/
  busy : Nat := 0
  /-- the tick at which step 1 of a suspension was taken (R279), and whether a mark was restarted (R280) -/
  stopping : Option Nat := none
  rolled : Bool := false
  deriving DecidableEq, Repr

/-- What a save area holds of a core that R280 gives no layout for: the engines and the matrix queue (R222, R247). -/
structure SavedCore where
  y : Nat := 0
  x : Nat := 0
  chans : Vector Channel 4 := Vector.replicate 4 {}
  ladle : Ladle := {}
  mqueue : List MEntry := []
  jcodewin : Dword := 0
  /-- rounds that have not delivered and that a PLAN of this core has failed (R222, R227) -/
  failed : List Round := []
  /-- the slots' occupant numbers, traps owed to firmware and UNCHK flags; and the number of inbox messages saved -/
  epochs : List Nat := []
  traps : List (Option (Nat × Nat)) := []
  unchk : List Bool := []
  inbox : Nat := 0
  deriving DecidableEq, Repr

/-- A package's mailbox and window registers (R291, R292). -/
structure Mail where
  /-- offset 0x0000 as the host reads it, and OP and SEQ as submitted -/
  reg : Dword := 0
  req : Dword := 0
  done : Bool := true
  seq : Nat := 0
  result : Nat := 0
  data0 : Dword := 0
  hdrop : Nat := 0
  nhead : Nat := 0
  /-- the PID that a CLOSE or SUSPEND still in service names -/
  serving : Option Nat := none
  deriving DecidableEq, Repr

/-- What a package's management block and fuses hold (R307, R310, R315). -/
structure Package where
  power : Nat := 0
  share : Nat := 0
  /-- the deconfiguration list, oldest first, at most 1,023 -/
  deconf : List Dword := []
  /-- cores whose deconfiguration found the list full (R316) -/
  retired : List Nat := []
  /-- fence-log entries by number mod 256, and the count written -/
  fenceLog : List (Nat × (Dword × Dword)) := []
  fenceHead : Nat := 0
  mail : Mail := {}
  /-- the address translation cache: PASID, page, host page, and whether writes are granted (R301) -/
  atc : List (Nat × Nat × Nat × Bool) := []
  /-- page requests on their way (PASID and page), and invalidations that wait for steps (PASID, first page, pages; R301) -/
  paged : List (Nat × Nat) := []
  purges : List (Nat × Nat × Nat) := []
  deriving DecidableEq, Repr

/-- A flit's sequence number and the messages of its payload (R302). -/
abbrev Flit := FlitHeader × List Packet

/-- The receiving and sending side of one fabric port (R302, R305). -/
structure Link where
  /-- sequence number of the next flit accepted, and the refusals since the last one accepted -/
  expect : Nat := 0
  replays : Nat := 0
  /-- sequence number of the next flit to be placed, the replay buffer of at most 1,024 flits not yet acknowledged, and
  the replays of the oldest of them -/
  next : Nat := 0
  buffer : List Flit := []
  resent : Nat := 0
  /-- the flow credits of the last flit accepted: how many unacknowledged flits the other end has room for (log 31) -/
  credits : Nat := 1024
  /-- flits placed on the link, replays among them, oldest first -/
  wire : List Flit := []
  /-- the tick at which the link failed, and the requests that then lost their path: tile and request entry -/
  failed : Option Nat := none
  lost : List (Nat × Nat) := []
  deriving DecidableEq, Repr

/-- One entry of a gateway's receive table (R176): source module, core and slot, and the stores performed. -/
structure Receive where
  gateway : Nat := 0
  omod : Nat := 0
  lidx : Nat := 0
  slot : Nat := 0
  job : Nat := 0
  count : Nat := 0
  deriving DecidableEq, Repr

/-- The states of R320. -/
inductive CryoState where
  | warmOff | warmService | precool | cooldown | soak | calibrate | coldReady | excursion | warmup
  deriving DecidableEq, Repr

/-- The cryogenic state machine (R317, R320, R321). -/
structure Cryo where
  st : CryoState := .warmOff
  band : Nat := 3
  rampViol : Bool := false
  hbmKept : Bool := false
  /-- ticks at which SOAK ends, PRECOOL began, TMAX fell 2 K below the boundary of band B, C and D, and band A was
  entered -/
  soakEnd : Nat := 0
  soakLen : Nat := 0
  precoolAt : Nat := 0
  lowB : Option Nat := none
  lowC : Option Nat := none
  lowD : Option Nat := none
  bandASince : Nat := 0
  /-- CRYO COOL, WARM and RECAL accepted, which wait for the sample that takes them; RECAL with what the hardware answers in
  CALIBRATE -/
  cool : Bool := false
  warm : Bool := false
  recal : Option Calibration := none
  last : Sensors := { tmax := 0, hbm := 0, tbath := 0, carrierMin := 0, carrierMax := 0 }
  /-- the carrier sensor at the samples of the last 60 s, latest first (R307, R320) -/
  carrier : List Nat := []
  /-- compute islands are off and management runs alone, at 250 MHz (R317, R320) -/
  managed : Bool := true
  deriving DecidableEq, Repr

/-- A completion that the host port returns: 0 success, 1 Unsupported Request, 2 Completer Abort (R294). -/
structure HostReply where
  pkg : Nat := 0
  off : Nat := 0
  status : Nat := 0
  data : List Byte := []
  /-- the poisoned-TLP bit -/
  poisoned : Bool := false
  deriving DecidableEq, Repr

/-- The ordering codes (R1). -/
inductive OrderingCode where
  | lk1024n | lk64q
  deriving DecidableEq, Repr

structure State where
  code : OrderingCode := .lk64q
  /-- the timer count, in 0.8 ns ticks (R8, R318) -/
  tick : Nat := 0
  tiles : List (Nat × Tile) := []
  mem : List Host.Cell := []
  /-- words marked uncorrectable, by key / 8, ascending (R274) -/
  marks : List Nat := []
  /-- numbers given to packets, commands and records -/
  nextId : Nat := 0
  /-- the model's own counter of free values drawn (log 3) -/
  free : Nat := 0
  cur : Cursor := {}
  /-- an instruction word waits at the cursor -/
  latch : Bool := false
  /-- events still to happen in this tick -/
  agenda : List Instr := []
  net : List Packet := []
  /-- the map generation and the widths w_c of this boot (R20, R24) -/
  gen : Nat := 0
  widths : List Nat := []
  /-- the enabled tiles of the last map built, with its widths, which GEN compares (R24) -/
  lastMap : List Nat × List Nat := ([], [])
  islands : List (Nat × Island) := []
  /-- router sides that lead to no trained link: tile and direction (R144) -/
  deadLinks : List (Nat × Nat) := []
  spawns : List SpawnRec := []
  rounds : List Round := []
  walks : List Walk := []
  /-- the second-level TLB of each die, most recent first (R287) -/
  dieTlb : List (Nat × List TlbEntry) := []
  /-- messages for other modules that wait to be placed on a link, oldest first (R174, R302) -/
  fabricOut : List Packet := []
  /-- requests to pooled memory, on their way (R300) -/
  uio : List Packet := []
  /-- completions returned to hosts, oldest first (R294) -/
  hostOut : List HostReply := []
  packs : List (Nat × Package) := []
  parts : List Part := []
  saves : List (Nat × List SavedCore) := []
  links : List (Nat × Link) := []
  routes : List (Nat × List Nat) := []
  receive : List Receive := []
  /-- sources whose stores a full receive table did not count (R176) -/
  uncounted : List Receive := []
  cryo : Cryo := {}
  modBudget : Nat := 14000000
  /-- the factor in tenths, to the power of the times applied, on every package's share (R327) -/
  scale : Nat := 0
  /-- the SVN fuses, and the service flash's image and the running one (R328, R331) -/
  fuseSvn : Nat := 0
  flash : List Byte := []
  image : List Byte := []
  /-- the boot ROM alone serves package 0's window (R328) -/
  bootRom : Bool := false
  /-- the single firmware image serves traps, events and the mailbox (R273) -/
  fwResident : Bool := false
  /-- TESTSTRAP was asserted at power-on (R333) -/
  strap : Bool := false
  nextPid : Nat := 1
  /-- INVAL requests being served: package, ASID, first page, pages (R288) -/
  invals : List (Nat × Nat × Nat × Nat) := []
  /-- MSI-X messages sent to the host: package and vector, oldest first (R298) -/
  msix : List (Nat × Nat) := []
  deriving DecidableEq, Repr

/-- The machine stops. -/
inductive Fault where
  /-- Raised by every event that names a tile outside the module frame (R17): there is no such unit. Safe: the
  hardware has no such event. -/
  | noSuchTile
  deriving DecidableEq, Repr

/-- An instruction has no meaning. -/
inductive Refusal where
  /-- Raised by an arm of exec that has no meaning yet. Safe: nothing is claimed of it. -/
  | notModelled (mnemonic : String)
  deriving DecidableEq, Repr

/-- The machine right after reset. -/
def State.reset : State := {}

end Sys2Proof.Machine
end

