-- ==== Sys2Proof/Machine/Ops.lean ====
section
/-!
DEFINITION. The named operations over the state: reading and writing tiles, threads and registers; memory; the
module's geometry; the write step at a tile's port with everything a write sets off there (R154, R200, R213, R242,
R135); retiring and blocking the thread at the cursor; the error log; taking a trap (R266) and returning from one
(R140).
-/
namespace Sys2Proof.Machine

abbrev Outcome := Host.Outcome State Fault Refusal

/-! ### Tiles and threads -/

def State.tile (s : State) (t : Nat) : Tile := Assoc.get {} s.tiles t
def State.setTile (s : State) (t : Nat) (x : Tile) : State := { s with tiles := Assoc.put t x s.tiles }
def State.modTile (s : State) (t : Nat) (f : Tile → Tile) : State := s.setTile t (f (s.tile t))

def Tile.th (x : Tile) (i : Fin 8) : Thread := x.threads[i]
def Tile.setTh (x : Tile) (i : Fin 8) (h : Thread) : Tile := { x with threads := x.threads.set i h }
def Tile.modTh (x : Tile) (i : Fin 8) (f : Thread → Thread) : Tile := x.setTh i (f (x.th i))
/-- A slot number as an index; numbers above 7 do not arise. -/
def slotIx (n : Nat) : Fin 8 := ⟨n % 8, Nat.mod_lt n (by decide)⟩

def State.th (s : State) (t : Nat) (i : Fin 8) : Thread := (s.tile t).th i
def State.modTh (s : State) (t : Nat) (i : Fin 8) (f : Thread → Thread) : State := s.modTile t (·.modTh i f)
/-- Every thread of a tile. -/
def Tile.mapTh (x : Tile) (f : Thread → Thread) : Tile := { x with threads := mapV x.threads f }

/-- The thread whose instruction executes, and its tile. -/
def State.me (s : State) : Thread := s.th s.cur.tile s.cur.slot
def State.here (s : State) : Tile := s.tile s.cur.tile
def State.modMe (s : State) (f : Thread → Thread) : State := s.modTh s.cur.tile s.cur.slot f
def State.modHere (s : State) (f : Tile → Tile) : State := s.modTile s.cur.tile f

/-! ### Registers (R94, R95) -/

/-- x0 reads as 0. -/
def Thread.rx (h : Thread) (r : Reg) : Dword := if r = 0 then 0 else h.x[r.toNat]'r.isLt
/-- A write to x0 is discarded. -/
def Thread.wx (h : Thread) (r : Reg) (v : Dword) : Thread := if r = 0 then h else { h with x := h.x.set r.toNat v r.isLt }
def Thread.rv (h : Thread) (r : VReg) : Vec := h.v[r.toNat]'r.isLt
def Thread.wv (h : Thread) (r : VReg) (v : Vec) : Thread := { h with v := h.v.set r.toNat v r.isLt }

/-- x[r] of the thread at the cursor, as a word and as a number. -/
def State.rx (s : State) (r : Reg) : Dword := s.me.rx r
def State.wx (s : State) (r : Reg) (v : Dword) : State := s.modMe (·.wx r v)
def State.rv (s : State) (r : VReg) : Vec := s.me.rv r
def State.wv (s : State) (r : VReg) (v : Vec) : State := s.modMe (·.wv r v)

/-- Places the low len bits of x at [lo+len-1:lo]. -/
def putBits (v : Dword) (lo len x : Nat) : Dword :=
  BitVec.ofNat 64 (v.toNat - bits v lo len * 2 ^ lo + x % 2 ^ len * 2 ^ lo)
/-- x as bits [lo+len-1:lo] of a word otherwise 0. -/
def field (lo len x : Nat) : Nat := x % 2 ^ len * 2 ^ lo

/-! ### Time and numbers -/

/-- The module time-stamp counter, 1 GHz, from the 0.8 ns ticks (R8, R201). -/
def State.tsc (s : State) : Nat := s.tick * 4 / 5
/-- A fresh number for a packet, command or record. -/
def State.fresh (s : State) : Nat × State := (s.nextId, { s with nextId := s.nextId + 1 })
/-- A free value (log 3), and the state that has drawn it. -/
def State.draw (s : State) : Nat × State := (Config.freeNat s.free, { s with free := s.free + 1 })

/-! ### Geometry (R13-R27) -/

/-- Rows and columns of the module frame (R17). -/
def State.side (s : State) : Nat :=
  match s.code with
  | .lk1024n => 1024
  | .lk64q => 256
/-- Die columns (R20) and packages (R13). -/
def State.dieCols (s : State) : Nat := s.side / 128
def State.packages (s : State) : Nat :=
  match s.code with
  | .lk1024n => 16
  | .lk64q => 1
/-- D of R40. -/
def State.dBits (s : State) : Nat :=
  match s.code with
  | .lk1024n => 6
  | .lk64q => 2
/-- First HBM physical address past the end: 2^(37+D) (R40). -/
def State.hbmEnd (s : State) : Nat := 2 ^ (37 + s.dBits)

def tileOf (py px : Nat) : Nat := py * 1024 + px
def pyOf (t : Nat) : Nat := t / 1024
def pxOf (t : Nat) : Nat := t % 1024
def State.inFrame (s : State) (t : Nat) : Bool := pyOf t < s.side && pxOf t < s.side
/-- An event at a tile of the frame (R17). -/
def onTile (s : State) (t : Nat) (k : Outcome) : Outcome := if s.inFrame t then k else .fault .noSuchTile

def pkgOf (t : Nat) : Nat := 4 * (pyOf t / 256) + pxOf t / 256
def dieOf (t : Nat) : Nat := 2 * (pyOf t / 128 % 2) + pxOf t / 128 % 2
/-- The rotation code of a die (R15). -/
def rotOf (d : Nat) : Nat :=
  match d with
  | 0 => 2
  | 1 => 3
  | 2 => 1
  | _ => 0
/-- Die-frame coordinates (dx, dy) of a tile, the inverse of R15's transform. -/
def dieXY (t : Nat) : Nat × Nat :=
  let lx := pxOf t % 128
  let ly := pyOf t % 128
  match dieOf t with
  | 0 => (127 - lx, 127 - ly)
  | 1 => (127 - ly, lx)
  | 2 => (ly, 127 - lx)
  | _ => (lx, ly)
def globalDie (t : Nat) : Nat := 4 * pkgOf t + dieOf t
/-- The tile at die-frame (dx, dy) of a global die (R15, R17). -/
def tileAt (g dx dy : Nat) : Nat :=
  let p := g / 4
  let d := g % 4
  let l : Nat × Nat :=
    match d with
    | 0 => (127 - dx, 127 - dy)
    | 1 => (dy, 127 - dx)
    | 2 => (127 - dy, dx)
    | _ => (dx, dy)
  tileOf (256 * (p / 4) + 128 * (d / 2) + l.2) (256 * (p % 4) + 128 * (d % 2) + l.1)
/-- The module island number (R27). -/
def islandOf (t : Nat) : Nat := 64 * globalDie t + (dieXY t).2 / 16 * 8 + (dieXY t).1 / 16
/-- The router tile of a global pseudo-channel (R39), and the pseudo-channel of a tile with dx = 127. -/
def chanTile (g : Nat) : Nat := tileAt (g / 128) 127 (g % 128)
def tileChan (t : Nat) : Option Nat := if (dieXY t).1 = 127 then some (128 * globalDie t + (dieXY t).2) else none

/-- The tile whose router serves a fabric port: row 127 of die 1 or die 2 of its package (R14, R16). -/
def gatewayTile (port : Nat) : Nat :=
  tileAt (4 * (port / 4) + (if port % 4 < 2 then 1 else 2)) (Config.gatewayColumn port % 128) 127
/-- The tiles whose routers serve a package's host port, on row 127 of its die 0 (R14, R16), and its management block. -/
def hostTile (pkg : Nat) : Nat := tileAt (4 * pkg) (Config.hostColumn pkg % 128) 127
def mgmtTile (pkg : Nat) : Nat :=
  let n := Config.mgmtSite pkg
  tileAt (4 * pkg + n / 16384 % 4) (n % 128) (n / 128 % 128)

/-- TSTATE and BOUND of a router (R146). -/
def Tile.tstate (x : Tile) : Nat := bits x.router 0 2
def Tile.bound (x : Tile) : Nat := bits x.router 20 10
def Tile.enabled (x : Tile) : Bool := x.tstate == 1
/-- Logical core index (R22): Concat(GY, GX). -/
def Tile.lidx (x : Tile) : Nat := x.core.gy * 1024 + x.core.gx
/-- The cluster index of a core (R27). -/
def Tile.cluster (x : Tile) : Nat := x.core.gy % 4 * 4 + x.core.gx % 4
/-- The enabled tile of a row whose BOUND is the logical column (R28). -/
def findCore (row col : Nat) : List (Nat × Tile) → Option Nat
  | [] => none
  | (t, x) :: r => if pyOf t = row ∧ x.enabled ∧ x.bound = col then some t else findCore row col r
def State.core (s : State) (gy gx : Nat) : Option Nat := findCore gy gx s.tiles

/-! ### Memory (R7, R31, R34, R39): one sparse byte store; an unlisted byte reads as 0 (log 1) -/

def tileKey (t off : Nat) : Nat := t * 2 ^ 20 + off
def hbmKey (chan a : Nat) : Nat := 2 ^ 44 + chan * 2 ^ 30 + a
def hostKey (a : Nat) : Nat := 2 ^ 65 + a
def pooledKey (a : Nat) : Nat := 2 ^ 66 + a
/-- The management window of a package (R290, R291). -/
def windowKey (pkg off : Nat) : Nat := 2 ^ 62 + pkg * 2 ^ 20 + off

/-- What a byte that nothing has written reads as (log 1). -/
def unlisted : Byte := 0
def Memory.get (m : List Host.Cell) (k : Nat) : Byte := Assoc.get unlisted m k
/-- One byte written; a byte equal to what an unlisted address reads as is not listed. -/
def Memory.set (m : List Host.Cell) (k : Nat) (b : Byte) : List Host.Cell :=
  if b = unlisted then Assoc.del k m else Assoc.put k b m
/-- The canonical form: rising addresses, no entry equal to the unlisted byte. -/
def Memory.wf (m : List Host.Cell) : Bool := Assoc.rising m && m.all (fun c => c.2 != unlisted)
def Memory.read (m : List Host.Cell) (k : Nat) : Nat → List Byte
  | 0 => []
  | n + 1 => Memory.get m k :: Memory.read m (k + 1) n
def Memory.write (m : List Host.Cell) (k : Nat) : List Byte → List Host.Cell
  | [] => m
  | b :: bs => Memory.write (Memory.set m k b) (k + 1) bs

def State.byte (s : State) (k : Nat) : Byte := Memory.get s.mem k
def State.readN (s : State) (k n : Nat) : Nat := leVal (Memory.read s.mem k n)
def State.readD (s : State) (k : Nat) : Dword := BitVec.ofNat 64 (s.readN k 8)

/-- The marks (R274): word numbers, ascending. -/
def insertNat (a : Nat) : List Nat → List Nat
  | [] => [a]
  | b :: r => if a = b then b :: r else if a < b then a :: b :: r else b :: insertNat a r
def removeNat (a : Nat) : List Nat → List Nat
  | [] => []
  | b :: r => if a = b then removeNat a r else b :: removeNat a r
def State.marked (s : State) (k : Nat) : Bool := memNat (k / 8) s.marks
/-- Whether any word that the bytes k … k+n-1 touch is marked. -/
def State.markedIn (s : State) (k : Nat) : Nat → Bool
  | 0 => false
  | n + 1 => s.marked (k + n) || s.markedIn k n
def State.markWord (s : State) (k : Nat) : State := { s with marks := insertNat (k / 8) s.marks }
/-- The words that n bytes from k cover whole lose their marks (R275). -/
def clearMarks (ms : List Nat) (k n : Nat) : List Nat := ms.filter fun w => !(decide (k ≤ 8 * w) && decide (8 * w + 8 ≤ k + n))

/-- Bytes written, and the marks of words written whole cleared. -/
def State.writeB (s : State) (k : Nat) (bs : List Byte) : State :=
  { s with mem := Memory.write s.mem k bs, marks := clearMarks s.marks k bs.length }
def State.writeN (s : State) (k n v : Nat) : State := s.writeB k (leBytes n v)

/-- First TOFF of machine RAM (R34). -/
def mramBase : Nat := 0x80000

/-! ### Partition and code-window fields (R37, R62) -/

def CoreRegs.orgY (c : CoreRegs) : Nat := bits c.jmpart0 50 10
def CoreRegs.orgX (c : CoreRegs) : Nat := bits c.jmpart0 40 10
def CoreRegs.height (c : CoreRegs) : Nat := bits c.jmpart0 11 11
def CoreRegs.width (c : CoreRegs) : Nat := bits c.jmpart0 0 11
def CoreRegs.pid (c : CoreRegs) : Nat := bits c.jmpart1 48 16
def CoreRegs.gslots (c : CoreRegs) : Nat := bits c.jmpart1 12 3
def CoreRegs.hold (c : CoreRegs) : Bool := bitAt c.jmpart1 4
def CoreRegs.pcap (c : CoreRegs) : Nat := bits c.jmpart1 0 2
def CoreRegs.jmod (c : CoreRegs) : Nat := bits c.jmodule 0 12
def CoreRegs.jmods (c : CoreRegs) : Nat := bits c.jmodule 16 12
/-- Y and X of jcore: relative to the partition origin, 0 in no partition (R25). -/
def CoreRegs.relY (c : CoreRegs) : Nat := if c.width = 0 then 0 else c.gy - c.orgY
def CoreRegs.relX (c : CoreRegs) : Nat := if c.width = 0 then 0 else c.gx - c.orgX
/-- First and one-past-last offset of the code window (R37). -/
def CoreRegs.winLo (c : CoreRegs) : Nat := bits c.jcodewin 0 7 * 4096
def CoreRegs.winHi (c : CoreRegs) : Nat := (bits c.jcodewin 0 7 + bits c.jcodewin 32 8) * 4096
def CoreRegs.wp (c : CoreRegs) : Bool := bitAt c.jcodewin 63
/-- The core registers that an arrival at the port goes by: a CSR write takes effect there after the cycle in which it
retires (R37, R62). -/
def Tile.portCore (x : Tile) : CoreRegs := x.was.getD x.core
/-- A thread's effective priority (R47). -/
def Tile.eprio (x : Tile) (h : Thread) : Nat := min h.prio x.core.pcap

/-! ### The port's write step -/

/-- Riser-word fields (R151). -/
def riserCount (w : Dword) : Nat := bits w 0 40
def riserBad (w : Dword) : Bool := bitAt w 63
def riserClass (w : Dword) : Nat := bits w 60 3
def riserSrc (w : Dword) : Nat := bits w 40 20
/-- COUNT advanced modulo 2^40, the other fields kept (R151). -/
def riserAdd (w : Dword) (n : Nat) : Dword := putBits w 0 40 (riserCount w + n)
/-- Poison(riser, class, source): COUNT kept (R274). -/
def riserPoison (w : Dword) (cls src : Nat) : Dword :=
  BitVec.ofNat 64 (field 63 1 1 + field 60 3 cls + field 40 20 src + riserCount w)

/-- The evaluation of a wait on a riser word: the result it returns, if it returns (R154). -/
def waitResult (w : Dword) (tgt : Nat) (expired : Bool) : Option Dword :=
  if riserBad w then some (BitVec.ofNat 64 (field 12 20 (riserSrc w) + field 8 3 (riserClass w) + 1))
  else if tgt ≤ riserCount w then some 0
  else if expired then some 2
  else none

/-- How a write step enters the trace ring (R200), and whose write it is (R135). -/
structure Writer where
  kind : Nat
  org : Origin
  logged : Bool
  lsize : Nat
  deriving DecidableEq, Repr

/-- Whether n bytes from off meet the aligned 8-byte word at w. -/
def touches (off n w : Nat) : Bool := decide (off < w + 8) && decide (w < off + n)

/-- The cycle in which the thread's last hold ended, were its present one to end now (R136). -/
def Thread.holdEnded (h : Thread) (cycle : Nat) : Option Nat :=
  match h.holdEnd with
  | some e => some (min e cycle)
  | none => h.lastHold
/-- The reservation is cleared, and its hold ends (R135, R136). -/
def Thread.clearResv (h : Thread) (cycle : Nat) : Thread :=
  { h with
    resv := none
    lastHold := h.holdEnded cycle
    holdEnd := none }

/-- The thread at the cursor's slot is the writer itself. -/
def Writer.own (w : Writer) (t i : Nat) (h : Thread) : Bool :=
  w.org.party == .thread && !w.org.fab && w.org.tile == t && w.org.slot == i && w.org.epoch == h.epoch

/-- A sleeping wait that no evaluation of an earlier cycle has ended: a cycle's last write decides (R154). -/
def Thread.undecided (h : Thread) (cycle : Nat) : Bool :=
  match h.woken with
  | some (_, c) => c == cycle + 2
  | none => true

/-- What a write to n bytes at off means for one thread of the tile: its reservation, and its sleeping wait. -/
def threadSees (s : State) (t cycle : Nat) (w : Writer) (off n i : Nat) (h : Thread) : Thread :=
  let h :=
    match h.resv with
    | some r => if touches off n r.granule && !w.own t i h then h.clearResv cycle else h
    | none => h
  match h.sleep with
  | some (.riser a tgt exp _) =>
    if touches off n a ∧ h.undecided cycle then
      let expired := match exp with
        | some e => decide (e ≤ s.tick)
        | none => false
      { h with woken := (waitResult (s.readD (tileKey t a)) tgt expired).map fun v => (v, cycle + 2) }
    else h
  | _ => h

/-- The gate test of copy and ladle commands (R213): 1 reached, 2 poisoned, 0 neither. -/
def gateTest (w : Dword) (gtgt : Nat) : Nat :=
  if riserBad w then 2 else if (bits w 0 16 + 65536 - gtgt) % 65536 < 32768 then 1 else 0
/-- GRISER's offset and GTGT of a command word 0 (R210, R223). -/
def gateOff (w0 : Dword) : Nat := 64 * bits w0 45 13
def gateTgt (w0 : Dword) : Nat := bits w0 29 16

/-- The held page of a channel waits for the host: a translation or a page request is out (R221, R301). -/
def poolBlocked (s : State) (t : Nat) (c : Channel) : Bool :=
  c.ask.isSome ||
    match c.stall with
    | some (_, page) => (Assoc.get {} s.packs (pkgOf t)).paged.any (· == ((s.tile t).core.asid, page))
    | none => false

/-- OP of a copy command's word 0 (R210). -/
def CopyCmd.opc4 (w0 : Dword) : Nat := bits w0 60 4

/-- Nothing but its gate holds back the command at a channel's head: fewer than four are started, no page fault holds
the channel, and no other multicast is started before a multicast (R205, R218, R221). -/
def Channel.mayStart (c : Channel) (s : State) (t : Nat) (h : CopyCmd) : Bool :=
  decide (c.started.length < 4) && !poolBlocked s t c && !(s.tile t).sealed
    && !(CopyCmd.opc4 h.w0 == 5 && c.started.any fun r => CopyCmd.opc4 r.cmd.w0 == 5)

/-- A channel's head meets a write: the latest evaluation decides, but a gate found reached while the head could
start has started it (R213, log 20). -/
def Channel.sees (c : Channel) (s : State) (t off n : Nat) : Channel :=
  match c.fifo with
  | [] => c
  | h :: _ =>
    let g := gateOff h.w0
    if g ≠ 0 ∧ touches off n g ∧ c.gate ≠ 2 ∧ ¬(c.gate = 1 ∧ c.mayStart s t h) then
      { c with gate := gateTest (s.readD (tileKey t g)) (gateTgt h.w0) }
    else c

def LadleCmd.sees (c : LadleCmd) (s : State) (t off n : Nat) : LadleCmd :=
  let g := gateOff c.w0
  if g ≠ 0 ∧ touches off n g ∧ c.gate = 0 ∧ c.watching then
    { c with gate := gateTest (s.readD (tileKey t g)) (gateTgt c.w0) }
  else c

/-- A gated matrix entry in its gate stage queues one evaluation of the word as the write left it (R242). -/
def MEntry.sees (e : MEntry) (s : State) (t off n : Nat) : MEntry :=
  if e.stage = .gate ∧ e.gated ∧ touches off n e.gateOff then
    { e with evals := e.evals ++ [s.readD (tileKey t e.gateOff)] }
  else e

/-- Threads held in UNIT by another thread's reservation issue again once no hold is in force (R136). -/
def Tile.wakeHold (x : Tile) : Tile :=
  x.mapTh fun h => if h.need = .hold then { h with st := .ready, need := .none } else h

/-- Everything that n bytes written at offset off of a tile's own storage set off at its port. -/
def Tile.sees (x : Tile) (s : State) (t : Nat) (w : Writer) (off n : Nat) : Tile :=
  let x := { x with threads := x.threads.mapFinIdx fun i h _ => threadSees s t x.cycle w off n i h }
  { x.wakeHold with
    chans := mapV x.chans (·.sees s t off n)
    ladle := { x.ladle with queue := x.ladle.queue.map (·.sees s t off n) }
    matrix := { x.matrix with queue := x.matrix.queue.map (·.sees s t off n) } }

/-- The trace ring's entry for a write step (R200). -/
def State.trace (s : State) (t : Nat) (w : Writer) (off : Nat) : State :=
  let x := s.tile t
  if w.logged ∧ bitAt x.core.jmtrace 63 ∧ off < mramBase then
    let size := min 10 (max 4 (bits x.core.jmtrace 16 4))
    let len := 2 ^ size * 16
    let base := bits x.core.jmtrace 4 11 * 16 / len * len
    let at0 := tileKey t (mramBase + (base + 16 * (x.core.jmtrhead.toNat % 2 ^ size)) % 0x8000)
    let word := field 60 4 w.kind + field 40 20 w.org.lidx + field 39 1 (b2n w.org.fab) + field 36 3 w.org.slot
      + field 32 4 w.lsize + field 0 19 off
    let s := (s.writeN at0 8 s.tsc).writeN (at0 + 8) 8 word
    s.modTile t fun x => { x with core := { x.core with jmtrhead := x.core.jmtrhead + 1 } }
  else s

/-- The mask bit of an MSI-X vector, and the key of the byte that holds its pending bit (R291). -/
def State.msixMasked (s : State) (pkg v : Nat) : Bool := s.readN (windowKey pkg (0x10000 + 16 * v + 12)) 4 % 2 == 1
def pendingKey (pkg v : Nat) : Nat := windowKey pkg (0x18000 + v / 8)
/-- An MSI-X message of a package's function: a masked vector sets its pending bit instead (R291, R298). -/
def State.sendMsix (s : State) (pkg v : Nat) : State :=
  if s.msixMasked pkg v then
    s.writeN (pendingKey pkg v) 1 ((s.byte (pendingKey pkg v) ||| BitVec.ofNat 8 (2 ^ (v % 8))).toNat)
  else { s with msix := s.msix ++ [(pkg, v)] }
/-- A vector that is pending and no longer masked: its message is sent and its pending bit cleared, as PCIe defines
(R291). -/
def State.sendPending (s : State) (pkg v : Nat) : State :=
  let b := s.byte (pendingKey pkg v)
  if s.msixMasked pkg v ∨ !b.getLsbD (v % 8) then s
  else (s.writeN (pendingKey pkg v) 1 (b &&& ~~~BitVec.ofNat 8 (2 ^ (v % 8))).toNat).sendMsix pkg v

/-- The messages of the host-riser entries whose word a step has written: one each (R298). -/
def State.hostRisers (s : State) (t : Nat) (pieces : List (Nat × List Byte)) : State :=
  (s.tile t).hriser.toList.foldl
    (fun s e =>
      if bitAt e 63 ∧ pieces.any (fun p => touches p.1 p.2.length (8 * bits e 0 16)) then
        s.sendMsix (pkgOf t) (bits e 32 11)
      else s) s

/-- One indivisible write step at a tile's port (R182, R184): the pieces, lowest offset first named, each a TOFF and
its bytes, land together; then everything they set off is evaluated on what the port holds after them. -/
def State.stepWrite (s : State) (t : Nat) (pieces : List (Nat × List Byte)) (w : Writer) (logOff : Nat) : State :=
  let s := pieces.foldl (fun s p => s.writeB (tileKey t p.1) p.2) s
  let s := pieces.foldl (fun s p => s.modTile t fun x => x.sees s t w p.1 p.2.length) s
  (s.trace t w logOff).hostRisers t pieces

/-- Whether a reservation of another party holds any of the n bytes at off (R136). -/
def Tile.held (x : Tile) (t : Nat) (w : Writer) (off n : Nat) : Bool :=
  (x.threads.toList.zipIdx).any fun p =>
    match p.1.resv, p.1.holdEnd with
    | some r, some e => touches off n r.granule && decide (x.cycle < e) && !w.own t p.2 p.1
    | _, _ => false

/-- The command, entry or packet of a delayed write is still there, and has not failed. -/
def State.waiterLive (s : State) : Waiter → Bool
  | .packet id => s.net.any (·.id == id)
  | .copyPiece t k _ => (s.tile t).chans.toList.any fun c => c.started.any fun r => r.cmd.serial == k && r.bad.isNone
  | .copyStep t k _ | .copyEnd t k =>
    (s.tile t).chans.toList.any fun c => c.started.any (·.cmd.serial == k) || c.fifo.any (·.serial == k)
  | .ladlePiece t k _ _ | .ladleRiser t k _ => (s.tile t).ladle.queue.any fun c => c.serial == k && c.bad.isNone
  | .ladleEnd t k => (s.tile t).ladle.queue.any (·.serial == k)
  | .matrixStep t k _ => (s.tile t).matrix.queue.any (·.serial == k)
  | .lattice t => (s.tile t).lattice.isSome

/-- Two lists of byte ranges meet in a granule. -/
def spansMeet (a b : List (Nat × Nat)) : Bool :=
  a.any fun p => b.any fun q => decide (p.1 / 8 * 8 < q.1 + q.2) && decide (q.1 / 8 * 8 < p.1 + p.2)

/-- A write of the given bytes waits at the port: another party's LR holds one of them, or a write that such a hold had
made wait before it names one of them (R136). -/
def State.portBlocked (s : State) (t : Nat) (who : Waiter) (w : Writer) (spans : List (Nat × Nat)) : Bool :=
  let x := s.tile t
  spans.any (fun b => x.held t w b.1 b.2)
    || (x.delayed.takeWhile (·.1 != who)).any fun d => s.waiterLive d.1 && spansMeet d.2 spans

/-- A write joins those that wait at a port. -/
def State.waitAt (s : State) (t : Nat) (who : Waiter) (spans : List (Nat × Nat)) : State :=
  s.modTile t fun x =>
    if x.delayed.any (·.1 == who) then x
    else { x with delayed := (x.delayed.filter fun d => s.waiterLive d.1) ++ [(who, spans)] }

/-- A write at a tile's port in its arrival order: performed, or left in s0 as one that waits (R136). -/
def State.atPort (s0 s : State) (t : Nat) (who : Waiter) (w : Writer) (spans : List (Nat × Nat)) (k : State → State) : State :=
  if s.portBlocked t who w spans then s0.waitAt t who spans
  else k (s.modTile t fun x => { x with delayed := x.delayed.filter (·.1 != who) })

/-! ### The error log (R272) -/

/-- Adds one entry and sets EVPEND.ERRLOG. -/
def State.logError (s : State) (t kind src : Nat) (fab : Bool) (slot reason : Nat) (addr info : Dword) : State :=
  let ts := s.tsc
  s.modTile t fun x =>
    { x with
      elog := Assoc.put (x.elhead % 16)
        { ts := ts
          w1 := BitVec.ofNat 64 (field 60 4 kind + field 40 20 src + field 39 1 (b2n fab) + field 36 3 slot
            + field 16 8 reason)
          addr := addr
          info := info } x.elog
      elhead := (x.elhead + 1) % 2 ^ 64
      evpend := x.evpend ||| 4 }

/-- The address of the lowest marked word among n bytes at key k, as an access through address a names it (R272, log
96). -/
def State.badWord (s : State) (a : Dword) (k n : Nat) : Dword :=
  match s.marks.find? fun w => touches k n (8 * w) with
  | some w => a - BitVec.ofNat 64 k + BitVec.ofNat 64 (8 * w)
  | none => a
/-- An uncorrectable word of a tile's machine RAM, found by an access of n bytes through address a, is logged and left to
the firmware (R272, R276). -/
def State.ramFound (s : State) (t : Nat) (a : Dword) (k n : Nat) : State :=
  (s.logError t 4 (s.tile t).lidx false 0 0 (s.badWord a k n) 0).modTile t fun x => { x with ramBad := true }

/-- Sets bits of EVPEND (R267). -/
def State.event (s : State) (t : Nat) (b : Dword) : State := s.modTile t fun x => { x with evpend := x.evpend ||| b }

/-! ### Issuing: retiring, blocking, trapping -/

/-- The cycle counts as an issue of the slot: WAIT and LastIssued (R47). -/
def State.noteIssue (s : State) : State :=
  s.modHere fun x =>
    let h := x.th s.cur.slot
    let x := x.setTh s.cur.slot { h with wait := 0, lastIssue := x.cycle }
    if s.cur.slot.val < 6 then
      match x.eprio h with
      | 0 => { x with last0 := s.cur.slot }
      | 1 => { x with last1 := s.cur.slot }
      | 2 => { x with last2 := s.cur.slot }
      | _ => { x with last3 := s.cur.slot }
    else x

/-- An instruction of the thread has retired and it goes on at pc: instret and a handler's budget count it
(R57, R97). -/
def Thread.finish (h : Thread) (pc : Dword) (handler : Bool) : Thread :=
  { h with
    pc := pc
    instret := h.instret + 1
    budget := if handler then h.budget - 1 else h.budget
    st := .ready
    need := .none }

/-- The instruction at the cursor retires and the thread goes on at pc. -/
def State.retireTo (s : State) (pc : Dword) : State :=
  (s.modMe (·.finish pc (decide (6 ≤ s.cur.slot.val)))).noteIssue

/-- The instruction at the cursor retires and the thread goes on at the next word. -/
def State.retire (s : State) : State := s.retireTo (s.me.pc + 4)

/-- The instruction does not issue: the thread leaves READY and issues it again when what it needs is there (R44). -/
def State.block (s : State) (st : SlotState) (n : Need) : State :=
  let ts := s.tsc
  s.modMe fun h => { h with st := st, need := n, sleepTs := ts }

/-- The slot is emptied: its next occupant is another thread (R46). What the ended thread still had at an engine's
hands goes on; its interval checks are kept apart until they are answered (R180). -/
def State.emptySlot (s : State) (t : Nat) (i : Fin 8) : State :=
  s.modTile t fun x =>
    let h := x.th i
    let x := x.setTh i { epoch := h.epoch + 1, lastIssue := h.lastIssue }
    { x with
      lateChecks := x.lateChecks ++ (h.checks.filter fun (c : Check) => c.answer.isNone).map fun c => (i.val, c) }.wakeHold

/-- Delegated(cause, epc, int) of R266, for the thread at the cursor. -/
def State.delegated (s : State) (cause : Nat) (epc : Dword) (int : Bool) : Bool :=
  let h := s.me
  !int && h.mode == .user && decide (s.cur.slot.val < 6) && bitAt s.here.core.jmdeleg cause
    && decide (8 ≤ bits h.jutvec 2 17) && !h.uhold && epc != BitVec.ofNat 64 (4 * bits h.jutvec 2 17)

/-- The four words of a fault record (R270). -/
def FaultRec.bytes (r : FaultRec) : List Byte :=
  leBytes 8 r.opc.toNat ++ leBytes 8 r.target.toNat
    ++ leBytes 8 (field 56 8 r.cause + field 40 8 r.reason + field 20 1 (b2n r.fab) + field 0 20 r.remote)
    ++ leBytes 8 r.ts

/-- The thread at the cursor as the source of a request or of a local access. -/
def State.meOrigin (s : State) : Origin :=
  { party := .thread
    tile := s.cur.tile
    slot := s.cur.slot
    epoch := s.me.epoch
    lidx := s.here.lidx
    pid := s.here.core.pid
    job := s.here.core.jobid
    fab := false
    omod := s.here.core.jmod
    machine := s.me.mode == .machine }

/-- A local store of the core's own unit. -/
def State.localWriter (s : State) (n : Nat) : Writer :=
  { kind := 0, org := s.meOrigin, logged := false, lsize := Nat.log2 n }

/-- M-mode trap entry: machine RAM at 4 * mtvec[14:2] (R266). -/
def mEntry (mtvec : Dword) : Dword := BitVec.ofNat 64 (5 * 2 ^ 60 + 4 * bits mtvec 2 13)

/-- mstatus fields (R98): MPP, MPIE, MIE; UXL always reads 2. -/
def mkStatus (mpp : Mode) (mpie mie : Bool) : Dword :=
  BitVec.ofNat 64 (2 ^ 33 + (if mpp = .machine then 3 * 2 ^ 11 else 0) + b2n mpie * 2 ^ 7 + b2n mie * 2 ^ 3)
def mppOf (v : Dword) : Mode := if bits v 11 2 = 0 then .user else .machine
/-- A write of MPP: 0b01 and 0b10 store 0b00 (R98). -/
def mppWritten (v : Dword) : Mode := if bits v 11 2 = 3 then .machine else .user
def mpieOf (v : Dword) : Bool := bitAt v 7
def mieOf (v : Dword) : Bool := bitAt v 3
def causeWord (cause : Nat) (int : Bool) : Dword := BitVec.ofNat 64 (b2n int * 2 ^ 63 + cause)

/-- The context after TakeTrap: to the thread's own handler when the cause is delegated, else to machine mode (R266).
A trap that leaves U-mode for firmware is noted for the firmware's disposition (R273). -/
def Thread.trapped (h : Thread) (deleg : Bool) (cycle cause : Nat) (epc val : Dword) (int : Bool) : Thread :=
  let h :=
    { h.clearResv cycle with
      st := .ready, need := .none, sleep := none, woken := none, awaits := none, vecAt := 0, vec := none, rcfg := none
      walkFault := none }
  if deleg then
    { h with
      jutepc := epc &&& 0xFFFFFFFFFFFFFFFC
      jutcause := BitVec.ofNat 64 cause
      jutval := val
      uhold := true
      pc := BitVec.ofNat 64 (4 * bits h.jutvec 2 17) }
  else
    { h with
      mepc := epc &&& 0xFFFFFFFFFFFFFFFC
      mcause := causeWord cause int
      mtval := val
      mstatus := mkStatus h.mode (mieOf h.mstatus) false
      mode := .machine
      pc := mEntry h.mtvec
      fwTrap := if h.mode = .user then some (cause, b2n int) else h.fwTrap }

/-- The offset of the fault record of a trap of the thread at the cursor: below its own vector, or in machine RAM (R266). -/
def State.recordOff (s : State) (cause : Nat) (epc : Dword) (int : Bool) : Nat :=
  if s.delegated cause epc int then 4 * bits s.me.jutvec 2 17 - 32 else mramBase + 0x7C00 + 32 * s.cur.slot.val

/-- TakeTrap of R266 for the thread at the cursor, the one way any trap is entered. Trap entry takes the cycle as an
issue of the slot does, and the slot is READY after it. -/
def State.takeTrap (s : State) (cause : Nat) (epc val : Dword) (fault : Option FaultRec) (int : Bool) : State :=
  let deleg := s.delegated cause epc int
  let off := s.recordOff cause epc int
  let s :=
    match fault with
    | some r => s.stepWrite s.cur.tile [(off, r.bytes)] (s.localWriter 32) off
    | none => s
  ((s.modMe (·.trapped deleg s.here.cycle cause epc val int)).modHere (·.wakeHold)).noteIssue

/-- A precise trap of the instruction at the cursor: its pc is the exception pc (R265). -/
def State.trap (s : State) (cause : Nat) (val : Dword) : State := s.takeTrap cause s.me.pc val none false

/-- MRET's effect on mode, status and pc (R140). -/
def State.mret (s : State) : State :=
  let c := s.here.cycle
  let s := s.modMe fun h =>
    { (h.clearResv c) with
      mode := mppOf h.mstatus
      mstatus := mkStatus .user true (mpieOf h.mstatus) }
  (s.modHere (·.wakeHold)).retireTo (s.me.mepc)

/-- Illegal instruction: cause 2 with the instruction bits (R100). -/
def State.illegal (s : State) : State := s.trap 2 (zext s.cur.word)
/-- A fenced class: cause 24 with the instruction bits (R59). -/
def State.fenced (s : State) : State := s.trap 24 (zext s.cur.word)

/-- The slot at the cursor holds a handler (R43, R57). -/
def State.handler (s : State) : Bool := decide (6 ≤ s.cur.slot.val)
/-- The capability bit is 1 (R58). -/
def State.cap (s : State) (b : Nat) : Bool := bitAt s.here.core.jcaps b

/-- An instruction of a capability class (R59). -/
def needCap (b : Nat) (s : State) (k : State → Outcome) : Outcome := if s.cap b then k s else .next s.fenced
/-- A machine-only instruction (R102, check 3). -/
def needMachine (s : State) (k : State → Outcome) : Outcome :=
  if s.me.mode = .machine then k s else .next s.illegal

end Sys2Proof.Machine
end

