-- ==== Sys2Proof/Machine/Csr.lean ====
section
/-!
DEFINITION. The control and status registers (R96-R99): reading and writing each by its number, with its field rules;
the CSR writes that have an effect of their own (R37, R62, R86, R165, R242, R266).
-/
namespace Sys2Proof.Machine

def nd (n : Nat) : Dword := BitVec.ofNat 64 n

/-- jcore (R25). -/
def Tile.jcore (x : Tile) : Dword :=
  nd (field 50 10 x.core.gy + field 40 10 x.core.gx + field 30 10 x.core.relY + field 20 10 x.core.relX)
/-- jslot of a slot (R46). -/
def Tile.jslot (x : Tile) (i : Fin 8) : Dword :=
  if i.val < 6 then nd (field 4 2 (x.eprio (x.th i)) + i.val) else nd (8 + i.val)
/-- jpart (R62). -/
def CoreRegs.jpart (c : CoreRegs) : Dword :=
  nd (field 48 16 c.pid + field 40 2 c.pcap + field 11 11 c.height + field 0 11 c.width)
/-- The orientation of a die (R18). -/
def orientation (pkg die : Nat) : Dword := nd (field 12 4 pkg + field 8 2 die + rotOf die)
/-- jort (R18). -/
def jortOf (t : Nat) : Dword := orientation (pkgOf t) (dieOf t)
/-- The logical width W (R20). -/
def State.cols (s : State) : Nat := s.widths.foldl (· + ·) 0
/-- jgeom (R24); 0 in a lattice boot (R333). -/
def State.jgeom (s : State) : Dword :=
  if s.strap then 0
  else nd (field 48 16 s.gen + field 32 4 s.dieCols + field 11 11 s.side + field 0 11 s.cols)
def State.island (s : State) (i : Nat) : Island := Assoc.get {} s.islands i
/-- jmhealth and jmpower: mirrors of the island's registers (R99, R312). -/
def State.jmhealth (s : State) (t : Nat) : Dword :=
  let i := s.island (islandOf t)
  nd (field 40 12 (islandOf t) + field 16 16 i.guard + field 0 16 i.margin)
def State.jmpower (s : State) (t : Nat) : Dword :=
  let i := s.island (islandOf t)
  nd (field 16 16 i.vdd + field 0 16 i.freq)

/-- A CSR's value as the thread at the cursor reads it; none when the number is not in the map (R97). -/
def State.csrRead (s : State) (n : Nat) : Option Dword :=
  let x := s.here
  let h := s.me
  let c := x.core
  match n with
  | 0x300 => some h.mstatus
  | 0x301 => some 0x8000000000801101
  | 0x304 => some h.mie
  | 0x344 => some (if x.evpend = 0 then 0 else 0x800)
  | 0x305 => some h.mtvec
  | 0x340 => some h.mscratch
  | 0x341 => some h.mepc
  | 0x342 => some h.mcause
  | 0x343 => some h.mtval
  | 0x7C0 => some c.jmpart0
  | 0x7C1 => some c.jmpart1
  | 0x7C2 => some c.jmrcb
  | 0x7C3 => some c.jmstall
  | 0x7C4 => some c.jmtrace
  | 0x7C5 => some c.jmtrhead
  | 0x7C6 => some c.jmdeleg
  | 0x7C7 => some (s.jmhealth s.cur.tile)
  | 0x7C8 => some (s.jmpower s.cur.tile)
  | 0x8C0 => some h.jsrseed
  | 0x8C1 => some h.jmcfg
  | 0x8C2 => some h.jvcfg
  | 0x8C3 => some h.jutvec
  | 0x8C4 => some h.jutcause
  | 0x8C5 => some h.jutepc
  | 0x8C6 => some h.jutval
  | 0x8C7 => some h.jmgate
  | 0x8C8 => some h.jmgatev
  | 0x8C9 => some h.jrmark
  | 0x8CA => some c.jcodewin
  | 0xC00 => some (nd x.cycle)
  | 0xC01 => some (nd s.tsc)
  | 0xC02 => some h.instret
  | 0xCC0 => some x.jcore
  | 0xCC1 => some (x.jslot s.cur.slot)
  | 0xCC2 => some c.jpart
  | 0xCC3 => some c.jcaps
  | 0xCC4 => some c.jkcaps
  | 0xCC5 => some c.jcload
  | 0xCC6 => some (zext x.chans[0].jcpdone)
  | 0xCC7 => some (zext x.chans[1].jcpdone)
  | 0xCC8 => some (zext x.chans[2].jcpdone)
  | 0xCC9 => some (zext x.chans[3].jcpdone)
  | 0xCCA => some (zext x.chans[0].jcpnext)
  | 0xCCB => some (zext x.chans[1].jcpnext)
  | 0xCCC => some (zext x.chans[2].jcpnext)
  | 0xCCD => some (zext x.chans[3].jcpnext)
  | 0xCCE => some (jortOf s.cur.tile)
  | 0xCCF => some c.jmodule
  | 0xCD0 => some s.jgeom
  | 0xCD1 => some x.chans[0].jcperr
  | 0xCD2 => some x.chans[1].jcperr
  | 0xCD3 => some x.chans[2].jcperr
  | 0xCD4 => some x.chans[3].jcperr
  | 0xF14 => some (nd (x.lidx * 8 + s.cur.slot.val))
  | _ => none

/-- Only the fields of a mask are written; reserved bits read 0 (R9). -/
def keep (mask v : Dword) : Dword := v &&& mask

def State.modCore (s : State) (t : Nat) (f : CoreRegs → CoreRegs) : State :=
  s.modTile t fun x => { x with core := f x.core }

/-- A CSR write of registers that the port goes by: it keeps those before the write until the cycle ends (R37, R62). -/
def State.modPortCore (s : State) (t : Nat) (f : CoreRegs → CoreRegs) : State :=
  s.modTile t fun x => { x with core := f x.core, was := some x.portCore }

/-- jcodewin: PAGES above 128 - BASEP is stored as 128 - BASEP (R37). -/
def codewinValue (v : Dword) : Dword :=
  nd (field 63 1 (bits v 63 1) + field 32 8 (min (bits v 32 8) (128 - bits v 0 7)) + bits v 0 7)
def State.writeCodewin (s : State) (t : Nat) (v : Dword) : State :=
  s.modPortCore t fun c => { c with jcodewin := codewinValue v }

/-- jsrseed: a state of 0 stores 1 (R86). -/
def seedValue (v : Dword) : Dword := if v &&& 0xFFFFFFFF = 0 then 1 else v &&& 0xFFFFFFFF
def State.writeSeed (s : State) (t : Nat) (i : Fin 8) (v : Dword) : State :=
  s.modTh t i fun h => { h with jsrseed := seedValue v }

/-- The values of the registers a mask names, into the snapshot (R165). -/
def Thread.snapshot (h : Thread) (mask : Nat) : Thread :=
  { h with snap := Vector.ofFn fun n : Fin 32 => if mask / 2 ^ n.val % 2 = 1 ∧ n.val ≠ 0 then h.x[n] else h.snap[n] }
/-- jrmark: a write with VALID = 1 takes the snapshot (R165). -/
def State.writeMark (s : State) (t : Nat) (i : Fin 8) (v : Dword) : State :=
  s.modTh t i fun h =>
    let h := if bitAt v 63 then h.snapshot (bits v 0 32) else h
    { h with jrmark := keep 0x8007FFFFFFFFFFFE v }

/-- jmgate and jmgatev (R99, R242). -/
def State.writeGate (s : State) (t : Nat) (i : Fin 8) (v : Dword) : State :=
  s.modTh t i fun h => { h with jmgate := keep 0x800000000007FFF8 v }
def State.writeGateTarget (s : State) (t : Nat) (i : Fin 8) (v : Dword) : State :=
  s.modTh t i fun h => { h with jmgatev := keep 0xFFFFFFFFFF v }

/-- jutcause: any write attempt clears UHOLD (R266). -/
def State.writeUcause (s : State) (t : Nat) (i : Fin 8) (v : Dword) : State :=
  s.modTh t i fun h => { h with jutcause := keep 0x3F v, uhold := false }

/-- jmpart0, jmpart1 and jmrcb (R62). -/
def State.writePart (s : State) (t n : Nat) (v : Dword) : State :=
  s.modPortCore t fun c =>
    match n with
    | 0x7C0 => { c with jmpart0 := keep 0x0FFFFF00003FFFFF v }
    | 0x7C1 => { c with jmpart1 := keep 0xFFFFFFFF00007113 v }
    | _ => { c with jmrcb := keep 0xFFFFFFFFFFFFFF00 v }

/-- jmtrace: setting EN starts the count of entries afresh (R99, log 21). -/
def State.writeTrace (s : State) (t : Nat) (v : Dword) : State :=
  s.modCore t fun c =>
    { c with
      jmtrace := keep 0x80000000000F7FF0 v
      jmtrhead := if bitAt v 63 ∧ !bitAt c.jmtrace 63 then 0 else c.jmtrhead }

/-- A write to a CSR of the thread at the cursor; read-only registers keep their values (R9, R96). -/
def State.csrWrite (s : State) (n : Nat) (v : Dword) : State :=
  let t := s.cur.tile
  let i := s.cur.slot
  match n with
  | 0x300 => s.modMe fun h => { h with mstatus := mkStatus (mppWritten v) (mpieOf v) (mieOf v) }
  | 0x304 => s.modMe fun h => { h with mie := keep 0x800 v }
  | 0x305 => s.modMe fun h => { h with mtvec := keep 0xFFFFFFFFFFFFFFFC v }
  | 0x340 => s.modMe fun h => { h with mscratch := v }
  | 0x341 => s.modMe fun h => { h with mepc := keep 0xFFFFFFFFFFFFFFFC v }
  | 0x342 => s.modMe fun h => { h with mcause := v }
  | 0x343 => s.modMe fun h => { h with mtval := v }
  | 0x7C0 => s.writePart t n v
  | 0x7C1 => s.writePart t n v
  | 0x7C2 => s.writePart t n v
  | 0x7C3 => s.modCore t fun c => { c with jmstall := keep 0x80000000FFFFFFFF v }
  | 0x7C4 => s.writeTrace t v
  | 0x7C5 => s.modCore t fun c => { c with jmtrhead := v }
  | 0x7C6 => s.modCore t fun c => { c with jmdeleg := keep 0x1B70000FF v }
  | 0x8C0 => s.writeSeed t i v
  | 0x8C1 => s.modMe fun h => { h with jmcfg := keep 3 v }
  | 0x8C2 => s.modMe fun h => { h with jvcfg := keep 3 v }
  | 0x8C3 => s.modMe fun h => { h with jutvec := keep 0x7FFFC v }
  | 0x8C4 => s.writeUcause t i v
  | 0x8C5 => s.modMe fun h => { h with jutepc := keep 0xFFFFFFFFFFFFFFFC v }
  | 0x8C6 => s.modMe fun h => { h with jutval := v }
  | 0x8C7 => s.writeGate t i v
  | 0x8C8 => s.writeGateTarget t i v
  | 0x8C9 => s.writeMark t i v
  | 0x8CA => s.writeCodewin t v
  | _ => s

/-- The legality of a CSR access (R96). -/
def csrLegal (user : Bool) (n : BitVec 12) (write : Bool) : Bool :=
  !(user && n.extractLsb' 8 2 == 0b11#2) && !(write && n.extractLsb' 10 2 == 0b11#2)

/-- The three operations of CsrOp. -/
inductive CsrOp where
  | w | s | c
  deriving DecidableEq, Repr

/-- CsrOp (R142): the old value goes to rd, the new one is written when a write is attempted. -/
def csrOp (op : CsrOp) (rd : Reg) (n : BitVec 12) (src : Dword) (wr : Bool) (s : State) : Outcome :=
  match s.csrRead n.toNat with
  | none => .next s.illegal
  | some old =>
    if csrLegal (s.me.mode == .user) n wr then
      let new :=
        match op with
        | .w => src
        | .s => old ||| src
        | .c => old &&& ~~~src
      let s := if wr then s.csrWrite n.toNat new else s
      .next ((s.wx rd old).retire)
    else .next s.illegal

end Sys2Proof.Machine
end

