-- ==== Sys2Proof/Machine/Flags.lean ====
section
/-!
DEFINITION. Integer results and conditions: the computations of R118 and R120, the branch conditions of R122, and the
atomic operations of R133 and R173 that are integer. The machine has no flag register: every condition is computed
from its operands where it is used.
-/
namespace Sys2Proof.Machine

/-- w of R118: the low 32 bits, sign-extended. -/
def wOf (v : Dword) : Dword := sext (v.extractLsb' 0 32)
def low32 (v : Dword) : Word := v.extractLsb' 0 32

/-- Conditions of R118 and R122. -/
def ltS (a b : Dword) : Bool := a.slt b
def ltU (a b : Dword) : Bool := a.ult b
def setIf (c : Bool) : Dword := if c then 1 else 0

/-- Shifts by the low 6 bits, and by the low 5 bits of 32-bit operands (R118). -/
def sll64 (a : Dword) (n : Nat) : Dword := a <<< (n % 64)
def srl64 (a : Dword) (n : Nat) : Dword := a >>> (n % 64)
def sra64 (a : Dword) (n : Nat) : Dword := a.sshiftRight (n % 64)
def sll32 (a : Dword) (n : Nat) : Dword := sext (low32 a <<< (n % 32))
def srl32 (a : Dword) (n : Nat) : Dword := sext (low32 a >>> (n % 32))
def sra32 (a : Dword) (n : Nat) : Dword := sext ((low32 a).sshiftRight (n % 32))

/-- High halves of products (R120). -/
def mulh (a b : Dword) : Dword := BitVec.ofInt 64 (a.toInt * b.toInt / 2 ^ 64)
def mulhsu (a b : Dword) : Dword := BitVec.ofInt 64 (a.toInt * b.toNat / 2 ^ 64)
def mulhu (a b : Dword) : Dword := BitVec.ofNat 64 (a.toNat * b.toNat / 2 ^ 64)

/-- Signed division truncating toward zero; x / 0 is all ones and the overflow wraps (R120). -/
def divS {n : Nat} (a b : BitVec n) : BitVec n := if b = 0 then BitVec.allOnes n else a.sdiv b
def divU {n : Nat} (a b : BitVec n) : BitVec n := if b = 0 then BitVec.allOnes n else a / b
/-- Remainders: the dividend's sign; x rem 0 is the dividend (R120). -/
def remS {n : Nat} (a b : BitVec n) : BitVec n := if b = 0 then a else a.srem b
def remU {n : Nat} (a b : BitVec n) : BitVec n := if b = 0 then a else a % b

/-- The integer atomic operations on n-bit values (R133, R173); none for the floating-point ones. -/
def amoInt {n : Nat} (op : AmoOp) (m s c : BitVec n) : Option (BitVec n) :=
  match op with
  | .swap => some s
  | .add => some (m + s)
  | .xor => some (m ^^^ s)
  | .and => some (m &&& s)
  | .or => some (m ||| s)
  | .min => some (if m.slt s then m else s)
  | .max => some (if m.slt s then s else m)
  | .minu => some (if m.ult s then m else s)
  | .maxu => some (if m.ult s then s else m)
  | .incb => some (if m.ult s then m + 1 else m)
  | .cas => some (if m = c then s else m)
  | .fadd | .faddBf | .fmax | .fmin => none

/-- What an atomic returns: the old value, or all ones when AMOINCB fails (R133, R173). -/
def amoReturn {n : Nat} (op : AmoOp) (m s : BitVec n) : BitVec n :=
  match op with
  | .incb => if m.ult s then m else BitVec.allOnes n
  | _ => m

/-- FP atomics belong to class FPAMO (R149). -/
def amoIsFp : AmoOp → Bool
  | .fadd | .faddBf | .fmax | .fmin => true
  | _ => false

end Sys2Proof.Machine
end

