-- ==== Sys2Proof/Machine/Operands.lean ====
section
/-!
DEFINITION. Operand forms: the checks of R32 on an address and the place it names (R30-R35), the register group
heads (R101), and the registers an instruction reads and writes, which the issue logic compares with results still
owed (R44, R121, R127, R128).
-/
namespace Sys2Proof.Machine

/-- Where a checked address lies (R30, R31). -/
inductive Loc where
  | own (off : Nat)
  | mesh (y x off : Nat)
  | global (va : Nat)
  | fabric (m y x off : Nat)
  | abs (py px toff : Nat)
  | mram (off : Nat)
  | mgmt (pkg reg : Nat)
  | host (port haddr : Nat)
  deriving DecidableEq, Repr

/-- The two kinds of failure of R32: checks 1 to 3, and check 4. -/
inductive AddrErr where
  | access | misaligned
  deriving DecidableEq, Repr

/-- End of the tile region in which a TOFF starts; none for a TOFF in no region (R32, R34). -/
def regionEnd (toff : Nat) : Option Nat :=
  if toff < 0x80000 then some 0x80000
  else if toff < 0x88000 then some 0x88000
  else if 0xC0000 ≤ toff ∧ toff < 0xC1000 then some 0xC1000
  else none

/-- Checks 1 and 2 of R32: the space, its must-be-zero fields, and the place inside the space. -/
def locate (s : State) (mode : Mode) (a : Dword) : Option Loc :=
  let c := s.here.core
  let m := mode == .machine
  match bits a 60 4 with
  | 0 => if bits a 19 41 = 0 then some (.own (bits a 0 19)) else none
  | 1 =>
    let y := bits a 30 10
    let x := bits a 20 10
    if bits a 40 20 = 0 ∧ bits a 19 1 = 0 ∧ y < c.height ∧ x < c.width then some (.mesh y x (bits a 0 19)) else none
  | 2 => if bits a 52 8 = 0 then some (.global (bits a 0 52)) else none
  | 3 =>
    let md := bits a 48 12
    let y := bits a 38 10
    let x := bits a 28 10
    if bits a 19 9 ≠ 0 ∨ c.jmods < md then none
    else if md = c.jmod then (if y < c.height ∧ x < c.width then some (.mesh y x (bits a 0 19)) else none)
    else some (.fabric md y x (bits a 0 19))
  | 4 =>
    if m ∧ bits a 40 20 = 0 ∧ bits a 30 10 < s.side ∧ bits a 20 10 < s.side then
      some (.abs (bits a 30 10) (bits a 20 10) (bits a 0 20))
    else none
  | 5 => if m ∧ bits a 15 45 = 0 then some (.mram (bits a 0 15)) else none
  | 6 => if m ∧ bits a 20 40 = 0 ∧ bits a 16 4 < s.packages then some (.mgmt (bits a 16 4) (bits a 0 16)) else none
  | 7 => if m ∧ bits a 56 4 < s.packages then some (.host (bits a 56 4) (bits a 0 56)) else none
  | _ => none

/-- Check 3 of R32: the last byte lies within the space. -/
def Loc.fits (l : Loc) (size : Nat) : Bool :=
  match l with
  | .own off | .mesh _ _ off | .fabric _ _ _ off => off + size ≤ 0x80000
  | .mram off => off + size ≤ 0x8000
  | .abs _ _ toff => match regionEnd toff with
    | some e => toff + size ≤ e
    | none => true
  | .global va => va + size ≤ 2 ^ 52
  | .mgmt _ reg => reg + size ≤ 2 ^ 16
  | .host _ h => h + size ≤ 2 ^ 56

/-- The checks of R32, in order, on an access of size bytes that must lie on a multiple of align. -/
def checkAddr (s : State) (mode : Mode) (a : Dword) (size align : Nat) : Except AddrErr Loc :=
  match locate s mode a with
  | none => .error .access
  | some l =>
    if !l.fits size then .error .access
    else if a.toNat % align ≠ 0 then .error .misaligned
    else .ok l

/-- A local place as a TOFF of the own tile (R126). -/
def Loc.localOff : Loc → Option Nat
  | .own off => some off
  | .mram off => some (mramBase + off)
  | _ => none

/-- A tile number that is no tile of the frame: where a request for a logical column without a core ends. -/
def nowhere : Nat := 2 ^ 20

/-- The core at partition-relative (y, x) of the partition of tile t (R31). -/
def State.meshTile (s : State) (t y x : Nat) : Nat :=
  let c := (s.tile t).core
  (s.core (c.orgY + y) (c.orgX + x)).getD nowhere

/-- The home, the place in it and the address class of a routed access that needs no translation (R181, R186). -/
def routeOf (s : State) (t : Nat) : Loc → Option (Home × Nat × Nat)
  | .mesh y x off => some (.tile (s.meshTile t y x), off, 1)
  | .fabric m y x off => some (.module m y x, off, 2)
  | .abs py px toff => some (.tile (tileOf py px), toff, 4)
  | .mgmt pkg reg => some (.mgmt pkg, reg, 5)
  | .host port h => some (.host port, h, 6)
  | .own off => some (.tile t, off, 0)
  | .mram off => some (.tile t, mramBase + off, 0)
  | .global _ => none

/-- x[f + k] of a register group headed by f (R101). -/
def State.rgroup (s : State) (f : Reg) (k : Nat) : Dword := s.rx (f + BitVec.ofNat 5 k)

/-! ### Registers read and written (R44, R121, R127, R128) -/

/-- The registers an instruction names: x read, x written, v read, v written. -/
structure Names where
  xr : List Reg := []
  xw : List Reg := []
  vr : List VReg := []
  vw : List VReg := []
  deriving DecidableEq, Repr

def quadOf (f : Reg) : List Reg := [f, f + 1, f + 2, f + 3]
def pairRegs (p : Pair) : List Reg := [p ++ 0b0#1, p ++ 0b1#1]
def vgroup (f : Sfx) (v : VReg) : List VReg :=
  match f with
  | .f32 => [v, v + 1, v + 2, v + 3]
  | _ => [v, v + 1]

/-- The registers of x[rs1][31:0] that RMARK snapshots (R165). -/
def maskRegs (m : Nat) : List Reg := (upTo 32).filterMap fun n => if m / 2 ^ n % 2 = 1 ∧ n ≠ 0 then some (BitVec.ofNat 5 n) else none

/-- The registers that a CSR write of jrmark snapshots, for the value it writes (R165). -/
def markRegs (csr : BitVec 12) (v : Dword) : List Reg :=
  if csr = 0x8C9#12 ∧ bitAt v 63 then maskRegs (bits v 0 32) else []

/-- Source and destination registers of every instruction. -/
def names (s : State) (i : Instr) : Names :=
  match i with
  | .lui rd _ | .auipc rd _ | .jal rd _ | .fencef rd => { xw := [rd] }
  | .jalr rd rs1 _ | .lb rd rs1 _ | .lh rd rs1 _ | .lw rd rs1 _ | .ld rd rs1 _ | .lbu rd rs1 _ | .lhu rd rs1 _
  | .lwu rd rs1 _ | .addi rd rs1 _ | .slti rd rs1 _ | .sltiu rd rs1 _ | .xori rd rs1 _ | .ori rd rs1 _
  | .andi rd rs1 _ | .addiw rd rs1 _ => { xr := [rs1], xw := [rd] }
  | .slli rd rs1 _ | .srli rd rs1 _ | .srai rd rs1 _ => { xr := [rs1], xw := [rd] }
  | .slliw rd rs1 _ | .srliw rd rs1 _ | .sraiw rd rs1 _ => { xr := [rs1], xw := [rd] }
  | .beq rs1 rs2 _ | .bne rs1 rs2 _ | .blt rs1 rs2 _ | .bge rs1 rs2 _ | .bltu rs1 rs2 _ | .bgeu rs1 rs2 _
  | .sb rs1 rs2 _ | .sh rs1 rs2 _ | .sw rs1 rs2 _ | .sd rs1 rs2 _ => { xr := [rs1, rs2] }
  | .add rd rs1 rs2 | .sub rd rs1 rs2 | .sll rd rs1 rs2 | .slt rd rs1 rs2 | .sltu rd rs1 rs2 | .xor rd rs1 rs2
  | .srl rd rs1 rs2 | .sra rd rs1 rs2 | .or rd rs1 rs2 | .and rd rs1 rs2 | .addw rd rs1 rs2 | .subw rd rs1 rs2
  | .sllw rd rs1 rs2 | .srlw rd rs1 rs2 | .sraw rd rs1 rs2 | .mul rd rs1 rs2 | .mulh rd rs1 rs2
  | .mulhsu rd rs1 rs2 | .mulhu rd rs1 rs2 | .div rd rs1 rs2 | .divu rd rs1 rs2 | .rem rd rs1 rs2
  | .remu rd rs1 rs2 | .mulw rd rs1 rs2 | .divw rd rs1 rs2 | .divuw rd rs1 rs2 | .remw rd rs1 rs2
  | .remuw rd rs1 rs2 => { xr := [rs1, rs2], xw := [rd] }
  | .lrW rd rs1 _ _ | .lrD rd rs1 _ _ => { xr := [rs1], xw := [rd] }
  | .scW rd rs1 rs2 _ _ | .scD rd rs1 rs2 _ _ | .amoswapW rd rs1 rs2 _ _ | .amoswapD rd rs1 rs2 _ _
  | .amoaddW rd rs1 rs2 _ _ | .amoaddD rd rs1 rs2 _ _ | .amoxorW rd rs1 rs2 _ _ | .amoxorD rd rs1 rs2 _ _
  | .amoandW rd rs1 rs2 _ _ | .amoandD rd rs1 rs2 _ _ | .amoorW rd rs1 rs2 _ _ | .amoorD rd rs1 rs2 _ _
  | .amominW rd rs1 rs2 _ _ | .amominD rd rs1 rs2 _ _ | .amomaxW rd rs1 rs2 _ _ | .amomaxD rd rs1 rs2 _ _
  | .amominuW rd rs1 rs2 _ _ | .amominuD rd rs1 rs2 _ _ | .amomaxuW rd rs1 rs2 _ _
  | .amomaxuD rd rs1 rs2 _ _ => { xr := [rs1, rs2], xw := [rd] }
  | .csrrw rd csr rs1 => { xr := rs1 :: markRegs csr (s.rx rs1), xw := [rd] }
  | .csrrs rd csr rs1 => { xr := rs1 :: (if rs1 = 0 then [] else markRegs csr (s.me.jrmark ||| s.rx rs1)), xw := [rd] }
  | .csrrc rd csr rs1 => { xr := rs1 :: (if rs1 = 0 then [] else markRegs csr (s.me.jrmark &&& ~~~s.rx rs1)), xw := [rd] }
  | .csrrwi rd csr u => { xr := markRegs csr (zext u), xw := [rd] }
  | .csrrsi rd csr u => { xr := if u = 0 then [] else markRegs csr (s.me.jrmark ||| zext u), xw := [rd] }
  | .csrrci rd csr u => { xr := if u = 0 then [] else markRegs csr (s.me.jrmark &&& ~~~zext u), xw := [rd] }
  | .setprio rs1 | .utrap rs1 | .mburst rs1 | .cpwait rs1 _ => { xr := [rs1] }
  | .rmark rs1 => { xr := rs1 :: maskRegs (bits (s.rx rs1) 0 32) }
  | .spawna rd rs1 rs2 => { xr := rs2 :: quadOf rs1, xw := [rd] }
  | .capq rd rs1 | .barv rd rs1 | .rwaitImm rd rs1 _ _ => { xr := [rs1], xw := [rd] }
  | .rwait rd rs1 rs2 | .radd rd rs1 rs2 | .bexp rd rs1 rs2 | .nbsend rd rs1 rs2 => { xr := [rs1, rs2], xw := [rd] }
  | .rpoison rs1 rs2 | .bpoison rs1 rs2 | .rcfg rs1 rs2 | .capset rs1 rs2 | .rsig rs1 rs2 | .mgate rs1 rs2 =>
    { xr := [rs1, rs2] }
  | .binit rs1 rs2 => { xr := [rs1, rs2, rs2 + 1] }
  | .spawn rd rs1 rs2 rs3 | .spawnm rd rs1 rs2 rs3 | .amsg rd rs1 rs2 rs3 =>
    { xr := rs2 :: rs3 :: quadOf rs1, xw := [rd] }
  | .rwaitt rd rs1 rs2 rs3 => { xr := [rs1, rs2, rs3], xw := [rd] }
  | .sdc rs1 rs2 rs3 | .swc rs1 rs2 rs3 => { xr := [rs1, rs2, rs3] }
  | .amofaddS rd rs1 rs2 | .amofaddBf rd rs1 rs2 | .amofmaxS rd rs1 rs2 | .amofminS rd rs1 rs2
  | .amoincbW rd rs1 rs2 | .amoincbD rd rs1 rs2 => { xr := [rs1, rs2], xw := [rd] }
  | .amocasD rd rs1 rs2 => { xr := [rd, rs1, rs2], xw := [rd] }
  | .cpq rd rs1 _ | .cpqn rd rs1 _ | .ldlq rd rs1 => { xr := quadOf rs1, xw := [rd] }
  | .mmaE4e4 _ a b | .mmaE4e5 _ a b | .mmaE5e4 _ a b | .mmaE5e5 _ a b | .mmaBf _ a b =>
    { xr := pairRegs a ++ pairRegs b }
  | .mld _ p | .mstF32 _ p | .mstBf _ p | .mstE4m3 _ p | .mstE5m2 _ p => { xr := pairRegs p }
  | .mrowv vd _ _ => { vw := [vd] }
  | .vadd _ vd a b | .vsub _ vd a b | .vmul _ vd a b | .vmax _ vd a b | .vmin _ vd a b | .vsll _ vd a b
  | .vsrl _ vd a b | .vsra _ vd a b | .vcmpeq _ vd a b | .vcmplt _ vd a b | .vcmple _ vd a b | .vperm _ vd a b =>
    { vr := [a, b], vw := [vd] }
  | .vfma _ vd a b | .vsel _ vd a b => { vr := [a, b, vd], vw := [vd] }
  | .vand vd a b | .vor vd a b | .vxor vd a b => { vr := [a, b], vw := [vd] }
  | .vabs _ vd a | .vneg _ vd a | .vredsum _ vd a | .vredmax _ vd a => { vr := [a], vw := [vd] }
  | .vrcp vd a | .vrsq vd a | .vexp2 vd a | .vlog2 vd a => { vr := [a], vw := [vd] }
  | .vcvt _ _ vd a | .vscan _ _ vd a => { vr := [a], vw := [vd] }
  | .vpack f _ vd a => { vr := vgroup f a, vw := [vd, vd + 1] }
  | .vunpack f _ vd a => { vr := [a, a + 1], vw := vgroup f vd }
  | .vslide _ vd a rs2 => { xr := [rs2], vr := [a], vw := [vd] }
  | .vbcast _ vd rs1 => { xr := [rs1], vw := [vd] }
  | .vmvx _ rd a rs2 => { xr := [rs2], xw := [rd], vr := [a] }
  | .vld vd rs1 => { xr := [rs1], vw := [vd] }
  | .vlds _ vd rs1 rs2 => { xr := [rs1, rs2], vw := [vd] }
  | .vldx _ vd rs1 b => { xr := [rs1], vr := [b], vw := [vd] }
  | .vst v rs1 => { xr := [rs1], vr := [v] }
  | .vsts _ v rs1 rs2 => { xr := [rs1, rs2], vr := [v] }
  | .vstx _ v rs1 b => { xr := [rs1], vr := [v, b] }
  | .vstc v rs1 rs2 => { xr := [rs1, rs2], vr := [v] }
  | _ => {}

end Sys2Proof.Machine
end

