-- ==== Sys2Proof/Machine/Registers.lean ====
section
/-!
DEFINITION. Registers reached by address: the tile registers of space 0x4 (R34, R146, R267, R272, R298), the management
block of space 0x6 (R307, R312, R321), and the management window of BAR 0 (R291), with the firmware's notices and
mailbox answers (R292, R293).
-/
namespace Sys2Proof.Machine

def State.pack (s : State) (p : Nat) : Package := Assoc.get {} s.packs p
def State.modPack (s : State) (p : Nat) (f : Package → Package) : State :=
  { s with packs := Assoc.put p (f (s.pack p)) s.packs }
def State.modMail (s : State) (p : Nat) (f : Mail → Mail) : State := s.modPack p fun k => { k with mail := f k.mail }
def State.modIsland (s : State) (i : Nat) (f : Island → Island) : State :=
  { s with islands := Assoc.put i (f (s.island i)) s.islands }

/-- The corner core of a package's die 0, whose firmware serves the mailbox (R291). -/
def cornerTile (pkg : Nat) : Nat := tileOf (256 * (pkg / 4)) (256 * (pkg % 4))

/-! ### Router words (R146) -/

def routerMask : Dword := 0x8FFFFF003FF00003
def routerLocked (x : Tile) : Bool := bitAt x.router 63

/-- A write of the router word: TSTATE 1 or 2 on a fused tile stores 3; TSTATE 1 sets GY and GX of jcore, but where 3 is
stored, of which R146 does not say it, the model sets neither (log 85). -/
def writeRouter (x : Tile) (v : Dword) : Tile :=
  let v := keep routerMask v
  let v := if x.fused ∧ (bits v 0 2 = 1 ∨ bits v 0 2 = 2) then putBits v 0 2 3 else v
  let x := { x with router := v }
  if bits v 0 2 = 1 then { x with core := { x.core with gy := bits v 50 10, gx := bits v 20 10 } } else x

/-! ### Tile registers (R34) -/

/-- The 8-byte register that holds offset off of the tile-register region, if the tile has one there. -/
def tileReg (x : Tile) (t off : Nat) : Option Dword :=
  let r := off / 8 * 8
  if r = 0xC0000 then some x.router
  else if r = 0xC0100 then some x.evpend
  else if r = 0xC0200 then some (nd x.elhead)
  else if 0xC0300 ≤ r ∧ r < 0xC0320 then x.hriser.toList[(r - 0xC0300) / 8]?
  else if 0xC0400 ≤ r ∧ r < 0xC0600 then
    let e : LogEntry := Assoc.get { ts := 0, w1 := 0, addr := 0, info := 0 } x.elog ((r - 0xC0400) / 32)
    some (match (r / 8) % 4 with
      | 0 => nd e.ts
      | 1 => e.w1
      | 2 => e.addr
      | _ => e.info)
  else if (dieXY t).1 = 127 ∧ r = 0xC0800 then
    some (nd (field 63 1 (b2n x.pcTrained) + field 62 1 (b2n x.pcPowered) + field 0 30 x.scrubPtr))
  else if (dieXY t).1 = 127 ∧ r = 0xC0808 then some (nd (field 0 32 x.ueCount))
  else none

/-- Bytes [off mod 8 …] of an 8-byte register, as a number of size bytes. -/
def regPart (v : Dword) (off size : Nat) : Nat := bits v (8 * (off % 8)) (8 * size)
/-- The register's bytes that an access of size bytes writes, in place, and their mask. -/
def partMask (off size : Nat) : Dword := nd (field (8 * (off % 8)) (8 * size) (2 ^ (8 * size) - 1))
def partValue (old : Dword) (off size v : Nat) : Dword :=
  (old &&& ~~~partMask off size) ||| nd (field (8 * (off % 8)) (8 * size) v)
/-- Only the bits an access writes, everything else 0: what a W1C register sees. -/
def partOnes (off size v : Nat) : Dword := nd (field (8 * (off % 8)) (8 * size) v)

/-- A tile register is reached by aligned accesses of 4 or 8 bytes (R34). -/
def regShape (off size : Nat) : Bool := (size == 4 || size == 8) && off % size == 0

/-- EVPEND is W1C (R267). -/
def Tile.clearEvents (x : Tile) (v : Dword) : Tile := { x with evpend := x.evpend &&& ~~~(keep 0x3F v) }
/-- A host-riser entry's fields (R298). -/
def hriserValue (v : Dword) : Dword := keep 0x800007FF0000FFFF v

/-- A write to a tile register; RO registers ignore it (R9, R34). The router word's LOCK is checked before. -/
def writeTileReg (x : Tile) (off size v : Nat) : Tile :=
  let r := off / 8 * 8
  if r = 0xC0000 then writeRouter x (partValue x.router off size v)
  else if r = 0xC0100 then x.clearEvents (partOnes off size v)
  else if 0xC0300 ≤ r ∧ r < 0xC0320 then
    let k := (r - 0xC0300) / 8
    { x with hriser := x.hriser.mapFinIdx fun i e _ => if i = k then hriserValue (partValue e off size v) else e }
  else if r = 0xC0808 then { x with ueCount := (nd x.ueCount &&& ~~~(partOnes off size v)).toNat % 2 ^ 32 }
  else x

/-- The accesses of 8 and 4 bytes in which an engine's piece of n bytes reaches tile registers (R34). -/
def regParts : Nat → Nat → Nat → List (Nat × Nat)
  | 0, _, _ => []
  | k + 1, off, n =>
    if n = 0 then []
    else
      let z := if off % 8 = 0 ∧ 8 ≤ n then 8 else min 4 n
      (off, z) :: regParts k (off + z) (n - z)
/-- A piece's bytes in tile registers; none where one of its accesses names no register of the tile or is not aligned. -/
def regBytes (x : Tile) (t off n : Nat) : Option (List Byte) :=
  (regParts n off n).foldl
    (fun l p =>
      match l, (if regShape p.1 p.2 then tileReg x t p.1 else none) with
      | some l, some v => some (l ++ leBytes p.2 (regPart v p.1 p.2))
      | _, _ => none)
    (some [])
/-- A piece written to tile registers, access by access. -/
def writeRegs (x : Tile) (off : Nat) (bs : List Byte) : Tile :=
  (regParts bs.length off bs.length).foldl
    (fun x p => writeTileReg x p.1 p.2 (leVal ((bs.drop (p.1 - off)).take p.2))) x
/-- The reason for which an engine's piece at tile registers is rejected (R34, R146); none when it is performed. -/
def regReason (x : Tile) (t off n : Nat) (write : Bool) : Option Nat :=
  if (regBytes x t off n).isNone then some 4
  else if write ∧ off / 8 * 8 = 0xC0000 ∧ routerLocked x then some 8
  else none

/-! ### Management registers (R307, R312, R321) -/

def CryoState.code : CryoState → Nat
  | .warmOff => 0
  | .warmService => 1
  | .precool => 2
  | .cooldown => 3
  | .soak => 4
  | .calibrate => 5
  | .coldReady => 6
  | .excursion => 7
  | .warmup => 8

/-- Ticks of the 1.25 GHz timer in a second (R8, R318). -/
def second : Nat := 1250000000

/-- CRYOSTATE (R321). -/
def State.cryoWord (s : State) : Dword :=
  let c := s.cryo
  let left := if c.st = .soak then (c.soakEnd - s.tick) / second else 0
  nd (field 48 16 left + field 15 1 (b2n c.hbmKept) + field 14 1 (b2n c.rampViol) + field 8 2 c.band + c.st.code)

/-- The four words of an island group (R312). -/
def Island.word (i : Island) (k : Nat) : Dword :=
  match k with
  | 0 => nd (field 32 4 i.pstate + field 0 32 i.temp)
  | 1 => nd (field 48 16 i.freq + field 32 16 i.vdd + field 16 16 i.guard + field 0 16 i.margin)
  | 2 => nd (field 32 32 i.ceCount + field 0 32 i.eolDays)
  | _ => nd (field 63 1 (b2n i.worn) + field 0 32 i.share)

/-- The change of the carrier sensor over the samples kept, in mK (R307). -/
def Cryo.ramp (c : Cryo) : Int := (c.carrier.headD 0 : Int) - (c.carrier.getLastD 0 : Int)
/-- RAMP as a signed 32-bit field (R307). -/
def rampWord (c : Cryo) : Nat := (c.ramp % 2 ^ 32).toNat

/-- The die orientation registers (R18) and the w_c of R24, at registers that no rule numbers (log 82). -/
def unlistedReg (s : State) (pkg reg : Nat) : Option Dword :=
  match (upTo 4).find? fun d => Config.orientReg d == reg with
  | some d => some (orientation pkg d)
  | none => ((upTo 8).find? fun c => Config.widthReg c == reg).map fun c => nd (s.widths.getD c 0)

/-- The 8-byte management register at an offset, if the block has one there: of the layout of R307, or of R18 and R24. -/
def mgmtReg (s : State) (pkg reg : Nat) : Option Dword :=
  let r := reg / 8 * 8
  let k := s.pack pkg
  let wide (v : Dword) : Option Dword := some (if pkg = 0 then v else 0)
  if r = 0 then some (nd (field 12 4 pkg + (match s.code with | .lk1024n => 0 | .lk64q => 1)))
  else if r = 0x0008 then wide s.cryoWord
  else if r = 0x0010 then wide (nd (field 32 32 s.cryo.last.tbath + field 0 32 s.cryo.last.tmax))
  else if r = 0x0018 then wide (nd (rampWord s.cryo))
  else if r = 0x0020 then some (nd (field 32 32 k.power + field 0 32 k.share))
  else if r = 0x0028 then wide (nd (field 0 32 s.modBudget))
  else if r = 0x0030 then some (nd (field 0 16 s.fuseSvn))
  else if r = 0x0038 then some (nd (field 0 10 k.deconf.length))
  else if 0x1000 ≤ r ∧ r < 0x3000 then some ((s.island (256 * pkg + (r - 0x1000) / 32)).word (r / 8 % 4))
  else if 0x4008 ≤ r ∧ r < 0x6000 then some (k.deconf.getD ((r - 0x4008) / 8) 0)
  else if 0x6000 ≤ r ∧ r < 0x7000 then
    let e := Assoc.get ((0 : Dword), (0 : Dword)) k.fenceLog ((r - 0x6000) / 16)
    some (if r / 8 % 2 = 0 then e.1 else e.2)
  else if r = 0x7000 then some (nd k.fenceHead)
  else unlistedReg s pkg (reg / 8)

/-- The RW and W1C bits of a management register (R307). -/
def mgmtMask (pkg reg : Nat) : Dword :=
  let r := reg / 8 * 8
  if r = 0x0008 ∧ pkg = 0 then 0x4000
  else if r = 0x0028 ∧ pkg = 0 then 0xFFFFFFFF
  else if 0x1000 ≤ r ∧ r < 0x3000 ∧ r / 8 % 4 = 2 then 0xFFFFFFFF00000000
  else 0

/-- A write to a management register, or none where it is refused: an offset not listed, or no RW or W1C field in the
bytes written (R307). -/
def mgmtWrite (s : State) (pkg reg size v : Nat) : Option State :=
  let r := reg / 8 * 8
  let ones := partOnes reg size v
  match mgmtReg s pkg reg with
  | none => none
  | some _ =>
    if mgmtMask pkg reg &&& partMask reg size = 0 then none
    else if r = 0x0008 then
      some (if bitAt ones 14 then { s with cryo := { s.cryo with rampViol := false } } else s)
    else if r = 0x0028 then some { s with modBudget := (partValue (nd s.modBudget) reg size v).toNat % 2 ^ 32 }
    else
      some (s.modIsland (256 * pkg + (r - 0x1000) / 32) fun i =>
        { i with ceCount := (nd i.ceCount &&& ~~~(ones >>> 32)).toNat })

/-! ### The management window (R291) -/

/-- MBRESP. -/
def Mail.resp (m : Mail) : Dword := nd (field 63 1 (b2n m.done) + field 48 8 m.seq + field 0 8 m.result)

/-- One byte of the window. Arguments, published geometry, notices, the MSI-X table and its pending bits, and an image
being written lie in plain storage. -/
def windowByte (s : State) (pkg off : Nat) : Byte :=
  let m := (s.pack pkg).mail
  let part (v : Dword) : Byte := BitVec.ofNat 8 (regPart v off 1)
  if off < 8 then part m.reg
  else if 0x100 ≤ off ∧ off < 0x108 then part m.resp
  else if 0x108 ≤ off ∧ off < 0x110 then part m.data0
  else if 0x300 ≤ off ∧ off < 0x308 then part (nd m.hdrop)
  else if 0x308 ≤ off ∧ off < 0x310 then part (nd m.nhead)
  else s.byte (windowKey pkg off)
def windowRead (s : State) (pkg off : Nat) : Nat → List Byte
  | 0 => []
  | n + 1 => windowByte s pkg off :: windowRead s pkg (off + 1) n

/-- An argument of the mailbox. -/
def State.arg (s : State) (pkg i : Nat) : Dword := s.readD (windowKey pkg (8 + 8 * i))

/-- Host accesses to the window are aligned and of 4 or 8 bytes; any other completes as Unsupported Request (R291). -/
def windowShape (off n : Nat) : Bool := (n == 4 || n == 8) && off % n == 0 && decide (off + n ≤ 2 ^ 20)

/-- A host write to the window, where the register takes one: OP and SEQ, arguments, HDROP and the MSI-X table (R291);
the boot ROM serves package 0's window alone, and takes nothing but the image (R328). An 8-byte write to offset 0x0000
is a submission and is not made here. -/
def windowWrite (s : State) (pkg off : Nat) (bs : List Byte) : State :=
  let n := bs.length
  if !windowShape off n ∨ s.packages ≤ pkg then s
  else if s.bootRom then (if 0x80000 ≤ off ∧ pkg = 0 then s.writeB (windowKey pkg off) bs else s)
  else if off < 8 then
    if n = 8 then s else s.modMail pkg fun m => { m with reg := keep 0xFFFF000000000000 (partValue m.reg off n (leVal bs)) }
  else if off < 0x48 then s.writeB (windowKey pkg off) bs
  else if 0x10000 ≤ off ∧ off < 0x18000 then (s.writeB (windowKey pkg off) bs).sendPending pkg ((off - 0x10000) / 16)
  else if 0x300 ≤ off ∧ off < 0x308 then
    s.modMail pkg fun m => { m with hdrop := (nd m.hdrop &&& ~~~(partOnes off n (leVal bs))).toNat }
  else s

/-! ### Notices and answers (R292, R293) -/

/-- One notice: written, counted by NHEAD, announced with vector 1. -/
def State.notice (s : State) (pkg kind pid job core slot : Nat) (cause epc val : Dword) : State :=
  let n := (s.pack pkg).mail.nhead
  let words := [field 56 8 kind + field 32 16 pid + field 0 32 job, field 40 20 core + slot, cause.toNat, epc.toNat,
    val.toNat, s.tsc, 0, 0]
  let s := s.writeB (windowKey pkg (0x1000 + 64 * (n % 64))) (words.flatMap (leBytes 8))
  (s.modMail pkg fun m => { m with nhead := m.nhead + 1 }).sendMsix pkg 1

/-- The answer to a mailbox request: DATA0, then MBRESP, then vector 0. -/
def State.respond (s : State) (pkg result : Nat) (data : Dword) : State :=
  (s.modMail pkg fun m =>
    { m with data0 := data, done := true, seq := bits m.req 48 8, result := result, serving := none }).sendMsix pkg 0

/-- A submission to offset 0x0000: taken and DONE cleared, or discarded while a request is being served (R291). -/
def State.submit (s : State) (pkg op seq : Nat) (k : State → State) : State :=
  if pkg < s.packages ∧ (s.pack pkg).mail.done then
    let v := nd (field 56 8 op + field 48 8 seq)
    k (s.modMail pkg fun m => { m with reg := v, req := v, done := false })
  else s

end Sys2Proof.Machine
end

