-- ==== Sys2Proof/Machine/Fp.lean ====
section
/-!
DEFINITION. Number formats and arithmetic (R70-R93). A finite value is an exact dyadic number, a sign, a magnitude
and a power of two, so every operation is computed exactly and rounded once. Encodings are natural numbers below
2^width.
-/
namespace Sys2Proof.Machine

/-- A floating-point format of R70: fraction width, exponent width, bias, the largest finite magnitude's encoding, the
canonical NaN, and the infinity's encoding where there is one. -/
structure Fmt where
  frac : Nat
  expo : Nat
  bias : Nat
  largest : Nat
  nan : Nat
  inf : Option Nat
  deriving DecidableEq, Repr

def fp32 : Fmt := ⟨23, 8, 127, 0x7F7FFFFF, 0x7FC00000, some 0x7F800000⟩
def bf16 : Fmt := ⟨7, 8, 127, 0x7F7F, 0x7FC0, some 0x7F80⟩
def e4m3 : Fmt := ⟨3, 4, 7, 0x7E, 0x7F, none⟩
def e5m2 : Fmt := ⟨2, 5, 15, 0x7B, 0x7E, some 0x7C⟩
def fp8Fmt : Fp8 → Fmt
  | .e4m3 => Sys2Proof.Machine.e4m3
  | .e5m2 => Sys2Proof.Machine.e5m2
/-- EMAX of R84. -/
def fp8Emax : Fp8 → Int
  | .e4m3 => 8
  | .e5m2 => 15

/-- The weight of the sign bit. -/
def Fmt.sign (f : Fmt) : Nat := 2 ^ (f.frac + f.expo)

/-- What an encoding stands for. -/
inductive FVal where
  | nan
  | inf (neg : Bool)
  /-- (-1)^neg * m * 2^e; m = 0 is a signed zero -/
  | fin (neg : Bool) (m : Nat) (e : Int)
  deriving DecidableEq, Repr

/-- Reading an encoding (R71). -/
def Fmt.read (f : Fmt) (v : Nat) : FVal :=
  let neg := v / f.sign % 2 = 1
  let mag := v % f.sign
  let e := mag / 2 ^ f.frac
  let t := mag % 2 ^ f.frac
  if f.largest < mag then (if f.inf = some mag then .inf neg else .nan)
  else if e = 0 then .fin neg t (1 - (f.bias : Int) - f.frac)
  else .fin neg (2 ^ f.frac + t) ((e : Int) - f.bias - f.frac)

/-- m / 2^k rounded to the nearest integer, ties to even. -/
def roundShift (m k : Nat) : Nat :=
  let q := m / 2 ^ k
  let r := m % 2 ^ k * 2
  if r < 2 ^ k then q else if 2 ^ k < r then q + 1 else q + q % 2

def Fmt.zero (f : Fmt) (neg : Bool) : Nat := if neg then f.sign else 0
def Fmt.infinity (f : Fmt) (neg : Bool) (ovf : Bool) : Nat :=
  match f.inf with
  | some i => f.zero neg + i
  | none => if ovf then f.nan else f.zero neg + f.largest

/-- Encode(RoundRNE(v, F), F, ovf) for v = (-1)^neg * m * 2^e (R74). -/
def Fmt.round (f : Fmt) (ovf neg : Bool) (m : Nat) (e : Int) : Nat :=
  if m = 0 then f.zero neg
  else
    let emin : Int := 1 - f.bias
    let ex := max ((Nat.log2 m : Int) + e) emin
    let k := ex - f.frac - e
    let n := if 0 ≤ k then roundShift m k.toNat else m * 2 ^ (-k).toNat
    -- n may reach 2^(frac+1), which the sum below carries into the exponent
    let mag := (ex - emin).toNat * 2 ^ f.frac + n
    if mag ≤ f.largest then f.zero neg + mag
    else if f.frac < 7 then (if ovf then f.nan else f.zero neg + f.largest)
    else f.infinity neg ovf

/-- A value as a unit writes it: a NaN is the canonical one (R76). -/
def Fmt.canonical (f : Fmt) (v : Nat) : Nat :=
  match f.read v with
  | .nan => f.nan
  | _ => v

def FVal.neg : FVal → Bool
  | .nan => false
  | .inf n => n
  | .fin n _ _ => n
def FVal.isNan : FVal → Bool
  | .nan => true
  | _ => false
def FVal.isInf : FVal → Bool
  | .inf _ => true
  | _ => false
def FVal.negate : FVal → FVal
  | .nan => .nan
  | .inf n => .inf !n
  | .fin n m e => .fin (!n) m e
/-- Exact(a * b), with an infinity times a zero a NaN (R75). -/
def FVal.mul : FVal → FVal → FVal
  | .fin a m e, .fin b n g => .fin (a != b) (m * n) (e + g)
  | .inf a, .inf b => .inf (a != b)
  | .inf a, .fin b n _ => if n = 0 then .nan else .inf (a != b)
  | .fin a m _, .inf b => if m = 0 then .nan else .inf (a != b)
  | .nan, _ => .nan
  | _, .nan => .nan
/-- A value times a power of two. -/
def FVal.scale (k : Int) : FVal → FVal
  | .fin n m e => .fin n m (e + k)
  | v => v

/-- An exact sum: integer mantissa and exponent. -/
structure Dyadic where
  m : Int
  e : Int
  deriving DecidableEq, Repr

def Dyadic.add (a : Dyadic) (neg : Bool) (m : Nat) (e : Int) : Dyadic :=
  let t : Int := if neg then -(m : Int) else m
  if m = 0 then a
  else if a.m = 0 then ⟨t, e⟩
  else if a.e ≤ e then ⟨a.m + t * 2 ^ (e - a.e).toNat, a.e⟩
  else ⟨a.m * 2 ^ (a.e - e).toNat + t, e⟩

def sumOf : List FVal → Dyadic
  | [] => ⟨0, 0⟩
  | .fin n m e :: r => (sumOf r).add n m e
  | _ :: r => sumOf r

/-- Rounds an exact value that is not zero. -/
def Fmt.roundD (f : Fmt) (d : Dyadic) : Nat := f.round false (d.m < 0) d.m.natAbs d.e

/-- The special operands of a sum (R75); none when the sum is finite. -/
def specialSum (f : Fmt) (ts : List FVal) : Option Nat :=
  if ts.any FVal.isNan then some f.nan
  else if ts.any (fun t => t.isInf && t.neg) && ts.any (fun t => t.isInf && !t.neg) then some f.nan
  else if ts.any FVal.isInf then some (f.infinity ((ts.any fun t => t.isInf && t.neg)) false)
  else none

/-- The zero of a sum: -0 only when every term is -0 (R74). -/
def zeroSum (f : Fmt) (ts : List FVal) : Nat :=
  f.zero (ts.all fun t => match t with
    | .fin n m _ => n && m == 0
    | _ => false)

/-- The sum of exact terms rounded once (R74, R75). -/
def Fmt.sum (f : Fmt) (ts : List FVal) : Nat :=
  match specialSum f ts with
  | some v => v
  | none => let d := sumOf ts; if d.m = 0 then zeroSum f ts else f.roundD d

def Fmt.add (f : Fmt) (a b : Nat) : Nat := f.sum [f.read a, f.read b]
def Fmt.sub (f : Fmt) (a b : Nat) : Nat := f.sum [f.read a, (f.read b).negate]
def Fmt.mul (f : Fmt) (a b : Nat) : Nat := f.sum [(f.read a).mul (f.read b)]
/-- a * b + c rounded once. -/
def Fmt.fma (f : Fmt) (a b c : Nat) : Nat := f.sum [(f.read a).mul (f.read b), f.read c]
def Fmt.flip (f : Fmt) (a : Nat) : Nat :=
  if (f.read a).isNan then f.nan else if a / f.sign % 2 = 1 then a - f.sign else a + f.sign
def Fmt.abs (f : Fmt) (a : Nat) : Nat := if (f.read a).isNan then f.nan else a % f.sign

/-- The order of two encodings that are no NaN, -0 below +0 (R81): a key that rises with the value. -/
def Fmt.key (f : Fmt) (a : Nat) : Int := if a / f.sign % 2 = 1 then -((a % f.sign : Nat) : Int) - 1 else (a % f.sign : Nat)
def Fmt.max (f : Fmt) (a b : Nat) : Nat :=
  if (f.read a).isNan || (f.read b).isNan then f.nan else if f.key a ≤ f.key b then b else a
def Fmt.min (f : Fmt) (a b : Nat) : Nat :=
  if (f.read a).isNan || (f.read b).isNan then f.nan else if f.key a ≤ f.key b then a else b
/-- The order in which +0 equals -0 (R81). -/
def Fmt.key0 (f : Fmt) (a : Nat) : Int := if a / f.sign % 2 = 1 then -((a % f.sign : Nat) : Int) else (a % f.sign : Nat)
def Fmt.eq (f : Fmt) (a b : Nat) : Bool := !(f.read a).isNan && !(f.read b).isNan && f.key0 a == f.key0 b
def Fmt.lt (f : Fmt) (a b : Nat) : Bool := !(f.read a).isNan && !(f.read b).isNan && decide (f.key0 a < f.key0 b)
def Fmt.le (f : Fmt) (a b : Nat) : Bool := !(f.read a).isNan && !(f.read b).isNan && decide (f.key0 a ≤ f.key0 b)

/-! ### Conversions (R77) -/

def Fmt.convert (dst : Fmt) (ovf : Bool) (v : FVal) : Nat :=
  match v with
  | .nan => dst.nan
  | .inf n => dst.infinity n ovf
  | .fin n m e => dst.round ovf n m e

/-- To an integer: rounded to nearest even and clamped to lo … hi; infinities clamp, NaN gives 0. -/
def toInteger (v : FVal) (lo hi : Int) : Int :=
  match v with
  | .nan => 0
  | .inf n => if n then lo else hi
  | .fin n m e =>
    let a : Nat := if 0 ≤ e then m * 2 ^ e.toNat else roundShift m (-e).toNat
    let t : Int := if n then -(a : Int) else a
    if t < lo then lo else if hi < t then hi else t

def ofInteger (f : Fmt) (i : Int) : Nat := f.round false (i < 0) i.natAbs 0

/-! ### Stochastic rounding (R86, R87) -/

def stepSR (s : Word) : Word :=
  let s := s ^^^ (s <<< 13)
  let s := s ^^^ (s >>> 17)
  s ^^^ (s <<< 5)
/-- RoundSR: the BF16 encoding and the state after its step. -/
def roundSR (x : Nat) (seed : Word) : Nat × Word :=
  let s := stepSR seed
  if (fp32.read x).isNan then (0x7FC0, s)
  else
    let m := x % 2 ^ 31 + s.toNat % 2 ^ 16
    (x / 2 ^ 31 % 2 * 2 ^ 15 + m / 2 ^ 16 % 2 ^ 15, s)
/-- RoundSR over a list, in order. -/
def roundSRs : List Nat → Word → List Nat × Word
  | [], s => ([], s)
  | x :: r, s =>
    let a := roundSR x s
    let b := roundSRs r a.2
    (a.1 :: b.1, b.2)

/-! ### Matrix accumulation (R82, R83) -/

/-- The scale 2^(X - 127) of an E8M0 encoding. -/
def e8m0 (x : Nat) : Int := (x : Int) - 127

def mmaMX (acc : Nat) (fa : Fmt) (a : List Nat) (xa : Nat) (fb : Fmt) (b : List Nat) (xb : Nat) : Nat :=
  if xa = 255 ∨ xb = 255 then fp32.nan
  else
    let k := e8m0 xa + e8m0 xb
    fp32.sum (fp32.read acc :: (a.zip b).map fun p => ((fa.read p.1).mul (fb.read p.2)).scale k)

/-- floor(log2) of a non-zero finite value. -/
def FVal.top : FVal → Option Int
  | .fin _ m e => if m = 0 then none else some ((Nat.log2 m : Int) + e)
  | _ => none
/-- A term cut to the window whose lowest weight is 2^g (R83). -/
def FVal.window (g : Int) : FVal → FVal
  | .fin n m e => if g ≤ e then .fin n m e else .fin n (m / 2 ^ (g - e).toNat) g
  | v => v

def mmaBF (acc : Nat) (a b : List Nat) : Nat :=
  let ts := fp32.read acc :: (a.zip b).map fun p => (bf16.read p.1).mul (bf16.read p.2)
  match specialSum fp32 ts with
  | some v => v
  | none =>
    match (ts.filterMap FVal.top).foldl (fun m t => match m with
      | none => some t
      | some u => some (max u t)) (none : Option Int) with
    | none => zeroSum fp32 ts
    | some e =>
      let d := sumOf (ts.map (·.window (e - 47)))
      if d.m = 0 then 0 else fp32.roundD d

/-! ### MX packing (R84, R85) -/

/-- PackMX: the scale and the 32 elements of a block given as values. -/
def packMX (xs : List FVal) (f : Fp8) (ovf : Bool) : Nat × List Nat :=
  if xs.any FVal.isNan then (0xFF, xs.map fun _ => (fp8Fmt f).nan)
  else
    let m := (xs.filterMap FVal.top).foldl (fun m t => match m with
      | none => some t
      | some u => some (max u t)) (none : Option Int)
    let s : Int :=
      match m with
      | none => 0
      | some t => max (t - fp8Emax f) (-127)
    ((s + 127).toNat, xs.map fun v => (fp8Fmt f).convert ovf (v.scale (-s)))

/-- An MX element as a value rounded to the destination (R85). -/
def unpackMX (f : Fp8) (x el : Nat) (dst : Fmt) : Nat :=
  if x = 255 then dst.nan else dst.convert false (((fp8Fmt f).read el).scale (e8m0 x))

/-! ### Special functions (R88) -/

/-- The integer square root, bit by bit from 2^k. -/
def isqrt (n : Nat) : Nat → Nat → Nat
  | 0, r => r
  | k + 1, r => if (r + 2 ^ k) * (r + 2 ^ k) ≤ n then isqrt n k (r + 2 ^ k) else isqrt n k r

/-- A value between n and n + 1 times 2^e rounds as n + 1/2, when n has bits enough; an exact n as itself. -/
def roundSticky (neg : Bool) (n : Nat) (exact : Bool) (e : Int) : Nat :=
  fp32.round false neg (2 * n + (if exact then 0 else 1)) (e - 1)

def rcp (v : FVal) : Nat :=
  match v with
  | .nan => fp32.nan
  | .inf n => fp32.zero n
  | .fin n m e =>
    if m = 0 then fp32.infinity n false
    else
      let k := Nat.log2 m + 64
      roundSticky n (2 ^ k / m) (2 ^ k % m = 0) (-(k : Int) - e)

def rsqrt (v : FVal) : Nat :=
  match v with
  | .nan => fp32.nan
  | .inf n => if n then fp32.nan else 0
  | .fin n m e =>
    if m = 0 then fp32.infinity n false
    else if n then fp32.nan
    else
      let m := if e % 2 = 0 then m else 2 * m
      let e := if e % 2 = 0 then e else e - 1
      let k := Nat.log2 m / 2 + 66
      let y := isqrt (2 ^ (2 * k) / m) 140 0
      roundSticky false y (y * y * m = 2 ^ (2 * k)) (-(k : Int) - e / 2)

/-- Working precision of the exponential and the logarithm, in bits (log 12). -/
def prec : Nat := 320

/-- The product of 2^(2^-i) over the set bits of a fraction of n bits: c holds 2^(2^-i) times 2^prec. -/
def expBits (f : Nat) : Nat → Nat → Nat → Nat
  | 0, _, acc => acc
  | n + 1, c, acc =>
    let c := isqrt (c * 2 ^ prec) (prec + 1) 0
    expBits f n c (if f / 2 ^ n % 2 = 1 then acc * c / 2 ^ prec else acc)

def exp2 (v : FVal) : Nat :=
  match v with
  | .nan => fp32.nan
  | .inf n => if n then 0 else fp32.infinity false false
  | .fin n m e =>
    if m = 0 then 0x3F800000
    else
      -- the value as an integer part and a fraction of 149 bits
      let t : Int := (if n then -1 else 1) * (if 0 ≤ e + 149 then (m : Int) * 2 ^ (e + 149).toNat else 0)
      let i := t / 2 ^ 149
      let f := (t % 2 ^ 149).toNat
      if 129 ≤ i then fp32.infinity false false
      else if i < -151 then 0
      else if f = 0 then fp32.round false false 1 i
      else roundSticky false (expBits f 149 (2 * 2 ^ prec) (2 ^ prec)) false (i - (prec : Int))

/-- The first k bits of log2 of y / 2^prec, for 1 ≤ y / 2^prec < 2. -/
def logBits : Nat → Nat → Nat → Nat
  | 0, _, acc => acc
  | k + 1, y, acc =>
    let y := y * y / 2 ^ prec
    if 2 ^ (prec + 1) ≤ y then logBits k (y / 2) (2 * acc + 1) else logBits k y (2 * acc)

def log2 (v : FVal) : Nat :=
  match v with
  | .nan => fp32.nan
  | .inf n => if n then fp32.nan else fp32.infinity false false
  | .fin n m e =>
    if m = 0 then fp32.infinity true false
    else if n then fp32.nan
    else
      let b := Nat.log2 m
      let ex := (b : Int) + e
      if m = 2 ^ b then fp32.round false (ex < 0) ex.natAbs 0
      else
        let l := logBits 100 (m * 2 ^ prec / 2 ^ b) 0
        let t : Int := 2 * (ex * 2 ^ 100 + l) + 1
        fp32.round false (t < 0) t.natAbs (-101)

/-! ### Combine (R93) -/

/-- The fused accumulation over (gate, row element) pairs, from +0. -/
def combine : List (Nat × FVal) → Nat → Nat
  | [], a => a
  | (g, r) :: rest, a => combine rest (fp32.sum [(fp32.read g).mul r, fp32.read a])

end Sys2Proof.Machine
end

