-- ==== Sys2Proof/Machine/Atomics.lean ====
section
/-!
DEFINITION. What an atomic computes at its home port: the base operations of R133 and the device atomics of R173 and
R91, on a value of 4 or 8 bytes.
-/
namespace Sys2Proof.Machine

/-- Two BF16 lanes of a 32-bit word added independently (R91). -/
def addLanes (m s : Nat) : Nat :=
  bf16.add (m / 65536 % 65536) (s / 65536 % 65536) * 65536 + bf16.add (m % 65536) (s % 65536)

/-- The new value of a 4-byte word, and the value returned before sign extension. -/
def amo32 (op : AmoOp) (m s c : Word) : Word × Word :=
  match amoInt op m s c with
  | some n => (n, amoReturn op m s)
  | none =>
    let n :=
      match op with
      | .fadd => fp32.add m.toNat s.toNat
      | .faddBf => addLanes m.toNat s.toNat
      | .fmax => fp32.max m.toNat s.toNat
      | _ => fp32.min m.toNat s.toNat
    (BitVec.ofNat 32 n, m)

/-- The new value of an 8-byte word, and the value returned. -/
def amo64 (op : AmoOp) (m s c : Dword) : Dword × Dword :=
  match amoInt op m s c with
  | some n => (n, amoReturn op m s)
  | none => (m, m)

/-- The new value and the returned one, sign-extended, of an atomic of size bytes on the old value m. An element of a
BF16 reduce-add has 2 bytes (R92). -/
def amoCalc (op : AmoOp) (size : Nat) (m : Nat) (s c : Dword) : Nat × Dword :=
  if size = 4 then
    let r := amo32 op (BitVec.ofNat 32 m) (low32 s) (low32 c)
    (r.1.toNat, sext r.2)
  else if size = 2 then (bf16.add (m % 65536) (bits s 0 16), BitVec.ofNat 64 m)
  else
    let r := amo64 op (BitVec.ofNat 64 m) s c
    (r.1.toNat, r.2)

end Sys2Proof.Machine
end

