-- ==== Sys2Proof/Machine/Translate.lean ====
section
/-!
DEFINITION. Translation of space 0x2 (R283-R287) and the interleave of HBM (R40). A walk reads one table entry at a
time, each a step of its own; its result fills the core's and the die's TLB.
-/
namespace Sys2Proof.Machine

/-- Home pseudo-channel and address of a physical address under an interleave mode (R40). -/
def interleave (s : State) (ilv pa : Nat) : Nat × Nat :=
  let d := s.dBits
  match ilv with
  | 0 => (pa / 2 ^ 8 % 2 ^ (7 + d), pa / 2 ^ (15 + d) % 2 ^ 22 * 256 + pa % 256)
  | 1 => (pa / 2 ^ 37 % 2 ^ d * 128 + pa / 2 ^ 8 % 128, pa / 2 ^ 15 % 2 ^ 22 * 256 + pa % 256)
  | _ => (pa / 2 ^ 30 % 2 ^ (7 + d), pa % 2 ^ 30)

/-- The storage key of a physical address under module-wide interleave. -/
def State.paKey (s : State) (pa : Nat) : Nat := let r := interleave s 0 pa; hbmKey r.1 r.2
/-- Bytes of HBM by physical address under module-wide interleave: each 8-byte word on its own, as granules differ. -/
def State.paRead (s : State) (pa : Nat) : Dword := s.readD (s.paKey pa)
def State.paWrite (s : State) (pa : Nat) (v : Dword) : State := s.writeN (s.paKey pa) 8 v.toNat

/-- Fields of a table entry (R284). -/
def pteV (e : Dword) : Bool := bitAt e 0
def pteLeaf (e : Dword) : Bool := bitAt e 1
def pteU (e : Dword) : Bool := bitAt e 2
def pteR (e : Dword) : Bool := bitAt e 3
def pteW (e : Dword) : Bool := bitAt e 4
def pteXN (e : Dword) : Bool := bitAt e 5
def ptePool (e : Dword) : Bool := bitAt e 6
def pteSize (e : Dword) : Nat := bits e 7 4
/-- The page or table address: bits [49:11] in place. -/
def pteAddr (e : Dword) : Nat := bits e 11 39 * 2 ^ 11
def pteRmod (e : Dword) : Nat := bits e 50 12
def pteIlv (e : Dword) : Nat := bits e 62 2

/-- The leaf rules of Translate (R285). -/
def leafOk (lv : Nat) (e : Dword) : Bool :=
  let n := pteSize e
  decide (n ≤ 11) && decide (n / 4 + lv = 4) && decide (pteAddr e % 2 ^ (12 + 2 * n) = 0)
    && !(ptePool e && (pteIlv e != 0 || pteRmod e != 0)) && (pteIlv e == 3 || pteRmod e == 0)
/-- A pointer entry holds only V and ADDR (R284). -/
def pointerOk (e : Dword) : Bool := decide (e.toNat = 1 + pteAddr e)

/-- What one level of a walk finds (R285). -/
inductive WalkStep where
  | fault
  | leaf (e : Dword)
  | down (table : Nat)
  deriving DecidableEq, Repr

/-- Reading the entry of one level (R283, R285). A table address past the end of HBM is wrapped by the interleave (log
97). -/
def walkLevel (s : State) (w : Walk) : WalkStep :=
  let i := w.page * 4096 / 2 ^ (44 - 8 * w.level) % 256
  let e := s.paRead (w.table + 8 * i)
  if !pteV e then .fault
  else if pteLeaf e then (if leafOk w.level e then .leaf e else .fault)
  else if w.level = 4 ∨ !pointerOk e then .fault
  else .down (pteAddr e)

/-- A TLB's leaf for (ASID, va), and the TLB with that entry most recent. -/
def tlbFind (l : List TlbEntry) (asid page : Nat) : Option TlbEntry :=
  l.find? fun e => e.asid == asid && decide (e.page ≤ page) && decide (page < e.page + e.pages)
def tlbTouch (l : List TlbEntry) (e : TlbEntry) (cap : Nat) : List TlbEntry := (e :: l.filter (· != e)).take cap

def State.fillCore (s : State) (t : Nat) (e : TlbEntry) : State :=
  s.modTile t fun x => { x with tlb := tlbTouch x.tlb e 16 }
def State.fillDie (s : State) (die : Nat) (e : TlbEntry) : State :=
  { s with dieTlb := Assoc.put die (tlbTouch (Assoc.get [] s.dieTlb die) e 8192) s.dieTlb }

/-- What translating an address comes to. -/
inductive Trans where
  /-- a leaf, and the physical address (or the pooled address) of the byte -/
  | page (e : Dword) (pa : Nat)
  /-- a fault that a walk has found -/
  | fault
  /-- no TLB holds a leaf: a walk is needed -/
  | miss
  deriving DecidableEq, Repr

/-- PA of Translate: the leaf's page address above the offset in the page (R285). -/
def leafPa (e : Dword) (va : Nat) : Nat := pteAddr e + va % 2 ^ (12 + 2 * pteSize e)

/-- The TLB lookup for an access of a core of tile t, in the core's TLB and then the die's (R287). -/
def lookup (s : State) (t va : Nat) : Trans × State :=
  let x := s.tile t
  let page := va / 4096
  match tlbFind x.tlb x.core.asid page with
  | some e => (.page e.leaf (leafPa e.leaf va), s.fillCore t e)
  | none =>
    match tlbFind (Assoc.get [] s.dieTlb (globalDie t)) x.core.asid page with
    | some e => (.page e.leaf (leafPa e.leaf va), (s.fillCore t e).fillDie (globalDie t) e)
    | none => (.miss, s)

/-- The requests that a die's translation service holds, oldest first: at most 128 being walked, and 512 behind them
(R287). -/
def State.walksOf (s : State) (die : Nat) : List Walk := s.walks.filter (·.die = die)
def State.walksFull (s : State) (die : Nat) : Bool := decide (640 ≤ (s.walksOf die).length)

/-- A translation of a page is requested of the die's service, by a thread or for an engine's command; a request that is
already there serves both, and a full queue accepts none (R287). -/
def State.startWalk (s : State) (t va : Nat) (engine : Option Nat) : State :=
  let x := s.tile t
  let die := globalDie t
  let page := va / 4096
  let same (w : Walk) : Bool := w.tile == t && w.page == page && w.asid == x.core.asid
  let add (l : List Nat) : List Nat := match engine with
    | some k => if memNat k l then l else l ++ [k]
    | none => l
  if s.walks.any same then { s with walks := s.walks.map fun w => if same w then { w with engines := add w.engines } else w }
  else if s.walksFull die then s
  else
    { s with
      nextId := s.nextId + 1
      walks := s.walks ++
        [{ id := s.nextId, tile := t, die := die, asid := x.core.asid, root := x.core.ptroot, page := page
           level := 0, table := x.core.ptroot, engines := add [] }] }

/-- Threads of a tile that wait for the translation of such a page issue their access again. -/
def Tile.wakeTranslation (x : Tile) (p : Nat → Bool) : Tile :=
  x.mapTh fun h =>
    match h.need with
    | .translation page => if h.st = .queue ∧ p page then { h with st := .ready, need := .none } else h
    | _ => h

/-- A request leaves the service; if its queue was full, the threads that it could not take ask again (R287). -/
def State.endWalk (s : State) (w : Walk) : State :=
  let full := s.walksFull w.die
  let s := { s with walks := s.walks.filter (·.id ≠ w.id) }
  let s := if full then
      { s with tiles := s.tiles.map fun p => if globalDie p.1 = w.die then (p.1, p.2.wakeTranslation fun _ => true) else p }
    else s
  s.modTile w.tile (·.wakeTranslation (· == w.page))

/-- A page fault found for a page: the threads that wait for it, and the commands, take it when they come to the page
again (R130, R219, R230). -/
def Tile.pageFault (x : Tile) (w : Walk) : Tile :=
  let x := x.mapTh fun h =>
    if h.st = .queue ∧ h.need = .translation w.page then { h with walkFault := some w.page } else h
  { x with engineFaults := w.engines.map (·, w.page) ++ x.engineFaults }

/-- The page faults found for pages of an address space, forgotten. -/
def Tile.forgetFaults (x : Tile) (asid : Nat) (p : Nat → Bool) : Tile :=
  if x.core.asid = asid then
    { x.mapTh fun h => { h with walkFault := h.walkFault.filter (!p ·) } with
      engineFaults := x.engineFaults.filter fun e => !p e.2 }
  else x

/-- The walk begins again at its tile's present translation root. -/
def Walk.again (w : Walk) (s : State) : Walk :=
  let root := (s.tile w.tile).core.ptroot
  { w with level := 0, root := root, table := root }

/-- The leaf's first page and number of pages. -/
def tlbOf (w : Walk) (e : Dword) : TlbEntry :=
  let n := 4 ^ pteSize e
  { asid := w.asid, page := w.page / n * n, pages := n, leaf := e }

/-- A walk's next step, if a walker is at it: it reads one entry; the last one fills the TLBs, or leaves a page fault for
the access (R285, R287). -/
def walkComplete (s : State) (id : Nat) : State :=
  match s.walks.find? (·.id = id) with
  | none => s
  | some w =>
    if !(((s.walksOf w.die).take 128).any (·.id = id)) then s
    else
      match walkLevel s w with
      | .down a => { s with walks := s.walks.map fun v => if v.id = id then { v with level := v.level + 1, table := a } else v }
      | .leaf e => ((s.fillDie w.die (tlbOf w e)).fillCore w.tile (tlbOf w e)).endWalk w
      | .fault => (s.modTile w.tile (·.pageFault w)).endWalk w

/-- The permission part of Check in Translate: U, then R or W (R285). -/
def permitted (e : Dword) (user write : Bool) : Bool :=
  (!user || pteU e) && (if write then pteW e else pteR e)

/-- A thread's space-0x2 access: translated, or held in QUEUE while a walk runs, or faulting (R130, R285). -/
def translated (s : State) (a : Dword) (va : Nat) (write : Bool) (k : Home → Nat → Nat → State → Outcome) : Outcome :=
  let h := s.me
  let acc := if write then 7 else 5
  let pf := if write then 15 else 13
  if h.mode = .machine ∧ s.here.core.width = 0 then .next (s.trap acc a)
  else
    match lookup s s.cur.tile va with
    | (.page e pa, s) =>
      if ptePool e ∨ pteIlv e = 3 then .next (s.trap acc a)
      else if !permitted e (h.mode == .user) write then .next (s.trap pf a)
      else if s.hbmEnd ≤ pa then .next (s.trap pf a)
      else
        let r := interleave s (pteIlv e) pa
        k (.chan r.1) r.2 3 (s.modMe fun h => { h with walkFault := none })
    | (_, s) =>
      if h.walkFault = some (va / 4096) then .next ((s.modMe fun h => { h with walkFault := none }).trap pf a)
      else .next ((s.startWalk s.cur.tile va none).block .queue (.translation (va / 4096)))

end Sys2Proof.Machine
end

