-- ==== Sys2Proof/Machine/Request.lean ====
section
/-!
DEFINITION. Routed requests of a thread (R128, R150): the request entry, the packet, the interval accounting of a
fabric store (R174, R175); what FENCE waits for (R137); a local access at the port (R127).
-/
namespace Sys2Proof.Machine

/-- Entries the thread at the cursor holds. -/
def State.myEntries (s : State) : List ReqEntry :=
  s.here.reqs.filter fun e => e.slot == s.cur.slot.val && e.epoch == s.me.epoch

/-- A request entry is free: fewer than 256 held by the core and 64 by the thread (R128). -/
def State.entryFree (s : State) : Bool := decide (s.here.reqs.length < 256) && decide (s.myEntries.length < 64)

/-- A routed request issues when it can take an entry, and is held in QUEUE otherwise (R128). -/
def needEntry (s : State) (k : State → Outcome) : Outcome :=
  if s.entryFree then k s else .next (s.block .queue .entry)

/-- Faults of an M-mode thread's or a handler's request are only logged (R268). -/
def State.quietFaults (s : State) : Bool := s.me.mode == .machine || s.handler

/-- The request of the thread at the cursor: an entry and a packet of the same number. A request to another module waits
to be placed on its link, in issue order; a fabric store's entry is free once it is (R174). -/
def State.issue (s : State) (op : Op) (home : Home) (off cls : Nat) (a : Dword) (e : ReqEntry) : State :=
  let id := s.nextId
  let p : Packet :=
    { id := id, op := op, org := s.meOrigin, home := home, off := off, addr := a, cls := cls, req := id
      absolute := cls == 4, opc := s.me.pc, group := e.group }
  let e := { e with
    id := id
    slot := s.cur.slot
    epoch := s.me.epoch
    opc := s.me.pc
    target := a
    quiet := s.quietFaults }
  let s := { s with nextId := id + 1 }
  let s := s.modHere fun x => { x with reqs := x.reqs ++ [e] }
  match home with
  | .module .. => { s with fabricOut := s.fabricOut ++ [p] }
  | _ => { s with net := s.net ++ [p] }

/-- x0 is not scoreboarded (R95). -/
def scoreOf (rd : Reg) : Option Reg := if rd = 0 then none else some rd

/-! ### Paths to other modules (R292, R303) -/

/-- The fabric partition of a job (R292). -/
def fabricPart (s : State) (job : Nat) : Option Part := s.parts.find? fun q => q.jobid == job && !q.table.isEmpty

/-- The port of a flow: of a core's slot to a module of its job. -/
def pathPort (s : State) (t slot m : Nat) : Option Nat :=
  let c := (s.tile t).core
  match fabricPart s c.jobid with
  | none => none
  | some q =>
    let dest := q.table.getD m 4096
    match Assoc.get [] s.routes dest with
    | [] => none
    | ps => ps[Config.routeHash dest (s.tile t).lidx slot % ps.length]?

/-- The slot whose flow a message belongs to: a thread's own, or the slot that queued an engine's command (R303). -/
def flowSlot (p : Packet) : Nat := if p.org.party = .thread then p.org.slot else p.bySlot

/-- The port by which a message leaves: a request's by the hash of its flow; an answer's is the one its request came by (log
33). -/
def outPort (s : State) (p : Packet) : Option Nat :=
  if p.org.fab then some p.port
  else
    match p.home with
    | .module m _ _ => pathPort s p.org.tile (flowSlot p) m
    | _ => none

/-! ### Fabric intervals (R174, R175) -/

/-- The lowest free entry number of an interval table. -/
def freeIdx (l : List Interval) : Nat :=
  ((upTo 4).find? fun i => !(l.any fun e => e.idx == i)).getD 0

/-- A check of interval entries: each leaves the table, and its packet goes to the module's gateway (R175, R177,
R178). OPC of a mismatch is the pc of the FENCEF or of the store that forces the check; of a check at pre-emption, for
which R270 gives none, the pc of the thread (log 92). -/
def State.sendChecks (s : State) (explicit : Bool) (l : List Interval) : State :=
  l.foldl
    (fun s e =>
      let id := s.nextId
      let p : Packet :=
        { id := id, op := .check e.module e.sent, org := s.meOrigin, home := .module e.module 0 0, req := id }
      ({ s with nextId := id + 1, fabricOut := s.fabricOut ++ [p] }).modMe fun h =>
        { h with
          intervals := h.intervals.filter fun i => i.module ≠ e.module
          checks := h.checks ++
            [({ id := id, opc := h.pc, explicit := explicit, idx := e.idx, module := e.module, sent := e.sent } : Check)] }) s

/-- The trap value of cause 28 (R179). -/
def countValue (c : Check) (rcvd : Nat) : Dword := BitVec.ofNat 64 (field 48 12 c.module + field 24 24 c.sent + field 0 24 rcvd)
/-- The fault of a mismatched check (R179, R270). -/
def countFault (c : Check) (rcvd ts : Nat) : FaultRec :=
  { cause := 28, val := countValue c rcvd, opc := c.opc, fab := true, ts := ts }

/-- A fault of the thread at the cursor becomes pending, or is only logged for M-mode and handlers; a slot holds one
cause 28 (R268). -/
def State.pendMine (s : State) (f : FaultRec) : State :=
  if s.quietFaults then s.logError s.cur.tile 3 s.here.lidx false s.cur.slot f.reason f.target f.opc
  else s.modMe fun h => if h.pend.any (·.cause == 28) then h else { h with pend := h.pend ++ [f] }

/-- The answers of implicit checks take effect at the store that forced them: a mismatch becomes pending, an
unchecked answer sets UNCHK (R175, R179). -/
def State.settleChecks (s : State) : State :=
  let l := s.me.checks.filter fun c => !c.explicit && c.answer.isSome
  let s := s.modMe fun h => { h with checks := h.checks.filter fun c => c.explicit || c.answer.isNone }
  l.foldl
    (fun s c =>
      match c.answer with
      | some (1, rcvd) => s.pendMine (countFault c rcvd s.tsc)
      | some (2, _) => s.modMe fun h => { h with unchk := true }
      | _ => s) s

/-- A fabric store counts in its module's entry, or first has an entry checked and freed (R175). -/
def countFabric (s : State) (m : Nat) (k : State → Outcome) : Outcome :=
  if s.me.checks.any (fun c => !c.explicit && c.answer.isNone) then .next (s.block .queue .intervalCheck)
  else
    let s := s.settleChecks
    let l := s.me.intervals
    match l.find? (·.module = m) with
    | some e =>
      if e.sent < 2 ^ 24 - 1 then
        k (s.modMe fun h => { h with intervals := h.intervals.map fun i => if i.module = m then { i with sent := i.sent + 1 } else i })
      else .next ((s.sendChecks false [e]).block .queue .intervalCheck)
    | none =>
      if l.length < 4 then
        k (s.modMe fun h => { h with intervals := h.intervals ++ [{ module := m, sent := 1, idx := freeIdx h.intervals }] })
      else .next ((s.sendChecks false (l.take 1)).block .queue .intervalCheck)

/-- The home of a located access of a thread: translated in space 0x2, routed otherwise. -/
def withHome (s : State) (a : Dword) (l : Loc) (write : Bool) (k : Home → Nat → Nat → State → Outcome) : Outcome :=
  match l with
  | .global va => translated s a va write k
  | l =>
    match routeOf s s.cur.tile l with
    | some (h, off, cls) => k h off cls s
    | none => .next s

/-- A posted write: it takes an entry, counts as a fabric store to another module, and the thread goes on (R128). -/
def post (s : State) (op : Op) (a : Dword) (l : Loc) (k : State → State) : Outcome :=
  needEntry s fun s =>
    withHome s a l true fun home off cls s =>
      match home with
      | .module m _ _ => countFabric s m fun s => .next (k (s.issue op home off cls a {}))
      | _ => .next (k (s.issue op home off cls a {}))

/-- A request whose result returns to x[rd]: the register is scoreboarded and the thread goes on (R128). -/
def request (s : State) (op : Op) (a : Dword) (l : Loc) (write : Bool) (rd : Reg) (size : Nat) (signed : Bool)
    (k : State → State) : Outcome :=
  needEntry s fun s =>
    withHome s a l write fun home off cls s =>
      .next (k (s.issue op home off cls a { rd := scoreOf rd, size := size, signed := signed }))

/-- What FENCE waits for: every entry the thread holds (R137). The thread is in SCORE until then. -/
def awaitAll (s : State) (k : State → Outcome) : Outcome :=
  if s.myEntries.isEmpty then k s else .next (s.block .score .entry)

/-- RL = 1: as if a FENCE preceded (R134). -/
def release (rl : Bool) (s : State) (k : State → Outcome) : Outcome := if rl then awaitAll s k else k s
/-- AQ = 1: as if a FENCE followed, which holds back nothing when the thread has no entry (R134). -/
def State.acquireIf (s : State) (aq : Bool) : State :=
  if aq ∧ !s.myEntries.isEmpty then s.modMe fun h => { h with acquire := true } else s

/-! ### Local accesses (R127) -/

/-- A value loaded from bytes (R125). -/
def loadExt (size : Nat) (signed : Bool) (v : Nat) : Dword :=
  if signed then BitVec.ofInt 64 (Int.bmod (v % 2 ^ (8 * size)) (2 ^ (8 * size))) else BitVec.ofNat 64 (v % 2 ^ (8 * size))

/-- The result is written at once and may be read n cycles after the present one; x0 is never waited for. -/
def Thread.wxIn (h : Thread) (rd : Reg) (v : Dword) (cycle n : Nat) : Thread :=
  if rd = 0 then h
  else { h.wx rd v with lat := (rd, cycle + n) :: h.lat.filter fun p => p.1 ≠ rd ∧ cycle < p.2 }
def State.wxIn (s : State) (rd : Reg) (v : Dword) (n : Nat) : State := s.modMe (·.wxIn rd v s.here.cycle n)
/-- The result of a local load or a multiply: after 3 cycles (R121, R127). -/
def State.wxLate (s : State) (rd : Reg) (v : Dword) : State := s.wxIn rd v 3

/-- An uncorrectable word in a local access: cause 32 precisely (R131). In machine RAM it is logged instead and left
to the firmware (R276). -/
def localMark (s : State) (a : Dword) (off size : Nat) (k : State → Outcome) : Outcome :=
  if s.markedIn (tileKey s.cur.tile off) size then
    if off < mramBase then .next (s.trap 32 a)
    else k (s.ramFound s.cur.tile a (tileKey s.cur.tile off) size)
  else k s

/-- A local write waits while another thread's LR holds the granule (R136). -/
def portFree (s : State) (off size : Nat) (k : State → Outcome) : Outcome :=
  if s.here.held s.cur.tile (s.localWriter size) off size then .next (s.block .unit .hold) else k s

/-- The storage key of a TOFF of the own tile. -/
def State.myKey (s : State) (off : Nat) : Nat := tileKey s.cur.tile off

/-- A local store: one step of the thread's own (R127). -/
def State.storeLocal (s : State) (off size : Nat) (v : Nat) : State :=
  s.stepWrite s.cur.tile [(off, leBytes size v)] (s.localWriter size) off

end Sys2Proof.Machine
end

