-- ==== Sys2Proof/Machine/Memory.lean ====
section
/-!
DEFINITION. Loads and stores, the base atomics, and load-reserved with store-conditional (R125-R136).
-/
namespace Sys2Proof.Machine

/-- The check of R32 on a thread's access, with the causes of its kind: 5 and 4 for a load, 7 and 6 otherwise. -/
def checked (s : State) (write : Bool) (a : Dword) (size align : Nat) (k : Loc → Outcome) : Outcome :=
  match checkAddr s s.me.mode a size align with
  | .error .access => .next (s.trap (if write then 7 else 5) a)
  | .error .misaligned => .next (s.trap (if write then 6 else 4) a)
  | .ok l => k l

/-- A load (R125-R131). Space 0x6 takes lw and ld only (R126). -/
def load (size : Nat) (signed : Bool) (rd rs1 : Reg) (imm : BitVec 12) (s : State) : Outcome :=
  let a := s.rx rs1 + sext imm
  checked s false a size size fun l =>
    match l.localOff with
    | some off =>
      localMark s a off size fun s =>
        .next (s.wxLate rd (loadExt size signed (s.readN (s.myKey off) size))).retire
    | none =>
      match l with
      | .mgmt .. =>
        if 4 ≤ size ∧ signed then request s (.load size) a l false rd size signed (·.retire) else .next (s.trap 5 a)
      | _ => request s (.load size) a l false rd size signed (·.retire)

/-- A store (R125-R129). Space 0x6 takes sw and sd only (R126). -/
def store (size : Nat) (rs1 rs2 : Reg) (imm : BitVec 12) (s : State) : Outcome :=
  let a := s.rx rs1 + sext imm
  let v := (s.rx rs2).toNat % 2 ^ (8 * size)
  checked s true a size size fun l =>
    match l.localOff with
    | some off => portFree s off size fun s => .next (s.storeLocal off size v).retire
    | none =>
      match l with
      | .mgmt .. => if 4 ≤ size then post s (.store size v) a l (·.retire) else .next (s.trap 7 a)
      | _ => post s (.store size v) a l (·.retire)

/-- A local atomic: one step at the port (R127, R133). On a marked word it writes nothing (R131): it traps on one of the
scratchpad, and on one of machine RAM it returns the word's bits (R276). -/
def localAmo (op : AmoOp) (size : Nat) (rd : Reg) (a src cmp : Dword) (off : Nat) (aq : Bool) (s : State) : Outcome :=
  portFree s off size fun s =>
    localMark s a off size fun s =>
      let r := amoCalc op size (s.readN (s.myKey off) size) src cmp
      let s := if s.markedIn (s.myKey off) size then s else s.storeLocal off size r.1
      .next ((s.wxLate rd r.2).acquireIf aq).retire

/-- A base atomic (R126, R133, R134). -/
def amo (op : AmoOp) (size : Nat) (rd rs1 rs2 : Reg) (aq rl : Bool) (s : State) : Outcome :=
  let a := s.rx rs1
  checked s true a size size fun l =>
    match l with
    | .mgmt .. | .host .. => .next (s.trap 7 a)
    | _ =>
      release rl s fun s =>
        match l.localOff with
        | some off => localAmo op size rd a (s.rx rs2) 0 off aq s
        | none => request s (.amo op size (s.rx rs2) 0) a l true rd size true (fun s => (s.acquireIf aq).retire)

/-- The reservation of LR and its hold: none when the thread's last hold ended less than 32 cycles ago (R135, R136). -/
def Thread.reserve (h : Thread) (off size cycle : Nat) : Thread :=
  let last := h.holdEnded cycle
  let free :=
    match last with
    | none => true
    | some e => decide (e + 32 ≤ cycle)
  { h with
    resv := some { granule := off / 8 * 8, size := size }
    lastHold := last
    holdEnd := if free then some (cycle + 32) else none }

/-- LR: at a local address only (R126, R134, R135). -/
def loadReserved (size : Nat) (rd rs1 : Reg) (aq rl : Bool) (s : State) : Outcome :=
  let a := s.rx rs1
  checked s false a size size fun l =>
    match l.localOff with
    | none => .next (s.trap 5 a)
    | some off =>
      release rl s fun s =>
        localMark s a off size fun s =>
          let s := s.acquireIf aq
          let v := loadExt size true (s.readN (s.myKey off) size)
          let c := s.here.cycle
          let s := s.modHere (·.wakeHold)
          .next ((s.modMe (·.reserve off size c)).wxLate rd v).retire

/-- SC: at a local address only (R126, R134, R135, R136). -/
def storeConditional (size : Nat) (rd rs1 rs2 : Reg) (aq rl : Bool) (s : State) : Outcome :=
  let a := s.rx rs1
  checked s true a size size fun l =>
    match l.localOff with
    | none => .next (s.trap 7 a)
    | some off =>
      release rl s fun s =>
        portFree s off size fun s =>
          let s := s.acquireIf aq
          let ok := s.me.resv == some { granule := off / 8 * 8, size := size }
          let c := s.here.cycle
          let v := (s.rx rs2).toNat % 2 ^ (8 * size)
          let s := (s.modMe (·.clearResv c)).modHere (·.wakeHold)
          if ok then .next ((s.storeLocal off size v).wxLate rd 0).retire else .next (s.wxLate rd 1).retire

/-- LB (R125). -/
def execLb (rd rs1 : Reg) (imm : BitVec 12) (s : State) : Outcome :=
  load 1 true rd rs1 imm s

/-- LH (R125). -/
def execLh (rd rs1 : Reg) (imm : BitVec 12) (s : State) : Outcome :=
  load 2 true rd rs1 imm s

/-- LW (R125). -/
def execLw (rd rs1 : Reg) (imm : BitVec 12) (s : State) : Outcome :=
  load 4 true rd rs1 imm s

/-- LD (R125). -/
def execLd (rd rs1 : Reg) (imm : BitVec 12) (s : State) : Outcome :=
  load 8 true rd rs1 imm s

/-- LBU (R125). -/
def execLbu (rd rs1 : Reg) (imm : BitVec 12) (s : State) : Outcome :=
  load 1 false rd rs1 imm s

/-- LHU (R125). -/
def execLhu (rd rs1 : Reg) (imm : BitVec 12) (s : State) : Outcome :=
  load 2 false rd rs1 imm s

/-- LWU (R125). -/
def execLwu (rd rs1 : Reg) (imm : BitVec 12) (s : State) : Outcome :=
  load 4 false rd rs1 imm s

/-- SB (R125). -/
def execSb (rs1 rs2 : Reg) (imm : BitVec 12) (s : State) : Outcome :=
  store 1 rs1 rs2 imm s

/-- SH (R125). -/
def execSh (rs1 rs2 : Reg) (imm : BitVec 12) (s : State) : Outcome :=
  store 2 rs1 rs2 imm s

/-- SW (R125). -/
def execSw (rs1 rs2 : Reg) (imm : BitVec 12) (s : State) : Outcome :=
  store 4 rs1 rs2 imm s

/-- SD (R125). -/
def execSd (rs1 rs2 : Reg) (imm : BitVec 12) (s : State) : Outcome :=
  store 8 rs1 rs2 imm s

/-- LR.W (R135). -/
def execLrW (rd rs1 : Reg) (aq rl : Bool) (s : State) : Outcome :=
  loadReserved 4 rd rs1 aq rl s

/-- SC.W (R135). -/
def execScW (rd rs1 rs2 : Reg) (aq rl : Bool) (s : State) : Outcome :=
  storeConditional 4 rd rs1 rs2 aq rl s

/-- LR.D (R135). -/
def execLrD (rd rs1 : Reg) (aq rl : Bool) (s : State) : Outcome :=
  loadReserved 8 rd rs1 aq rl s

/-- SC.D (R135). -/
def execScD (rd rs1 rs2 : Reg) (aq rl : Bool) (s : State) : Outcome :=
  storeConditional 8 rd rs1 rs2 aq rl s

/-- AMOSWAP.W (R133). -/
def execAmoswapW (rd rs1 rs2 : Reg) (aq rl : Bool) (s : State) : Outcome :=
  amo .swap 4 rd rs1 rs2 aq rl s

/-- AMOSWAP.D (R133). -/
def execAmoswapD (rd rs1 rs2 : Reg) (aq rl : Bool) (s : State) : Outcome :=
  amo .swap 8 rd rs1 rs2 aq rl s

/-- AMOADD.W (R133). -/
def execAmoaddW (rd rs1 rs2 : Reg) (aq rl : Bool) (s : State) : Outcome :=
  amo .add 4 rd rs1 rs2 aq rl s

/-- AMOADD.D (R133). -/
def execAmoaddD (rd rs1 rs2 : Reg) (aq rl : Bool) (s : State) : Outcome :=
  amo .add 8 rd rs1 rs2 aq rl s

/-- AMOXOR.W (R133). -/
def execAmoxorW (rd rs1 rs2 : Reg) (aq rl : Bool) (s : State) : Outcome :=
  amo .xor 4 rd rs1 rs2 aq rl s

/-- AMOXOR.D (R133). -/
def execAmoxorD (rd rs1 rs2 : Reg) (aq rl : Bool) (s : State) : Outcome :=
  amo .xor 8 rd rs1 rs2 aq rl s

/-- AMOAND.W (R133). -/
def execAmoandW (rd rs1 rs2 : Reg) (aq rl : Bool) (s : State) : Outcome :=
  amo .and 4 rd rs1 rs2 aq rl s

/-- AMOAND.D (R133). -/
def execAmoandD (rd rs1 rs2 : Reg) (aq rl : Bool) (s : State) : Outcome :=
  amo .and 8 rd rs1 rs2 aq rl s

/-- AMOOR.W (R133). -/
def execAmoorW (rd rs1 rs2 : Reg) (aq rl : Bool) (s : State) : Outcome :=
  amo .or 4 rd rs1 rs2 aq rl s

/-- AMOOR.D (R133). -/
def execAmoorD (rd rs1 rs2 : Reg) (aq rl : Bool) (s : State) : Outcome :=
  amo .or 8 rd rs1 rs2 aq rl s

/-- AMOMIN.W (R133). -/
def execAmominW (rd rs1 rs2 : Reg) (aq rl : Bool) (s : State) : Outcome :=
  amo .min 4 rd rs1 rs2 aq rl s

/-- AMOMIN.D (R133). -/
def execAmominD (rd rs1 rs2 : Reg) (aq rl : Bool) (s : State) : Outcome :=
  amo .min 8 rd rs1 rs2 aq rl s

/-- AMOMAX.W (R133). -/
def execAmomaxW (rd rs1 rs2 : Reg) (aq rl : Bool) (s : State) : Outcome :=
  amo .max 4 rd rs1 rs2 aq rl s

/-- AMOMAX.D (R133). -/
def execAmomaxD (rd rs1 rs2 : Reg) (aq rl : Bool) (s : State) : Outcome :=
  amo .max 8 rd rs1 rs2 aq rl s

/-- AMOMINU.W (R133). -/
def execAmominuW (rd rs1 rs2 : Reg) (aq rl : Bool) (s : State) : Outcome :=
  amo .minu 4 rd rs1 rs2 aq rl s

/-- AMOMINU.D (R133). -/
def execAmominuD (rd rs1 rs2 : Reg) (aq rl : Bool) (s : State) : Outcome :=
  amo .minu 8 rd rs1 rs2 aq rl s

/-- AMOMAXU.W (R133). -/
def execAmomaxuW (rd rs1 rs2 : Reg) (aq rl : Bool) (s : State) : Outcome :=
  amo .maxu 4 rd rs1 rs2 aq rl s

/-- AMOMAXU.D (R133). -/
def execAmomaxuD (rd rs1 rs2 : Reg) (aq rl : Bool) (s : State) : Outcome :=
  amo .maxu 8 rd rs1 rs2 aq rl s

end Sys2Proof.Machine
end

