-- ==== Sys2Proof/Machine/Sync.lean ====
section
/-!
DEFINITION. The steps on riser words and barriers at their home port (R151, R157, R158, R166-R168, R274), shared by
the instructions performed at the own port and by the arrivals from the router.
-/
namespace Sys2Proof.Machine

/-! ### Risers -/

/-- The top three bytes of a poisoned riser: POISON, CLASS, POISONER (R151). -/
def poisonTop (cls src : Nat) : Nat := field 23 1 1 + field 20 3 cls + field 0 20 src
/-- The COUNT bytes of a riser advanced by n: no other field changes, and the word keeps its mark (R157, R275). -/
def countPiece (s : State) (t off n : Nat) : Nat × List Byte :=
  (off, leBytes 5 (riserCount (s.readD (tileKey t off)) + n))
def poisonPiece (off cls src : Nat) : Nat × List Byte := (off + 5, leBytes 3 (poisonTop cls src))

/-- A riser advance: one step (R157). -/
def State.riserAdvance (s : State) (t off n : Nat) (w : Writer) : State := s.stepWrite t [countPiece s t off n] w off
/-- A riser poisoned by RPOISON (R157). -/
def State.riserPoisoned (s : State) (t off cls src : Nat) (w : Writer) : State :=
  s.stepWrite t [poisonPiece off cls src] w off
/-- An advance that may carry poison: a release, or an engine's riser step (R168, R214, R220). -/
def State.riserSignal (s : State) (t off n : Nat) (poison : Option (Nat × Nat)) (w : Writer) : State :=
  let p :=
    match poison with
    | some (c, src) => [poisonPiece off c src]
    | none => []
  s.stepWrite t (countPiece s t off n :: p) w off

/-- A counted store: the data first, then COUNT, in one step (R158). -/
def State.countedStep (s : State) (t off roff : Nat) (data : List Byte) (w : Writer) : State :=
  let after := s.writeB (tileKey t off) data
  s.stepWrite t [(off, data), countPiece after t roff 1] w off

/-! ### Barriers -/

/-- The events of Step in R167. -/
inductive BarEvent where
  | init (w0 w1 : Dword)
  | arrive (gtag : Nat)
  | expect (i o : Nat)
  | inDone (failed : Bool)
  | outDone (failed : Bool)
  | poison (cls : Nat)
  deriving DecidableEq, Repr

def barGen (w0 : Dword) : Nat := bits w0 0 4
def barExpected (w0 : Dword) : Nat := bits w0 4 20
def barPending (w0 : Dword) : Nat := bits w0 24 20
/-- A two's-complement field of nine bits (R166). -/
def signed9 (n : Nat) : Int := if n < 256 then (n : Int) else (n : Int) - 512
def barInbound (w0 : Dword) : Int := signed9 (bits w0 44 9)
def barOutbound (w0 : Dword) : Int := signed9 (bits w0 53 9)
def barPoison (w0 : Dword) : Bool := bitAt w0 63
def nine (x : Int) : Nat := (x % 512).toNat

/-- What a step on a barrier leaves and causes: the words, the result, a release and its count, and the field found
at -256 (0 none, 1 INBOUND, 2 OUTBOUND). -/
structure BarOut where
  w0 : Dword
  w1 : Dword
  result : Option Dword := none
  release : Option Nat := none
  held : Nat := 0
  deriving DecidableEq, Repr

def barResult (st gen : Nat) (last : Bool) : Dword := BitVec.ofNat 64 (field 8 1 (b2n last) + field 4 4 gen + st)

/-- The end of Step: the phase completes when nothing more is awaited (R167). -/
def barEnd (w0 w1 : Dword) (g : Nat) (last : Bool) (held : Nat) (wants : Bool) : BarOut :=
  let st := b2n (barPoison w0)
  let result := if wants then some (barResult st g last) else none
  if barPending w0 = 0 ∧ barInbound w0 = 0 ∧ barOutbound w0 = 0 then
    { w0 := putBits (putBits w0 0 4 (barGen w0 + 1)) 24 20 (barExpected w0)
      w1 := w1
      result := result
      release := some 1
      held := held }
  else { w0 := w0, w1 := w1, result := result, held := held }

/-- A failed transfer poisons the barrier with class 1 (R167). -/
def barFail (failed : Bool) (w0 w1 : Dword) : Dword × Dword :=
  if failed then (putBits w0 63 1 1, putBits w1 56 3 1) else (w0, w1)

/-- Step of R167 on the two words of a barrier. -/
def barStep (w0 w1 : Dword) (e : BarEvent) : BarOut :=
  let overrun := putBits w0 62 1 1
  match e with
  | .init a b => { w0 := a, w1 := putBits b 60 4 0 }
  | .arrive gtag =>
    if gtag ≠ barGen w0 ∨ barPending w0 = 0 then
      { w0 := overrun, w1 := w1, result := some (barResult 2 (barGen w0) false) }
    else
      let p := barPending w0 - 1
      barEnd (putBits w0 24 20 p) w1 (barGen w0) (p == 0) 0 true
  | .expect i o =>
    let i' := barInbound w0 + i
    let o' := barOutbound w0 + o
    if 255 < i' ∨ 255 < o' then { w0 := overrun, w1 := w1, result := some (barResult 2 (barGen w0) false) }
    else barEnd (putBits (putBits w0 44 9 (nine i')) 53 9 (nine o')) w1 (barGen w0) false 0 true
  | .inDone f =>
    let held := barInbound w0 == -256
    let w := barFail f (if held then overrun else putBits w0 44 9 (nine (barInbound w0 - 1))) w1
    barEnd w.1 w.2 0 false (if held then 1 else 0) false
  | .outDone f =>
    let held := barOutbound w0 == -256
    let w := barFail f (if held then overrun else putBits w0 53 9 (nine (barOutbound w0 - 1))) w1
    barEnd w.1 w.2 0 false (if held then 2 else 0) false
  | .poison c => { w0 := putBits w0 63 1 1, w1 := putBits w1 56 3 c, release := some 0 }

/-- The bytes of a barrier step: BINIT writes both words whole, the others change fields, so that a mark stays
(R166, R275). -/
def barPieces (e : BarEvent) (off : Nat) (b : BarOut) : List (Nat × List Byte) :=
  let w0 := leBytes 8 b.w0.toNat
  let w1 := leBytes 8 b.w1.toNat
  match e with
  | .init .. => [(off, w0 ++ w1)]
  | _ => [(off, w0.take 4), (off + 4, w0.drop 4), (off + 8, w1.take 4), (off + 12, w1.drop 4)]

/-- The partition-relative cores of a release: the rectangle of word 1, cut to the home core's partition (R168). -/
def releaseCores (c : CoreRegs) (w1 : Dword) : List (Nat × Nat) :=
  let y0 := bits w1 46 10
  let x0 := bits w1 36 10
  let h := if bitAt w1 59 then 1024 else bits w1 26 10
  let w := bits w1 16 10
  (upTo (min h (c.height - y0))).flatMap fun i => (upTo (min w (c.width - x0))).map fun j => (y0 + i, x0 + j)

/-- Release(b, n): one signal to the riser at 8 · RELOFF on every released core (R168). -/
def State.sendReleases (s : State) (t : Nat) (w0 w1 : Dword) (n : Nat) : State :=
  let x := s.tile t
  let org : Origin :=
    { party := .barrier, tile := t, lidx := x.lidx, pid := x.core.pid, job := x.core.jobid, omod := x.core.jmod }
  (releaseCores x.core w1).foldl
    (fun s p =>
      { s with
        nextId := s.nextId + 1
        net := s.net ++
          [{ id := s.nextId, op := .release n (barPoison w0) (bits w1 56 3), org := org
             home := .tile (s.meshTile t p.1 p.2), off := 8 * bits w1 0 16 }] }) s

/-- One barrier step at its home port, with its release: the result, and the field found at -256. -/
def State.barrierStep (s : State) (t off : Nat) (e : BarEvent) (w : Writer) : State × Option Dword × Nat :=
  let b := barStep (s.readD (tileKey t off)) (s.readD (tileKey t (off + 8))) e
  let s := s.stepWrite t (barPieces e off b) w off
  let s :=
    match b.release with
    | some n => s.sendReleases t b.w0 b.w1 n
    | none => s
  (s, b.result, b.held)

end Sys2Proof.Machine
end

