-- ==== Sys2Proof/Machine/Thread.lean ====
section
/-!
DEFINITION. The instructions of threads, messages and synchronisation (R43-R59, R149-R180), and the three machine-only
instructions of boot firmware (R143-R147).
-/
namespace Sys2Proof.Machine

/-! ### Ending, yielding, priority -/

/-- The thread ends when no division of its own is in progress (R46, R121). -/
def endMine (s : State) : Outcome :=
  match s.here.divider with
  | some (_, sl, ep, _, _) =>
    if sl = s.cur.slot.val ∧ ep = s.me.epoch then .next (s.block .unit .divider)
    else .next (s.retire.emptySlot s.cur.tile s.cur.slot)
  | none => .next (s.retire.emptySlot s.cur.tile s.cur.slot)

/-- QUIT: illegal in a handler (R46, R57). -/
def execQuit (s : State) : Outcome := if s.handler then .next s.illegal else endMine s

/-- YIELD: retiring leaves WAIT 0 and LastIssued of the level at the thread (R49); no effect in a handler (R57). -/
def execYield (s : State) : Outcome := .next s.retire

/-- HRET: illegal in a general thread (R46, R57). -/
def execHret (s : State) : Outcome := if s.handler then endMine s else .next s.illegal

/-- SETPRIO: no effect in a handler (R57, R162). -/
def execSetprio (rs1 : Reg) (s : State) : Outcome :=
  let p := min 3 (s.rx rs1).toNat
  if s.handler then .next s.retire else .next (s.retire.modMe fun h => { h with prio := p })

/-- UTRAP (R164). -/
def execUtrap (rs1 : Reg) (s : State) : Outcome := .next (s.trap 31 (s.rx rs1))

/-- RMARK: no effect in M-mode and in handlers (R165). -/
def execRmark (rs1 : Reg) (s : State) : Outcome :=
  let m := bits (s.rx rs1) 0 32
  if s.me.mode = .machine ∨ s.handler then .next s.retire
  else if m = 0 then .next (s.modMe fun h => { h with jrmark := putBits h.jrmark 63 1 0 }).retire
  else
    .next (s.modMe fun h =>
      { h.snapshot m with
        jrmark := BitVec.ofNat 64 (field 63 1 1 + field 32 19 (h.pc + 4).toNat + m / 2 * 2) }).retire

/-! ### Spawns and messages (R45, R50-R56, R159-R161) -/

/-- The originator identity of R45, for a request that crosses the fabric or not. -/
def State.identity (s : State) (fab : Bool) : Dword :=
  let c := s.here.core
  BitVec.ofNat 64 (field 62 1 (b2n fab) + (if fab then field 48 12 c.jmod else 0) + field 30 10 c.relY
    + field 20 10 c.relX + s.cur.slot.val)

/-- Entry, the four arguments of a quad, identity and effective priority. -/
def State.message (s : State) (entry : Dword) (quad : Reg) (fab : Bool) : Message :=
  { entry := entry
    a0 := s.rgroup quad 0
    a1 := s.rgroup quad 1
    a2 := s.rgroup quad 2
    a3 := s.rgroup quad 3
    ident := s.identity fab
    prio := s.here.eprio s.me }

/-- The request leaves the module. -/
def crosses : Home → Bool
  | .module .. => true
  | _ => false

/-- A spawn or message to one core: an entry, a record of its attempts and its first attempt (R51, R52). -/
def State.send (s : State) (op : Message → Op) (m : Bool → Message) (home : Home) (a : Dword) (rd : Reg) (tag : Nat) :
    State :=
  let op := op (m (crosses home))
  let s' := s.issue op home 0 0 a { rd := scoreOf rd, tag := tag }
  { s' with
    spawns := s'.spawns ++
      [{ id := s.nextId, org := s.meOrigin, home := home, op := op, addr := a, req := s.nextId }] }

/-- The core that an address names, by checks 1 and 2 of R32 with cause 5; its offset is ignored (R159). -/
def coreOf (s : State) (a : Dword) (k : Loc → Home → Outcome) : Outcome :=
  match locate s s.me.mode a with
  | some l =>
    match l with
    | .own _ | .mesh .. | .fabric .. =>
      match routeOf s s.cur.tile l with
      | some (h, _, _) => k l h
      | none => .next (s.trap 5 a)
    | _ => .next (s.trap 5 a)
  | none => .next (s.trap 5 a)

/-- SPAWN (R159). -/
def execSpawn (rd rs1 rs2 rs3 : Reg) (s : State) : Outcome :=
  let a := s.rx rs2
  coreOf s a fun _ home =>
    needEntry s fun s => .next (s.send .spawn (s.message (s.rx rs3) rs1) home a rd 0).retire

/-- AMSG (R55, R159). -/
def execAmsg (rd rs1 rs2 rs3 : Reg) (s : State) : Outcome :=
  let a := s.rx rs2
  coreOf s a fun _ home =>
    needEntry s fun s => .next (s.send .message (s.message (s.rx rs3) rs1) home a rd 0).retire

/-- COUNTi of jcload (R53). -/
def loadCount (v : Dword) (i : Nat) : Nat := bits v (4 * i) 4
/-- The choice of SPAWNA: the largest COUNT, then the smallest (i - own) mod 16; none when every COUNT is 0 (R53). -/
def bestCluster (v : Dword) (own : Nat) : Option Nat :=
  (upTo 16).foldl
    (fun b k =>
      let i := (own + k) % 16
      match b with
      | none => if loadCount v i = 0 then none else some i
      | some j => if loadCount v j < loadCount v i then some i else some j) none

/-- The tile of a cluster index in the cluster of tile t's core (R27). -/
def State.clusterTile (s : State) (t i : Nat) : Nat :=
  let x := s.tile t
  (s.core (x.core.gy / 4 * 4 + i / 4) (x.core.gx / 4 * 4 + i % 4)).getD nowhere

/-- SPAWNA (R53, R160). -/
def execSpawna (rd rs1 rs2 : Reg) (s : State) : Outcome :=
  match bestCluster s.here.core.jcload s.here.cluster with
  | none => .next (s.wx rd 1).retire
  | some i =>
    needEntry s fun s =>
      .next (s.send .spawn (s.message (s.rx rs2) rs1) (.tile (s.clusterTile s.cur.tile i)) 0 rd i).retire

/-- The cores of SPAWNM's rectangle that lie in the partition, and the number of all (R54, R161). -/
def spawnRect (c : CoreRegs) (v : Dword) : List (Nat × Nat) × Nat :=
  let y0 := bits v 30 10
  let x0 := bits v 20 10
  let h := bits v 10 10 + 1
  let w := bits v 0 10 + 1
  ((upTo (min h (c.height - y0))).flatMap fun i => (upTo (min w (c.width - x0))).map fun j => (y0 + i, x0 + j), h * w)

/-- SPAWNM: one spawn to every core of the rectangle, the refusals combined into one result (R54, R161). -/
def execSpawnm (rd rs1 rs2 rs3 : Reg) (s : State) : Outcome :=
  let v := s.rx rs2
  if bits v 40 24 ≠ 0 then .next (s.trap 5 v)
  else
    let r := spawnRect s.here.core v
    if r.1.isEmpty then .next (s.wx rd (BitVec.ofNat 64 r.2)).retire
    else
      needEntry s fun s =>
        let m := s.message (s.rx rs3) rs1 false
        let org := s.meOrigin
        let e : ReqEntry :=
          { id := s.nextId, slot := s.cur.slot, epoch := s.me.epoch, rd := scoreOf rd, opc := s.me.pc
            quiet := s.quietFaults, awaited := r.1.length, refusals := r.2 - r.1.length }
        let s' := { s with nextId := s.nextId + 1 }.modHere fun x => { x with reqs := x.reqs ++ [e] }
        .next (r.1.foldl
          (fun s' p =>
            let home := Home.tile (s'.meshTile s'.cur.tile p.1 p.2)
            let id := s'.nextId
            { s' with
              nextId := id + 1
              net := s'.net ++ [{ id := id, op := .spawn m, org := org, home := home, req := id }]
              spawns := s'.spawns ++ [{ id := id, org := org, home := home, op := .spawn m, req := e.id, many := true }] })
          s').retire

/-- Free general slots below GSLOTS (R53, R163). -/
def Tile.freeSlots (x : Tile) : Nat :=
  ((upTo (min 6 x.core.gslots)).filter fun i => decide ((x.th (slotIx i)).st = .empty)).length

/-- The CAPQ answer of a core to a thread with the given jkcaps (R163). -/
def Tile.capAnswer (x : Tile) (kcaps : Nat) : Dword :=
  let missing := bits x.core.jcaps 0 18 ^^^ (2 ^ 18 - 1)
  BitVec.ofNat 64 (field 48 1 (b2n (kcaps &&& missing == 0)) + field 32 4 x.freeSlots + field 0 18 x.core.jcaps.toNat)

/-- CAPQ (R163). -/
def execCapq (rd rs1 : Reg) (s : State) : Outcome :=
  let a := s.rx rs1
  let k := bits s.here.core.jkcaps 0 18
  coreOf s a fun l home =>
    match l with
    | .own _ => .next (s.wxLate rd (s.here.capAnswer k)).retire
    | _ =>
      needEntry s fun s =>
        match routeOf s s.cur.tile l with
        | some (_, off, cls) =>
          .next (s.issue (.capq k) home off cls a { rd := scoreOf rd }).retire
        | none => .next s

/-! ### Riser waits (R154) -/

/-- RWAIT and RWAITT: evaluated at issue, and asleep until a later evaluation returns (R154, R155). -/
def riserWait (rd rs1 : Reg) (off : Dword) (target : Nat) (timeout : Option Nat) (s : State) : Outcome :=
  let a := s.rx rs1 + off
  if s.handler then .next s.illegal
  else
    checked s false a 8 8 fun l =>
      match l with
      | .own o =>
        match waitResult (s.readD (s.myKey o)) target (timeout == some 0) with
        | some v => .next (s.wxLate rd v).retire
        | none =>
          let ts := s.tsc
          let now := s.tick
          .next (s.modMe fun h =>
            { h with
              st := .sleep
              sleep := some (.riser o target (timeout.map (now + ·)) rd)
              sleepTs := ts }).noteIssue
      | _ => .next (s.trap 5 a)

/-- RWAIT with a register target (R154). -/
def execRwait (rd rs1 rs2 : Reg) (s : State) : Outcome :=
  riserWait rd rs1 0 (bits (s.rx rs2) 0 40) none s

/-- RWAIT with an immediate target (R106, R154). -/
def execRwaitImm (rd rs1 : Reg) (off : BitVec 5) (tgt : BitVec 7) (s : State) : Outcome :=
  riserWait rd rs1 (zext off * 8) tgt.toNat none s

/-- RWAITT (R154). -/
def execRwaitt (rd rs1 rs2 rs3 : Reg) (s : State) : Outcome :=
  riserWait rd rs1 0 (bits (s.rx rs2) 0 40) (some (s.rx rs3).toNat) s

/-! ### Riser steps and counted stores (R153, R157, R158) -/

/-- A riser space: 0x0, 0x1, 0x3, and 0x4 in M-mode (R153). -/
def Loc.riserSpace : Loc → Bool
  | .own _ | .mesh .. | .fabric .. | .abs .. => true
  | _ => false

/-- The checks of R150 on an operand that names a riser, a barrier or a device atomic's word. -/
def riserChecked (s : State) (a : Dword) (size align : Nat) (k : Loc → Outcome) : Outcome :=
  checked s true a size align fun l => if l.riserSpace then k l else .next (s.trap 7 a)

/-- RADD (R157). -/
def execRadd (rd rs1 rs2 : Reg) (s : State) : Outcome :=
  let a := s.rx rs1
  let n := bits (s.rx rs2) 0 40
  riserChecked s a 8 8 fun l =>
    match l with
    | .own off =>
      portFree s off 8 fun s =>
        let old := s.readD (s.myKey off)
        .next ((s.riserAdvance s.cur.tile off n (s.localWriter 8)).wxLate rd old).retire
    | _ => request s (.radd n) a l true rd 8 false (·.retire)

/-- RSIG (R157). -/
def execRsig (rs1 rs2 : Reg) (s : State) : Outcome :=
  let a := s.rx rs1
  let n := bits (s.rx rs2) 0 40
  riserChecked s a 8 8 fun l =>
    match l with
    | .own off => portFree s off 8 fun s => .next (s.riserAdvance s.cur.tile off n (s.localWriter 8)).retire
    | _ => post s (.rsig n) a l (·.retire)

/-- RPOISON (R157). -/
def execRpoison (rs1 rs2 : Reg) (s : State) : Outcome :=
  let a := s.rx rs1
  let c := bits (s.rx rs2) 0 3
  riserChecked s a 8 8 fun l =>
    match l with
    | .own off => portFree s off 8 fun s => .next (s.riserPoisoned s.cur.tile off c s.here.lidx (s.localWriter 8)).retire
    | _ => post s (.rpoison c) a l (·.retire)

/-- A counted store of size bytes; the riser's offset is checked after the address (R153, R158). -/
def countedBytes (size v : Nat) (a r : Dword) (s : State) : Outcome :=
  riserChecked s a size size fun l =>
    if bits r 0 3 ≠ 0 ∨ bits r 19 45 ≠ 0 then .next (s.trap 7 r)
    else
      match l with
      | .own off =>
        portFree s off size fun s =>
          portFree s r.toNat 8 fun s =>
            .next (s.countedStep s.cur.tile off r.toNat (leBytes size v) (s.localWriter size)).retire
      | _ => post s (.counted size v r.toNat) a l (·.retire)

/-- SDC and SWC (R158). -/
def countedStore (size : Nat) (rs1 rs2 rs3 : Reg) (s : State) : Outcome :=
  countedBytes size ((s.rx rs2).toNat % 2 ^ (8 * size)) (s.rx rs1) (s.rx rs3) s

/-- SDC (R158). -/
def execSdc (rs1 rs2 rs3 : Reg) (s : State) : Outcome :=
  countedStore 8 rs1 rs2 rs3 s

/-- SWC (R158). -/
def execSwc (rs1 rs2 rs3 : Reg) (s : State) : Outcome :=
  countedStore 4 rs1 rs2 rs3 s

/-! ### Barriers (R167-R172) -/

/-- A barrier operation without a result: at the own port, or posted. -/
def barrierPost (e : BarEvent) (op : Op) (a : Dword) (s : State) : Outcome :=
  riserChecked s a 16 16 fun l =>
    match l with
    | .own off => portFree s off 16 fun s => .next (s.barrierStep s.cur.tile off e (s.localWriter 16)).1.retire
    | _ => post s op a l (·.retire)

/-- A barrier operation with a result in rd: late at the own port, scoreboarded when routed (R170). -/
def barrierAsk (e : BarEvent) (op : Op) (rd : Reg) (l : Loc) (a : Dword) (s : State) : Outcome :=
  match l with
  | .own off =>
    portFree s off 16 fun s =>
      let r := s.barrierStep s.cur.tile off e (s.localWriter 16)
      .next (r.1.wxLate rd (r.2.1.getD 0)).retire
  | _ => request s op a l true rd 8 false (·.retire)

/-- BINIT (R169). -/
def execBinit (rs1 rs2 : Reg) (s : State) : Outcome :=
  let w0 := s.rgroup rs2 0
  let w1 := s.rgroup rs2 1
  barrierPost (.init w0 w1) (.binit w0 w1) (s.rx rs1) s

/-- BARV: the low four bits of the address are the generation tag; it waits as for a FENCE (R167, R170). -/
def execBarv (rd rs1 : Reg) (s : State) : Outcome :=
  let a := s.rx rs1 &&& 0xFFFFFFFFFFFFFFF0
  let g := bits (s.rx rs1) 0 4
  riserChecked s a 16 16 fun l => awaitAll s fun s => barrierAsk (.arrive g) (.barv g) rd l a s

/-- BEXP (R171). -/
def execBexp (rd rs1 rs2 : Reg) (s : State) : Outcome :=
  let a := s.rx rs1
  let i := bits (s.rx rs2) 0 9
  let o := bits (s.rx rs2) 16 9
  riserChecked s a 16 16 fun l => barrierAsk (.expect i o) (.bexp i o) rd l a s

/-- BPOISON (R172). -/
def execBpoison (rs1 rs2 : Reg) (s : State) : Outcome :=
  let c := bits (s.rx rs2) 0 3
  barrierPost (.poison c) (.bpoison c) (s.rx rs1) s

/-! ### Device atomics (R173) -/

/-- A device atomic. A local one of a fenced FPAMO class raises cause 24 before its address checks; a routed one is
judged at its home port (R59, R102, R173). -/
def deviceAmo (op : AmoOp) (size : Nat) (rd rs1 rs2 : Reg) (cmp : Dword) (s : State) : Outcome :=
  let a := s.rx rs1
  if amoIsFp op ∧ bits a 60 4 = 0 ∧ !s.cap 17 then .next s.fenced
  else
    riserChecked s a size size fun l =>
      match l with
      | .own off => localAmo op size rd a (s.rx rs2) cmp off false s
      | _ => request s (.amo op size (s.rx rs2) cmp) a l true rd size true (·.retire)

/-- AMOFADD.S (R173). -/
def execAmofaddS (rd rs1 rs2 : Reg) (s : State) : Outcome :=
  deviceAmo .fadd 4 rd rs1 rs2 0 s

/-- AMOFADD.BF (R173). -/
def execAmofaddBf (rd rs1 rs2 : Reg) (s : State) : Outcome :=
  deviceAmo .faddBf 4 rd rs1 rs2 0 s

/-- AMOFMAX.S (R173). -/
def execAmofmaxS (rd rs1 rs2 : Reg) (s : State) : Outcome :=
  deviceAmo .fmax 4 rd rs1 rs2 0 s

/-- AMOFMIN.S (R173). -/
def execAmofminS (rd rs1 rs2 : Reg) (s : State) : Outcome :=
  deviceAmo .fmin 4 rd rs1 rs2 0 s

/-- AMOINCB.W (R173). -/
def execAmoincbW (rd rs1 rs2 : Reg) (s : State) : Outcome :=
  deviceAmo .incb 4 rd rs1 rs2 0 s

/-- AMOINCB.D (R173). -/
def execAmoincbD (rd rs1 rs2 : Reg) (s : State) : Outcome :=
  deviceAmo .incb 8 rd rs1 rs2 0 s

/-- AMOCAS.D: the compare value is x[rd] as read at issue (R173). -/
def execAmocasD (rd rs1 rs2 : Reg) (s : State) : Outcome :=
  deviceAmo .cas 8 rd rs1 rs2 (s.rx rd) s

/-! ### FENCEF (R178) -/

/-- The FENCEF result of the answered checks (R178). -/
def fencefResult (unchk : Bool) (l : List Check) : Nat :=
  l.foldl
    (fun r c =>
      r ||| 2 ^ c.idx |||
        (match c.answer with
        | some (1, _) => 2 ^ (8 + c.idx)
        | some (2, _) => 2 ^ (4 + c.idx)
        | _ => 0)) (if unchk then 0xF0 else 0)

/-- The lowest-numbered mismatched entry (R179). -/
def firstMismatch (l : List Check) : Option (Check × Nat) :=
  l.foldl
    (fun b c =>
      match c.answer with
      | some (1, rcvd) =>
        match b with
        | some (d, _) => if c.idx < d.idx then some (c, rcvd) else b
        | none => some (c, rcvd)
      | _ => b) none

/-- FENCEF: as FENCE, then a check for every allocated entry, and the thread in SCORE until every answer has
returned (R178). -/
def execFencef (rd : Reg) (s : State) : Outcome :=
  awaitAll s fun s =>
    let s := s.settleChecks
    let s := s.sendChecks true ((upTo 4).filterMap fun i => s.me.intervals.find? (·.idx == i))
    let l := s.me.checks
    if l.any (·.answer.isNone) then .next (s.block .score .intervalCheck)
    else if l.isEmpty then .next (s.wx rd 0).retire
    else
      let r := fencefResult s.me.unchk (l.filter (·.explicit))
      let s := (s.modMe fun h => { h with checks := [], unchk := false }).wx rd (BitVec.ofNat 64 r)
      let s :=
        match firstMismatch l with
        | some (c, rcvd) => s.pendMine (countFault c rcvd s.tsc)
        | none => s
      .next s.retire

/-! ### Machine-only instructions (R143-R147) -/

/-- Rows and columns of tiles whose links are connected: the lattice's in a lattice boot (R333). -/
def State.linked (s : State) : Nat := if s.strap then 32 else s.side
/-- The adjacent tile in a direction of the module frame: 0 north, 1 east, 2 south, 3 west (R144). -/
def State.adjacent (s : State) (t dir : Nat) : Option Nat :=
  let y := pyOf t
  let x := pxOf t
  match dir with
  | 0 => if y = 0 then none else some (tileOf (y - 1) x)
  | 1 => if x + 1 < s.linked then some (tileOf y (x + 1)) else none
  | 2 => if y + 1 < s.linked then some (tileOf (y + 1) x) else none
  | _ => if x = 0 then none else some (tileOf y (x - 1))

/-- NBSEND (R144). -/
def execNbsend (rd rs1 rs2 : Reg) (s : State) : Outcome :=
  needMachine s fun s =>
    let a := s.rx rs1
    let d := s.rx rs2
    match locate s s.me.mode a with
    | some (.mram off) =>
      if off % 64 ≠ 0 then .next (s.trap 5 a)
      else
        needEntry s fun s =>
          localMark s a (mramBase + off) 64 fun s =>
            let op := if bits d 2 62 ≠ 0 then Op.status 3 else .nb (Memory.read s.mem (s.myKey (mramBase + off)) 64) (bits d 0 2) 0
            .next (s.issue op (.tile s.cur.tile) 0 0 a { rd := scoreOf rd }).retire
    | _ => .next (s.trap 5 a)

/-- RCFG: the thread waits for the target router's acknowledgement (R146). -/
def execRcfg (rs1 rs2 : Reg) (s : State) : Outcome :=
  needMachine s fun s =>
    let w := s.rx rs1
    let d := s.rx rs2
    if 4 < d.toNat then .next (s.trap 7 d)
    else
      let t := if d = 0 then s.cur.tile else (s.adjacent s.cur.tile (d.toNat - 1)).getD nowhere
      .next ((s.modMe fun h => { h with rcfg := some (t, w, d) }).block .unit .acknowledge).noteIssue

/-- CAPSET (R147). -/
def execCapset (rs1 rs2 : Reg) (s : State) : Outcome :=
  needMachine s fun s =>
    let m := bits (s.rx rs2) 0 18
    let v := bits (s.rx rs1) 0 18
    .next (s.modPortCore s.cur.tile fun c =>
      { c with jcaps := BitVec.ofNat 64 ((bits c.jcaps 0 18 &&& (m ^^^ (2 ^ 18 - 1))) ||| (v &&& m)) }).retire

end Sys2Proof.Machine
end

