-- ==== Sys2Proof/Machine/Arrival.lean ====
section
/-!
DEFINITION. Requests as they arrive at their home ports, and what their answers do at the core that sent them
(R34, R38, R63, R128-R133, R157, R158, R163, R167, R168, R176-R178, R182-R186, R268). An event that is not enabled in
a state leaves the state as it is (log 24).
-/
namespace Sys2Proof.Machine

/-! ### Packets in flight -/

def State.pkt (s : State) (id : Nat) : Option Packet := s.net.find? (·.id == id)
def State.dropPkt (s : State) (id : Nat) : State := { s with net := s.net.filter (·.id != id) }
def State.sendPkt (s : State) (p : Packet) : State := { s with net := s.net ++ [p] }

/-- A request that names a location, which R186 orders. -/
def namesPlace : Op → Bool
  | .load _ | .store .. | .amo .. | .radd _ | .rsig _ | .rpoison _ | .counted .. | .binit .. | .barv _ | .bexp ..
  | .bpoison _ | .capq _ => true
  | _ => false

/-- Nothing of a posted request returns but its completion (R128). -/
def posted : Op → Bool
  | .store .. | .rsig _ | .rpoison _ | .counted .. | .binit .. | .bpoison _ => true
  | _ => false

/-- A fabric request as the gateway routes it into the mesh or to a pseudo-channel; none when it is refused (R63, R303,
R304). -/
def routedIn (s : State) (p : Packet) : Option Packet :=
  match p.home, fabricPart s p.org.job with
  | .module _ y x, some q =>
    let p := { p with org := { p.org with pid := q.pid } }
    if p.cls = 7 then
      let r := interleave s 0 p.off
      if p.off < s.hbmEnd then some { p with home := .chan r.1, off := r.2 } else none
    else if y < q.height ∧ x < q.width then
      some { p with home := .tile ((s.core (q.orgY + y) (q.orgX + x)).getD nowhere) }
    else none
  | _, _ => none

/-- Where a request is to be performed on this module: a fabric store at the gateway is on its way there (R186). -/
def placeOf (s : State) (p : Packet) : Home × Nat :=
  match (if p.org.fab then routedIn s p else none) with
  | some q => (q.home, q.off)
  | none => (p.home, p.off)

/-- Two requests are of one thread. -/
def sameThread (p q : Packet) : Bool :=
  p.org.party == .thread && q.org.party == .thread && p.org.tile == q.org.tile && p.org.slot == q.org.slot
    && p.org.epoch == q.org.epoch && p.org.fab == q.org.fab && p.org.omod == q.org.omod && p.org.lidx == q.org.lidx

/-- A request for an element of the access that comes before element i (R185). -/
def beforeInGroup (gid i : Nat) (q : Packet) : Bool :=
  namesPlace q.op && q.org.party == .thread && !q.org.fab && (match q.group with
    | some (g, j) => g == gid && decide (j < i)
    | none => false)

/-- Two requests that R186 keeps in program order, or two elements of a vector access (R185). -/
def sameOrder (s : State) (p q : Packet) : Bool :=
  namesPlace q.op && sameThread p q
    && ((placeOf s p).1 == (placeOf s q).1 && (placeOf s p).2 / 64 == (placeOf s q).2 / 64 && p.cls == q.cls && p.cls != 0
      || (p.group.any fun g => q.group.any fun h => g.1 == h.1 && decide (h.2 < g.2)))

/-- Two requests of a host port to one home, of which the earlier is a write (R296). -/
def hostOrder (p q : Packet) : Bool :=
  p.org.party == .host && q.org.party == .host && p.org.tile == q.org.tile && p.home == q.home && posted q.op

/-- A local element of the same vector access, with a lower number, has not been performed (R185). -/
def nearOwed (s : State) (p : Packet) : Bool :=
  match p.group with
  | some (gid, i) =>
    namesPlace p.op && !p.org.fab && (match (s.th p.org.tile (slotIx p.org.slot)).vec with
      | some r => r.group == some gid && r.rest.any fun e => decide (e.1 < i)
      | none => false)
  | none => false

/-- An address of space 0x3 that names another module than the core's own (R31, R33). -/
def otherModule (x : Tile) (a : Dword) : Bool := bits a 60 4 == 3 && bits a 48 12 != x.core.jmod

/-- A routed element below i of a vector access is on its way to its home, or waits for a link or an answer of another
module (R185, R254; log 17). -/
def earlierOut (s : State) (t gid i : Nat) : Bool :=
  s.net.any (beforeInGroup gid i)
    || (s.tile t).reqs.any fun e => e.group.any (fun g => g.1 == gid && decide (g.2 < i)) && otherModule (s.tile t) e.target
/-- An element of a vector access is not performed, nor sent to another module, before those below it (R185, R254). -/
def elementWaits (s : State) (p : Packet) : Bool :=
  match p.group with
  | some (gid, i) => namesPlace p.op && !p.org.fab && (earlierOut s p.org.tile gid i || nearOwed s p)
  | none => false

/-- No request that R185, R186 or R296 puts before this one is still on its way. -/
def State.inTurn (s : State) (p : Packet) : Bool :=
  !((s.net.takeWhile (·.id != p.id)).any fun q => sameOrder s p q || hostOrder p q) && !elementWaits s p

/-- The logical index of the core at a request's home, or of a pseudo-channel's tile; 0 when there is none (R270). -/
def homeIndex (s : State) : Home → Nat
  | .tile t => if s.inFrame t then (s.tile t).lidx else 0
  | .chan g => (s.tile (chanTile g)).lidx
  | _ => 0

/-- A completion to the host (R294). -/
def State.complete (s : State) (pkg off status : Nat) (data : List Byte) (poisoned : Bool) : State :=
  { s with hostOut := s.hostOut ++ [{ pkg := pkg, off := off, status := status, data := data, poisoned := poisoned }] }

/-- What the host port makes of an answer: a read completes, with Completer Abort when it was rejected; a write has no
completion (R294). -/
def State.hostAnswer (s : State) (p : Packet) (op : Op) : State :=
  match p.op, op with
  | .load n, .result d poison => s.complete (pkgOf p.org.tile) p.addr.toNat 0 (leBytes n d) (poison != 0)
  | .load _, .reject .. => s.complete (pkgOf p.org.tile) p.addr.toNat 2 [] false
  | _, _ => s

/-- Spawns and messages, whose answers end the record of their attempts (R51, R295). -/
def isSpawn : Op → Bool
  | .spawn _ | .message _ => true
  | _ => false
def isReject : Op → Bool
  | .reject .. => true
  | _ => false

/-- An answer to a request: across the fabric it leaves by the gateway, where a fabric store has none but a rejection (R38,
R174); to the host it is a completion. -/
def State.reply (s : State) (p : Packet) (op : Op) : State :=
  let src := homeIndex s p.home
  if p.org.party = .host ∧ !isSpawn p.op then s.hostAnswer p op
  else if p.org.fab then
    if posted p.op ∧ p.org.party = .thread ∧ !isReject op then s
    else { s with fabricOut := s.fabricOut ++ [{ p with op := op, home := .module p.org.omod 0 0, id := p.extId, src := src }] }
  else s.sendPkt { p with op := op, home := .tile p.org.tile, src := src }

/-! ### Faults at the source (R46, R268) -/

/-- A fault joins those pending of a slot in arrival order; of those that arrive in one cycle the oldest request's comes
first. -/
def insertFault (f : FaultRec) : List FaultRec → List FaultRec
  | [] => [f]
  | g :: r => if g.cycle = f.cycle ∧ f.age < g.age then f :: g :: r else g :: insertFault f r

/-- A fault report reaches a core: pending at its thread, or written to the core's log when the thread has ended, when
it ran in M-mode or as a handler, or when a cause 29 is already held. -/
def State.pendFault (s : State) (t slot epoch : Nat) (quiet : Bool) (f : FaultRec) : State :=
  let i := slotIx slot
  let h := s.th t i
  let log (k : Nat) : State := s.logError t k (s.tile t).lidx false slot f.reason f.target f.opc
  if h.epoch ≠ epoch ∨ h.st = .empty then log 2
  else if quiet then log 3
  else if f.cause = 28 ∧ h.pend.any (·.cause == 28) then s
  else if f.cause = 29 ∧ h.pend.any (·.cause == 29) then log 7
  else s.modTh t i fun h => { h with pend := insertFault { f with cycle := (s.tile t).cycle } h.pend }

/-- Threads that wait for an entry of their own or of the core issue again. -/
def Tile.wakeEntries (x : Tile) : Tile :=
  x.mapTh fun h => if h.need = .entry then { h with st := .ready, need := .none } else h

/-- Entries of the thread in a slot. -/
def Tile.entriesOf (x : Tile) (i : Fin 8) : List ReqEntry :=
  x.reqs.filter fun e => e.slot == i.val && e.epoch == (x.th i).epoch

/-- An entry is freed; a thread with none left has passed its AQ point (R134). -/
def State.freeEntry (s : State) (t id : Nat) : State :=
  s.modTile t fun x =>
    let x := { x with reqs := x.reqs.filter (·.id != id) }
    let x := { x with threads := x.threads.mapFinIdx fun i h hi =>
      if (x.entriesOf ⟨i, hi⟩).isEmpty then { h with acquire := false } else h }
    x.wakeEntries

/-- The result of a request is written, unless its thread has ended or its register was given up (R46, R278). -/
def State.writeResult (s : State) (t : Nat) (e : ReqEntry) (v : Dword) : State :=
  let i := slotIx e.slot
  match e.rd with
  | some rd => if (s.th t i).epoch = e.epoch ∧ !e.discard then s.modTh t i (·.wx rd v) else s
  | none => s

/-! ### Vector accesses (R254, R255) -/

/-- The lowest element's fault, with the element. -/
def lowestFault (l : List (Nat × FaultRec)) : Option (Nat × FaultRec) :=
  l.foldl (fun b p =>
    match b with
    | some q => if p.1 < q.1 then some p else b
    | none => some p) none

/-- The rejection of element n of a vector store is reported: once for the access, and for the lowest of its elements
rejected before the fault is taken (R255, log 33). -/
def State.reportOnce (s : State) (t slot epoch : Nat) (quiet : Bool) (gid n : Nat) (f : FaultRec) : State :=
  let f := { f with group := some (gid, n) }
  if memNat gid (s.tile t).told then
    s.modTh t (slotIx slot) fun h =>
      { h with pend := h.pend.map fun g =>
          if g.group.any (fun k => k.1 == gid && decide (n < k.2)) then { f with cycle := g.cycle } else g }
  else (s.modTile t fun x => { x with told := gid :: x.told }).pendFault t slot epoch quiet f

/-- A vector access whose last element has returned: vd is written unless an element was rejected, then the faults of
the lowest rejected and of the lowest poisoned element become pending. -/
def State.finishGroup (s : State) (t : Nat) (g : VGroup) (e : ReqEntry) : State :=
  let i := slotIx g.slot
  let alive := (s.th t i).epoch == g.epoch && !e.discard
  let s := s.modTile t fun x => { x with groups := x.groups.filter (·.id != g.id) }
  let s :=
    match g.vd with
    | some vd => if alive ∧ g.rejects.isEmpty then s.modTh t i (·.wv vd g.buf) else s
    | none => s
  let s := match lowestFault g.rejects, g.vd with
    | some (n, f), none => s.reportOnce t g.slot g.epoch e.quiet g.id n f
    | some (_, f), some _ => s.pendFault t g.slot g.epoch e.quiet f
    | none, _ => s
  match lowestFault g.poisons with
  | some (_, f) => s.pendFault t g.slot g.epoch e.quiet f
  | none => s

/-- An element of a vector access has returned. -/
def State.groupStep (s : State) (t gid : Nat) (e : ReqEntry) (f : VGroup → VGroup) : State :=
  match (s.tile t).groups.find? (·.id == gid) with
  | none => s
  | some g =>
    let g := f { g with left := g.left - 1 }
    if g.left = 0 then s.finishGroup t g e
    else s.modTile t fun x => { x with groups := x.groups.map fun h => if h.id = gid then g else h }

/-! ### Answers at the source -/

/-- The fault record of a rejected or poisoned request (R269, R270). -/
def replyFault (s : State) (e : ReqEntry) (cause reason remote : Nat) (fab : Bool) : FaultRec :=
  { cause := cause, val := e.target, opc := e.opc, target := e.target, reason := reason, fab := fab, remote := remote
    ts := s.tsc, age := e.id }

/-- A vector access to another module is reported once, for the lowest of its elements rejected before the fault is taken
(R255, log 33). -/
def Tile.dropGroup (x : Tile) (gid : Nat) : Tile :=
  { x with
    groups := x.groups.filter (·.id != gid)
    reqs := x.reqs.filter fun e => (e.group.map (·.1)) != some gid
    told := gid :: x.told }

/-- The rejection of a fabric store, whose entry is free: cause 25 (R38, R129, R158), once for a vector access (R255). -/
def State.storeRejected (s : State) (p : Packet) (reason remote : Nat) (fab : Bool) : State :=
  let t := p.org.tile
  let f : FaultRec :=
    { cause := 25, val := p.addr, opc := p.opc, target := p.addr, reason := reason, fab := fab, remote := remote, ts := s.tsc
      age := p.req, group := p.group }
  let quiet := p.org.machine || decide (6 ≤ p.org.slot)
  match p.group with
  | none => s.pendFault t p.org.slot p.org.epoch quiet f
  | some (gid, n) => s.reportOnce t p.org.slot p.org.epoch quiet gid n f

/-- The answer of a thread's request: the result or the fault, then the entry is free (R128, R129, R131). -/
def threadReply (s : State) (p : Packet) : State :=
  let t := p.org.tile
  let s := s.dropPkt p.id
  match (s.tile t).reqs.find? (·.id == p.req) with
  | none =>
    -- a fabric store that is rejected holds no entry any more (R174, R192)
    match p.op with
    | .reject r remote fab => s.storeRejected p r remote fab
    | _ => s
  | some e =>
    let s' :=
      match p.op, e.group with
      | .result d poison, none =>
        let s := s.writeResult t e (loadExt e.size e.signed d)
        if poison = 0 then s else s.pendFault t e.slot e.epoch e.quiet (replyFault s e 26 poison p.src (otherModule (s.tile t) e.target))
      | .result d poison, some (gid, i) =>
        s.groupStep t gid e fun g =>
          { g with
            buf := BitVec.ofNat 256 (g.buf.toNat + d % 2 ^ (8 * g.width) * 2 ^ (8 * g.width * i))
            poisons := if poison = 0 then g.poisons
              else (i, replyFault s e 26 poison p.src (otherModule (s.tile t) e.target)) :: g.poisons }
      | .reject r remote fab, none => s.pendFault t e.slot e.epoch e.quiet (replyFault s e 25 r remote fab)
      | .reject r remote fab, some (gid, i) =>
        s.groupStep t gid e fun g => { g with rejects := (i, replyFault s e 25 r remote fab) :: g.rejects }
      | _, some (gid, _) => s.groupStep t gid e id
      | .status v, none => s.writeResult t e (nd v)
      | _, none => s
    s'.freeEntry t e.id

/-- A command's run, by its number. -/
def State.modRun (s : State) (t serial : Nat) (f : CopyRun → CopyRun) : State :=
  s.modTile t fun x => { x with chans := mapV x.chans fun c =>
    { c with started := c.started.map fun r => if r.cmd.serial = serial then f r else r } }

/-- The first failure decides the reason. -/
def CopyRun.fails (r : CopyRun) (reason cls : Nat) : CopyRun :=
  match r.bad with
  | some _ => r
  | none => { r with bad := some (reason, cls) }
def CopyRun.returned (r : CopyRun) (pkt : Nat) : CopyRun := { r with outstanding := r.outstanding.filter (·.1 != pkt) }

/-- Bytes with their numbers. -/
def numbered (i : Nat) : List Byte → List (Nat × Byte)
  | [] => []
  | b :: r => (i, b) :: numbered (i + 1) r

/-- The thread that queued a command, for a cause 29 (R274). -/
def State.pendOverrun (s : State) (p : Packet) (held remote : Nat) (fab : Bool) : State :=
  s.pendFault p.org.tile p.bySlot p.byEpoch p.org.machine
    { cause := 29, val := p.addr, opc := p.opc, target := p.addr, reason := held, fab := fab, remote := remote, ts := s.tsc }

/-- A riser or barrier step that was sent has been answered. -/
def CopyRun.settled (r : CopyRun) (pkt : Nat) : CopyRun := { r with owed := r.owed - 1, sent := r.sent.filter (·.1 != pkt) }
/-- A step that was sent has been rejected: the command fails, but a destination of a multicast fails alone; its riser or
barrier step has not been taken (R214, R218, R220). -/
def CopyRun.refused (r : CopyRun) (pkt : Nat) : CopyRun :=
  match r.sent.find? (·.1 == pkt) with
  | some (_, d) =>
    let r := { r.settled pkt with stepped := r.stepped.filter (· != d) }
    if CopyCmd.opc4 r.cmd.w0 = 5 then { r with failed := d :: r.failed } else r.fails 2 4
  | none => ((if r.outstanding.any (·.1 == pkt) then r.returned pkt else r.settled pkt)).fails 2 4

/-- The answer to a step that a copy engine sent to another module, or to a transfer completion. -/
def copyReply (s : State) (p : Packet) : State :=
  let s := s.dropPkt p.id
  let t := p.org.tile
  let step : State := s.modRun t p.req fun r =>
    if r.outstanding.any (·.1 == p.id) then r.returned p.id else r.settled p.id
  match p.op with
  | .result d poison =>
    s.modRun t p.req fun r =>
      match r.outstanding.find? (·.1 == p.id) with
      | some (_, byte, n) =>
        let r := { r.returned p.id with buf := r.buf ++ numbered byte (leBytes n d) }
        if poison = 0 then r else r.fails 3 2
      | none => r
  | .reject .. => s.modRun t p.req (·.refused p.id)
  | .answer held remote => step.pendOverrun p held remote true
  | _ => step

/-- The answer to a row's step at another module. -/
def LadleRow.answered (r : LadleRow) (pkt : Nat) (op : Op) : LadleRow :=
  match r.outstanding.find? (·.1 == pkt) with
  | none => r
  | some (_, b, n) =>
    let r := { r with outstanding := r.outstanding.filter (·.1 != pkt) }
    match op with
    | .result d _ => { r with buf := r.buf ++ numbered b (leBytes n d) }
    | _ => r

/-- The answer to a step that a ladle engine sent to another module; a row whose riser step is rejected has not taken it
(R230). -/
def LadleCmd.answered (c : LadleCmd) (pkt : Nat) (op : Op) : LadleCmd :=
  let row := (c.out.find? (·.1 == pkt)).map (·.2)
  let c := { c with out := c.out.filter (·.1 != pkt), rows := c.rows.map (·.answered pkt op) }
  match op with
  | .result _ poison => { c with bad := if poison = 0 then c.bad else c.bad.or (some 3) }
  | .reject .. => { c with bad := c.bad.or (some 2), stepped := c.stepped.filter fun j => some j != row }
  | _ => c

/-- An answer is handed to the party whose request it answers. -/
def takeReply (s : State) (p : Packet) : State :=
  match p.org.party with
  | .copy => copyReply s p
  | .ladle =>
    (s.dropPkt p.id).modTile p.org.tile fun x =>
      { x with ladle := { x.ladle with queue := x.ladle.queue.map fun c => if c.serial = p.req then c.answered p.id p.op else c } }
  | _ => threadReply s p

/-! ### Rejection (R271) -/

/-- Whether every router of a stretch holds a configuration. -/
def configured (s : State) (l : List Nat) : Bool := l.all fun t => (s.tile t).tstate != 0

/-- Numbers from a to b in either direction, both included. -/
def span (a b : Nat) : List Nat :=
  if a ≤ b then (upTo (b - a + 1)).map (a + ·) else (upTo (a - b + 1)).map (b + ·)

/-- The routers of R28's two legs from one tile to another. -/
def route (t u : Nat) : List Nat :=
  (span (pyOf t) (pyOf u)).map (fun y => tileOf y (pxOf t)) ++ (span (pxOf t) (pxOf u)).map (fun x => tileOf (pyOf u) x)

/-- The partition of a number is that of another or descends from it (R63); the fuel is the number of partitions. -/
def descends (s : State) : Nat → Nat → Nat → Bool
  | 0, _, _ => false
  | n + 1, d, a =>
    d == a ||
      match s.parts.find? (·.pid == d) with
      | some p =>
        match s.parts.find? (fun q => q.rcb == p.parent && p.parent != 0) with
        | some q => descends s n q.pid a
        | none => false
      | none => false

/-- The source's partition is the one that holds, or descends from it (R63): it is the partition of the destination core,
or the source core has HOLD set with its own partition or an ancestor of it. -/
def heldWith (s : State) (dst : Tile) (o : Origin) : Bool :=
  match o.party with
  | .host => false
  | _ => !o.fab && (dst.portCore.pid == o.pid || (s.tile o.tile).core.hold)

/-- The tile at which a request enters the mesh: its core's, the gateway's, or the host port's (R16, R303). -/
def entryTile (p : Packet) : Nat :=
  if p.org.fab then gatewayTile p.port
  else if p.org.party = .host then hostTile (pkgOf p.org.tile)
  else p.org.tile
/-- Every router on a request's way to a tile holds a configuration: one with TSTATE 0 rejects it (R146). -/
def reached (s : State) (p : Packet) (t : Nat) : Bool := s.inFrame t && configured s (route (entryTile p) t)

/-- A pseudo-channel is reached, and its HBM is powered: an access to HBM that is off (R320) is rejected as one to a
unit that does not answer (log 34). -/
def State.serves (s : State) (p : Packet) (g : Nat) : Bool := reached s p (chanTile g) && (s.tile (chanTile g)).pcPowered

/-- The first reason of R271 for which a tile's port rejects a request that names the given bytes; none when the request
is performed. A TOFF outside the regions of the tile is rejected whether or not the tile is enabled (R34). -/
def rejection (s : State) (p : Packet) (t : Nat) (write : Bool) (spans : List (Nat × Nat)) (fp : Bool) : Option Nat :=
  let x := s.tile t
  let inWindow := spans.any (fun b => decide (b.1 < x.portCore.winHi) && decide (x.portCore.winLo < b.1 + b.2))
  if !reached s p t then some 3
  else if p.absolute ∧ spans.any (fun b => decide (mramBase + 0x8000 < b.1 + b.2)) then some 4
  else if !x.enabled then some 3
  else if !p.absolute ∧ spans.any (fun b => decide (mramBase < b.1 + b.2)) then some 4
  else if p.absolute then
    (if write ∧ p.xn ∧ inWindow then some 2 else if fp ∧ !bitAt x.portCore.jcaps 17 then some 6 else none)
  else if !descends s (s.parts.length + 1) x.portCore.pid p.org.pid then some 1
  else if x.portCore.hold ∧ !heldWith s x p.org then some 7
  else if write ∧ (x.portCore.wp ∨ p.xn) ∧ inWindow then some 2
  else if fp ∧ !bitAt x.portCore.jcaps 17 then some 6
  else none

/-- The slot field of a log or trace entry: a thread's slot, a copy engine's channel (R272). -/
def slotField (o : Origin) : Nat :=
  match o.party with
  | .thread | .copy => o.slot
  | _ => 0
def sourceIndex (o : Origin) : Nat := if o.party = .host then 0 else o.lidx

/-- KIND 1 in the destination's log (R272). -/
def State.logRejection (s : State) (p : Packet) (t kind reason : Nat) : State :=
  if s.inFrame t then s.logError t kind (sourceIndex p.org) p.org.fab (slotField p.org) reason (nd p.off) 0 else s

/-- The receive-table entry of a packet's source at its gateway (R176). -/
def sameSource (p : Packet) (e : Receive) : Bool :=
  e.omod == p.org.omod && e.lidx == p.org.lidx && e.slot == p.org.slot && e.job == p.org.job

/-- A fabric store that its home rejects is not performed, and is not among those counted as performed (R176, R177). -/
def State.uncount (s : State) (p : Packet) : State :=
  if p.org.fab ∧ p.org.party = .thread ∧ posted p.op then
    { s with receive := s.receive.map fun e =>
        if sameSource p e ∧ e.gateway = p.port then { e with count := e.count - 1 } else e }
  else s

/-- The poison step of an engine's failed command, whose rejection is logged with KIND 5 (R220, R230, R272). -/
def poisonStep (p : Packet) : Bool :=
  (p.org.party == .copy || p.org.party == .ladle) && (match p.op with
    | .rpoison _ => true
    | _ => false)

/-- A rejected request: logged at the destination, reported to the source. -/
def State.refuse (s : State) (p : Packet) (reason : Nat) : State :=
  let s :=
    match p.home with
    | .tile t => s.logRejection p t (if poisonStep p then 5 else 1) reason
    | _ => s
  let s := s.uncount p
  s.reply p (.reject reason (homeIndex s p.home) p.org.fab)

/-- How a request's write step enters the trace and the reservations: an engine's or the host's under their own kinds, a
thread's in space 0x4 as kind 11 (R200). -/
def writerOf (p : Packet) (kind lsize : Nat) : Writer :=
  let k :=
    match p.org.party with
    | .copy => if kind = 2 then 5 else if kind = 7 then 7 else 4
    | .ladle => 6
    | .host => 10
    | _ => if p.absolute then 11 else kind
  { kind := k, org := { p.org with slot := if p.org.party = .thread ∨ k = 4 ∨ k = 5 then p.org.slot else 0 }, logged := true
    lsize := lsize }

/-! ### Delivery -/

/-- The tile's island is awake: a delivery waits otherwise (R325). -/
def State.awake (s : State) (t : Nat) : Bool := (s.island (islandOf t)).pstate == 0

/-- A packet arrives at its home if there is one of that number, in its turn, at a waking core. -/
def arrive (s : State) (id : Nat) (ok : Op → Bool) (k : Packet → State → State) : Outcome :=
  match s.pkt id with
  | none => .next s
  | some p =>
    if ok p.op ∧ s.inTurn p then
      match p.home with
      | .tile t => if s.awake t then .next (k p (s.dropPkt id)) else .next s
      | .module .. => .next s
      | _ => .next (k p (s.dropPkt id))
    else .next s

/-! ### Loads, stores and atomics -/

/-- The poison reason that data of marked words carries (R131, R271). -/
def poisonOf (s : State) (home : Home) (k n : Nat) : Nat :=
  if s.markedIn k n then
    match home with
    | .chan _ => 1
    | _ => 2
  else 0

/-- Why a port rejects an access to a tile register (R34, R146). -/
def regRejection (s : State) (p : Packet) (t size : Nat) (write : Bool) : Option Nat :=
  if !reached s p t then some 3
  else if !regShape p.off size ∨ (tileReg (s.tile t) t p.off).isNone then some 4
  else if write ∧ p.off / 8 * 8 = 0xC0000 ∧ routerLocked (s.tile t) then some 8
  else none

/-- A request named in space 0x4 at a TOFF above machine RAM, where the tile registers lie (R34). -/
def namesReg (p : Packet) : Bool := p.absolute && decide (mramBase + 0x8000 ≤ p.off)

/-- The part of a tile register that an access of size bytes reads. -/
def regRead (s : State) (t off size : Nat) : Nat := regPart ((tileReg (s.tile t) t off).getD 0) off size

/-- An uncorrectable word of machine RAM that a request has read is logged and left to the firmware (R276). -/
def State.ramRead (s : State) (t off size : Nat) (a : Dword) : State :=
  if mramBase ≤ off ∧ s.markedIn (tileKey t off) size then
    s.ramFound t a (tileKey t off) size
  else s

/-- The poison that a request's data from a tile carries: none from machine RAM (R131, R276). -/
def tilePoison (s : State) (t off size : Nat) : Nat := if mramBase ≤ off then 0 else poisonOf s (.tile t) (tileKey t off) size

/-- A load at its home port (R132, R183). -/
def performLoad (p : Packet) (size : Nat) (s : State) : State :=
  match p.home with
  | .tile t =>
    if namesReg p then
      match regRejection s p t size false with
      | some r => s.refuse p r
      | none => s.reply p (.result (regRead s t p.off size) 0)
    else
      match rejection s p t false [(p.off, size)] false with
      | some r => s.refuse p r
      | none =>
        (s.ramRead t p.off size p.addr).reply p (.result (s.readN (tileKey t p.off) size) (tilePoison s t p.off size))
  | .chan g =>
    if !s.serves p g then s.refuse p 3
    else s.reply p (.result (s.readN (hbmKey g p.off) size) (poisonOf s p.home (hbmKey g p.off) size))
  | .mgmt pkg =>
    if !reached s p (mgmtTile pkg) then s.refuse p 3
    else
      match mgmtReg s pkg p.off with
      | some v => s.reply p (.result (regPart v p.off size) 0)
      | none => s.refuse p 8
  | .host pkg =>
    if !reached s p (hostTile pkg) then s.refuse p 3 else s.reply p (.result (s.readN (hostKey p.off) size) 0)
  | .module .. => s

/-- A store at its home port (R132, R182). -/
def performStore (s0 : State) (p : Packet) (size data : Nat) (s : State) : State :=
  match p.home with
  | .tile t =>
    if namesReg p then
      match regRejection s p t size true with
      | some r => s.refuse p r
      | none => (s.modTile t fun x => writeTileReg x p.off size data).reply p .complete
    else
      match rejection s p t true [(p.off, size)] false with
      | some r => s.refuse p r
      | none =>
        let w := writerOf p 0 (Nat.log2 size)
        s0.atPort s t (.packet p.id) w [(p.off, size)] fun s =>
          (s.stepWrite t [(p.off, leBytes size data)] w p.off).reply p .complete
  | .chan g =>
    if !s.serves p g then s.refuse p 3
    else (s.writeN (hbmKey g p.off) size data).reply p .complete
  | .mgmt pkg =>
    if !reached s p (mgmtTile pkg) then s.refuse p 3
    else
      match mgmtWrite s pkg p.off size data with
      | some s => s.reply p .complete
      | none => s.refuse p 8
  | .host pkg =>
    if !reached s p (hostTile pkg) then s.refuse p 3 else (s.writeN (hostKey p.off) size data).reply p .complete
  | .module .. => s

/-- The first reason of R271 for which a port rejects a step on a riser, a barrier or a device atomic's word, which lie
in the scratchpad (R153, R173): REASON 3 comes before REASON 4 (R34, R271). -/
def wordRejection (s : State) (p : Packet) (t : Nat) (write : Bool) (spans : List (Nat × Nat)) (fp : Bool) : Option Nat :=
  if !reached s p t then some 3
  else if p.absolute ∧ mramBase ≤ p.off ∧ ((s.tile t).enabled ∨ mramBase + 0x8000 ≤ p.off) then some 4
  else rejection s p t write spans fp

/-- The device atomics of R173, performed at scratchpad ports only. -/
def deviceOp : AmoOp → Bool
  | .fadd | .faddBf | .fmax | .fmin | .incb | .cas => true
  | .swap | .add | .xor | .and | .or | .min | .max | .minu | .maxu => false

/-- An atomic at its home port: nothing is written on a marked word (R131, R133, R173). A base atomic acts on a tile
register as a load and a store in one step (R34). -/
def performAmo (s0 : State) (p : Packet) (op : AmoOp) (size : Nat) (src cmp : Dword) (s : State) : State :=
  match p.home with
  | .tile t =>
    if namesReg p ∧ !deviceOp op then
      match regRejection s p t size true with
      | some r => s.refuse p r
      | none =>
        let r := amoCalc op size (regRead s t p.off size) src cmp
        (s.modTile t fun x => writeTileReg x p.off size r.1).reply p (.result r.2.toNat 0)
    else
      match (if deviceOp op then wordRejection else rejection) s p t true [(p.off, size)] (amoIsFp op) with
      | some r => s.refuse p r
      | none =>
        let w := writerOf p 3 (Nat.log2 size)
        s0.atPort s t (.packet p.id) w [(p.off, size)] fun s =>
          let k := tileKey t p.off
          let old := s.readN k size
          let r := amoCalc op size old src cmp
          if s.markedIn k size then (s.ramRead t p.off size p.addr).reply p (.result old (tilePoison s t p.off size))
          else (s.stepWrite t [(p.off, leBytes size r.1)] w p.off).reply p (.result r.2.toNat 0)
  | .chan g =>
    if !s.serves p g then s.refuse p 3
    else
      let k := hbmKey g p.off
      let old := s.readN k size
      let r := amoCalc op size old src cmp
      if s.markedIn k size then s.reply p (.result old (poisonOf s p.home k size))
      else (s.writeN k size r.1).reply p (.result r.2.toNat 0)
  | _ => s

/-! ### Risers, counted stores, barriers -/

/-- A riser step at its home port (R157). In space 0x4 a riser lies in the scratchpad (R153). -/
def performRiser (s0 : State) (p : Packet) (s : State) : State :=
  match p.home with
  | .tile t =>
    match wordRejection s p t true [(p.off, 8)] false with
    | some r => s.refuse p r
    | none =>
      let w := writerOf p 2 3
      s0.atPort s t (.packet p.id) w [(p.off, 8)] fun s =>
        match p.op with
        | .radd n => (s.riserAdvance t p.off n w).reply p (.result (s.readN (tileKey t p.off) 8) 0)
        | .rsig n => (s.riserAdvance t p.off n w).reply p .complete
        | .rpoison c => (s.riserPoisoned t p.off c p.org.lidx w).reply p .complete
        | _ => s
  | _ => s

/-- A counted store at its home port (R158). -/
def performCounted (s0 : State) (p : Packet) (size data roff : Nat) (s : State) : State :=
  match p.home with
  | .tile t =>
    match wordRejection s p t true [(p.off, size), (roff, 8)] false with
    | some r => s.refuse p r
    | none =>
      let w := writerOf p 1 (Nat.log2 size)
      s0.atPort s t (.packet p.id) w [(p.off, size), (roff, 8)] fun s =>
        (s.countedStep t p.off roff (leBytes size data) w).reply p .complete
  | _ => s

/-- The barrier event of an operation (R167). -/
def barEvent : Op → Option BarEvent
  | .binit a b => some (.init a b)
  | .barv g => some (.arrive g)
  | .bexp i o => some (.expect i o)
  | .bpoison c => some (.poison c)
  | .done true f => some (.inDone f)
  | .done false f => some (.outDone f)
  | _ => none

/-- A barrier operation at its home port, with its release (R167, R168). -/
def performBarrier (s0 : State) (p : Packet) (s : State) : State :=
  match p.home, barEvent p.op with
  | .tile t, some e =>
    match wordRejection s p t true [(p.off, 16)] false with
    | some r => s.refuse p r
    | none =>
      let w := writerOf p 7 4
      s0.atPort s t (.packet p.id) w [(p.off, 16)] fun s =>
        let r := s.barrierStep t p.off e w
        match r.2.1 with
        | some v => r.1.reply p (.result v.toNat 0)
        | none => r.1.reply p .complete
  | _, _ => s

/-- A transfer completion at its barrier (R167, R274). A rejection fails the command (R214); a field held at -256 also
raises cause 29 at the thread that queued it. -/
def performDone (s0 : State) (p : Packet) (s : State) : State :=
  match p.home, barEvent p.op with
  | .tile t, some e =>
    match wordRejection s p t true [(p.off, 16)] false with
    | some r => s.refuse p r
    | none =>
      let w := writerOf p 7 4
      s0.atPort s t (.packet p.id) w [(p.off, 16)] fun s =>
        let r := s.barrierStep t p.off e w
        if r.2.2 = 0 then r.1.reply p .complete
        else if p.org.fab then r.1.reply p (.answer r.2.2 (s.tile t).lidx)
        else (r.1.pendOverrun p r.2.2 (s.tile t).lidx false).reply p .complete
  | _, _ => s

/-- A release signal at one core: a rejection is logged there and told to nobody (R38, R168). -/
def performRelease (s0 : State) (p : Packet) (n : Nat) (poison : Bool) (cls : Nat) (s : State) : State :=
  match p.home with
  | .tile t =>
    match rejection s p t true [(p.off, 8)] false with
    | some r => s.logRejection p t 5 r
    | none =>
      let w := writerOf p 8 3
      s0.atPort s t (.packet p.id) w [(p.off, 8)] fun s => s.riserSignal t p.off n (if poison then some (cls, p.org.lidx) else none) w
  | _ => s

/-! ### The arrival events -/

/-- ROUTED_LOAD_ARRIVAL (R132, R183). -/
def execRoutedLoadArrival (pkt : Nat) (s : State) : Outcome :=
  arrive s pkt (fun | .load _ => true | _ => false) fun p s =>
    match p.op with
    | .load size => performLoad p size s
    | _ => s

/-- ROUTED_STORE_ARRIVAL (R132, R182). -/
def execRoutedStoreArrival (pkt : Nat) (s : State) : Outcome :=
  arrive s pkt (fun | .store .. => true | _ => false) fun p s1 =>
    match p.op with
    | .store size data => performStore s p size data s1
    | _ => s1

/-- ROUTED_AMO_ARRIVAL (R133, R173). -/
def execRoutedAmoArrival (pkt : Nat) (s : State) : Outcome :=
  arrive s pkt (fun | .amo .. => true | _ => false) fun p s1 =>
    match p.op with
    | .amo op size src cmp => performAmo s p op size src cmp s1
    | _ => s1

/-- RISER_STEP_ARRIVAL (R157). -/
def execRiserStepArrival (pkt : Nat) (s : State) : Outcome :=
  arrive s pkt (fun | .radd _ | .rsig _ | .rpoison _ => true | _ => false) fun p s1 => performRiser s p s1

/-- COUNTED_STORE_ARRIVAL (R158). -/
def execCountedStoreArrival (pkt : Nat) (s : State) : Outcome :=
  arrive s pkt (fun | .counted .. => true | _ => false) fun p s1 =>
    match p.op with
    | .counted size data roff => performCounted s p size data roff s1
    | _ => s1

/-- BARRIER_STEP_ARRIVAL (R167). -/
def execBarrierStepArrival (pkt : Nat) (s : State) : Outcome :=
  arrive s pkt (fun | .binit .. | .barv _ | .bexp .. | .bpoison _ => true | _ => false) fun p s1 => performBarrier s p s1

/-- TRANSFER_COMPLETION_STEP (R167). -/
def execTransferCompletionStep (pkt : Nat) (s : State) : Outcome :=
  arrive s pkt (fun | .done .. => true | _ => false) fun p s1 =>
    match p.op with
    | .done .. => performDone s p s1
    | _ => s1

/-- RELEASE_SIGNAL_ARRIVAL (R168). -/
def execReleaseSignalArrival (pkt : Nat) (s : State) : Outcome :=
  arrive s pkt (fun | .release .. => true | _ => false) fun p s1 =>
    match p.op with
    | .release n poison cls => performRelease s p n poison cls s1
    | _ => s1

/-- CAPQ_ARRIVAL: admitted by the load rule of R63 (R163). -/
def execCapqArrival (pkt : Nat) (s : State) : Outcome :=
  arrive s pkt (fun | .capq _ => true | _ => false) fun p s =>
    match p.home, p.op with
    | .tile t, .capq k =>
      match rejection s p t false [] false with
      | some r => s.refuse p r
      | none =>
        s.reply p (.result ((s.tile t).capAnswer k).toNat 0)
    | _, _ => s

/-- An answer returns to the party that sent the request. -/
def returned (s : State) (pkt : Nat) (ok : Packet → Bool) : Outcome :=
  match s.pkt pkt with
  | some p => if ok p then .next (takeReply s p) else .next s
  | none => .next s

/-- RESPONSE_RETURN (R128). -/
def execResponseReturn (pkt : Nat) (s : State) : Outcome :=
  returned s pkt fun p => match p.op with | .result .. => true | _ => false

/-- STORE_COMPLETION_RETURN (R128). -/
def execStoreCompletionReturn (pkt : Nat) (s : State) : Outcome :=
  returned s pkt fun p => match p.op with | .complete => true | _ => false

/-- IMPRECISE_FAULT_ARRIVAL: a rejection, or a result that carries poison (R131, R268). -/
def execImpreciseFaultArrival (pkt : Nat) (s : State) : Outcome :=
  returned s pkt fun p =>
    match p.op with
    | .reject .. => true
    | .answer .. => p.org.party != .thread
    | .result _ r => r != 0
    | _ => false

end Sys2Proof.Machine
end

