-- ==== Sys2Proof/Machine/Base.lean ====
section
/-!
DEFINITION. The register-to-register, multiply and divide, control-transfer, system and CSR instructions (R118-R124,
R137-R142).
-/
namespace Sys2Proof.Machine

/-- A computed result goes to x[rd], and nothing else changes (R118). -/
def result (rd : Reg) (v : Dword) (s : State) : Outcome := .next (s.wx rd v).retire

/-- Concat(imm[31:12], 0x000) sign-extended (R118). -/
def upper (imm : BitVec 20) : Dword := sext (imm ++ 0#12)

/-- LUI (R118). -/
def execLui (rd : Reg) (imm : BitVec 20) (s : State) : Outcome :=
  result rd (upper imm) s

/-- AUIPC (R118). -/
def execAuipc (rd : Reg) (imm : BitVec 20) (s : State) : Outcome :=
  result rd (s.me.pc + upper imm) s

/-- ADDI (R118). -/
def execAddi (rd rs1 : Reg) (imm : BitVec 12) (s : State) : Outcome :=
  result rd (s.rx rs1 + sext imm) s

/-- SLTI (R118). -/
def execSlti (rd rs1 : Reg) (imm : BitVec 12) (s : State) : Outcome :=
  result rd (setIf (ltS (s.rx rs1) (sext imm))) s

/-- SLTIU (R118). -/
def execSltiu (rd rs1 : Reg) (imm : BitVec 12) (s : State) : Outcome :=
  result rd (setIf (ltU (s.rx rs1) (sext imm))) s

/-- XORI (R118). -/
def execXori (rd rs1 : Reg) (imm : BitVec 12) (s : State) : Outcome :=
  result rd (s.rx rs1 ^^^ sext imm) s

/-- ORI (R118). -/
def execOri (rd rs1 : Reg) (imm : BitVec 12) (s : State) : Outcome :=
  result rd (s.rx rs1 ||| sext imm) s

/-- ANDI (R118). -/
def execAndi (rd rs1 : Reg) (imm : BitVec 12) (s : State) : Outcome :=
  result rd (s.rx rs1 &&& sext imm) s

/-- ADDIW (R118). -/
def execAddiw (rd rs1 : Reg) (imm : BitVec 12) (s : State) : Outcome :=
  result rd (wOf (s.rx rs1 + sext imm)) s

/-- SLLI (R118). -/
def execSlli (rd rs1 : Reg) (sh : BitVec 6) (s : State) : Outcome :=
  result rd (sll64 (s.rx rs1) sh.toNat) s

/-- SRLI (R118). -/
def execSrli (rd rs1 : Reg) (sh : BitVec 6) (s : State) : Outcome :=
  result rd (srl64 (s.rx rs1) sh.toNat) s

/-- SRAI (R118). -/
def execSrai (rd rs1 : Reg) (sh : BitVec 6) (s : State) : Outcome :=
  result rd (sra64 (s.rx rs1) sh.toNat) s

/-- SLLIW (R118). -/
def execSlliw (rd rs1 : Reg) (sh : BitVec 5) (s : State) : Outcome :=
  result rd (sll32 (s.rx rs1) sh.toNat) s

/-- SRLIW (R118). -/
def execSrliw (rd rs1 : Reg) (sh : BitVec 5) (s : State) : Outcome :=
  result rd (srl32 (s.rx rs1) sh.toNat) s

/-- SRAIW (R118). -/
def execSraiw (rd rs1 : Reg) (sh : BitVec 5) (s : State) : Outcome :=
  result rd (sra32 (s.rx rs1) sh.toNat) s

/-- ADD (R118). -/
def execAdd (rd rs1 rs2 : Reg) (s : State) : Outcome :=
  result rd (s.rx rs1 + s.rx rs2) s

/-- SUB (R118). -/
def execSub (rd rs1 rs2 : Reg) (s : State) : Outcome :=
  result rd (s.rx rs1 - s.rx rs2) s

/-- SLL (R118). -/
def execSll (rd rs1 rs2 : Reg) (s : State) : Outcome :=
  result rd (sll64 (s.rx rs1) (bits (s.rx rs2) 0 6)) s

/-- SLT (R118). -/
def execSlt (rd rs1 rs2 : Reg) (s : State) : Outcome :=
  result rd (setIf (ltS (s.rx rs1) (s.rx rs2))) s

/-- SLTU (R118). -/
def execSltu (rd rs1 rs2 : Reg) (s : State) : Outcome :=
  result rd (setIf (ltU (s.rx rs1) (s.rx rs2))) s

/-- XOR (R118). -/
def execXor (rd rs1 rs2 : Reg) (s : State) : Outcome :=
  result rd (s.rx rs1 ^^^ s.rx rs2) s

/-- SRL (R118). -/
def execSrl (rd rs1 rs2 : Reg) (s : State) : Outcome :=
  result rd (srl64 (s.rx rs1) (bits (s.rx rs2) 0 6)) s

/-- SRA (R118). -/
def execSra (rd rs1 rs2 : Reg) (s : State) : Outcome :=
  result rd (sra64 (s.rx rs1) (bits (s.rx rs2) 0 6)) s

/-- OR (R118). -/
def execOr (rd rs1 rs2 : Reg) (s : State) : Outcome :=
  result rd (s.rx rs1 ||| s.rx rs2) s

/-- AND (R118). -/
def execAnd (rd rs1 rs2 : Reg) (s : State) : Outcome :=
  result rd (s.rx rs1 &&& s.rx rs2) s

/-- ADDW (R118). -/
def execAddw (rd rs1 rs2 : Reg) (s : State) : Outcome :=
  result rd (wOf (s.rx rs1 + s.rx rs2)) s

/-- SUBW (R118). -/
def execSubw (rd rs1 rs2 : Reg) (s : State) : Outcome :=
  result rd (wOf (s.rx rs1 - s.rx rs2)) s

/-- SLLW (R118). -/
def execSllw (rd rs1 rs2 : Reg) (s : State) : Outcome :=
  result rd (sll32 (s.rx rs1) (bits (s.rx rs2) 0 5)) s

/-- SRLW (R118). -/
def execSrlw (rd rs1 rs2 : Reg) (s : State) : Outcome :=
  result rd (srl32 (s.rx rs1) (bits (s.rx rs2) 0 5)) s

/-- SRAW (R118). -/
def execSraw (rd rs1 rs2 : Reg) (s : State) : Outcome :=
  result rd (sra32 (s.rx rs1) (bits (s.rx rs2) 0 5)) s

/-- A multiply: class IMULDIV; its result may be read 3 cycles later (R120, R121). -/
def multiply (rd : Reg) (v : Dword) (s : State) : Outcome := needCap 0 s fun s => .next (s.wxLate rd v).retire

/-- A division: class IMULDIV; it occupies the core's one divider for the given cycles, and a busy divider holds the
thread in UNIT (R120, R121). -/
def divide (cycles : Nat) (rd : Reg) (v : Dword) (s : State) : Outcome :=
  needCap 0 s fun s =>
    match s.here.divider with
    | some _ => .next (s.block .unit .divider)
    | none =>
      .next (s.modHere fun x => { x with divider := some (x.cycle + cycles, s.cur.slot.val, s.me.epoch, rd, v) }).retire

/-- MUL (R120). -/
def execMul (rd rs1 rs2 : Reg) (s : State) : Outcome :=
  multiply rd (s.rx rs1 * s.rx rs2) s

/-- MULH (R120). -/
def execMulh (rd rs1 rs2 : Reg) (s : State) : Outcome :=
  multiply rd (Sys2Proof.Machine.mulh (s.rx rs1) (s.rx rs2)) s

/-- MULHSU (R120). -/
def execMulhsu (rd rs1 rs2 : Reg) (s : State) : Outcome :=
  multiply rd (Sys2Proof.Machine.mulhsu (s.rx rs1) (s.rx rs2)) s

/-- MULHU (R120). -/
def execMulhu (rd rs1 rs2 : Reg) (s : State) : Outcome :=
  multiply rd (Sys2Proof.Machine.mulhu (s.rx rs1) (s.rx rs2)) s

/-- MULW (R120). -/
def execMulw (rd rs1 rs2 : Reg) (s : State) : Outcome :=
  multiply rd (wOf (s.rx rs1 * s.rx rs2)) s

/-- DIV (R120). -/
def execDiv (rd rs1 rs2 : Reg) (s : State) : Outcome :=
  divide 36 rd (divS (s.rx rs1) (s.rx rs2)) s

/-- DIVU (R120). -/
def execDivu (rd rs1 rs2 : Reg) (s : State) : Outcome :=
  divide 36 rd (divU (s.rx rs1) (s.rx rs2)) s

/-- REM (R120). -/
def execRem (rd rs1 rs2 : Reg) (s : State) : Outcome :=
  divide 36 rd (remS (s.rx rs1) (s.rx rs2)) s

/-- REMU (R120). -/
def execRemu (rd rs1 rs2 : Reg) (s : State) : Outcome :=
  divide 36 rd (remU (s.rx rs1) (s.rx rs2)) s

/-- DIVW (R120). -/
def execDivw (rd rs1 rs2 : Reg) (s : State) : Outcome :=
  divide 20 rd (sext (divS (low32 (s.rx rs1)) (low32 (s.rx rs2)))) s

/-- DIVUW (R120). -/
def execDivuw (rd rs1 rs2 : Reg) (s : State) : Outcome :=
  divide 20 rd (sext (divU (low32 (s.rx rs1)) (low32 (s.rx rs2)))) s

/-- REMW (R120). -/
def execRemw (rd rs1 rs2 : Reg) (s : State) : Outcome :=
  divide 20 rd (sext (remS (low32 (s.rx rs1)) (low32 (s.rx rs2)))) s

/-- REMUW (R120). -/
def execRemuw (rd rs1 rs2 : Reg) (s : State) : Outcome :=
  divide 20 rd (sext (remU (low32 (s.rx rs1)) (low32 (s.rx rs2)))) s

/-! ### Control transfer (R122-R124) -/

/-- A taken jump or branch: a target with bit 1 set raises cause 0 at the jump and writes no link (R123); a target
that fails the fetch check faults there, at the next issue (R124). -/
def jump (rd : Reg) (target : Dword) (s : State) : Outcome :=
  if bitAt target 1 then .next (s.trap 0 target) else .next ((s.wx rd (s.me.pc + 4)).retireTo target)

/-- off of the J format, and of the B format, in bytes. -/
def jOff (o : BitVec 20) : Dword := sext (o ++ 0b0#1)
def bOff (o : BitVec 12) : Dword := sext (o ++ 0b0#1)

/-- JAL (R122). -/
def execJal (rd : Reg) (off : BitVec 20) (s : State) : Outcome :=
  jump rd (s.me.pc + jOff off) s

/-- JALR (R122): bit 0 of the target is cleared. -/
def execJalr (rd rs1 : Reg) (imm : BitVec 12) (s : State) : Outcome :=
  jump rd ((s.rx rs1 + sext imm) &&& 0xFFFFFFFFFFFFFFFE) s

/-- A branch has no link: x0 discards it. -/
def branch (taken : Bool) (off : BitVec 12) (s : State) : Outcome :=
  if taken then jump 0 (s.me.pc + bOff off) s else .next s.retire

/-- BEQ (R122). -/
def execBeq (rs1 rs2 : Reg) (off : BitVec 12) (s : State) : Outcome :=
  branch (s.rx rs1 == s.rx rs2) off s

/-- BNE (R122). -/
def execBne (rs1 rs2 : Reg) (off : BitVec 12) (s : State) : Outcome :=
  branch (s.rx rs1 != s.rx rs2) off s

/-- BLT (R122). -/
def execBlt (rs1 rs2 : Reg) (off : BitVec 12) (s : State) : Outcome :=
  branch (ltS (s.rx rs1) (s.rx rs2)) off s

/-- BGE (R122). -/
def execBge (rs1 rs2 : Reg) (off : BitVec 12) (s : State) : Outcome :=
  branch (!ltS (s.rx rs1) (s.rx rs2)) off s

/-- BLTU (R122). -/
def execBltu (rs1 rs2 : Reg) (off : BitVec 12) (s : State) : Outcome :=
  branch (ltU (s.rx rs1) (s.rx rs2)) off s

/-- BGEU (R122). -/
def execBgeu (rs1 rs2 : Reg) (off : BitVec 12) (s : State) : Outcome :=
  branch (!ltU (s.rx rs1) (s.rx rs2)) off s

/-! ### Fences, environment, return and wait (R137-R141) -/

/-- FENCE: held in SCORE until the thread's entries have completed (R137). -/
def execFence (_pred _succ : BitVec 4) (s : State) : Outcome :=
  awaitAll s fun s => .next s.retire

/-- FENCE.TSO acts identically (R137). -/
def execFenceTso (_pred _succ : BitVec 4) (s : State) : Outcome :=
  awaitAll s fun s => .next s.retire

/-- FENCE.I: as FENCE, then the thread's fetch buffer is discarded (R138). -/
def execFenceI (s : State) : Outcome :=
  awaitAll s fun s => .next (s.modMe fun h => { h with fbuf := [] }).retire

/-- ECALL: cause 8 from U-mode, 11 from M-mode; the trap value is 0 (R139). -/
def execEcall (s : State) : Outcome :=
  .next (s.trap (if s.me.mode = .user then 8 else 11) 0)

/-- EBREAK: cause 3 with the pc as trap value (R139). -/
def execEbreak (s : State) : Outcome :=
  .next (s.trap 3 s.me.pc)

/-- MRET: machine-only (R140). -/
def execMret (s : State) : Outcome :=
  needMachine s fun s => .next s.mret

/-- WFI: as YIELD in a general thread, no effect in a handler (R141, R49, R57). Retiring leaves WAIT 0 and makes
LastIssued of the level point at the thread. -/
def execWfi (s : State) : Outcome :=
  .next s.retire

/-! ### CSR instructions (R142) -/

/-- CSRRW (R142). -/
def execCsrrw (rd : Reg) (csr : BitVec 12) (rs1 : Reg) (s : State) : Outcome :=
  csrOp .w rd csr (s.rx rs1) true s

/-- CSRRWI (R142). -/
def execCsrrwi (rd : Reg) (csr : BitVec 12) (uimm : BitVec 5) (s : State) : Outcome :=
  csrOp .w rd csr (zext uimm) true s

/-- CSRRS (R142). -/
def execCsrrs (rd : Reg) (csr : BitVec 12) (rs1 : Reg) (s : State) : Outcome :=
  csrOp .s rd csr (s.rx rs1) (rs1 != 0) s

/-- CSRRSI (R142). -/
def execCsrrsi (rd : Reg) (csr : BitVec 12) (uimm : BitVec 5) (s : State) : Outcome :=
  csrOp .s rd csr (zext uimm) (uimm != 0) s

/-- CSRRC (R142). -/
def execCsrrc (rd : Reg) (csr : BitVec 12) (rs1 : Reg) (s : State) : Outcome :=
  csrOp .c rd csr (s.rx rs1) (rs1 != 0) s

/-- CSRRCI (R142). -/
def execCsrrci (rd : Reg) (csr : BitVec 12) (uimm : BitVec 5) (s : State) : Outcome :=
  csrOp .c rd csr (zext uimm) (uimm != 0) s

end Sys2Proof.Machine
end

