-- ==== Sys2Proof/Machine/Deconf.lean ====
section
/-!
DEFINITION. The lists in fuses (R310, R315, R316), the fence log, and MarginScreen (R313), whose outcomes the hardware
gives.
-/
namespace Sys2Proof.Machine

/-! ### Lists in fuses (R310, R315, R316) -/

/-- The physical tile in bits [19:0] of a deconfiguration or fence-log entry. -/
def tileField (t : Nat) : Nat := field 16 4 (pkgOf t) + field 14 2 (dieOf t) + field 7 7 (dieXY t).2 + field 0 7 (dieXY t).1
def deconfEntry (kind cls t : Nat) : Dword := nd (field 62 2 kind + field 57 5 cls + tileField t)

/-- An entry joins the package's list unless that is full. -/
def State.deconf (s : State) (t : Nat) (e : Dword) : Option State :=
  if (s.pack (pkgOf t)).deconf.length < 1023 then some (s.modPack (pkgOf t) fun k => { k with deconf := k.deconf ++ [e] })
  else none

def State.fenceLog (s : State) (kind cls t : Nat) : State :=
  let ts := s.tsc
  s.modPack (pkgOf t) fun k =>
    { k with
      fenceLog := Assoc.put (k.fenceHead % 256) (nd ts, nd (field 62 2 kind + field 57 5 cls + tileField t)) k.fenceLog
      fenceHead := k.fenceHead + 1 }

/-- The core is listed as deconfigured; where the list is full it is remembered without an entry, and its classes are
cleared at each boot (R316). -/
def State.retireCore (s : State) (t : Nat) : State :=
  let e := deconfEntry 1 0 t
  if (s.pack (pkgOf t)).deconf.any (· == e) then s
  else (s.deconf t e).getD (s.modPack (pkgOf t) fun k => { k with retired := k.retired ++ [t] })

/-! ### MarginScreen (R311, R313) -/

/-- A core belongs to an open partition (R311). -/
def State.inOpen (s : State) (t : Nat) : Bool := s.parts.any fun q => q.pid == (s.tile t).core.pid && q.state != 2

/-- MarginScreen of the cores of an island that owe it and are in no open partition: once each, and those that fail are
retired (R313). -/
def State.screened (s : State) (island : Nat) (fails : List (Nat × Nat)) : State :=
  let due (t : Nat) : Bool := islandOf t == island && (s.tile t).enabled && (s.tile t).unscreened && !s.inOpen t
  let s' := (fails.filter fun f => due f.1).foldl (fun s f => s.retireCore f.1) s
  { s' with tiles := s'.tiles.map fun p => if due p.1 then (p.1, { p.2 with unscreened := false }) else p }

/-- Cores that their partition gives up are screened then where a screen is owed (R313). -/
def State.screenFreed (s : State) (ts : List Nat) : State :=
  ts.foldl (fun s t => if (s.tile t).unscreened then s.screened (islandOf t) (Config.screenFails s.tick (islandOf t)) else s) s

end Sys2Proof.Machine
end

