-- ==== Sys2Proof/Machine/Spawning.lean ====
section
/-!
DEFINITION. How threads begin, sleep and wake (R44-R57, R121, R136, R154, R155, R267): spawns and messages on their
way, the spawn intake and the inbox, handlers and firmware threads, and the ends of waits.
-/
namespace Sys2Proof.Machine

/-! ### Filling a slot (R45) -/

/-- jsrseed of a thread that starts: mhartid[31:0] with a constant, or 1. -/
def Tile.firstSeed (x : Tile) (i : Fin 8) : Dword := seedValue (nd (x.lidx * 8 + i.val) ^^^ 0x2545F491)

/-- The context a filled slot starts with. -/
def Tile.fill (x : Tile) (i : Fin 8) (m : Message) (prio : Nat) : Tile :=
  let old := x.th i
  let h : Thread :=
    { epoch := old.epoch, lastIssue := old.lastIssue, st := .ready, pc := m.entry, prio := prio, budget := 4096
      jsrseed := x.firstSeed i }
  x.setTh i (((((h.wx 10 m.a0).wx 11 m.a1).wx 12 m.a2).wx 13 m.a3).wx 14 m.ident)

/-- Slots that hold no thread. -/
def Tile.isEmpty (x : Tile) (i : Nat) : Bool := (x.th (slotIx i)).st == .empty
/-- The lowest EMPTY general slot below GSLOTS, and the lowest EMPTY handler slot. -/
def Tile.generalSlot (x : Tile) : Option Nat := (upTo (min 6 x.core.gslots)).find? x.isEmpty
def Tile.handlerSlot (x : Tile) : Option Nat := [6, 7].find? x.isEmpty
/-- General slots occupied. -/
def Tile.occupied (x : Tile) : Nat := ((upTo 6).filter fun i => !x.isEmpty i).length

/-! ### Spawns and messages on their way (R50-R56) -/

/-- Admission: check 1 of R50 with R63, made again while a partition closes. -/
def admits (s : State) (p : Packet) (t : Nat) : Bool :=
  let x := s.tile t
  reached s p t && x.enabled && x.portCore.pid == p.org.pid && !x.portCore.hold

/-- SPAWN_REQUEST_ARRIVAL (R51). -/
def execSpawnRequestArrival (pkt : Nat) (s : State) : Outcome :=
  arrive s pkt (fun | .spawn _ => true | _ => false) fun p s =>
    match p.home, p.op with
    | .tile t, .spawn m =>
      if !admits s p t then s.reply p (.status 3)
      else if 4 ≤ (s.tile t).intake.length then s.reply p .refused
      else s.modTile t fun x => { x with intake := x.intake ++ [{ recId := p.req, msg := m, org := p.org, req := p.req }] }
    | _, _ => s

/-- MESSAGE_ARRIVAL (R55). -/
def execMessageArrival (pkt : Nat) (s : State) : Outcome :=
  arrive s pkt (fun | .message _ => true | _ => false) fun p s =>
    match p.home, p.op with
    | .tile t, .message m =>
      if !admits s p t then s.reply p (.status 3)
      else if 32 ≤ (s.tile t).inbox.length then s.reply p .refused
      else (s.modTile t fun x => { x with inbox := x.inbox ++ [m] }).reply p (.status 0)
    | _, _ => s

/-- What the drained request comes to: a status, and the core with the slot filled (R50, R51). -/
def drained (x : Tile) (m : Message) : Nat × Tile :=
  if x.portCore.hold then (3, x)
  else if x.portCore.jkcaps &&& ~~~x.portCore.jcaps ≠ 0 then (2, x)
  else if x.core.gslots ≤ x.occupied then (1, x)
  else
    match x.generalSlot with
    | some i => (0, x.fill (slotIx i) m (min m.prio x.core.pcap))
    | none => (1, x)

/-- SPAWN_INTAKE_DRAIN: the oldest request of the intake is answered (R51). -/
def execSpawnIntakeDrain (tile : Nat) (s : State) : Outcome :=
  onTile s tile <|
    let x := s.tile tile
    match x.intake with
    | [] => .next s
    | r :: rest =>
      let d := drained x r.msg
      .next ((s.setTile tile { d.2 with intake := rest }).reply
        { id := r.recId, op := .spawn r.msg, org := r.org, home := .tile tile, req := r.req } (.status d.1))

/-- Back-off before the next attempt, after the i-th refusal (R51). -/
def backOff (i : Nat) : Nat := 32 * 2 ^ min (i - 1) 5

/-- SPAWN_REFUSAL_RETURN: after the eighth refusal the status is 4 (R51). -/
def execSpawnRefusalReturn (pkt : Nat) (s : State) : Outcome :=
  match s.pkt pkt with
  | none => .next s
  | some p =>
    match p.op, s.spawns.find? (·.id == p.req) with
    | .refused, some r =>
      let n := r.refusals + 1
      let s := s.dropPkt pkt
      if 8 ≤ n then .next (s.sendPkt { p with op := .status 4 })
      else
        .next { s with spawns := s.spawns.map fun (q : SpawnRec) =>
          if q.id = r.id then { q with refusals := n, due := some (s.tick + backOff n) } else q }
    | _, _ => .next s

/-- SPAWN_RESEND: the request sets out again (R51). -/
def execSpawnResend (entry : Nat) (s : State) : Outcome :=
  match s.spawns.find? (·.id == entry) with
  | none => .next s
  | some r =>
    match r.due with
    | none => .next s
    | some d =>
      if s.tick < d then .next s
      else
        let p : Packet := { id := r.id, op := r.op, org := r.org, home := r.home, addr := r.addr, req := r.id }
        let s := { s with spawns := s.spawns.map fun (q : SpawnRec) => if q.id = r.id then { q with due := none } else q }
        .next (if crosses r.home then { s with fabricOut := s.fabricOut ++ [p] } else s.sendPkt p)

/-- The answer of one core to a part of a SPAWNM (R54). -/
def State.countAnswer (s : State) (t req v : Nat) : State :=
  match (s.tile t).reqs.find? (·.id == req) with
  | none => s
  | some e =>
    let e := { e with awaited := e.awaited - 1, refusals := e.refusals + b2n (v != 0) }
    if e.awaited = 0 then (s.writeResult t e (nd e.refusals)).freeEntry t e.id
    else s.modTile t fun x => { x with reqs := x.reqs.map fun (q : ReqEntry) => if q.id = e.id then e else q }

/-- A host spawn's status: written to host memory at STADDR (R295). -/
def State.hostStatus (s : State) (v : Nat) (h : Nat × Nat × Nat) : State :=
  if h.2.1 = 0 then s else s.writeN (hostKey h.2.1) 8 (field 32 32 h.2.2 + v)

/-- SPAWN_STATUS_RETURN (R52-R54, R295). -/
def execSpawnStatusReturn (pkt : Nat) (s : State) : Outcome :=
  match s.pkt pkt with
  | none => .next s
  | some p =>
    match p.op, s.spawns.find? (·.id == p.req) with
    | .status v, some r =>
      let s := { s.dropPkt pkt with spawns := s.spawns.filter (·.id != r.id) }
      match r.host with
      | some h => .next (s.hostStatus v h)
      | none =>
        let t := r.org.tile
        if r.many then .next (s.countAnswer t r.req v)
        else
          match (s.tile t).reqs.find? (·.id == r.req) with
          | none => .next s
          | some e => .next ((s.writeResult t e (nd (field 8 4 e.tag + v))).freeEntry t e.id)
    | _, _ => .next s

/-! ### Handlers and firmware threads (R56, R267) -/

/-- A thread that can take a firmware event. -/
def Thread.takesEvents (h : Thread) : Bool :=
  h.st != .empty && bitAt h.mie 11 && (h.mode == .user || mieOf h.mstatus)
/-- A firmware thread is owed to the core: an event is pending, nobody can take it, and none runs already. -/
def Tile.needsFirmware (x : Tile) : Bool :=
  x.evpend != 0 && !(x.threads.toList.any (·.takesEvents)) && !(x.threads.toList.any fun h => h.firmware && h.st != .empty)

/-- HANDLER_DISPATCH: the oldest message fills the lowest EMPTY handler slot (R56). -/
def execHandlerDispatch (tile : Nat) (s : State) : Outcome :=
  onTile s tile <|
    let x := s.tile tile
    match x.inbox, x.handlerSlot with
    | m :: rest, some i =>
      if x.halted ∨ x.needsFirmware then .next s
      else .next (s.setTile tile { x.fill (slotIx i) m 0 with inbox := rest })
    | _, _ => .next s

/-- FIRMWARE_THREAD_FILL: the next EMPTY handler slot takes a firmware thread in M-mode (R267). -/
def execFirmwareThreadFill (tile : Nat) (s : State) : Outcome :=
  onTile s tile <|
    let x := s.tile tile
    match x.handlerSlot with
    | some i =>
      if x.needsFirmware then
        .next (s.setTile tile ((x.fill (slotIx i) { entry := 0x5000000000000040 } 0).modTh (slotIx i) fun h =>
          { h with mode := .machine, firmware := true }))
      else .next s
    | none => .next s

/-! ### Cluster load (R53) -/

/-- COUNTi as the cluster network sees the core of index i from tile t. -/
def countOf (s : State) (t i : Nat) : Nat :=
  let u := s.clusterTile t i
  let x := s.tile u
  if s.inFrame u ∧ x.enabled ∧ x.portCore.pid = (s.tile t).core.pid ∧ x.core.jkcaps &&& ~~~x.core.jcaps = 0 then x.freeSlots
  else 0

/-- JCLOAD_REFRESH (R53): every COUNT as it stands at the refresh; of the cycles from which R53 lets it come the model
takes this one (log 84). -/
def execJcloadRefresh (tile : Nat) (s : State) : Outcome :=
  onTile s tile <|
    .next (s.modCore tile fun c =>
      { c with jcload := nd ((upTo 16).foldl (fun v i => v + field (4 * i) 4 (countOf s tile i)) 0) })

/-! ### Waits end (R121, R136, R154, R155, R209) -/

/-- The destination of a wait that returns. -/
def Wait.dest : Wait → Reg
  | .riser _ _ _ rd => rd
  | .copy .. => 0

/-- RWAIT_WAKE: in the second cycle after the write or the timeout that ended it, the wait retires (R155, R209); in a
suspension it stays in SLEEP (R282). -/
def execRwaitWake (tile slot : Nat) (s : State) : Outcome :=
  onTile s tile <|
    let i := slotIx slot
    let h := s.th tile i
    match h.sleep, h.woken with
    | some w, some (v, c) =>
      if c ≤ (s.tile tile).cycle + 1 ∧ !(s.tile tile).halted then
        .next (s.modTh tile i fun h =>
          { (h.wx w.dest v).finish (h.pc + 4) false with sleep := none, woken := none })
      else .next s
    | _, _ => .next s

/-- RWAITT_TIMEOUT: the wait is evaluated for the last time (R154). -/
def execRwaittTimeout (tile slot : Nat) (s : State) : Outcome :=
  onTile s tile <|
    let i := slotIx slot
    let h := s.th tile i
    match h.sleep, h.woken with
    | some (.riser off tgt (some e) _), none =>
      if e ≤ s.tick ∧ !(s.tile tile).halted then
        match waitResult (s.readD (tileKey tile off)) tgt true with
        | some v => .next (s.modTile tile fun x => x.modTh i fun h => { h with woken := some (v, x.cycle + 2) })
        | none => .next s
      else .next s
    | _, _ => .next s

/-- LR_HOLD_EXPIRY (R136). -/
def execLrHoldExpiry (tile slot : Nat) (s : State) : Outcome :=
  onTile s tile <|
    let i := slotIx slot
    let x := s.tile tile
    match (x.th i).holdEnd with
    | some e =>
      if e ≤ x.cycle + 1 then
        .next (s.setTile tile (x.modTh i fun h => { h with holdEnd := none, lastHold := some e }).wakeHold)
      else .next s
    | none => .next s

/-- Threads that wait for the divider issue again. -/
def Tile.wakeDivider (x : Tile) : Tile :=
  x.mapTh fun h => if h.need = .divider then { h with st := .ready, need := .none } else h

/-- DIVIDE_COMPLETE: the quotient or remainder is written, and the divider accepts again (R121). -/
def execDivideComplete (tile : Nat) (s : State) : Outcome :=
  onTile s tile <|
    let x := s.tile tile
    match x.divider with
    | some (c, slot, epoch, rd, v) =>
      if c ≤ x.cycle + 1 then
        let i := slotIx slot
        let x := if (x.th i).epoch = epoch ∧ (x.th i).st ≠ .empty then x.modTh i (·.wx rd v) else x
        .next (s.setTile tile { x with divider := none }.wakeDivider)
      else .next s
    | none => .next s

/-- PAGE_WALK_COMPLETE (R285). -/
def execPageWalkComplete (walk : Nat) (s : State) : Outcome := .next (walkComplete s walk)

end Sys2Proof.Machine
end

