-- ==== Sys2Proof/Machine/FwPackets.lean ====
section
/-!
DEFINITION. The packets and register writes of firmware (R9, R34, R37, R62, R86, R143-R146, R165, R242, R266, R267): the
tile-to-tile packets of NBSEND, the acknowledgement of RCFG, and the writes of registers that have an effect of their own.
-/
namespace Sys2Proof.Machine

/-! ### NBSEND (R144, R145) -/

/-- The tile that receives a packet sent from t in a direction, and the fused tiles passed; none past the frame's edge or
at an untrained link. The fuel is the frame's side. -/
def receiver (s : State) : Nat → Nat → Nat → Nat → Option (Nat × Nat)
  | 0, _, _, _ => none
  | n + 1, t, dir, skip =>
    if s.deadLinks.any (· == (t, dir)) then none
    else
      match s.adjacent t dir with
      | none => none
      | some u => if (s.tile u).fused then receiver s n u dir (skip + 1) else some (u, skip)

/-- Offsets of entry i's packet and header in a tile's storage. -/
def packetOff (i : Nat) : Nat := mramBase + 0x7E00 + 64 * i
def headerOff (i : Nat) : Nat := mramBase + 0x7F00 + 8 * i

/-- The lowest entry whose VALID bit is 0. -/
def freePacket (s : State) (t : Nat) : Option Nat :=
  (upTo 4).find? fun i => !bitAt (s.readD (tileKey t (headerOff i))) 63

/-- A packet into entry i of its receiver: the bytes, then the header, then the event. SKIP is eight bits wide: past 255
fused tiles it holds the count modulo 256 (log 86). -/
def State.storePacket (s : State) (u i : Nat) (bytes : List Byte) (dir skip : Nat) (w : Writer) : State :=
  let s := s.stepWrite u [(packetOff i, bytes)] w (packetOff i)
  (s.stepWrite u [(headerOff i, leBytes 8 (field 63 1 1 + field 16 8 skip + field 8 2 dir))] w (headerOff i)).event u 1
/-- The bytes that a packet's store names. -/
def packetSpans (i : Nat) : List (Nat × Nat) := [(packetOff i, 64), (headerOff i, 8)]

/-- NBSEND_RECEIVE: the packet and its header are stored and NBRECV is set, or a status says why not. A receiver that is
asleep is woken first (R325), and an LR hold delays the stores (R136). -/
def execNbsendReceive (pkt : Nat) (s0 : State) : Outcome :=
  match s0.pkt pkt with
  | none => .next s0
  | some p =>
    match p.op with
    | .nb bytes dir skip0 =>
      let s := s0.dropPkt pkt
      match receiver s s.side p.org.tile dir skip0 with
      | none => .next (s.reply p (.status 2))
      | some (u, skip) =>
        if !s.awake u then .next s0
        else
          match freePacket s u with
          | none => .next (s.reply p (.status 1))
          | some i =>
            let w : Writer := { kind := 0, org := p.org, logged := false, lsize := 6 }
            .next (s0.atPort s u (.packet pkt) w (packetSpans i) fun s =>
              (s.storePacket u i bytes dir skip w).reply p (.status 0))
    | _ => .next s0

/-- NBSEND_STATUS_RETURN (R144). -/
def execNbsendStatusReturn (pkt : Nat) (s : State) : Outcome :=
  match s.pkt pkt with
  | none => .next s
  | some p =>
    match p.op with
    | .status _ => .next (if s.spawns.any (·.id == p.req) then s else threadReply s p)
    | _ => .next s

/-! ### RCFG (R146) -/

/-- The cursor at a thread. -/
def State.asThread (s : State) (t : Nat) (i : Fin 8) : State := { s with cur := { s.cur with tile := t, slot := i } }

/-- A core reaches the router that RCFG names: its own, or an adjacent one over a trained link (R146, R333). -/
def rcfgReaches (s : State) (tile t : Nat) (d : Dword) : Bool :=
  s.inFrame t && (t == tile || !s.deadLinks.any (· == (tile, d.toNat - 1)))

/-- RCFG_ACK: the word is written and the instruction retires; cause 7 at a locked router, and over a port that leads to
none (R146, R333; log 27). -/
def execRcfgAck (tile slot : Nat) (s : State) : Outcome :=
  onTile s tile <|
    let i := slotIx slot
    match (s.th tile i).rcfg with
    | none => .next s
    | some (t, w, d) =>
      if !rcfgReaches s tile t d ∨ routerLocked (s.tile t) then
        let u := (s.asThread tile i).trap 7 d
        .next { u with cur := s.cur }
      else
        .next ((s.modTile t fun x => writeRouter x w).modTh tile i fun h =>
          { h.finish (h.pc + 4) (decide (6 ≤ slot)) with rcfg := none })

/-! ### Register writes -/

/-- ROUTER_CONFIG_WRITE: a write under LOCK changes nothing (R146). -/
def execRouterConfigWrite (tile : Nat) (v : Dword) (s : State) : Outcome :=
  onTile s tile <| .next (if routerLocked (s.tile tile) then s else s.modTile tile fun x => writeRouter x v)

/-- EVPEND_WRITE (R267). -/
def execEvpendWrite (tile : Nat) (v : Dword) (s : State) : Outcome :=
  onTile s tile <| .next (s.modTile tile (·.clearEvents v))

/-- JCODEWIN_WRITE (R37). -/
def execJcodewinWrite (tile : Nat) (v : Dword) (s : State) : Outcome := onTile s tile <| .next (s.writeCodewin tile v)

/-- A write to a CSR of a thread: there is one only while the slot holds a thread. -/
def onThread (s : State) (t slot : Nat) (f : Fin 8 → State) : Outcome :=
  onTile s t <| .next (if (s.th t (slotIx slot)).st = .empty then s else f (slotIx slot))

/-- JSRSEED_WRITE (R86). -/
def execJsrseedWrite (tile slot : Nat) (v : Dword) (s : State) : Outcome :=
  onThread s tile slot fun i => s.writeSeed tile i v

/-- JRMARK_WRITE (R165). -/
def execJrmarkWrite (tile slot : Nat) (v : Dword) (s : State) : Outcome :=
  onThread s tile slot fun i => s.writeMark tile i v

/-- JMGATE_WRITE: jmgate or jmgatev (R242). -/
def execJmgateWrite (tile slot : Nat) (csr : BitVec 12) (v : Dword) (s : State) : Outcome :=
  onThread s tile slot fun i =>
    if csr = 0x8C7#12 then s.writeGate tile i v
    else if csr = 0x8C8#12 then s.writeGateTarget tile i v
    else s

/-- JUTCAUSE_WRITE (R266). -/
def execJutcauseWrite (tile slot : Nat) (v : Dword) (s : State) : Outcome :=
  onThread s tile slot fun i => s.writeUcause tile i v

/-- JMPART_WRITE: jmpart0, jmpart1 or jmrcb (R62). -/
def execJmpartWrite (tile : Nat) (csr : BitVec 12) (v : Dword) (s : State) : Outcome :=
  onTile s tile <|
    .next (if csr = 0x7C0#12 ∨ csr = 0x7C1#12 ∨ csr = 0x7C2#12 then s.writePart tile csr.toNat v else s)

/-- REGISTER_WRITE: a register reached by address, of a tile, a management block, or a package's host window, by its access
codes (R9, R34, R291, R307). -/
def execRegisterWrite (home : Home) (off size : Nat) (v : Dword) (s : State) : Outcome :=
  match home with
  | .tile t =>
    onTile s t <|
      .next (if regShape off size ∧ !(off / 8 * 8 = 0xC0000 ∧ routerLocked (s.tile t)) then
        s.modTile t fun x => writeTileReg x off size (v.toNat % 2 ^ (8 * size)) else s)
  | .mgmt pkg => .next ((mgmtWrite s pkg off size (v.toNat % 2 ^ (8 * size))).getD s)
  | .host pkg => .next (windowWrite s pkg off (leBytes (min size 8) v.toNat))
  | _ => .next s

end Sys2Proof.Machine
end

