-- ==== Sys2Proof/Machine/Engine.lean ====
section
/-!
DEFINITION. The engine instructions: queuing copy and ladle commands with the checks made before a command is queued,
and waiting for a channel's watermark (R203-R212, R223).
-/
namespace Sys2Proof.Machine

/-! ### Copy command words (R210-R212) -/

def wDbar (w0 : Dword) : Bool := bitAt w0 59
def wCbar (w0 : Dword) : Bool := bitAt w0 58
/-- Completion riser or barrier offset, and destination riser or barrier offset; 0 names none. -/
def wCriser (w0 : Dword) : Nat := 64 * bits w0 16 13
def wDriser (w0 : Dword) : Nat := 8 * bits w0 0 16
def wLen (w3 : Dword) : Nat := bits w3 0 32
def wRows (w3 : Dword) : Nat := bits w3 16 12 + 1
def wRowLen (w3 : Dword) : Nat := bits w3 0 16 + 1
def wSpitch (w3 : Dword) : Nat := 16 * bits w3 28 18
def wDpitch (w3 : Dword) : Nat := 16 * bits w3 46 18
def wIdxOff (w3 : Dword) : Nat := bits w3 45 19
def wNidx (w3 : Dword) : Nat := bits w3 29 16 + 1
def wRowB (w3 : Dword) : Nat := 8 * (bits w3 16 13 + 1)
def wHeight (w3 : Dword) : Nat := bits w3 54 10 + 1
def wWidth (w3 : Dword) : Nat := bits w3 44 10 + 1

/-- Bytes from the first to one past the last that word 1, and word 2, name on their side, as far as the check
before queuing covers them (R208, check 2). -/
def srcSpan (op : Nat) (w3 : Dword) : Nat :=
  match op with
  | 0 | 5 | 6 | 7 => wLen w3
  | 1 => (wRows w3 - 1) * wSpitch w3 + wRowLen w3
  | _ => 0
def dstSpan (op : Nat) (w3 : Dword) : Nat :=
  match op with
  | 0 | 5 | 6 | 7 | 8 => wLen w3
  | 1 => (wRows w3 - 1) * wDpitch w3 + wRowLen w3
  | _ => 0

def spaceOf (a : Dword) : Nat := bits a 60 4

/-- The spaces a channel takes for words 1 and 2 (R203). -/
def channelTakes (ch : Nat) (m : Bool) (sp : Nat) : Bool :=
  match ch with
  | 0 => sp ≤ 1 || (m && (sp == 4 || sp == 5))
  | 1 => sp ≤ 2
  | 2 => sp ≤ 3
  | _ => sp ≤ 2

/-- The spaces a channel takes for the source and for the destination of an operation (R203, R211, R217). On channel 0 a
multicast whose source lies elsewhere than R217 lets it fails check 2 with word 1 (log 72); on the other channels it fails
check 6. -/
def srcTakes (op ch : Nat) (m : Bool) (sp : Nat) : Bool :=
  if op = 5 ∧ ch = 0 then sp == 0 || (m && sp == 5) else channelTakes ch m sp
def dstTakes (op ch : Nat) (m : Bool) (sp : Nat) : Bool :=
  match op with
  | 5 => if ch = 0 then sp == 1 || (m && sp == 4) else channelTakes ch m sp
  | 6 | 7 => channelTakes ch m sp && (sp == 0 || sp == 1 || sp == 3)
  | _ => channelTakes ch m sp

/-- The condition of the last column of R203, in the spaces alone. -/
def channelCondition (op ch sp1 sp2 : Nat) : Bool :=
  let far (sp : Nat) : Bool := sp == 2 || sp == 3
  match ch with
  | 0 => true
  | 1 => sp2 == 2 || (op != 8 && sp1 == 2)
  | 2 => far sp2 || (op != 8 && far sp1)
  | _ => if op = 8 then sp2 == 2 else (sp1 == 2) != (sp2 == 2)

/-- The address part of check 2 of R208: checks 1 to 3 of R32 over the bytes named. -/
def wordReaches (s : State) (a : Dword) (span : Nat) : Bool :=
  match locate s s.me.mode a with
  | some l => l.fits span
  | none => false

/-- The multicast rectangle of space 0x1 lies in the partition; that of space 0x4, of which R208 says nothing, in the frame
and one region (R217, log 94); in other spaces there is none. -/
def rectOk (s : State) (w2 w3 : Dword) : Bool :=
  match locate s s.me.mode w2 with
  | some (.mesh y x off) =>
    spaceOf w2 != 1 || y + wHeight w3 ≤ s.here.core.height && x + wWidth w3 ≤ s.here.core.width && off + wLen w3 ≤ 0x80000
  | some (.abs py px toff) =>
    py + wHeight w3 ≤ s.side && px + wWidth w3 ≤ s.side
      && (toff + wLen w3 ≤ 0x80000 || (mramBase ≤ toff && toff + wLen w3 ≤ mramBase + 0x8000))
  | _ => true

/-- Check 1 of R208: the first word with an undefined OP or a non-zero reserved field. -/
def badWord (op : Nat) (w0 w1 w3 : Dword) : Option Dword :=
  if 8 < op then some w0
  else if (op = 2 ∧ w1 ≠ 0) then some w1
  else
    match op with
    | 0 | 6 | 7 | 8 => if bits w3 32 32 ≠ 0 then some w3 else none
    | 3 | 4 => if bits w3 0 16 ≠ 0 then some w3 else none
    | 5 => if bits w3 32 12 ≠ 0 then some w3 else none
    | _ => none

/-- Check 2 of R208. A WALK's word 3 is its map address; FILL's word 1 is no address. Where only the channel's
condition fails, word 2 is the one named (log 22). -/
def badPlace (s : State) (op ch : Nat) (w1 w2 w3 : Dword) : Option Dword :=
  let m := s.me.mode == .machine
  if op = 2 then
    if !(dstTakes op ch m (spaceOf w2) && wordReaches s w2 0) then some w2
    else if !((spaceOf w3 == 0 || spaceOf w3 == 2) && channelTakes ch m (spaceOf w3) && wordReaches s w3 64) then some w3
    else none
  else if op ≠ 8 ∧ !(srcTakes op ch m (spaceOf w1) && wordReaches s w1 (srcSpan op w3)) then some w1
  else if !(dstTakes op ch m (spaceOf w2) && wordReaches s w2 (dstSpan op w3)) then some w2
  else if op = 5 ∧ !rectOk s w2 w3 then some w2
  else if !channelCondition op ch (spaceOf w1) (spaceOf w2) then some w2
  else if (op = 3 ∨ op = 4) ∧ 0x80000 < wIdxOff w3 + 4 * wNidx w3 then some w3
  else none

/-- Check 3 of R208: the alignments of R211 and R212. -/
def badAlign (op : Nat) (w1 w2 w3 : Dword) : Option Dword :=
  match op with
  | 2 => if w3.toNat % 64 ≠ 0 then some w3 else none
  | 3 | 4 => if wIdxOff w3 % 4 ≠ 0 then some w3 else none
  | 6 => if w1.toNat % 4 ≠ 0 then some w1 else if w2.toNat % 4 ≠ 0 then some w2 else if wLen w3 % 4 ≠ 0 then some w3 else none
  | 7 => if w1.toNat % 2 ≠ 0 then some w1 else if w2.toNat % 2 ≠ 0 then some w2 else if wLen w3 % 2 ≠ 0 then some w3 else none
  | _ => none

/-- Checks 4 to 6 of R208: all name word 0. -/
def badRiser (op ch : Nat) (w0 w2 : Dword) : Bool :=
  let sp := spaceOf w2
  let place := sp == 0 || sp == 1 || sp == 3 || (sp == 4 && decide (bits w2 0 20 < 0x80000))
  ((bits w0 0 16 != 0 || wDbar w0) && !place)
    || (wDbar w0 && (bits w0 0 16 == 0 || bits w0 0 16 % 2 == 1))
    || (wCbar w0 && bits w0 16 13 == 0)
    || (op == 5 && ch != 0) || (op == 2 && 2 ≤ ch)

/-- R208: the first check that fails, and the word it names. -/
def copyRefusal (s : State) (ch : Nat) (w0 w1 w2 w3 : Dword) : Option Dword :=
  let op := CopyCmd.opc4 w0
  match badWord op w0 w1 w3 with
  | some w => some w
  | none =>
    match badPlace s op ch w1 w2 w3 with
    | some w => some w
    | none =>
      match badAlign op w1 w2 w3 with
      | some w => some w
      | none => if badRiser op ch w0 w2 then some w0 else none

/-! ### Queuing (R204-R207) -/

/-- The first evaluation of a gate, as its command comes to watch it; a command without a gate has reached it
(R213). -/
def gateNow (s : State) (t : Nat) (w0 : Dword) : Nat :=
  if gateOff w0 = 0 then 1 else gateTest (s.readD (tileKey t (gateOff w0))) (gateTgt w0)

/-- The command now at the head of a channel's FIFO begins to evaluate its gate. -/
def Channel.newHead (c : Channel) (s : State) (t : Nat) : Channel :=
  match c.fifo with
  | [] => { c with gate := 0 }
  | h :: _ => { c with gate := gateNow s t h.w0, gateTs := s.tsc }

def Tile.setChan (x : Tile) (ch : Fin 4) (c : Channel) : Tile := { x with chans := x.chans.set ch c }
def State.modChan (s : State) (t : Nat) (ch : Fin 4) (f : Channel → Channel) : State :=
  s.modTile t fun x => x.setChan ch (f x.chans[ch])

/-- Enqueue of R207, with the checks of R208 before it. -/
def enqueue (stalling : Bool) (rd rs1 : Reg) (ch : Ch) (s : State) : Outcome :=
  needCap (12 + ch.toNat) s fun s =>
    let w0 := s.rgroup rs1 0
    let w1 := s.rgroup rs1 1
    let w2 := s.rgroup rs1 2
    let w3 := s.rgroup rs1 3
    match copyRefusal s ch.toNat w0 w1 w2 w3 with
    | some w => .next (s.trap 7 w)
    | none =>
      let c := s.here.chans[ch.toFin]
      if 16 ≤ c.fifo.length then
        if stalling then .next (s.block .queue (.channel ch.toNat)) else .next (s.wx rd 0xFFFFFFFFFFFFFFFF).retire
      else
        let cmd : CopyCmd :=
          { serial := s.nextId, id := c.jcpnext.toNat, w0 := w0, w1 := w1, w2 := w2, w3 := w3, slot := s.cur.slot
            epoch := s.me.epoch, opc := s.me.pc, machine := s.me.mode == .machine, quiet := s.quietFaults }
        let t := s.cur.tile
        let s' := { s with nextId := s.nextId + 1 }.modChan t ch.toFin fun c =>
          let c' := { c with fifo := c.fifo ++ [cmd], jcpnext := c.jcpnext + 1 }
          if c.fifo.isEmpty then c'.newHead s t else c'
        .next (s'.wx rd (zext c.jcpnext)).retire

/-- CPQ (R207). -/
def execCpq (rd rs1 : Reg) (ch : Ch) (s : State) : Outcome :=
  enqueue true rd rs1 ch s

/-- CPQN: never stalls (R207). -/
def execCpqn (rd rs1 : Reg) (ch : Ch) (s : State) : Outcome :=
  enqueue false rd rs1 ch s

/-- A watermark has reached a target, as serial numbers (R204). -/
def reachedMark (d t : Word) : Bool := decide ((d - t).toNat < 2 ^ 31)

/-- CPWAIT: illegal in a handler (R57, R209). -/
def execCpwait (rs1 : Reg) (ch : Ch) (s : State) : Outcome :=
  let m := low32 (s.rx rs1)
  if s.handler then .next s.illegal
  else if reachedMark s.here.chans[ch.toFin].jcpdone m then .next s.retire
  else
    let ts := s.tsc
    .next (s.modMe fun h => { h with st := .sleep, sleep := some (.copy ch.toNat m), sleepTs := ts }).noteIssue

/-! ### The ladle queue (R223) -/

def wLop (w0 : Dword) : Nat := bits w0 60 4

/-- The first failing word of a ladle command (R223). -/
def ladleRefusal (w0 w1 w2 w3 : Dword) : Option Dword :=
  if 3 < wLop w0 ∨ bits w0 58 2 ≠ 0 ∨ bits w0 0 16 ≠ 0 then some w0
  else if bits w1 19 45 ≠ 0 ∨ bits w1 0 7 ≠ 0 then some w1
  else if w2 ≠ 0 then some w2
  else if w3 ≠ 0 then some w3
  else none

/-- LDLQ: never stalls (R223). -/
def execLdlq (rd rs1 : Reg) (s : State) : Outcome :=
  needCap 16 s fun s =>
    let w0 := s.rgroup rs1 0
    let w1 := s.rgroup rs1 1
    match ladleRefusal w0 w1 (s.rgroup rs1 2) (s.rgroup rs1 3) with
    | some w => .next (s.trap 7 w)
    | none =>
      if 4 ≤ s.here.ladle.queue.length then .next (s.wx rd 1).retire
      else
        let watching := s.here.ladle.queue.isEmpty || wLop w0 == 3
        let cmd : LadleCmd :=
          { serial := s.nextId, w0 := w0, w1 := w1, slot := s.cur.slot, epoch := s.me.epoch, opc := s.me.pc
            machine := s.me.mode == .machine, watching := watching
            gate := if watching then gateNow s s.cur.tile w0 else 0, gateTs := s.tsc }
        let s' := { s with nextId := s.nextId + 1 }.modHere fun x =>
          { x with ladle := { x.ladle with queue := x.ladle.queue ++ [cmd] } }
        .next (s'.wx rd 0).retire

end Sys2Proof.Machine
end

