-- ==== Sys2Proof/Machine/Gateway.lean ====
section
/-!
DEFINITION. The receiving gateway of the fabric: admission (R63, R303, R304), fabric stores and their counts (R176, R306),
interval checks and their answers (R177-R180); and the stall detector of a partition (R67-R69).
-/
namespace Sys2Proof.Machine

/-! ### Admission at a gateway -/

/-- A request that the gateway refuses: REASON 5, or status 3 for a spawn or message (R63, R271). -/
def gatewayRefusal (p : Packet) : Packet :=
  { p with
    op := match p.op with
      | .spawn _ | .message _ => .status 3
      | _ => .reject 5 0 true
    home := .module p.org.omod 0 0
    id := p.extId }

/-- A request arrives at the gateway (R303). -/
def State.gateway (s : State) (p : Packet) : State :=
  match routedIn s p with
  | some q => s.sendPkt q
  | none => { s with fabricOut := s.fabricOut ++ [gatewayRefusal p] }

/-- A packet's place in the network is another's from now on: its order among the requests stays (R186). -/
def State.replacePkt (s : State) (id : Nat) (q : Packet) : State :=
  { s with net := s.net.map fun p => if p.id = id then q else p }

/-! ### Fabric stores (R176, R306) -/

/-- A fabric store: a posted write of a thread on another module (R174). -/
def fabricStore (p : Packet) : Bool := p.org.fab && p.org.party == .thread && posted p.op

/-- The source's entry counts n more stores; a new source takes an entry, or is marked when the table is full. An entry
is its slot's: what a thread that quit without a check has left in it counts on for the slot's next occupant, for which
R176 has no rule (log 93). -/
def State.countStore (s : State) (p : Packet) (n : Nat) : State :=
  if s.receive.any (fun e => sameSource p e && e.gateway == p.port) then
    { s with receive := s.receive.map fun e =>
        if sameSource p e ∧ e.gateway = p.port then { e with count := e.count + n } else e }
  else
    let e : Receive :=
      { gateway := p.port, omod := p.org.omod, lidx := p.org.lidx, slot := p.org.slot, job := p.org.job, count := n }
    if (s.receive.filter (·.gateway == p.port)).length < 4096 then { s with receive := s.receive ++ [e] }
    else { s with uncounted := s.uncounted ++ [e] }

/-- FABRIC_STORE_RECEIVE: the store is counted and routed; one with an uncorrectable error is discarded (R176, R306). -/
def execFabricStoreReceive (pkt : Nat) (bad : Bool) (s : State) : Outcome :=
  match s.pkt pkt with
  | none => .next s
  | some p =>
    match p.home with
    | .module .. =>
      if fabricStore p then
        if bad then
          let t := gatewayTile p.port
          .next (((s.dropPkt pkt).countStore p 0).logError t 4 (s.tile t).lidx false 0 0 p.addr 0)
        else
          match routedIn s p with
          | some q => .next ((s.countStore p 1).replacePkt pkt q)
          | none => .next ((s.dropPkt pkt).gateway p)
      else .next s
    | _ => .next s

/-! ### Interval checks (R177-R180) -/

/-- A store of the check's source is still on its way here. -/
def storesPending (s : State) (p : Packet) : Bool :=
  s.net.any fun q => fabricStore q && q.org.omod == p.org.omod && q.org.lidx == p.org.lidx && q.org.slot == p.org.slot
    && q.org.job == p.org.job

/-- The gateway's answer: matched, mismatched with its count, or unchecked when it could not count every store, or when
the flow came by another gateway before (R176, R177, R305). -/
def checkAnswer (s : State) (p : Packet) (sent : Nat) : Op :=
  if s.uncounted.any (sameSource p) ∨ s.receive.any (fun e => sameSource p e && e.gateway != p.port) then .answer 2 0
  else
    match s.receive.find? (fun e => sameSource p e && e.gateway == p.port) with
    | some e => if e.count = sent then .answer 0 e.count else .answer 1 e.count
    | none => .answer 2 0

/-- INTERVAL_CHECK_ARRIVAL (R177). -/
def execIntervalCheckArrival (pkt : Nat) (s : State) : Outcome :=
  match s.pkt pkt with
  | none => .next s
  | some p =>
    match p.op with
    | .check _ sent =>
      if !p.org.fab ∨ storesPending s p then .next s
      else
        let s1 := s.dropPkt pkt
        .next { s1 with
          receive := s1.receive.filter fun e => !sameSource p e
          uncounted := s1.uncounted.filter fun e => !sameSource p e
          fabricOut := s1.fabricOut ++ [{ p with op := checkAnswer s p sent, home := .module p.org.omod 0 0, id := p.extId }] }
    | _ => .next s

/-- The thread goes on when every check it waits for is answered (R175, R178). -/
def Thread.answered (h : Thread) (id kind rcvd : Nat) : Thread :=
  let l := h.checks.map fun (c : Check) => if c.id = id then { c with answer := some (kind, rcvd) } else c
  let h := { h with checks := l }
  if h.need = .intervalCheck ∧ !(l.any (·.answer.isNone)) then { h with st := .ready, need := .none } else h

/-- INTERVAL_CHECK_ANSWER: for a thread that has ended, a mismatch is logged (R178, R180). -/
def execIntervalCheckAnswer (pkt : Nat) (s : State) : Outcome :=
  match s.pkt pkt with
  | none => .next s
  | some p =>
    match p.op with
    | .answer kind rcvd =>
      if p.org.party ≠ .thread then .next s
      else
        let t := p.org.tile
        let s := (s.dropPkt pkt).modTile t fun x => x.mapTh (·.answered p.req kind rcvd)
        match (s.tile t).lateChecks.find? fun c => c.2.id == p.req with
        | none => .next s
        | some (slot, c) =>
          let s := s.modTile t fun x => { x with lateChecks := x.lateChecks.filter fun d => d.2.id != p.req }
          if kind = 1 then .next (s.logError t 2 (s.tile t).lidx false slot 0 0 c.opc) else .next s
    | _ => .next s

/-! ### The stall detector (R67-R69) -/

/-- One entry of a stall report. -/
structure Waiting where
  kind : Nat
  slot : Nat
  pc : Dword
  waddr : Nat
  target : Nat
  value : Dword
  ts : Nat
  deriving DecidableEq, Repr

/-- The wait of one slot: asleep, or held by a full channel. -/
def slotWait (s : State) (t : Nat) (i : Nat) (h : Thread) : List Waiting :=
  let mark (ch : Nat) : Dword := zext ((s.tile t).chans[ch % 4]'(Nat.mod_lt ch (by decide))).jcpdone
  match h.st, h.sleep, h.need with
  | .sleep, some (.riser off tgt exp _), _ =>
    [{ kind := if exp.isSome then 2 else 1, slot := i, pc := h.pc, waddr := off, target := tgt
       value := s.readD (tileKey t off), ts := h.sleepTs }]
  | .sleep, some (.copy ch m), _ =>
    [{ kind := 3, slot := i, pc := h.pc, waddr := ch, target := m.toNat, value := mark ch, ts := h.sleepTs }]
  | .queue, _, .channel ch =>
    [{ kind := 6, slot := i, pc := h.pc, waddr := ch, target := 0, value := mark ch, ts := h.sleepTs }]
  | _, _, _ => []

/-- A command at the head of a queue that waits on its gate riser. -/
def gateWait (s : State) (t kind slot : Nat) (w0 : Dword) (ts : Nat) : Waiting :=
  { kind := kind, slot := slot, pc := 0, waddr := gateOff w0, target := gateTgt w0, value := s.readD (tileKey t (gateOff w0))
    ts := ts }

/-- The waits of one core, in the report's order (R69). -/
def coreWaits (s : State) (t : Nat) : List Waiting :=
  let x := s.tile t
  (x.threads.toList.zipIdx.flatMap fun p => slotWait s t p.2 p.1)
    ++ (x.chans.toList.zipIdx.flatMap fun p =>
      match p.1.fifo with
      | c :: _ => if gateOff c.w0 ≠ 0 ∧ p.1.gate = 0 then [gateWait s t 4 p.2 c.w0 p.1.gateTs] else []
      | [] => [])
    ++ ((x.matrix.queue.filter fun e => e.gated && e.stage == .gate).map fun e =>
      { kind := 5, slot := 0, pc := 0, waddr := e.gateOff, target := e.gateTgt, value := s.readD (tileKey t e.gateOff)
        ts := e.gateTs })
    ++ (match x.ladle.queue with
      | c :: _ => if gateOff c.w0 ≠ 0 ∧ c.watching ∧ c.gate = 0 then [gateWait s t 7 0 c.w0 c.gateTs] else []
      | [] => [])

/-- The cores of a partition by rising (Y, X), those of open descendants left out: each with its tile (R62, R68). -/
def State.partCores (s : State) (q : Part) : List (Nat × Nat × Nat) :=
  (upTo q.height).flatMap fun y => (upTo q.width).filterMap fun x =>
    match s.core (q.orgY + y) (q.orgX + x) with
    | some t => if (s.tile t).core.pid = q.pid then some (y, x, t) else none
    | none => none

/-- Eight-byte words to HBM by rising physical address. -/
def State.paWrites (s : State) (pa : Nat) : List Dword → State
  | [] => s
  | v :: r => (s.paWrite pa v).paWrites (pa + 8) r

/-- The eight words of one entry. -/
def Waiting.words (w : Waiting) (y x : Nat) : List Dword :=
  [nd (field 44 4 w.kind + field 30 10 y + field 20 10 x + w.slot), w.pc, nd w.waddr, nd (field 0 40 w.target), w.value, nd w.ts, 0, 0]

/-- The report: header and at most 64 entries (R69). -/
def State.report (s : State) (q : Part) (timeout : Nat) : State :=
  let all := (s.partCores q).flatMap fun c => (coreWaits s c.2.2).map fun w => w.words c.1 c.2.1
  let n := min 64 all.length
  let head := [nd s.tsc, nd (field 48 16 q.pid + field 0 32 q.jobid), nd (field 32 32 all.length + n), nd timeout, 0, 0, 0, 0]
  s.paWrites q.report (head ++ (all.take n).flatten)

/-- The root core of a partition. -/
def State.rootTile (s : State) (q : Part) : Nat := (s.core q.orgY q.orgX).getD nowhere
def State.modPart (s : State) (pid : Nat) (f : Part → Part) : State :=
  { s with parts := s.parts.map fun q => if q.pid = pid then f q else q }

/-- jmstall for an effective STALLTO. -/
def stallWord (n : Nat) : Dword :=
  if n = 0xFFFFFFFF then 0xFFFFFFFF else nd (2 ^ 63 + (if n = 0 then 2 ^ 24 else max n 4096))

/-- A declaration: the report, then the event at the root core's firmware. -/
def State.declareStall (s : State) (q : Part) (timeout : Nat) : State :=
  ((if q.report = 0 then s else s.report q timeout).modPart q.pid fun q => { q with owesNotice := true }).event (s.rootTile q) 2

/-- STALLTO as the partition's cores hold it (R68): the first of them that is in no open descendant. -/
def State.stallOf (s : State) (q : Part) : Dword :=
  match s.partCores q with
  | c :: _ => (s.tile c.2.2).core.jmstall
  | [] => stallWord q.stallto

/-- QUIET_SAMPLE: every 1,024 timer cycles since the partition opened or resumed (R68). -/
def execQuietSample (pid : Nat) (s : State) : Outcome :=
  match s.parts.find? (·.pid == pid) with
  | none => .next s
  | some q =>
    let stall := s.stallOf q
    let timeout := bits stall 0 32
    if s.tick ≤ q.opened ∨ (s.tick - q.opened) % 1024 ≠ 0 ∨ q.state ≠ 1 then .next s
    else if s.tick < q.busy + 1024 then .next (s.modPart pid fun q => { q with quietRun := 0, declared := false })
    else
      let run := q.quietRun + 1
      let due := bitAt stall 63 && !q.declared && decide ((timeout + 1023) / 1024 ≤ run)
      let s := s.modPart pid fun q => { q with quietRun := run, declared := q.declared || due }
      .next (if due then s.declareStall q timeout else s)

end Sys2Proof.Machine
end

