-- ==== Sys2Proof/Machine/CopyEngine.lean ====
section
/-!
DEFINITION. The copy engine at work (R193, R194, R203-R222, R289, R300, R301, R304): starting commands, their read and
write steps, multicast trees, riser steps, completion and failure, and the pooled memory of channel 3.
-/
namespace Sys2Proof.Machine

/-! ### The bytes of a command (R211, R212, R216) -/

def CopyCmd.op (c : CopyCmd) : Nat := CopyCmd.opc4 c.w0

/-- Word k of a tensor map as read. -/
def mapWord (m : List Dword) (k : Nat) : Dword := m.getD k 0
def mapRecb (m : List Dword) : Nat := bits (mapWord m 2) 16 16
def mapKw (m : List Dword) : Nat := bits (mapWord m 3) 48 8
/-- KH · KW, OH · OW and the destination rows written. -/
def mapTaps (m : List Dword) : Nat := bits (mapWord m 3) 56 8 * mapKw m
def mapOut (m : List Dword) : Nat := bits (mapWord m 4) 48 16 * bits (mapWord m 4) 32 16
def mapRows (m : List Dword) : Nat := if bits (mapWord m 4) 16 16 = 0 then mapOut m else bits (mapWord m 4) 16 16
def mapDpitch (m : List Dword) : Nat := bits (mapWord m 5) 32 32

/-- R216's conditions on a tensor map. -/
def mapValid (ch : Nat) (machine : Bool) (w2 : Dword) (m : List Dword) : Bool :=
  let pos (n : Nat) : Bool := decide (1 ≤ n)
  let base := mapWord m 0
  pos (bits (mapWord m 2) 48 16) && pos (bits (mapWord m 2) 32 16) && pos (mapRecb m) && decide (mapRecb m ≤ 4096)
    && pos (bits (mapWord m 3) 56 8) && pos (mapKw m) && pos (bits (mapWord m 3) 40 8) && pos (bits (mapWord m 3) 32 8)
    && pos (bits (mapWord m 3) 24 8) && pos (bits (mapWord m 3) 16 8)
    && pos (bits (mapWord m 4) 48 16) && pos (bits (mapWord m 4) 32 16)
    && decide (bits (mapWord m 2) 0 16 = 0) && decide (bits (mapWord m 4) 0 16 = 0)
    && decide (bits (mapWord m 6) 8 56 = 0) && mapWord m 7 == 0
    && decide (mapOut m ≤ mapRows m) && decide (mapTaps m * mapRecb m ≤ mapDpitch m)
    && channelTakes ch machine (spaceOf base) && (ch != 1 || spaceOf base == 2 || spaceOf w2 == 2)

/-- The image position of a record, if it lies in the image (R216). -/
def mapSource (m : List Dword) (k : Nat) : Option Dword :=
  let i := k / mapTaps m
  let tap := k % mapTaps m
  let w3 := mapWord m 3
  let ow := bits (mapWord m 4) 32 16
  let oy := bits (mapWord m 5) 16 16 + i / ow
  let ox := bits (mapWord m 5) 0 16 + i % ow
  let iy : Int := (oy * bits w3 40 8 : Nat) - (bits w3 8 8 : Nat) + (tap / mapKw m * bits w3 24 8 : Nat)
  let ix : Int := (ox * bits w3 32 8 : Nat) - (bits w3 0 8 : Nat) + (tap % mapKw m * bits w3 16 8 : Nat)
  if mapOut m ≤ i then none
  else if 0 ≤ iy ∧ iy < bits (mapWord m 2) 48 16 ∧ 0 ≤ ix ∧ ix < bits (mapWord m 2) 32 16 then
    some (mapWord m 0 + nd (iy.toNat * bits (mapWord m 1) 32 32 + ix.toNat * bits (mapWord m 1) 0 32))
  else none

/-- Bytes in one row of a command, and its rows. -/
def CopyRun.unit (r : CopyRun) : Nat :=
  match r.cmd.op with
  | 1 => wRowLen r.cmd.w3
  | 2 => mapRecb r.map
  | 3 | 4 => wRowB r.cmd.w3
  | _ => wLen r.cmd.w3
def CopyRun.rows (r : CopyRun) : Nat :=
  match r.cmd.op with
  | 1 => wRows r.cmd.w3
  | 2 => mapRows r.map * mapTaps r.map
  | 3 | 4 => wNidx r.cmd.w3
  | _ => 1
def CopyRun.total (r : CopyRun) : Nat := r.unit * r.rows

/-- Where a row's bytes come from. -/
inductive Source where
  | at (a : Dword)
  | byte (b : Byte)
  | pattern (v : Dword)
  /-- the index is still to be read; the row is left out -/
  | unread
  | skip
  deriving DecidableEq, Repr

/-- Row i's source and destination with its index where it has one. -/
def CopyRun.places (r : CopyRun) (i : Nat) : Source × Dword :=
  let c := r.cmd
  let indexed (f : Nat → Source × Dword) : Source × Dword :=
    match r.idx.find? (·.1 == i) with
    | none => (.unread, 0)
    | some (_, v) => if v = 0xFFFFFFFF then (.skip, 0) else f v
  match c.op with
  | 1 => (.at (c.w1 + nd (i * wSpitch c.w3)), c.w2 + nd (i * wDpitch c.w3))
  | 2 =>
    let d := c.w2 + nd (i / mapTaps r.map * mapDpitch r.map + i % mapTaps r.map * mapRecb r.map)
    match mapSource r.map i with
    | some a => (.at a, d)
    | none => (.byte (BitVec.ofNat 8 (bits (mapWord r.map 6) 0 8)), d)
  | 3 => indexed fun v => (.at (c.w1 + nd (v * wRowB c.w3)), c.w2 + nd (i * wRowB c.w3))
  | 4 => indexed fun v => (.at (c.w1 + nd (i * wRowB c.w3)), c.w2 + nd (v * wRowB c.w3))
  | 8 => (.pattern c.w1, c.w2)
  | _ => (.at c.w1, c.w2)

/-- The length of the step that begins at byte b of row i at address a, if a step begins there: at the row's start or at a
64-byte block (R184). -/
def CopyRun.piece (r : CopyRun) (b i : Nat) (a : Dword) : Option Nat :=
  if r.total ≤ b then none
  else if b = i * r.unit ∨ a.toNat % 64 = 0 then some (min (64 - a.toNat % 64) ((i + 1) * r.unit - b))
  else none

/-- Bytes b … b+n-1 as read, if all are there. -/
def CopyRun.have (r : CopyRun) (b : Nat) : Nat → Option (List Byte)
  | 0 => some []
  | n + 1 =>
    match r.buf.find? (·.1 == b) with
    | none => none
    | some (_, v) => (CopyRun.have r (b + 1) n).map (v :: ·)

/-- The bytes a write step at byte b to address a carries. -/
def CopyRun.data (r : CopyRun) (src : Source) (a : Dword) (b n : Nat) : Option (List Byte) :=
  match src with
  | .at _ => r.have b n
  | .byte v => some (List.replicate n v)
  | .pattern p => some ((upTo n).map fun j => BitVec.ofNat 8 (bits p (8 * ((a.toNat + j) % 8)) 8))
  | _ => none

/-! ### Reaching a place (R32, R203, R285, R289) -/

/-- Addresses are read as the tile's core reads them, whose registers route an engine's requests as the port knows them
(R62). -/
def State.viewFrom (s : State) (t : Nat) : State :=
  { s.modTile t fun x => { x with core := x.portCore } with cur := { s.cur with tile := t } }

/-- Where a step is performed: at a tile, named in space 0x0, 0x4 or 0x5 or not; at a pseudo-channel, through a remote
page or not (R304); at another module, with the address class of the request. -/
inductive Spot where
  | tile (u off : Nat) (absolute : Bool)
  | chan (g a : Nat) (remote : Bool)
  | module (m y x off cls : Nat)
  /-- an untranslated address of pooled memory -/
  | pooled (a : Nat)
  deriving DecidableEq, Repr

inductive Reach where
  | ok (p : Spot) (xn : Bool) (s : State)
  | wait (s : State)
  | fail (reason : Nat) (s : State)

def modeOf (c : CopyCmd) : Mode := if c.machine then .machine else .user

/-- A page that a walk for the command has found to fault (R219, R230). -/
def Tile.faultsAt (x : Tile) (serial va : Nat) : Bool := x.engineFaults.any (· == (serial, va / 4096))
/-- What was found for the command is used up. -/
def Tile.tookFault (x : Tile) (serial va : Nat) : Tile :=
  { x with engineFaults := x.engineFaults.filter (· != (serial, va / 4096)) }

/-- A space-0x2 step: translated through the TLBs, held while a walk runs, and checked against the channel. -/
def reachPage (s : State) (t ch : Nat) (c : CopyCmd) (va : Nat) (write : Bool) : Reach :=
  match lookup s t va with
  | (.page e pa, s) =>
    let s := s.modTile t (·.tookFault c.serial va)
    if !permitted e (!c.machine) write then .fail 1 s
    else if ptePool e then (if ch = 3 then .ok (.pooled pa) (pteXN e) s else .fail 7 s)
    else if pteIlv e = 3 then
      if ch ≠ 2 then .fail 7 s
      else if pteRmod e = (s.tile t).core.jmod then
        let r := interleave s 0 pa
        if s.hbmEnd ≤ pa then .fail 1 s else .ok (.chan r.1 r.2 true) (pteXN e) s
      else if (s.tile t).core.jmods < pteRmod e then .fail 9 s
      else .ok (.module (pteRmod e) 0 0 pa 7) (pteXN e) s
    else if ch = 0 ∨ ch = 3 then .fail 7 s
    else if s.hbmEnd ≤ pa then .fail 1 s
    else
      let r := interleave s (pteIlv e) pa
      .ok (.chan r.1 r.2 false) (pteXN e) s
  | (_, s) =>
    if (s.tile t).faultsAt c.serial va then .fail 1 (s.modTile t (·.tookFault c.serial va))
    else .wait (s.startWalk t va (some c.serial))

/-- n bytes at an address named by a command of channel ch. -/
def reach (s : State) (t ch : Nat) (c : CopyCmd) (a : Dword) (n : Nat) (write : Bool) : Reach :=
  match checkAddr (s.viewFrom t) (modeOf c) a n 1 with
  | .error _ => .fail 1 s
  | .ok l =>
    match l with
    | .own off => .ok (.tile t off true) false s
    | .mram off => .ok (.tile t (mramBase + off) true) false s
    | .mesh y x off => .ok (.tile ((s.viewFrom t).meshTile t y x) off false) false s
    | .abs py px off => .ok (.tile (tileOf py px) off true) false s
    | .fabric m y x off => .ok (.module m y x off 2) false s
    | .global va => if c.machine ∧ (s.tile t).core.width = 0 then .fail 1 s else reachPage s t ch c va write
    | _ => .fail 1 s

/-- What the other word of a channel-2 command is, for a step on a page of HBM: it makes the command one of the channel's or
leaves it without a word on a remote page (R203); or its page is still to be walked, or faults. -/
inductive OtherWord where
  | far | near
  | wait (s : State)
  | fault (s : State)

def channelTwo (s : State) (t : Nat) (c : CopyCmd) (a : Dword) : OtherWord :=
  if spaceOf a = 3 then .far
  else if spaceOf a ≠ 2 then .near
  else
    let va := bits a 0 52
    match lookup s t va with
    | (.page e _, _) => if pteIlv e = 3 ∨ ptePool e then .far else .near
    | _ =>
      if (s.tile t).faultsAt c.serial va then .fault (s.modTile t (·.tookFault c.serial va))
      else .wait (s.startWalk t va (some c.serial))

/-! ### Packets and writers -/

def copyOrigin (s : State) (t ch : Nat) (c : CopyCmd) : Origin :=
  let x := s.tile t
  { party := .copy, tile := t, slot := ch, lidx := x.lidx, pid := x.core.pid, job := x.core.jobid, omod := x.core.jmod
    machine := c.quiet }

def copyPacket (s : State) (t ch : Nat) (c : CopyCmd) (op : Op) (home : Home) (off : Nat) (a : Dword) (absolute : Bool) :
    Packet :=
  { id := s.nextId, op := op, org := copyOrigin s t ch c, home := home, off := off, addr := a, absolute := absolute
    req := c.serial, opc := c.opc, bySlot := c.slot, byEpoch := c.epoch }

/-- Sends a request to another module or into the mesh, under a fresh number. -/
def State.launch (s : State) (p : Packet) : State :=
  let s' := { s with nextId := s.nextId + 1 }
  if crosses p.home then { s' with fabricOut := s'.fabricOut ++ [p] } else s'.sendPkt p

def State.setRun (s : State) (t : Nat) (r : CopyRun) : State := s.modRun t r.cmd.serial fun _ => r
def State.failRun (s : State) (t : Nat) (r : CopyRun) (reason cls : Nat) : State := s.setRun t (r.fails reason cls)
/-- The poison class of a failure found on the way (R219). -/
def classOf (reason : Nat) : Nat :=
  match reason with
  | 2 => 4
  | 3 => 2
  | 4 => 3
  | 8 => 6
  | _ => 1

/-! ### Pooled memory (R221, R300, R301) -/

/-- A command waits since its first page fault (R221). -/
def CopyRun.faultedAt (r : CopyRun) (tick : Nat) : CopyRun := { r with faulted := r.faulted.or (some tick) }

/-- A page request: the channel stalls, and the command waits since its first fault. -/
def State.pageRequest (s : State) (t serial page : Nat) : State :=
  let now := s.tick
  let s := s.modPack (pkgOf t) fun k => { k with paged := k.paged ++ [((s.tile t).core.asid, page)] }
  (s.modRun t serial (·.faultedAt now)).modChan t 3 fun c => { c with ask := none, stall := some (serial, page) }

/-- One UIO request, translated by the package's cache; or a translation request, or a page request. -/
def poolStep (s : State) (t : Nat) (r : CopyRun) (a b n : Nat) (data : Option (List Byte)) (sent : CopyRun → CopyRun) :
    State :=
  let pkg := pkgOf t
  let k := s.pack pkg
  let asid := (s.tile t).core.asid
  let page := a / 4096
  match k.atc.find? fun e => e.1 == asid && e.2.1 == page with
  | none => s.modChan t 3 fun c => { c with ask := some (r.cmd.serial, page) }
  | some e =>
    if data.isSome ∧ !e.2.2.2 then s.pageRequest t r.cmd.serial page
    else if 256 ≤ (s.uio.filter fun p => p.home == .host pkg).length then s
    else
      let op := match data with
        | some bs => Op.store n (leVal bs)
        | none => Op.load n
      let p := copyPacket s t 3 r.cmd op (.host pkg) (e.2.2.1 * 4096 + a % 4096) (nd a) false
      let s := s.modPack pkg fun k => { k with atc := e :: k.atc.filter (· != e) }
      let s := { s with nextId := s.nextId + 1, uio := s.uio ++ [p] }
      let s := s.modChan t 3 fun c => { c with stall := none }
      s.setRun t (sent { r with outstanding := r.outstanding ++ [(p.id, b, n)] })

/-! ### Read steps -/

/-- Bytes that have been read. -/
def CopyRun.took (r : CopyRun) (b : Nat) (bs : List Byte) (xn : Bool) : CopyRun :=
  { r with
    reads := b :: r.reads
    buf := r.buf ++ numbered b bs
    xn := if xn then (b, bs.length) :: r.xn else r.xn }

/-- A read performed at a port of this module; a marked word fails the command. ram is the tile whose machine RAM is read,
with the address that names it. -/
def readAt (s : State) (t : Nat) (r : CopyRun) (k n : Nat) (take : List Byte → CopyRun) (ram : Option (Nat × Dword)) : State :=
  if s.markedIn k n then
    let s := match ram with
      | some (u, a) => s.ramFound u a k n
      | none => s
    s.failRun t r 3 2
  else (s.setRun t (take (Memory.read s.mem k n))).modTile t fun x => { x with turn := r.cmd.serial }

/-- An offset of a space-0x4 address that lies past the tile's memories: a tile register, or nothing (R34). -/
def pastRam (off : Nat) (absolute : Bool) : Bool := absolute && decide (mramBase + 0x8000 ≤ off)
/-- The reason of R271 for which a step at a tile is rejected, tile registers included. -/
def spotReason (s : State) (p : Packet) (u off n : Nat) (absolute write fp : Bool) : Option Nat :=
  if pastRam off absolute then (if !reached s p u then some 3 else regReason (s.tile u) u off n write)
  else rejection s p u write [(off, n)] fp
/-- Bytes stored by a step at a tile. -/
def State.putStep (s : State) (u off : Nat) (absolute : Bool) (bs : List Byte) (w : Writer) : State :=
  if pastRam off absolute then s.modTile u fun x => writeRegs x off bs else s.stepWrite u [(off, bs)] w off

/-- One read step at address a for n bytes from byte b. -/
def readSpot (s : State) (t ch : Nat) (r : CopyRun) (a : Dword) (b n : Nat) (xn : Bool) (take : List Byte → CopyRun)
    (spot : Spot) : State :=
  match spot with
  | .tile u off absolute =>
    let p := copyPacket s t ch r.cmd (.load n) (.tile u) off a absolute
    if !s.awake u then s
    else
      match spotReason s p u off n absolute false false with
      | some why => (s.logRejection p u 1 why).failRun t r 2 4
      | none =>
        if pastRam off absolute then
          (s.setRun t (take ((regBytes (s.tile u) u off n).getD []))).modTile t fun x => { x with turn := r.cmd.serial }
        else readAt s t r (tileKey u off) n take (if mramBase ≤ off then some (u, a) else none)
  | .chan g adr _ =>
    if configured s (route t (chanTile g)) then readAt s t r (hbmKey g adr) n take none
    else s.failRun t r 2 4
  | .module m y x off cls =>
    let p := { copyPacket s t ch r.cmd (.load n) (.module m y x) off a false with cls := cls }
    (s.launch p).setRun t
      { r with
        reads := b :: r.reads
        outstanding := r.outstanding ++ [(p.id, b, n)]
        xn := if xn then (b, n) :: r.xn else r.xn }
  | .pooled adr =>
    poolStep s t r adr b n none fun r => { r with reads := b :: r.reads, xn := if xn then (b, n) :: r.xn else r.xn }

/-- The tensor map is read whole, and checked (R216). -/
def readMap (s : State) (t ch : Nat) (r : CopyRun) : State :=
  match reach s t ch r.cmd r.cmd.w3 64 false with
  | .wait s => s
  | .fail reason s => s.failRun t r reason (classOf reason)
  | .ok spot _ s =>
    readSpot s t ch r r.cmd.w3 0 64 false
      (fun bs =>
        let m := (upTo 8).map fun k => nd (leVal ((bs.drop (8 * k)).take 8))
        if mapValid ch r.cmd.machine r.cmd.w2 m then { r with map := m } else r.fails 6 1) spot

/-- The index of a row: one 4-byte step at the own port (R211). -/
def readIndex (s : State) (t : Nat) (r : CopyRun) (i : Nat) : State :=
  let k := tileKey t (wIdxOff r.cmd.w3 + 4 * i)
  readAt s t r k 4
    (fun bs =>
      let v := leVal bs
      { r with idx := (i, v) :: r.idx, done := if v = 0xFFFFFFFF then r.done + r.unit else r.done }) none

/-- A read step of the piece at byte b. -/
def readStep (s : State) (t ch : Nat) (r : CopyRun) (b : Nat) : State :=
  if r.cmd.op = 2 ∧ r.map.isEmpty then readMap s t ch r
  else
    let i := b / r.unit
    let p := r.places i
    match p.1 with
    | .unread => if i < r.rows then readIndex s t r i else s
    | .at base =>
      let a := base + nd (b - i * r.unit)
      match r.piece b i a with
      | none => s
      | some n =>
        if memNat b r.reads then s
        else
          match reach s t ch r.cmd a n false with
          | .wait s => s
          | .fail reason s => s.failRun t r reason (classOf reason)
          | .ok spot xn s =>
            match spot, decide (ch = 2 ∧ spaceOf a = 2) with
            | .chan _ _ false, true =>
              match channelTwo s t r.cmd (p.2 + nd (b - i * r.unit)) with
              | .far => readSpot s t ch r a b n xn (fun bs => r.took b bs xn) spot
              | .near => s.failRun t r 7 1
              | .wait s => s
              | .fault s => s.failRun t r 1 1
            | _, _ => readSpot s t ch r a b n xn (fun bs => r.took b bs xn) spot
    | _ => s

/-! ### Multicast trees (R217, R218) -/

/-- The destination tiles of a multicast, and the offset on each. -/
def mcastDests (s : State) (t : Nat) (c : CopyCmd) : List Nat × Nat :=
  let rect (f : Nat → Nat → Option Nat) : List Nat :=
    (upTo (wHeight c.w3)).flatMap fun i => (upTo (wWidth c.w3)).filterMap fun j => f i j
  match locate (s.viewFrom t) (modeOf c) c.w2 with
  | some (.mesh y x off) =>
    (rect fun i j => s.core ((s.tile t).core.orgY + y + i) ((s.tile t).core.orgX + x + j), off)
  | some (.abs py px off) =>
    (rect fun i j =>
      let u := tileOf (py + i) (px + j)
      if (s.tile u).tstate = 1 then some u else none, off)
  | _ => ([], 0)

/-- The routers next on the tree from source t: up and down its column, and along each row of the rectangle. -/
def mcastChildren (dests : List Nat) (t node : Nat) : List Nat :=
  let y := pyOf node
  let x := pxOf node
  let sy := pyOf t
  let sx := pxOf t
  (if x = sx ∧ y ≤ sy ∧ dests.any (fun d => pyOf d < y) then [tileOf (y - 1) x] else [])
    ++ (if x = sx ∧ sy ≤ y ∧ dests.any (fun d => y < pyOf d) then [tileOf (y + 1) x] else [])
    ++ (if sx ≤ x ∧ dests.any (fun d => pyOf d = y ∧ x < pxOf d) then [tileOf y (x + 1)] else [])
    ++ (if x ≤ sx ∧ dests.any (fun d => pyOf d = y ∧ pxOf d < x) then [tileOf y (x - 1)] else [])

/-- The port by which a tree from t enters a router: 4 local, else the side it comes from. -/
def enterPort (t node : Nat) : Nat :=
  if node = t then 4
  else if pxOf node = pxOf t then (if pyOf node < pyOf t then 2 else 0)
  else if pxOf t < pxOf node then 3
  else 1

/-- The multicast slot of the port by which t's tree enters a router holds no flit. -/
def mcastFree (s : State) (t node : Nat) : Bool :=
  s.tiles.all fun (u, x) => x.chans[0].started.all fun r => r.flits.all fun f =>
    f.2 != node || enterPort u f.2 != enterPort t node

/-! ### Write steps -/

/-- Bytes that have been written. -/
def CopyRun.wrote (r : CopyRun) (b n : Nat) : CopyRun :=
  { r with
    writes := b :: r.writes
    done := r.done + n
    buf := if r.cmd.op = 5 then r.buf else r.buf.filter fun p => decide (p.1 < b) || decide (b + n ≤ p.1) }

/-- A word lands with the mark of its source page. -/
def CopyRun.marked (r : CopyRun) (b n : Nat) : Bool := r.xn.any fun p => decide (p.1 < b + n) && decide (b < p.1 + p.2)

/-- The element update of a reduce command: FP32 or BF16 (R92). -/
def reduceOp (op : Nat) : Option (AmoOp × Nat) :=
  match op with
  | 6 => some (.fadd, 4)
  | 7 => some (.faddBf, 2)
  | _ => none

/-- One write step: bytes stored, or an element added, at its home port. -/
def writeSpot (s : State) (t ch : Nat) (r : CopyRun) (a : Dword) (b n : Nat) (bs : List Byte) (spot : Spot) : State :=
  let turn (s : State) : State := s.modTile t fun x => { x with turn := r.cmd.serial }
  let red := reduceOp r.cmd.op
  let op := match red with
    | some (f, size) => Op.amo f size (nd (leVal bs)) 0
    | none => Op.store n (leVal bs)
  match spot with
  | .tile u off absolute =>
    let p := { copyPacket s t ch r.cmd op (.tile u) off a absolute with xn := r.marked b n }
    let w := writerOf p 0 (Nat.log2 n)
    if !s.awake u then s
    else
      match spotReason s p u off n absolute true red.isSome with
      | some why => (s.logRejection p u 1 why).failRun t r 2 4
      | none =>
        s.atPort s u (.copyPiece t r.cmd.serial b) w [(off, n)] fun s =>
          match red with
          | none => turn ((s.putStep u off absolute bs w).setRun t (r.wrote b n))
          | some (f, size) =>
            if s.markedIn (tileKey u off) n then s.failRun t r 3 2
            else
              let v := (amoCalc f size (s.readN (tileKey u off) n) (nd (leVal bs)) 0).1
              turn ((s.stepWrite u [(off, leBytes n v)] w off).setRun t (r.wrote b n))
  | .chan g adr _ =>
    if configured s (route t (chanTile g)) then turn ((s.writeB (hbmKey g adr) bs).setRun t (r.wrote b n))
    else s.failRun t r 2 4
  | .module m y x off cls =>
    let p := { copyPacket s t ch r.cmd op (.module m y x) off a false with cls := cls, xn := r.marked b n }
    turn ((s.launch p).setRun t { r.wrote b n with outstanding := r.outstanding ++ [(p.id, b, n)] })
  | .pooled adr => poolStep s t r adr b n (some bs) fun r => r.wrote b n

/-- A write step of the piece at byte b; a multicast's piece enters the tree (R218). -/
def writeStep (s : State) (t ch : Nat) (r : CopyRun) (b : Nat) : State :=
  let i := b / r.unit
  let p := r.places i
  let a := p.2 + nd (b - i * r.unit)
  let piece := match reduceOp r.cmd.op with
    | some (_, size) => if b % size = 0 ∧ b < r.total then some size else none
    | none => r.piece b i a
  match piece with
  | none => s
  | some n =>
    match r.data p.1 a b n with
    | none => s
    | some bs =>
      if memNat b r.writes then s
      else if r.cmd.op = 5 then
        if mcastFree s t t then
          (s.setRun t { r.wrote b n with flits := r.flits ++ [(b, t)] }).modTile t fun x => { x with turn := r.cmd.serial }
        else s
      else
        match reach s t ch r.cmd a n true with
        | .wait s => s
        | .fail reason s => s.failRun t r reason (classOf reason)
        | .ok spot _ s =>
          match spot, p.1, decide (ch = 2 ∧ spaceOf a = 2) with
          | .chan _ _ false, .at src, true =>
            if spaceOf src = 2 ∨ spaceOf src = 3 then writeSpot s t ch r a b n bs spot else s.failRun t r 7 1
          | .chan _ _ false, _, true => s.failRun t r 7 1
          | _, _, _ => writeSpot s t ch r a b n bs spot

/-- The started command of a number that may still take steps. -/
def activeRun (s : State) (t : Nat) (ch : Ch) (serial : Nat) : Option CopyRun :=
  let c := (s.tile t).chans[ch.toFin]
  if ch = 3 ∧ poolBlocked s t c then none
  else c.started.find? fun r => r.cmd.serial == serial && r.bad.isNone

/-- COPY_ENGINE_STEP (R184, R205). -/
def execCopyEngineStep (tile : Nat) (ch : Ch) (serial : Nat) (write : Bool) (byte : Nat) (s : State) : Outcome :=
  onTile s tile <|
    match activeRun s tile ch serial with
    | none => .next s
    | some r => .next (if write then writeStep s tile ch.toNat r byte else readStep s tile ch.toNat r byte)

/-! ### Ends of commands (R204, R214, R220) -/

/-- The watermark is the oldest command still there; waiting threads wake (R204, R209). -/
def State.settleDone (s : State) (t : Nat) (ch : Fin 4) : State :=
  let s := s.modChan t ch fun c =>
    { c with jcpdone :=
        match c.started.map (·.cmd) ++ c.fifo with
        | h :: _ => BitVec.ofNat 32 h.id
        | [] => c.jcpnext }
  s.modTile t fun x =>
    let d := x.chans[ch].jcpdone
    x.mapTh fun h =>
      match h.sleep, h.woken with
      | some (.copy k m), none => if k = ch.val ∧ reachedMark d m then { h with woken := some (0, x.cycle + 2) } else h
      | _, _ => h

/-- Threads that wait for room in a channel's FIFO issue again. -/
def Tile.wakeChannel (x : Tile) (ch : Nat) : Tile :=
  x.mapTh fun h => if h.need = .channel ch then { h with st := .ready, need := .none } else h

/-- A command leaves its channel; the one behind the head begins to evaluate its gate. -/
def State.dropCommand (s : State) (t : Nat) (ch : Fin 4) (serial : Nat) : State :=
  let c := (s.tile t).chans[ch]
  let queued := c.fifo.any (·.serial == serial)
  let head := (c.fifo.head?.map (·.serial)) == some serial
  let s' := s.modChan t ch fun c =>
    let c := { c with
      started := c.started.filter (·.cmd.serial != serial)
      fifo := c.fifo.filter (·.serial != serial)
      stall := match c.stall with
        | some (q, _) => if q = serial then none else c.stall
        | none => none
      ask := match c.ask with
        | some (q, _) => if q = serial then none else c.ask
        | none => none }
    if head then c.newHead s t else c
  (if queued then s'.modTile t (·.wakeChannel ch.val) else s').settleDone t ch

/-- The destinations of a command: the one that word 2 names, as number 0, or the tiles of a multicast. -/
def destsOf (s : State) (t : Nat) (c : CopyCmd) : List Nat := if c.op = 5 then (mcastDests s t c).1 else [0]

/-- The home of a destination's riser, and whether it was named in space 0x0 or 0x4. -/
def destHome (s : State) (t : Nat) (c : CopyCmd) (dst : Nat) : Option (Home × Bool) :=
  match locate (s.viewFrom t) (modeOf c) c.w2 with
  | some (.own _) => some (.tile t, true)
  | some (.mesh y x _) => some (.tile (if c.op = 5 then dst else (s.viewFrom t).meshTile t y x), false)
  | some (.fabric m y x _) => some (.module m y x, false)
  | some (.abs py px _) => some (.tile (if c.op = 5 then dst else tileOf py px), true)
  | _ => none

/-- The command names a destination counter. -/
def hasDest (c : CopyCmd) : Bool := wDriser c.w0 != 0
def hasDone (c : CopyCmd) : Bool := wCriser c.w0 != 0

/-- A riser step of the engine at a tile of this module: an advance or a poisoning, or the reason of its rejection. -/
def engineRiser (s : State) (p : Packet) (u off : Nat) (poison : Option Nat) : State × Option Nat :=
  match rejection s p u true [(off, 8)] false with
  | some why => (s.logRejection p u (if poison.isSome then 5 else 1) why, some why)
  | none =>
    let w := writerOf p 2 3
    match poison with
    | none => (s.riserAdvance u off 1 w, none)
    | some cls => (s.riserPoisoned u off cls p.org.lidx w, none)

/-- The destinations of a failed command whose riser step has not been taken (R220). -/
def unstepped (s : State) (t : Nat) (c : CopyCmd) (stepped : List Nat) : List Nat :=
  if hasDest c then (destsOf s t c).filter fun d => !memNat d stepped else []
/-- A destination's core, if it is on this module. -/
def destTile (s : State) (t : Nat) (c : CopyCmd) (d : Nat) : Option Nat :=
  match destHome s t c d with
  | some (.tile u, _) => some u
  | _ => none

/-- The poison step or failed completion at one destination (R220). -/
def poisonDest (s : State) (t ch : Nat) (c : CopyCmd) (cls dst : Nat) : State :=
  match destHome s t c dst with
  | none => s
  | some (home, absolute) =>
    let off := wDriser c.w0
    let p := copyPacket s t ch c (if wDbar c.w0 then .done true true else .rpoison cls) home off
      (nd (c.w2.toNat / 2 ^ 20 * 2 ^ 20 + off)) absolute
    match home with
    | .tile u => if wDbar c.w0 then s.launch p else (engineRiser s p u off (some cls)).1
    | _ => s.launch p

/-- The end of Fail of R220: jcperr and the watermark. -/
def State.failCommand (s : State) (t : Nat) (ch : Fin 4) (c : CopyCmd) (reason : Nat) : State :=
  (s.modChan t ch fun k => { k with jcperr := nd (field 63 1 1 + field 32 8 reason + field 0 32 c.id) }).dropCommand t ch c.serial

/-- The next step of a failed command (R193, R220; log 48): each destination left is poisoned, by a step at its port or by
a barrier's failed completion; when all that was sent is performed, the completion riser is poisoned or the completion
barrier has a failed completion; and then the command ends. -/
def State.failStep (s : State) (t : Nat) (ch : Fin 4) (r : CopyRun) (reason cls : Nat) : State :=
  let c := r.cmd
  let end_ := copyPacket s t ch c (if wCbar c.w0 then .done false true else .rpoison cls) (.tile t) (wCriser c.w0)
    (nd (wCriser c.w0)) true
  let w := writerOf end_ 2 3
  match unstepped s t c r.stepped with
  | d :: _ =>
    let done := { r with stepped := d :: r.stepped }
    match destTile s t c d, wDbar c.w0 with
    | some u, false =>
      if !s.awake u then s
      else s.atPort s u (.copyStep t c.serial d) w [(wDriser c.w0, 8)] fun s => (poisonDest s t ch c cls d).setRun t done
    | _, _ => (poisonDest s t ch c cls d).setRun t { done with owed := r.owed + b2n (destHome s t c d).isSome }
  | [] =>
    if r.owed ≠ 0 then s
    else if !hasDone c ∨ r.final then s.failCommand t ch c reason
    else if wCbar c.w0 then (s.launch end_).setRun t { r with owed := 1, final := true }
    else
      s.atPort s t (.copyEnd t c.serial) w [(wCriser c.w0, 8)] fun s =>
        (engineRiser s end_ t (wCriser c.w0) (some cls)).1.failCommand t ch c reason

/-- COPY_COMMAND_START: the head's gate is reached and fewer than four are started, or its gate is poisoned and it fails
(R205, R213); a second multicast waits (R218). -/
def execCopyCommandStart (tile : Nat) (ch : Ch) (s : State) : Outcome :=
  onTile s tile <|
    let x := s.tile tile
    let c := x.chans[ch.toFin]
    match c.fifo with
    | [] => .next s
    | h :: rest =>
      let begun (bad : Option (Nat × Nat)) : State :=
        (s.modChan tile ch.toFin fun c =>
          ({ c with fifo := rest, started := c.started ++ [{ cmd := h, bad := bad }] } : Channel).newHead s tile).modTile tile
            (·.wakeChannel ch.toNat)
      if x.sealed then .next s
      else if c.gate = 2 then .next (if hasDest h ∨ hasDone h then begun (some (5, 1)) else s.failCommand tile ch.toFin h 5)
      else if c.gate ≠ 1 ∨ !c.mayStart s tile h then .next s
      else .next (begun none)

/-- All bytes of the command are written at every destination that takes them. -/
def CopyRun.landedAll (r : CopyRun) : Bool :=
  r.done == r.total && r.outstanding.isEmpty && (r.cmd.op != 2 || !r.map.isEmpty)

/-- Bytes written at one destination of a multicast. -/
def CopyRun.landedAt (r : CopyRun) (u : Nat) : Nat := Assoc.get 0 r.landed u

/-- COPY_DESTINATION_RISER_STEP: after the last write step at the destination (R193, R214). -/
def execCopyDestinationRiserStep (tile : Nat) (ch : Ch) (serial dst : Nat) (s : State) : Outcome :=
  onTile s tile <|
    match activeRun s tile ch serial with
    | none => .next s
    | some r =>
      let c := r.cmd
      let ready := r.landedAll && hasDest c && !memNat dst r.stepped && memNat dst (destsOf s tile c)
        && (c.op != 5 || (!memNat dst r.failed && r.landedAt dst == r.total))
      match ready, destHome s tile c dst with
      | true, some (home, absolute) =>
        let off := wDriser c.w0
        let p := copyPacket s tile ch.toNat c (if wDbar c.w0 then .done true false else .rsig 1) home off
          (nd (c.w2.toNat / 2 ^ 20 * 2 ^ 20 + off)) absolute
        let taken := { r with stepped := dst :: r.stepped }
        match home, wDbar c.w0 with
        | .tile u, false =>
          if !s.awake u then .next s
          else
            .next (s.atPort s u (.copyStep tile serial dst) (writerOf p 2 3) [(off, 8)] fun s =>
              match engineRiser s p u off none with
              | (s, none) => s.setRun tile taken
              | (s, some _) => if c.op = 5 then s.setRun tile { r with failed := dst :: r.failed } else s.failRun tile r 2 4)
        | _, _ => .next ((s.launch p).setRun tile { taken with owed := r.owed + 1, sent := (p.id, dst) :: r.sent })
      | _, _ => .next s

/-- Everything that the completion step follows is done (R214, R218). -/
def CopyRun.ready (r : CopyRun) (t : Nat) : Bool :=
  r.landedAll && r.owed == 0
    && (if r.cmd.op = 5 then memNat t r.acks else !hasDest r.cmd || memNat 0 r.stepped)

/-- COPY_COMPLETION_STEP: the completion riser's step, or a step of a failed command; a completion barrier has answered
before the command ends (R204, R214, R220). A page fault that holds channel 3 holds these steps too (R221). -/
def execCopyCompletionStep (tile : Nat) (ch : Ch) (serial : Nat) (s : State) : Outcome :=
  onTile s tile <|
    let k := (s.tile tile).chans[ch.toFin]
    match (if ch = 3 ∧ poolBlocked s tile k then none else k.started.find? (·.cmd.serial == serial)) with
    | none => .next s
    | some r =>
      let c := r.cmd
      match r.bad with
      | some (reason, cls) => .next (if r.outstanding.isEmpty then s.failStep tile ch.toFin r reason cls else s)
      | none =>
        if !r.ready tile then .next s
        else if r.final ∨ !hasDone c then .next (s.dropCommand tile ch.toFin serial)
        else
          let off := wCriser c.w0
          let p := copyPacket s tile ch.toNat c (if wCbar c.w0 then .done false false else .rsig 1) (.tile tile) off (nd off) true
          if wCbar c.w0 then .next ((s.launch p).setRun tile { r with owed := 1, final := true })
          else
            .next (s.atPort s tile (.copyEnd tile serial) (writerOf p 2 3) [(off, 8)] fun s =>
              (engineRiser s p tile off none).1.dropCommand tile ch.toFin serial)

/-! ### Multicast steps (R218) -/

/-- A flit's delivery at a router whose core is a destination: one write step, or the destination's failure; then the
flit moves on. -/
def mcastDeliver (s : State) (t : Nat) (r : CopyRun) (b node off : Nat) (absolute : Bool) (moved : CopyRun → CopyRun) : State :=
  let a := (r.places 0).2 + nd b
  let n := (r.piece b 0 a).getD 0
  match r.have b n with
  | none => s
  | some bs =>
    let p := copyPacket s t 0 r.cmd (.store n (leVal bs)) (.tile node) (off + b) a absolute
    let w := writerOf p 0 (Nat.log2 n)
    if memNat node r.failed then s.setRun t (moved r)
    else if !s.awake node then s
    else
      match spotReason s p node (off + b) n absolute true false with
      | some why => (s.logRejection p node 1 why).setRun t (moved { r with failed := node :: r.failed })
      | none =>
        s.atPort s node (.copyPiece t r.cmd.serial b) w [(off + b, n)] fun s =>
          (s.putStep node (off + b) absolute bs w).setRun t
            (moved { r with landed := Assoc.put node (r.landedAt node + n) r.landed })

/-- MCAST_FLIT_FORWARD: a flit moves on when every branch it needs has a free multicast slot (R218). -/
def execMcastFlitForward (tile serial byte node : Nat) (s : State) : Outcome :=
  onTile s tile <|
    match activeRun s tile 0 serial with
    | none => .next s
    | some r =>
      let d := mcastDests s tile r.cmd
      let next := mcastChildren d.1 tile node
      if !(r.flits.any (· == (byte, node))) ∨ !(next.all fun u => mcastFree s tile u) then .next s
      else
        let moved (r : CopyRun) : CopyRun :=
          { r with flits := (r.flits.filter (· != (byte, node))) ++ next.map fun u => (byte, u) }
        .next (if memNat node d.1 then mcastDeliver s tile r byte node d.2 (spaceOf r.cmd.w2 == 4) moved
          else s.setRun tile (moved r))

/-- A destination has acknowledged: its riser step is taken, or it failed. -/
def CopyRun.acked (r : CopyRun) (u : Nat) : Bool :=
  memNat u r.failed || (r.landedAt u == r.total && (!hasDest r.cmd || memNat u r.stepped))

/-- MCAST_ACK_COMBINE: a router whose branches have all acknowledged passes one acknowledgement back; at the issuing core
a failed one turns the completion into a poisoning (R218). -/
def execMcastAckCombine (tile serial node : Nat) (s : State) : Outcome :=
  onTile s tile <|
    match activeRun s tile 0 serial with
    | none => .next s
    | some r =>
      let d := (mcastDests s tile r.cmd).1
      let inTree := node == tile || d.any fun u => memNat node (route tile u)
      if r.cmd.op ≠ 5 ∨ !inTree ∨ !r.landedAll ∨ r.owed ≠ 0 ∨ memNat node r.acks ∨ r.flits.any (·.2 == node)
        ∨ (memNat node d ∧ !r.acked node) ∨ !((mcastChildren d tile node).all fun u => memNat u r.acks) then .next s
      else
        let r := { r with acks := node :: r.acks }
        .next (s.setRun tile (if node = tile ∧ !r.failed.isEmpty then r.fails 2 4 else r))

/-! ### Page requests and translations of pooled memory (R221, R301) -/

/-- POOLED_PAGE_RESIDENT: the response to a page request is Success, and a new translation is asked for. -/
def execPooledPageResident (tile : Nat) (s : State) : Outcome :=
  onTile s tile <|
    let asid := (s.tile tile).core.asid
    match ((s.tile tile).chans[3]).stall with
    | none => .next s
    | some (serial, page) =>
      if (s.pack (pkgOf tile)).paged.any (· == (asid, page)) then
        let s := s.modPack (pkgOf tile) fun k => { k with paged := k.paged.filter (· != (asid, page)) }
        .next (s.modChan tile 3 fun c => { c with ask := some (serial, page) })
      else .next s

/-- PFTIMEOUT: 2^21 timer cycles after the command's first fault (R221). -/
def execPftimeout (tile : Nat) (s : State) : Outcome :=
  onTile s tile <|
    let c := (s.tile tile).chans[3]
    match c.stall with
    | none => .next s
    | some (serial, page) =>
      let late := c.started.any fun r => r.cmd.serial == serial && r.faulted.any (fun n => decide (n + 2 ^ 21 ≤ s.tick))
      if poolBlocked s tile c ∧ c.ask.all (· == (serial, page)) ∧ late then
        let asid := (s.tile tile).core.asid
        let s := s.modPack (pkgOf tile) fun k => { k with paged := k.paged.filter (· != (asid, page)) }
        .next ((s.modRun tile serial (·.fails 4 3)).modChan tile 3 fun c => { c with ask := none, stall := none })
      else .next s

/-- The tiles of a package whose core has a given ASID. -/
def asidTiles (s : State) (pkg pasid : Nat) : List Nat :=
  (s.tiles.filter fun p => pkgOf p.1 == pkg && p.2.core.asid == pasid).map (·.1)

/-- ATS_TRANSLATION_RESPONSE: a grant is cached, and the channels that asked replay their steps; anything else leads to a
page request (R301). -/
def execAtsTranslationResponse (pkg pasid page : Nat) (grant : Option (Nat × Bool)) (s : State) : Outcome :=
  let asking := (asidTiles s pkg pasid).filterMap fun t =>
    match ((s.tile t).chans[3]).ask with
    | some (serial, q) => if q = page then some (t, serial) else none
    | none => none
  if asking.isEmpty then .next s
  else
    match grant with
    | some (host, w) =>
      let s := s.modPack pkg fun k =>
        { k with atc := ((pasid, page, host, w) :: k.atc.filter fun e => !(e.1 == pasid && e.2.1 == page)).take 1024 }
      .next (asking.foldl (fun s a => s.modChan a.1 3 fun c => { c with ask := none }) s)
    | none => .next (asking.foldl (fun s a => s.pageRequest a.1 a.2 page) s)

/-- PAGE_REQUEST_RESPONSE_FAILURE: Invalid Request or Response Failure fails the command with ADDR (R301). -/
def execPageRequestResponseFailure (pkg pasid page : Nat) (s : State) : Outcome :=
  if !((s.pack pkg).paged.any (· == (pasid, page))) then .next s
  else
    let s := s.modPack pkg fun k => { k with paged := k.paged.filter (· != (pasid, page)) }
    .next ((asidTiles s pkg pasid).foldl
      (fun s t =>
        match ((s.tile t).chans[3]).stall with
        | some (serial, q) =>
          if q = page then (s.modRun t serial (·.fails 1 1)).modChan t 3 fun c => { c with stall := none } else s
        | none => s) s)

/-- An outstanding UIO request was translated through the pages named. -/
def throughPages (s : State) (pkg pasid page pages : Nat) : Bool :=
  s.uio.any fun p => p.home == .host pkg && (s.tile p.org.tile).core.asid == pasid
    && decide (page ≤ p.addr.toNat / 4096) && decide (p.addr.toNat / 4096 < page + pages)

/-- Invalidations whose steps have all been performed complete (R301). -/
def State.settlePurges (s : State) (pkg : Nat) : State :=
  let done := (s.pack pkg).purges.filter fun q => !throughPages s pkg q.1 q.2.1 q.2.2
  let s' := s.modPack pkg fun k => { k with purges := k.purges.filter fun q => throughPages s pkg q.1 q.2.1 q.2.2 }
  { s' with hostOut := s'.hostOut ++ done.map fun q => { pkg := pkg, off := q.2.1 } }

/-- ATS_INVALIDATION_REQUEST: the entries named are purged; the completion follows the steps that used them (R301). -/
def execAtsInvalidationRequest (pkg pasid page pages : Nat) (s : State) : Outcome :=
  .next ((s.modPack pkg fun k =>
    { k with
      atc := k.atc.filter fun e => !(e.1 == pasid && decide (page ≤ e.2.1) && decide (e.2.1 < page + pages))
      purges := k.purges ++ [(pasid, page, pages)] }).settlePurges pkg)

/-- UIO_COMPLETION: the access is performed in pooled memory and its answer reaches the command (R300, R301). -/
def execUioCompletion (pkt : Nat) (poisoned : Bool) (s : State) : Outcome :=
  match s.uio.find? (·.id == pkt) with
  | none => .next s
  | some p =>
    let s := { s with uio := s.uio.filter (·.id != pkt) }
    let s :=
      match p.op with
      | .store n v =>
        let s := s.writeN (pooledKey p.off) n v
        s.modRun p.org.tile p.req fun r => let r := r.returned pkt; if poisoned then r.fails 3 2 else r
      | .load n =>
        let bs := Memory.read s.mem (pooledKey p.off) n
        s.modRun p.org.tile p.req fun r =>
          match r.outstanding.find? (·.1 == pkt) with
          | some (_, b, _) =>
            let r := r.returned pkt
            if poisoned then r.fails 3 2 else { r with buf := r.buf ++ numbered b bs }
          | none => r
      | _ => s
    match p.home with
    | .host pkg => .next (s.settlePurges pkg)
    | _ => .next s

end Sys2Proof.Machine
end

