-- ==== Sys2Proof/Machine/LadleEngine.lean ====
section
/-!
DEFINITION. The ladle engine (R195, R223-R230): descriptors, PLAN and its scan rounds, SCATTER and COMBINE rows, RESET,
completion and failure.
-/
namespace Sys2Proof.Machine

/-! ### Descriptor fields (R224) -/

def descWord (d : List Dword) (k : Nat) : Dword := d.getD k 0
def dscGy (d : List Dword) : Nat := bits (descWord d 0) 50 10
def dscGx (d : List Dword) : Nat := bits (descWord d 0) 40 10
def dscGh (d : List Dword) : Nat := bits (descWord d 0) 30 10 + 1
def dscGw (d : List Dword) : Nat := bits (descWord d 0) 20 10 + 1
def dscRank (d : List Dword) : Nat := bits (descWord d 0) 0 20
def dscE (d : List Dword) : Nat := bits (descWord d 1) 56 8 + 1
def dscK (d : List Dword) : Nat := bits (descWord d 1) 54 2 + 1
def dscMode (d : List Dword) : Bool := bitAt (descWord d 1) 53
def dscSpill (d : List Dword) : Bool := bitAt (descWord d 1) 52
def dscRfmt (d : List Dword) : Nat := bits (descWord d 1) 50 2
def dscOfmt (d : List Dword) : Nat := bits (descWord d 1) 48 2
def dscCap (d : List Dword) : Nat := bits (descWord d 1) 28 20
def dscRowb (d : List Dword) : Nat := bits (descWord d 1) 0 16
def dscNel (d : List Dword) : Nat := bits (descWord d 2) 48 16
def dscNtok (d : List Dword) : Nat := bits (descWord d 2) 0 17
/-- The upper and the lower offset of words 3 to 6. -/
def dscHi (d : List Dword) (k : Nat) : Nat := bits (descWord d k) 32 19
def dscLo (d : List Dword) (k : Nat) : Nat := bits (descWord d k) 0 19
def dscDropcap (d : List Dword) : Nat := bits (descWord d 7) 32 32
def dscSpcap (d : List Dword) : Nat := bits (descWord d 7) 0 32
def dscSpriser (d : List Dword) : Nat := 8 * bits (descWord d 10) 0 16
def fmtSize (f : Nat) : Nat := if f = 0 then 4 else 2

/-- The fields that must be the same in every member's copy. -/
def dscSame (d : List Dword) : List Nat :=
  [dscGy d, dscGx d, dscGh d, dscGw d, dscE d, dscK d, b2n (dscMode d), b2n (dscSpill d), dscCap d, dscSpcap d,
    (descWord d 8).toNat, (descWord d 9).toNat, (descWord d 11).toNat]

/-- A core's coordinates and the extent its rectangles are taken in: the partition, or the logical grid. -/
def frameOf (s : State) (t : Nat) : Nat × Nat × Nat × Nat :=
  let c := (s.tile t).core
  if c.width = 0 then (c.gy, c.gx, s.side, s.cols) else (c.relY, c.relX, c.height, c.width)

def rectInside (s : State) (t : Nat) (d : List Dword) : Bool :=
  let f := frameOf s t
  decide (dscGy d + dscGh d ≤ f.2.2.1) && decide (dscGx d + dscGw d ≤ f.2.2.2)
def isMember (s : State) (t : Nat) (d : List Dword) : Bool :=
  let f := frameOf s t
  decide (dscGy d ≤ f.1) && decide (f.1 < dscGy d + dscGh d) && decide (dscGx d ≤ f.2.1)
    && decide (f.2.1 < dscGx d + dscGw d)

/-- The form of SPRCORE: a space-0x1 or space-0x3 address with OFFSET 0. -/
def coreForm (a : Dword) : Bool := (spaceOf a == 1 || spaceOf a == 3) && bits a 0 19 == 0

/-- Ranges, alignments and reserved fields. -/
def dscFields (d : List Dword) : Bool :=
  let w := descWord d
  let gap (k : Nat) : Bool := bits (w k) 51 13 == 0 && bits (w k) 19 13 == 0
  bits (w 0) 60 4 == 0 && decide (dscGh d * dscGw d ≤ 1024) && decide (dscRfmt d ≤ 1) && decide (dscOfmt d ≤ 1)
    && dscCap d != 0 && bits (w 1) 16 12 == 0 && dscRowb d % 8 == 0 && dscRowb d != 0 && dscNel d != 0
    && bits (w 2) 17 31 == 0 && decide (dscNtok d ≤ 65536) && gap 3 && gap 4 && gap 5 && gap 6
    && dscHi d 3 % 4 == 0 && dscLo d 3 % 2 == 0 && dscHi d 4 % 8 == 0 && dscLo d 4 % 4 == 0 && dscHi d 5 % 4 == 0
    && dscLo d 5 % 8 == 0 && dscHi d 6 % 8 == 0 && dscLo d 6 % 32 == 0 && decide (dscSpcap d ≤ 2 ^ 20)
    && bits (w 10) 16 48 == 0 && (w 11 == 0 || (spaceOf (w 8) == 2 && coreForm (w 11))) && w 12 == 0 && w 13 == 0 && w 14 == 0
    && bits (w 15) 40 23 == 0 && bits (w 15) 2 30 == 0

/-- R224's conditions on the descriptor of tile t's core. -/
def dscValid (s : State) (t : Nat) (d : List Dword) : Bool :=
  let f := frameOf s t
  dscFields d && rectInside s t d && isMember s t d
    && dscRank d == (f.1 - dscGy d) * dscGw d + (f.2.1 - dscGx d)

/-- The tiles of the group's rectangle by rank. -/
def dscMembers (s : State) (t : Nat) (d : List Dword) : List Nat :=
  let c := (s.tile t).core
  (upTo (dscGh d)).flatMap fun i => (upTo (dscGw d)).map fun j =>
    (s.core (c.orgY + dscGy d + i) (c.orgX + dscGx d + j)).getD nowhere
def dscRect (d : List Dword) : List Nat := [dscGy d, dscGx d, dscGh d, dscGw d]

/-! ### The queue -/

def ladleClass (reason : Nat) : Nat :=
  match reason with
  | 2 => 4
  | 3 => 2
  | 9 => 6
  | _ => 1

def State.modLadle (s : State) (t : Nat) (f : Ladle → Ladle) : State := s.modTile t fun x => { x with ladle := f x.ladle }
def State.setLadle (s : State) (t : Nat) (c : LadleCmd) : State :=
  s.modLadle t fun l => { l with queue := l.queue.map fun e => if e.serial = c.serial then c else e }
def LadleCmd.fails (c : LadleCmd) (reason : Nat) : LadleCmd := { c with bad := c.bad.or (some reason) }
def wDesc (w1 : Dword) : Nat := bits w1 0 19

/-- A command leaves the queue, and the one now at its head begins to evaluate its gate. -/
def State.dropLadle (s : State) (t serial : Nat) : State :=
  s.modLadle t fun l =>
    { l with queue :=
        match l.queue.filter (·.serial != serial) with
        | h :: r => if h.watching then h :: r else { h with watching := true, gate := gateNow s t h.w0, gateTs := s.tsc } :: r
        | [] => [] }

def ladleOrigin (s : State) (t : Nat) : Origin :=
  let x := s.tile t
  { party := .ladle, tile := t, lidx := x.lidx, pid := x.core.pid, job := x.core.jobid, omod := x.core.jmod }
def ladlePacket (s : State) (t : Nat) (c : LadleCmd) (op : Op) (home : Home) (off : Nat) (a : Dword) : Packet :=
  { id := s.nextId, op := op, org := ladleOrigin s t, home := home, off := off, addr := a, req := c.serial, opc := c.opc
    bySlot := c.slot, byEpoch := c.epoch }
/-- The engine's own writer, for steps named in space 0x0; LSIZE of a piece that is no power of two is rounded down (log
73). -/
def ladleWriter (s : State) (t n : Nat) : Writer := { kind := 6, org := ladleOrigin s t, logged := true, lsize := Nat.log2 n }

/-- Bytes cut at 64-byte blocks: an offset into them and a length for each step (R184). -/
def blocksOf (a n : Nat) : List (Nat × Nat) :=
  (upTo (n / 64 + 2)).filterMap fun k =>
    let lo := if k = 0 then 0 else (a / 64 + k) * 64 - a
    let hi := min n ((a / 64 + k + 1) * 64 - a)
    if lo < hi then some (lo, hi - lo) else none

/-- Bytes of the own scratchpad written in one step. -/
def State.ownWrite (s : State) (t off : Nat) (bs : List Byte) : State :=
  s.stepWrite t [(off, bs)] (ladleWriter s t bs.length) off

/-- Own bytes read, or the reason that they cannot be. -/
def ownRead (s : State) (t off n : Nat) : Except Nat (List Byte) :=
  if 0x80000 < off + n then .error 1
  else if s.markedIn (tileKey t off) n then .error 3
  else .ok (Memory.read s.mem (tileKey t off) n)

/-- The descriptor's sixteen words. -/
def descWords (bs : List Byte) : List Dword := (upTo 16).map fun k => nd (leVal ((bs.drop (8 * k)).take 8))
def readDesc (s : State) (t off : Nat) : Except Nat (List Dword) :=
  (ownRead s t off 128).map descWords

/-- Bytes at an offset, cut at 64-byte blocks. -/
def cutBlocks (off : Nat) (bs : List Byte) : List (Nat × List Byte) :=
  (blocksOf off bs.length).map fun b => (off + b.1, (bs.drop b.1).take b.2)

/-- A table of n little-endian values of size bytes. -/
def tableOf (size n : Nat) (bs : List Byte) : List Nat := (upTo n).map fun k => leVal ((bs.drop (size * k)).take size)

/-! ### Failure (R230) -/

/-- The address that names a riser's core: RCORE or SPRCORE for a buffer in space 0x2, else the buffer's own (R225). -/
def riserCore (buf core : Dword) : Dword := if spaceOf buf = 2 then core else buf
/-- The home of a riser on the core that an address of space 0x1 or 0x3 names; its OFFSET is not looked at (log 74). -/
def riserHome (s : State) (t : Nat) (a : Dword) : Option Home :=
  match locate (s.viewFrom t) .user a with
  | some (.mesh y x _) => some (.tile ((s.viewFrom t).meshTile t y x))
  | some (.fabric m y x _) => some (.module m y x)
  | _ => none

/-- A record's buffer, riser offset and riser core: of its expert, whose table entry is read in one step, or of the overflow
slots. Of the table entry's bits that R225 gives no use nothing is looked at (log 74). -/
def rowTarget (s : State) (t : Nat) (d : List Dword) (rc : Nat) : Except Nat (Dword × Nat × Dword) :=
  if bits (nd rc) 29 1 = 1 then .ok (descWord d 8, dscSpriser d, descWord d 11)
  else
    (ownRead s t (dscLo d 6 + 32 * (rc % 256)) 32).map fun bs =>
      (nd (leVal (bs.take 8)), 8 * bits (nd (leVal ((bs.drop 8).take 8))) 0 16, nd (leVal ((bs.drop 24).take 8)))

/-- A route record holds a slot: VALID is 1. DROP of a record that a program has written beside VALID is not looked at
(R93, R229; log 88). -/
def recValid (rc : Nat) : Bool := bitAt (nd rc) 31
def recSlot (rc : Nat) : Nat := bits (nd rc) 8 20

/-- One riser step or poisoning of the ladle at a row's riser: the state and whether it was rejected. -/
def ladleRiser (s : State) (t : Nat) (c : LadleCmd) (home : Home) (off : Nat) (a : Dword) (poison : Option Nat) :
    State × Bool :=
  let op := match poison with
    | some cls => Op.rpoison cls
    | none => .rsig 1
  let p := ladlePacket s t c op home off (nd (a.toNat / 2 ^ 20 * 2 ^ 20 + off))
  match home with
  | .tile u =>
    let r := engineRiser s p u off poison
    (r.1, r.2.isSome)
  | _ => (s.launch p, false)

/-- A SCATTER that has not read its descriptor or its records, with them as they stand; one whose descriptor cannot be
read or is invalid owes no row (R222, R230). -/
def LadleCmd.filled (c : LadleCmd) (s : State) (t : Nat) : LadleCmd :=
  match c.table, (if c.desc.isEmpty then readDesc s t (wDesc c.w1) else .ok c.desc) with
  | none, .ok d =>
    match dscValid s t d, ownRead s t (dscLo d 4) (4 * dscNtok d * dscK d) with
    | true, .ok bs => { c with desc := d, table := some (tableOf 4 (dscNtok d * dscK d) bs) }
    | _, _ => c
  | _, _ => c

/-- The rows that a SCATTER still owes a riser: each row's number, with the riser's home, offset and address (R230). -/
def owedRows (s : State) (t : Nat) (c : LadleCmd) : List (Nat × Home × Nat × Dword) :=
  if wLop c.w0 ≠ 1 then []
  else
    (c.table.getD []).zipIdx.filterMap fun p =>
      if !recValid p.1 ∨ dscE c.desc ≤ p.1 % 256 ∨ memNat p.2 c.stepped then none
      else
        match rowTarget s t c.desc p.1 with
        | .ok (buf, off, core) =>
          let a := riserCore buf core
          if off = 0 then none else (riserHome s t a).map fun h => (p.2, h, off, a)
        | .error _ => none

/-- A command's write of the word at an own offset, once no LR hold delays it (R136). -/
def State.ladleEnd (s : State) (t : Nat) (c : LadleCmd) (off : Nat) (k : State → State) : State :=
  s.atPort s t (.ladleEnd t c.serial) (ladleWriter s t 8) [(off, 8)] k

/-- The next step of a failed command (R230): LFAIL, LREASON and LLOP; then each riser that is owed rows, once however many
they are; and when those are poisoned, its completion riser and its place in the queue. -/
def State.failLadle (s : State) (t : Nat) (c : LadleCmd) (reason : Nat) : State :=
  let cls := ladleClass reason
  if !c.lfail then
    s.ladleEnd t c (wDesc c.w1 + 0x78) fun s' =>
      (s'.ownWrite t (wDesc c.w1 + 0x78) (leBytes 8 (field 63 1 1 + field 32 8 reason + wLop c.w0))).setLadle t
        { c.filled s t with lfail := true }
  else
    let owed := owedRows s t c
    match owed with
    | (_, home, off, a) :: _ =>
      let rows := (owed.filter fun e => e.2.1 == home && e.2.2.1 == off).map (·.1)
      let done := { c with stepped := rows ++ c.stepped }
      match home with
      | .tile u =>
        if !s.awake u then s
        else
          s.atPort s u (.ladleEnd t c.serial) (ladleWriter s t 8) [(off, 8)] fun s =>
            (ladleRiser s t c home off a (some cls)).1.setLadle t done
      | _ =>
        (ladleRiser s t c home off a (some cls)).1.setLadle t
          { done with out := c.out ++ [(s.nextId, (c.table.getD []).length)] }
    | [] =>
      if hasDone { w0 := c.w0 } then
        s.ladleEnd t c (wCriser c.w0) fun s =>
          (s.riserPoisoned t (wCriser c.w0) cls (s.tile t).lidx (ladleWriter s t 8)).dropLadle t c.serial
      else s.dropLadle t c.serial

/-! ### Starting (R223, R227) -/

/-- n[k][e] in row-major order. -/
def countChoices (d : List Dword) (ch : List Nat) : List Nat :=
  let e := dscE d
  let k := dscK d
  let hit := ch.zipIdx.filterMap fun p => if p.1 < e then some (p.2 % k * e + p.1) else none
  (upTo (k * e)).map fun i => (hit.filter (· == i)).length

/-- A PLAN joins its round. -/
def State.joinRound (s : State) (t : Nat) (c : LadleCmd) (d : List Dword) (counts : List Nat) (bad : Bool) : State :=
  let pid := (s.tile t).core.pid
  let n := (s.tile t).ladle.rounds + 1
  let j : Joined := { tile := t, same := dscSame d, counts := counts, bad := bad }
  let isRound (r : Round) : Bool := r.pid == pid && r.rect == dscRect d && r.n == n
  let s := s.modLadle t fun l => { l with rounds := n }
  let s := s.setLadle t { c with started := true, joined := true, desc := d }
  if s.rounds.any isRound then
    { s with rounds := s.rounds.map fun r => if isRound r then { r with members := r.members ++ [j] } else r }
  else { s with rounds := s.rounds ++ [{ pid := pid, rect := dscRect d, n := n, members := [j] }] }

/-- LADLE_COMMAND_START: the head of the queue, its gate reached or poisoned (R223). A PLAN that a RESET has aborted
fails as it starts (R227). -/
def execLadleCommandStart (tile : Nat) (s : State) : Outcome :=
  onTile s tile <|
    match (s.tile tile).ladle.queue with
    | [] => .next s
    | c :: _ =>
      let begun := { c with started := true }
      if c.started ∨ wLop c.w0 = 3 ∨ c.gate = 0 ∨ (s.tile tile).sealed then .next s
      else if c.gate = 2 then .next (s.setLadle tile (begun.fails 8))
      else if wLop c.w0 = 0 ∧ (s.tile tile).ladle.abortNext then
        .next ((s.modLadle tile fun l => { l with abortNext := false }).setLadle tile (begun.fails 6))
      else .next (s.setLadle tile begun)

/-- A PLAN that cannot go on fails, and with it its round at every member (R227). -/
def State.failPlan (s : State) (t : Nat) (c : LadleCmd) (d : List Dword) (reason : Nat) : State :=
  (s.joinRound t c d [] true).setLadle t ({ c with desc := d }.fails reason)

/-- Offset and size of an entry of the table that a command reads whole: a PLAN's choices, a SCATTER's records. -/
def tablePlace (c : LadleCmd) (d : List Dword) : Nat × Nat := if wLop c.w0 = 0 then (dscLo d 3, 2) else (dscLo d 4, 4)

/-- The table is read: a PLAN joins its round with its counts (R226, R227), a SCATTER holds its records (R228). -/
def State.tabled (s : State) (t : Nat) (c : LadleCmd) (bs : List Byte) : State :=
  let d := c.desc
  let l := tableOf (tablePlace c d).2 (dscNtok d * dscK d) bs
  let c := { c with parts := [], table := some l }
  if wLop c.w0 = 0 then s.joinRound t c d (countChoices d l) false else s.setLadle t c

/-- The descriptor is read, and checked (R224, R227). A PLAN's failure with DESC is its round's, if its core is a member. -/
def State.described (s : State) (t : Nat) (c : LadleCmd) (d : List Dword) : State :=
  let c := { c with parts := [], desc := d }
  if !dscValid s t d then
    if wLop c.w0 = 0 ∧ rectInside s t d ∧ isMember s t d then s.failPlan t c d 4 else s.setLadle t (c.fails 4)
  else if wLop c.w0 ≤ 1 ∧ dscNtok d = 0 then s.tabled t c []
  else s.setLadle t c

/-- One block of n own bytes at an offset, into the command's parts. -/
def readPart (s : State) (t : Nat) (c : LadleCmd) (off n blk : Nat) : Except Nat LadleCmd :=
  match (blocksOf off n)[blk]? with
  | none => .ok c
  | some b =>
    if c.parts.any (·.1 == b.1) then .ok c
    else (ownRead s t (off + b.1) b.2).map fun bs => { c with parts := c.parts ++ [(b.1, bs)] }
/-- The bytes of all the blocks, when every one has been read. -/
def LadleCmd.whole (c : LadleCmd) (off n : Nat) : Option (List Byte) :=
  (blocksOf off n).foldl
    (fun r b =>
      match r, c.parts.find? (·.1 == b.1) with
      | some l, some p => some (l ++ p.2)
      | _, _ => none) (some [])

/-- A block of the descriptor. One that cannot be read fails the command alone (log 75). -/
def descStep (s : State) (t : Nat) (c : LadleCmd) (blk : Nat) : State :=
  if !c.desc.isEmpty then s
  else
    match readPart s t c (wDesc c.w1) 128 blk with
    | .error e => s.setLadle t (c.fails e)
    | .ok c =>
      match c.whole (wDesc c.w1) 128 with
      | some bs => s.described t c (descWords bs)
      | none => s.setLadle t c

/-- A block of the choices or of the records. -/
def tableStep (s : State) (t : Nat) (c : LadleCmd) (blk : Nat) : State :=
  let d := c.desc
  if d.isEmpty ∨ c.table.isSome ∨ 1 < wLop c.w0 then s
  else
    let off := (tablePlace c d).1
    let n := (tablePlace c d).2 * dscNtok d * dscK d
    match readPart s t c off n blk with
    | .error e => if wLop c.w0 = 0 then s.failPlan t c d e else s.setLadle t (c.fails e)
    | .ok c =>
      match c.whole off n with
      | some bs => s.tabled t c bs
      | none => s.setLadle t c

/-! ### PLAN (R226, R227) -/

/-- What PLAN has computed so far. -/
structure PlanAcc where
  /-- seenk[k][e] -/
  seen : List Nat
  recs : List Nat := []
  drops : List Nat := []
  lost : Nat := 0
  deriving DecidableEq, Repr

def sumFn (n : Nat) (f : Nat → Nat) : Nat := (upTo n).foldl (fun a i => a + f i) 0

/-- One choice of R226's double loop. -/
def planStep (d : List Dword) (p dd : List Nat) (a : PlanAcc) (j e : Nat) : PlanAcc :=
  let ne := dscE d
  let nk := dscK d
  let cap := dscCap d
  let k := j % nk
  let at2 (l : List Nat) (k e : Nat) : Nat := l.getD (k * ne + e) 0
  let dt (e : Nat) : Nat := sumFn nk fun k => at2 dd k e
  if ne ≤ e then { a with recs := a.recs ++ [0] }
  else
    let slot :=
      if dscMode d then sumFn k (fun k' => at2 dd k' e) + at2 p k e + at2 a.seen k e
      else sumFn nk (fun k' => at2 p k' e) + sumFn nk (fun k' => at2 a.seen k' e)
    let a := { a with seen := a.seen.set (k * ne + e) (at2 a.seen k e + 1) }
    if slot < cap then { a with recs := a.recs ++ [2 ^ 31 + field 8 20 slot + e] }
    else
      let q := sumFn e (fun e' => dt e' - cap) + (slot - cap)
      if dscSpill d ∧ q < dscSpcap d then { a with recs := a.recs ++ [2 ^ 31 + 2 ^ 29 + field 8 20 q + e] }
      else
        let a := { a with recs := a.recs ++ [2 ^ 30 + e] }
        if a.drops.length < dscDropcap d then { a with drops := a.drops ++ [field 32 16 (j / nk) + field 24 2 k + e] }
        else { a with lost := a.lost + 1 }

def addLists (n : Nat) (ls : List (List Nat)) : List Nat := (upTo n).map fun i => ls.foldl (fun a l => a + l.getD i 0) 0

/-- The pieces a PLAN writes: records, drop records with their header, and totals. -/
def planWrites (d : List Dword) (a : PlanAcc) (dd : List Nat) : List (Nat × List Byte) :=
  let ne := dscE d
  let dt (e : Nat) : Nat := sumFn (dscK d) fun k => dd.getD (k * ne + e) 0
  [(dscLo d 4, a.recs.flatMap (leBytes 4)),
    (dscHi d 6, leBytes 8 (field 32 32 a.lost + field 0 32 a.drops.length) ++ a.drops.flatMap (leBytes 8)),
    (dscHi d 4, (upTo ne).flatMap fun e => leBytes 8 (field 32 32 (dt e) + min (dt e) (dscCap d)))]

/-- The member has taken the round's result; the round ends with the last member that has not failed on its own. -/
def State.tookRound (s : State) (r : Round) (t : Nat) : State :=
  let r' := { r with taken := t :: r.taken }
  if r'.members.all fun m => m.bad || memNat m.tile r'.taken then { s with rounds := s.rounds.filter (· != r) }
  else { s with rounds := s.rounds.map fun q => if q = r then r' else q }

/-- The round of the head PLAN of a tile. -/
def roundOf (s : State) (t : Nat) (c : LadleCmd) : Option Round :=
  s.rounds.find? fun r => r.pid == (s.tile t).core.pid && r.rect == dscRect c.desc && r.n == (s.tile t).ladle.rounds
    && r.members.any (·.tile == t) && !memNat t r.taken

/-- PLAN_SCAN_COMPLETE: every member has joined, and the scan's result reaches this one (R226, R227). -/
def execPlanScanComplete (tile : Nat) (s : State) : Outcome :=
  onTile s tile <|
    match (s.tile tile).ladle.queue with
    | [] => .next s
    | c :: _ =>
      match roundOf s tile c with
      | none => .next s
      | some r =>
        let d := c.desc
        let order := dscMembers s tile d
        if !c.joined ∨ c.finished ∨ r.members.length < order.length then .next s
        else
          let took := s.tookRound r tile
          let members := order.filterMap fun t => r.members.find? (·.tile == t)
          let rank0 := (members.head?.map (·.same)).getD []
          if c.bad.isSome then .next took
          else if r.members.any (·.bad) ∨ members.any (fun m => m.same != rank0) then .next (took.setLadle tile (c.fails 5))
          else
            let n := dscK d * dscE d
            let p := addLists n ((members.takeWhile (·.tile != tile)).map (·.counts))
            let dd := addLists n (members.map (·.counts))
            let a := ((c.table.getD []).zipIdx).foldl (fun a e => planStep d p dd a e.2 e.1) { seen := List.replicate n 0 }
            let ws := planWrites d a dd
            if ws.any fun w => decide (0x80000 < w.1 + w.2.length) then .next (took.setLadle tile (c.fails 1))
            else .next (took.setLadle tile { c with finished := true, todo := ws.flatMap fun w => cutBlocks w.1 w.2 })

/-- A block of a PLAN's results is written. -/
def resultStep (s : State) (t : Nat) (c : LadleCmd) (off : Nat) : State :=
  match c.todo.find? (·.1 == off) with
  | none => s
  | some w =>
    s.atPort s t (.ladlePiece t c.serial off 0) (ladleWriter s t w.2.length) [(off, w.2.length)] fun s =>
      (s.ownWrite t off w.2).setLadle t { c with todo := c.todo.filter (· != w) }

/-! ### Rows (R228, R229) -/

def bufferSpace (a : Dword) : Bool := spaceOf a == 1 || spaceOf a == 2 || spaceOf a == 3

/-- Bytes of a row that a command reads, in one choice: of a token row, or of an expert's output row. -/
def rowBytes (c : LadleCmd) : Nat :=
  if wLop c.w0 = 1 then dscRowb c.desc else dscNel c.desc * fmtSize (dscRfmt c.desc)
/-- Bytes of a combined row. -/
def outBytes (d : List Dword) : Nat := dscNel d * fmtSize (dscOfmt d)

/-- The length of the piece that begins at byte b of n bytes, whose address is a: none begins off a block's or the row's
start (R184). -/
def pieceLen (a b n : Nat) : Option Nat :=
  if n ≤ b then none else if b = 0 ∨ a % 64 = 0 then some (min (64 - a % 64) (n - b)) else none

def State.setRow (s : State) (t : Nat) (c : LadleCmd) (r : LadleRow) : State :=
  s.setLadle t { c with rows := r :: c.rows.filter (·.row != r.row) }
def LadleRow.took (r : LadleRow) (b : Nat) (bs : List Byte) (xn : Bool) : LadleRow :=
  { r with reads := b :: r.reads, buf := r.buf ++ numbered b bs, xn := if xn then (b, bs.length) :: r.xn else r.xn }
def LadleRow.wrote (r : LadleRow) (b n : Nat) : LadleRow := { r with writes := b :: r.writes, done := r.done + n }
/-- Bytes b … b+n-1 of the row as read, if all are there. -/
def LadleRow.have (r : LadleRow) (b n : Nat) : Option (List Byte) := ({ buf := r.buf } : CopyRun).have b n

/-- A SCATTER's row is taken up: its record names a slot and a riser (R228). -/
def scatterEntry (s : State) (t : Nat) (c : LadleCmd) (j : Nat) : State :=
  let d := c.desc
  let stop (e : Nat) : State := s.setLadle t (c.fails e)
  match (c.table.getD [])[j]? with
  | none => s
  | some rc =>
    if !recValid rc ∨ memNat j c.stepped ∨ c.rows.any (·.row == j) then s
    else if dscE d ≤ rc % 256 then stop 7
    else
      match rowTarget s t d rc with
      | .error e => stop e
      | .ok (buf, off, core) =>
        let a := riserCore buf core
        if !bufferSpace buf ∨ (off ≠ 0 ∧ (riserHome s t a).isNone) then stop 1
        else s.setRow t c { row := j, places := [(0, buf + nd (recSlot rc * dscRowb d))], riser := off, core := a }

/-- A COMBINE's choice k of a token row has a route record that holds a slot. -/
def LadleRow.valid (r : LadleRow) (k : Nat) : Option Nat :=
  match r.recs.find? (·.1 == k) with
  | some (_, rc) => if recValid rc then some rc else none
  | none => none

/-- A route record of a COMBINE's row, in a step of its own 4 bytes (R229, log 51). -/
def recordStep (s : State) (t : Nat) (c : LadleCmd) (row k : Nat) : State :=
  let d := c.desc
  let r := (c.rows.find? (·.row == row)).getD { row := row }
  if dscNtok d ≤ row ∨ dscK d ≤ k ∨ memNat row c.moved ∨ r.recs.any (·.1 == k) then s
  else
    match ownRead s t (dscLo d 4 + 4 * (row * dscK d + k)) 4 with
    | .error e => s.setLadle t (c.fails e)
    | .ok bs =>
      let rc := leVal bs
      if recValid rc ∧ dscE d ≤ rc % 256 then s.setLadle t (c.fails 7) else s.setRow t c { r with recs := (k, rc) :: r.recs }

/-- The gate of a choice that holds a slot, in a step of its own 4 bytes (log 51). -/
def gateStep (s : State) (t : Nat) (c : LadleCmd) (row k : Nat) : State :=
  let d := c.desc
  match c.rows.find? (·.row == row) with
  | none => s
  | some r =>
    if (r.valid k).isNone ∨ r.gates.any (·.1 == k) then s
    else
      match ownRead s t (dscHi d 3 + 4 * (row * dscK d + k)) 4 with
      | .error e => s.setLadle t (c.fails e)
      | .ok bs => s.setRow t c { r with gates := (k, leVal bs) :: r.gates }

/-- The address of a record's expert output row. -/
def outputRow (s : State) (t : Nat) (d : List Dword) (rc : Nat) : Except Nat Dword :=
  let at0 (b : Dword) : Dword := b + nd (recSlot rc * (dscNel d * fmtSize (dscRfmt d)))
  let base : Except Nat Dword := if bits (nd rc) 29 1 = 1 then .ok (descWord d 9)
    else (ownRead s t (dscLo d 6 + 32 * (rc % 256) + 16) 8).map fun bs => nd (leVal bs)
  match base with
  | .ok b => if bufferSpace b then .ok (at0 b) else .error 1
  | .error e => .error e

/-- The place of a choice's expert output row. -/
def combineEntry (s : State) (t : Nat) (c : LadleCmd) (row k : Nat) : State :=
  match c.rows.find? (·.row == row) with
  | none => s
  | some r =>
    match r.valid k, r.places.any (·.1 == k) with
    | some rc, false =>
      match outputRow s t c.desc rc with
      | .error e => s.setLadle t (c.fails e)
      | .ok a => s.setRow t c { r with places := (k, a) :: r.places }
    | _, _ => s

/-- The command as the copy engine's paths to a place know it. -/
def LadleCmd.asCopy (c : LadleCmd) : CopyCmd := { serial := c.serial, machine := c.machine }

/-- A block of a token row is read from the own scratchpad. -/
def scatterRead (s : State) (t : Nat) (c : LadleCmd) (r : LadleRow) (b : Nat) : State :=
  let off := dscLo c.desc 5 + r.row / dscK c.desc * dscRowb c.desc + b
  match pieceLen off b (dscRowb c.desc) with
  | none => s
  | some n =>
    if memNat b r.reads then s
    else
      match ownRead s t off n with
      | .error e => s.setLadle t (c.fails e)
      | .ok bs => s.setRow t c (r.took b bs false)

/-- Bytes read at a port of this module; a marked word fails the command. -/
def takeAt (s : State) (t : Nat) (c : LadleCmd) (r : LadleRow) (b k n : Nat) (xn : Bool) : State :=
  if s.markedIn k n then s.setLadle t (c.fails 3) else s.setRow t c (r.took b (Memory.read s.mem k n) xn)

/-- A block of an expert output row is read where it lies: pages of HBM only in space 0x2, for an engine that is not the
copy engine (R225, R285). -/
def combineRead (s : State) (t : Nat) (c : LadleCmd) (r : LadleRow) (b : Nat) : State :=
  let len := rowBytes c
  match r.places.find? (·.1 == b / len) with
  | none => s
  | some (_, base) =>
    let a := base + nd (b % len)
    match pieceLen a.toNat (b % len) len with
    | none => s
    | some n =>
      if memNat b r.reads then s
      else
        match reach s t 1 c.asCopy a n false with
        | .wait s => s
        | .fail _ s => s.setLadle t (c.fails 1)
        | .ok (.tile u off _) xn s =>
          let p := ladlePacket s t c (.load n) (.tile u) off a
          if !s.awake u then s
          else
            match rejection s p u false [(off, n)] false with
            | some why => (s.logRejection p u 1 why).setLadle t (c.fails 2)
            | none => takeAt s t c r b (tileKey u off) n xn
        | .ok (.chan g adr _) xn s =>
          if configured s (route t (chanTile g)) then takeAt s t c r b (hbmKey g adr) n xn else s.setLadle t (c.fails 2)
        | .ok (.module m y x off cls) xn s =>
          (s.launch { ladlePacket s t c (.load n) (.module m y x) off a with cls := cls }).setRow t c
            { r with
              reads := b :: r.reads, outstanding := r.outstanding ++ [(s.nextId, b, n)]
              xn := if xn then (b, n) :: r.xn else r.xn }
        | .ok (.pooled _) _ s => s.setLadle t (c.fails 1)

/-- A block of a token row is written to its slot. -/
def scatterWrite (s : State) (t : Nat) (c : LadleCmd) (r : LadleRow) (b : Nat) : State :=
  let a := ((r.places.head?.map (·.2)).getD 0) + nd b
  match pieceLen a.toNat b (dscRowb c.desc) with
  | none => s
  | some n =>
    match memNat b r.writes, r.have b n with
    | false, some bs =>
      match reach s t 1 c.asCopy a n true with
      | .wait s => s
      | .fail _ s => s.setLadle t (c.fails 1)
      | .ok (.tile u off _) _ s =>
        let p := ladlePacket s t c (.store n (leVal bs)) (.tile u) off a
        let w := ladleWriter s t n
        if !s.awake u then s
        else
          match rejection s p u true [(off, n)] false with
          | some why => (s.logRejection p u 1 why).setLadle t (c.fails 2)
          | none =>
            s.atPort s u (.ladlePiece t c.serial r.row b) w [(off, n)] fun s =>
              (s.stepWrite u [(off, bs)] w off).setRow t c (r.wrote b n)
      | .ok (.chan g adr _) _ s =>
        if configured s (route t (chanTile g)) then (s.writeB (hbmKey g adr) bs).setRow t c (r.wrote b n)
        else s.setLadle t (c.fails 2)
      | .ok (.module m y x off cls) _ s =>
        (s.launch { ladlePacket s t c (.store n (leVal bs)) (.module m y x) off a with cls := cls }).setRow t c
          { r.wrote b n with outstanding := r.outstanding ++ [(s.nextId, b, n)] }
      | .ok (.pooled _) _ s => s.setLadle t (c.fails 1)
    | _, _ => s

/-- The gates and elements of a row's choices, in order, when everything the row needs has been read. -/
def combineSources (c : LadleCmd) (r : LadleRow) : Option (List (Nat × List Nat)) :=
  let d := c.desc
  let len := rowBytes c
  (upTo (dscK d)).foldl
    (fun l k =>
      match l, r.recs.find? (·.1 == k) with
      | some l, some (_, rc) =>
        if !recValid rc then some l
        else
          match r.gates.find? (·.1 == k), r.have (k * len) len with
          | some (_, g), some bs => some (l ++ [(g, tableOf (fmtSize (dscRfmt d)) (dscNel d) bs)])
          | _, _ => none
      | _, _ => none) (some [])

/-- The elements of a combined row (R93). -/
def combined (d : List Dword) (rows : List (Nat × List Nat)) : List Byte :=
  let read (v : Nat) : FVal := if dscRfmt d = 0 then fp32.read v else bf16.read v
  (upTo (dscNel d)).flatMap fun i =>
    let v := combine (rows.map fun r => (r.1, read (r.2.getD i 0))) 0
    if dscOfmt d = 0 then leBytes 4 v else leBytes 2 (bf16.convert false (fp32.read v))

/-- An output element of the n bytes at byte b comes from bytes of a page with XN = 1 (R289). -/
def LadleRow.marked (c : LadleCmd) (r : LadleRow) (b n : Nat) : Bool :=
  let i := fmtSize (dscRfmt c.desc)
  let o := fmtSize (dscOfmt c.desc)
  r.xn.any fun p =>
    decide (p.1 % rowBytes c / i < (b + n + o - 1) / o) && decide (b / o < (p.1 % rowBytes c + p.2 + i - 1) / i)

/-- A block of a combined row is written; data of a page with XN = 1 may not land in the code window (R289). -/
def combineWrite (s : State) (t : Nat) (c : LadleCmd) (r : LadleRow) (b : Nat) : State :=
  let d := c.desc
  let len := outBytes d
  let off := dscHi d 5 + r.row * len + b
  match pieceLen off b len, combineSources c r with
  | some n, some rows =>
    let p := { ladlePacket s t c (.store n 0) (.tile t) off (nd off) with absolute := true, xn := r.marked c b n }
    if memNat b r.writes then s
    else if 0x80000 < off + n then s.setLadle t (c.fails 1)
    else
      match rejection s p t true [(off, n)] false with
      | some why => (s.logRejection p t 1 why).setLadle t (c.fails 2)
      | none =>
        s.atPort s t (.ladlePiece t c.serial r.row b) (ladleWriter s t n) [(off, n)] fun s =>
          let s := s.ownWrite t off (((combined d rows).drop b).take n)
          let r := r.wrote b n
          if r.done = len then
            s.setLadle t { c with moved := r.row :: c.moved, rows := c.rows.filter (·.row != r.row) }
          else s.setRow t c r
  | _, _ => s

/-- The riser step that follows a SCATTER's row (R228). -/
def scatterRiser (s : State) (t : Nat) (c : LadleCmd) (r : LadleRow) : State :=
  let taken := { c with stepped := r.row :: c.stepped, rows := c.rows.filter (·.row != r.row) }
  if r.done < dscRowb c.desc ∨ !r.outstanding.isEmpty then s
  else if r.riser = 0 then s.setLadle t taken
  else
    match riserHome s t r.core with
    | some (.tile u) =>
      if !s.awake u then s
      else
        s.atPort s u (.ladleRiser t c.serial r.row) (ladleWriter s t 8) [(r.riser, 8)] fun s =>
          let q := ladleRiser s t c (.tile u) r.riser r.core none
          q.1.setLadle t (if q.2 then c.fails 2 else taken)
    | some home => (s.launch (ladlePacket s t c (.rsig 1) home r.riser r.core)).setLadle t
        { taken with out := c.out ++ [(s.nextId, r.row)] }
    | none => s.setLadle t (c.fails 1)

/-- One step of a started command that has not failed. -/
def ladleStep (s : State) (t : Nat) (c : LadleCmd) (step : LadleStep) : State :=
  let onRow (row : Nat) (f g : LadleRow → State) : State :=
    match c.rows.find? (·.row == row) with
    | some r => if wLop c.w0 = 1 then f r else g r
    | none => s
  match step with
  | .desc b => descStep s t c b
  | .table b => tableStep s t c b
  | .record row k => if wLop c.w0 = 2 ∧ !c.desc.isEmpty then recordStep s t c row k else s
  | .gate row k => if wLop c.w0 = 2 then gateStep s t c row k else s
  | .entry row k => if wLop c.w0 = 1 then scatterEntry s t c row else combineEntry s t c row k
  | .read row b => onRow row (scatterRead s t c · b) (combineRead s t c · b)
  | .write row b => onRow row (scatterWrite s t c · b) (combineWrite s t c · b)
  | .riser row => onRow row (scatterRiser s t c) fun _ => s
  | .result off => resultStep s t c off

/-- LADLE_ENGINE_STEP: a step of the command at the head of the queue, or of a RESET (R184, R223, R226, R228, R229). -/
def execLadleEngineStep (tile : Nat) (turn : LadleTurn) (s : State) : Outcome :=
  onTile s tile <|
    match (s.tile tile).ladle.queue.find? (·.serial == turn.serial) with
    | none => .next s
    | some c => .next (if c.started ∧ c.bad.isNone then ladleStep s tile c turn.step else s)

/-! ### Completion and RESET (R195, R223, R227) -/

/-- Every step of the command is performed. -/
def LadleCmd.moved_all (c : LadleCmd) : Bool :=
  match wLop c.w0 with
  | 0 => c.finished && c.todo.isEmpty
  | 1 => (c.table.map fun l => l.zipIdx.all fun p => !recValid p.1 || memNat p.2 c.stepped).getD false
  | 2 => !c.desc.isEmpty && (upTo (dscNtok c.desc)).all fun t => memNat t c.moved
  | _ => false
/-- Nothing of the command is at another module. -/
def LadleCmd.allBack (c : LadleCmd) : Bool := c.out.isEmpty && c.rows.all fun r => r.outstanding.isEmpty

/-- The end of a command that has succeeded: its effect f if any is left, COUNT + 1 at the completion riser, and the queue
entry is free. -/
def State.endLadle (s : State) (t : Nat) (c : LadleCmd) (f : State → State) : State :=
  if hasDone { w0 := c.w0 } then
    s.ladleEnd t c (wCriser c.w0) fun s =>
      ((f s).riserAdvance t (wCriser c.w0) 1 (ladleWriter s t 8)).dropLadle t c.serial
  else (f s).dropLadle t c.serial

/-- LADLE_COMPLETION_STEP: the command at the head ends, or has failed (R223, R230). -/
def execLadleCompletionStep (tile : Nat) (s : State) : Outcome :=
  onTile s tile <|
    match (s.tile tile).ladle.queue with
    | [] => .next s
    | c :: _ =>
      if !c.started ∨ !c.allBack then .next s
      else
        match c.bad with
        | some reason => .next (s.failLadle tile c reason)
        | none => .next (if c.moved_all then s.endLadle tile c id else s)

/-- A PLAN of the rectangle that has started and has not read its choices yet: its descriptor as read, or as it stands. -/
def LadleCmd.beginsPlan (c : LadleCmd) (s : State) (t : Nat) (d : List Dword) : Bool :=
  c.started && wLop c.w0 == 0 && !c.joined && !c.finished && c.bad.isNone
    && (match (if c.desc.isEmpty then readDesc s t (wDesc c.w1) else .ok c.desc) with
      | .ok e => dscValid s t e && dscRect e == dscRect d
      | .error _ => false)
/-- A member whose PLAN at the head of its queue has started. -/
def planBegun (s : State) (d : List Dword) (t : Nat) : Bool := (s.tile t).ladle.queue.head?.any (·.beginsPlan s t d)

/-- A RESET at one member: its PLAN that waits in a round of the rectangle, or that has started to join one, fails; or, if
it has not joined the round in progress, its next one will; its round count is 0. A PLAN that has its result goes on (log
76). -/
def resetMember (s : State) (pid : Nat) (d : List Dword) (open_ : Bool) (t : Nat) : State :=
  let joined (r : Round) : Bool := r.pid == pid && r.rect == dscRect d && r.members.any (·.tile == t)
  let waits := s.rounds.any fun r => joined r && !memNat t r.taken
  let begun := planBegun s d t
  s.modLadle t fun l =>
    { l with
      rounds := 0
      abortNext := l.abortNext || (open_ && !s.rounds.any joined && !begun)
      queue := match l.queue with
        | c :: r => (if (waits ∧ c.joined ∧ !c.finished) ∨ begun then c.fails 6 else c) :: r
        | [] => [] }

/-- A RESET takes effect (R227). -/
def State.resetRounds (s : State) (t : Nat) (d : List Dword) : State :=
  let pid := (s.tile t).core.pid
  let isRound (r : Round) : Bool := r.pid == pid && r.rect == dscRect d
  let waiting := s.rounds.any isRound || (dscMembers s t d).any (planBegun s d)
  let s := ((dscMembers s t d).filter s.inFrame).foldl (fun s t => resetMember s pid d waiting t) s
  { s with rounds := s.rounds.filter fun r => !isRound r }

/-- LADLE_RESET: it starts as soon as its gate is reached, wherever it stands in the queue, and takes effect once it has
read its descriptor (R223, R227). -/
def execLadleReset (tile serial : Nat) (s : State) : Outcome :=
  onTile s tile <|
    match (s.tile tile).ladle.queue.find? (·.serial == serial) with
    | none => .next s
    | some c =>
      if wLop c.w0 ≠ 3 ∨ c.gate = 0 ∨ ((s.tile tile).sealed ∧ !c.started) then .next s
      else if !c.started then
        .next (s.setLadle tile { c with started := true, bad := if c.gate = 2 then some 8 else none })
      else
        match c.bad with
        | some reason => .next (s.failLadle tile c reason)
        | none => .next (if c.desc.isEmpty then s else s.endLadle tile c (·.resetRounds tile c.desc))

end Sys2Proof.Machine
end

