-- ==== Sys2Proof/Machine/MatrixOps.lean ====
section
/-!
DEFINITION. The matrix instructions: the checks of operand descriptors, entering the matrix queue, gates, bursts,
and the two instructions that wait for entries to leave it (R231-R247).
-/
namespace Sys2Proof.Machine

/-! ### Operand descriptors (R232-R235) -/

def dBase (d0 : Dword) : Nat := bits d0 0 19
def dPitch (d1 : Dword) : Nat := bits d1 0 16
def dSoff (d1 : Dword) : Nat := bits d1 16 16
def dRot (d1 : Dword) : Nat := bits d1 32 3

/-- Rot(code, i) of R233. -/
def rotBank (code i : Nat) : Nat :=
  match code with
  | 0 => 0
  | 1 => i % 8
  | 2 => 2 * i % 8
  | _ => 4 * i % 8
/-- LineByte(d, i, k): bits [6:4] are rotated within the aligned 128-byte block (R233). -/
def lineByte (d0 d1 : Dword) (i k : Nat) : Nat :=
  let a := dBase d0 + 16 * dPitch d1 * i + k
  a / 128 * 128 + (a / 16 % 8 ^^^ rotBank (dRot d1) i) * 16 + a % 16
/-- ScaleByte(d, i) (R233). -/
def scaleByte (d0 d1 : Dword) (i : Nat) : Nat := lineByte d0 d1 i (dSoff d1)

/-- The checks of R234 on one descriptor: the word that fails, if one does. -/
def badDesc (d0 d1 : Dword) (len align : Nat) (scales : Bool) : Option Dword :=
  if bits d1 35 29 ≠ 0 ∨ 3 < dRot d1 then some d1
  else if bits d0 19 45 ≠ 0 then some d0
  else if dBase d0 % align ≠ 0 then some d0
  else if 0x80000 < dBase d0 + 112 * dPitch d1 + len then some d0
  else if scales ∧ 0x7FFFF < dBase d0 + 112 * dPitch d1 + dSoff d1 then some d0
  else none

/-- x[2p] and x[2p + 1], D0 and D1 of a descriptor (R232). -/
def State.desc (s : State) (p : Pair) : Dword × Dword := (s.rx (p ++ 0b0#1), s.rx (p ++ 0b1#1))

/-! ### The queue (R237) -/

/-- An entry that may enter its gate stage does so: with no entry ahead in that stage or before it. A gated entry
evaluates its word at once; an ungated one leaves the stage at once (R237, R242). -/
def enterGates (s : State) (t : Nat) : List MEntry → Bool → List MEntry
  | [], _ => []
  | e :: r, blocked =>
    match e.stage with
    | .waiting =>
      if blocked then e :: enterGates s t r true
      else if e.gated then
        { e with stage := .gate, evals := [s.readD (tileKey t e.gateOff)], gateTs := s.tsc } :: enterGates s t r true
      else { e with stage := .fetch } :: enterGates s t r false
    | .gate => e :: enterGates s t r true
    | _ => e :: enterGates s t r blocked

def State.modMatrix (s : State) (t : Nat) (f : Matrix → Matrix) : State :=
  s.modTile t fun x => { x with matrix := f x.matrix }
/-- The queue after a change at any of its stages. -/
def State.settleQueue (s : State) (t : Nat) : State :=
  s.modMatrix t fun m => { m with queue := enterGates s t m.queue false }

/-- A queued operation enters the queue with all it captures, or its thread waits for an entry to free (R237). -/
def enqueueMatrix (op : MOp) (acc : Acc) (a b : Dword × Dword) (after : State → State) (s : State) : Outcome :=
  if 8 ≤ s.here.matrix.queue.length then .next (s.block .queue .matrix)
  else
    let h := s.me
    let e : MEntry :=
      { serial := s.nextId, op := op, acc := acc.toNat, d0 := a.1, d1 := a.2, e0 := b.1, e1 := b.2
        gated := bitAt h.jmgate 63, gateOff := bits h.jmgate 3 16 * 8, gateTgt := bits h.jmgatev 0 40
        jmcfg := h.jmcfg, seed := h.jsrseed }
    let s := { s with nextId := s.nextId + 1 }.modMatrix s.cur.tile fun m => { m with queue := m.queue ++ [e] }
    .next (after (s.settleQueue s.cur.tile)).retire

/-- An MMA: both descriptors are checked, A first, with cause 5 (R234, R235). -/
def mma (op : MOp) (cap : Nat) (scales : Bool) (acc : Acc) (pa pb : Pair) (s : State) : Outcome :=
  needCap cap s fun s =>
    let a := s.desc pa
    let b := s.desc pb
    match badDesc a.1 a.2 32 16 scales with
    | some w => .next (s.trap 5 w)
    | none =>
      match badDesc b.1 b.2 32 16 scales with
      | some w => .next (s.trap 5 w)
      | none => enqueueMatrix op acc a b id s

/-- MMA.E4E4 (R241). -/
def execMmaE4e4 (acc : Acc) (a b : Pair) (s : State) : Outcome := mma (.mma .e4m3 .e4m3) 5 true acc a b s
/-- MMA.E4E5 (R241). -/
def execMmaE4e5 (acc : Acc) (a b : Pair) (s : State) : Outcome := mma (.mma .e4m3 .e5m2) 6 true acc a b s
/-- MMA.E5E4 (R241). -/
def execMmaE5e4 (acc : Acc) (a b : Pair) (s : State) : Outcome := mma (.mma .e5m2 .e4m3) 7 true acc a b s
/-- MMA.E5E5 (R241). -/
def execMmaE5e5 (acc : Acc) (a b : Pair) (s : State) : Outcome := mma (.mma .e5m2 .e5m2) 8 true acc a b s
/-- MMA.BF (R241). -/
def execMmaBf (acc : Acc) (a b : Pair) (s : State) : Outcome := mma .mmaBf 9 false acc a b s

/-- MZERO (R240). -/
def execMzero (acc : Acc) (s : State) : Outcome := enqueueMatrix .mzero acc (0, 0) (0, 0) id s

/-- MLD (R234, R240). -/
def execMld (acc : Acc) (p : Pair) (s : State) : Outcome :=
  let d := s.desc p
  match badDesc d.1 d.2 32 16 false with
  | some w => .next (s.trap 5 w)
  | none => enqueueMatrix .mld acc d (0, 0) id s

/-- An MST: its descriptor is checked with cause 7 (R234). -/
def mst (op : MOp) (len align : Nat) (scales : Bool) (acc : Acc) (p : Pair) (after : State → State) (s : State) :
    Outcome :=
  let d := s.desc p
  match badDesc d.1 d.2 len align scales with
  | some w => .next (s.trap 7 w)
  | none => enqueueMatrix op acc d (0, 0) after s

/-- n steps of the generator (R86). -/
def seedSteps : Nat → Dword → Dword
  | 0, v => v
  | n + 1, v => seedSteps n (zext (stepSR (low32 v)))
/-- The thread's generator advanced (R87). -/
def State.advanceSeed (s : State) (n : Nat) : State := s.modMe fun h => { h with jsrseed := seedSteps n h.jsrseed }

/-- MST to FP32 (R240). -/
def execMstF32 (acc : Acc) (p : Pair) (s : State) : Outcome := mst .mstF32 32 16 false acc p id s

/-- MST to BF16: with SRBF = 1 it needs SROUND, and the thread's generator takes the 64 steps at issue (R87, R240). -/
def execMstBf (acc : Acc) (p : Pair) (s : State) : Outcome :=
  if bitAt s.me.jmcfg 1 then
    needCap 11 s fun s => mst .mstBf 16 16 false acc p (·.advanceSeed 64) s
  else mst .mstBf 16 16 false acc p id s

/-- MST to E4M3 (R240). -/
def execMstE4m3 (acc : Acc) (p : Pair) (s : State) : Outcome :=
  needCap 10 s fun s => mst (.mstFp8 .e4m3) 8 8 true acc p id s
/-- MST to E5M2 (R240). -/
def execMstE5m2 (acc : Acc) (p : Pair) (s : State) : Outcome :=
  needCap 10 s fun s => mst (.mstFp8 .e5m2) 8 8 true acc p id s

/-- MGATE: with an rs1 field of 0 it only clears EN (R242). -/
def execMgate (rs1 rs2 : Reg) (s : State) : Outcome :=
  let a := s.rx rs1
  let t := s.rx rs2
  if rs1 = 0 then .next (s.modMe fun h => { h with jmgate := putBits h.jmgate 63 1 0 }).retire
  else
    match locate s s.me.mode a with
    | some (.own off) =>
      if off % 8 ≠ 0 then .next (s.trap 4 a)
      else
        .next (s.modMe fun h =>
          { h with jmgate := nd (field 63 1 1 + off), jmgatev := nd (bits t 0 40) }).retire
    | _ => .next (s.trap 5 a)

/-- MBURST: the last one issued decides, and its run of gap cycles begins with it (R246, log 95). -/
def execMburst (rs1 : Reg) (s : State) : Outcome :=
  let n := bits (s.rx rs1) 0 16
  let c := s.here.cycle
  .next (s.modMatrix s.cur.tile fun m =>
    let m := { m with burst := n, gaps := 0 }
    if n ≠ 0 ∧ m.power = .idle then { m with power := .rampUp, since := c + 1 } else m).retire

/-- Holds the thread in UNIT until the entries that were queued when the instruction first issued, and that p picks,
have left the queue (R244, R245). -/
def awaitQueue (p : MEntry → Bool) (s : State) (k : State → Outcome) : Outcome :=
  let q := s.here.matrix.queue
  let want :=
    match s.me.awaits with
    | some l => l
    | none => (q.filter p).map (·.serial)
  if q.any (fun e => want.any (· == e.serial)) then
    .next ((s.modMe fun h => { h with awaits := some want }).block .unit .matrix)
  else k (s.modMe fun h => { h with awaits := none })

/-- MFENCE (R245). -/
def execMfence (s : State) : Outcome := awaitQueue (fun _ => true) s fun s => .next s.retire

/-- The result is written at once and may be read n cycles after the present one (R251). -/
def Thread.wvIn (h : Thread) (vd : VReg) (v : Vec) (cycle n : Nat) : Thread :=
  { h.wv vd v with vlat := (vd, cycle + n) :: h.vlat.filter fun p => p.1 ≠ vd ∧ cycle < p.2 }
def State.wvLate (s : State) (vd : VReg) (v : Vec) (n : Nat) : State := s.modMe (·.wvIn vd v s.here.cycle n)

/-- Row r of an accumulator as eight FP32 elements (R244, R248). -/
def AccReg.row (a : AccReg) (r : Nat) : Vec :=
  BitVec.ofNat 256 ((upTo 8).foldl (fun n j => n + (a.el.toList.getD (8 * r + j) 0).toNat * 2 ^ (32 * j)) 0)

/-- MROWV: a poisoned accumulator raises cause 26 precisely (R244). -/
def execMrowv (vd : VReg) (acc : Acc) (row : BitVec 3) (s : State) : Outcome :=
  awaitQueue (fun e => e.acc == acc.toNat) s fun s =>
    let a := s.here.matrix.accs[acc.toNat]'acc.isLt
    if bitAt a.mark 23 then
      .next (s.trap 26 (nd (field 12 20 (bits a.mark 0 20) + field 8 3 (bits a.mark 20 3) + acc.toNat)))
    else .next (s.wvLate vd (a.row row.toNat) 2).retire

end Sys2Proof.Machine
end

