-- ==== Sys2Proof/Machine/MatrixUnit.lean ====
section
/-!
DEFINITION. The matrix unit at work (R196, R231-R247): gates, fetches and computes of queued operations, and the power
states of the array.
-/
namespace Sys2Proof.Machine

/-! ### The bytes an operation reads (R233, R235) -/

/-- Addresses of a tile's eight lines of len bytes. -/
def lineBytes (d0 d1 : Dword) (len : Nat) : List Nat :=
  (upTo 8).flatMap fun i => (upTo len).map fun k => lineByte d0 d1 i k
def scaleBytes (d0 d1 : Dword) : List Nat := (upTo 8).map fun i => scaleByte d0 d1 i

/-- The addresses of an operand: A or the only one, then B. -/
def MEntry.operand (e : MEntry) (second : Bool) : List Nat :=
  match e.op, second with
  | .mld, false => lineBytes e.d0 e.d1 32
  | .mma _ _, false => lineBytes e.d0 e.d1 32 ++ scaleBytes e.d0 e.d1
  | .mma _ _, true => lineBytes e.e0 e.e1 32 ++ scaleBytes e.e0 e.e1
  | .mmaBf, false => lineBytes e.d0 e.d1 32
  | .mmaBf, true => lineBytes e.e0 e.e1 32
  | _, _ => []

/-- B's blocks and bytes are numbered after all of A's. -/
def bBlock : Nat := 8192
def bByte : Nat := 0x80000

def dedup : List Nat → List Nat
  | [] => []
  | a :: r => if memNat a r then dedup r else a :: dedup r

/-- The 64-byte blocks of an operand. -/
def MEntry.blocksOf (e : MEntry) (second : Bool) : List Nat := dedup ((e.operand second).map (· / 64))
/-- Blocks of A still to be fetched, else of B: the fetches follow one another (R238). -/
def MEntry.toFetch (e : MEntry) : List Nat :=
  match (e.blocksOf false).filter fun b => !memNat b e.blocks with
  | [] => ((e.blocksOf true).map (bBlock + ·)).filter fun b => !memNat b e.blocks
  | l => l

def MEntry.isMma (e : MEntry) : Bool :=
  match e.op with
  | .mma .. | .mmaBf => true
  | _ => false
def MEntry.isMst (e : MEntry) : Bool :=
  match e.op with
  | .mstF32 | .mstBf | .mstFp8 _ => true
  | _ => false
/-- The entry has passed its gate and holds every byte it reads. -/
def MEntry.fetchedAll (e : MEntry) : Bool := e.stage == .fetch && e.toFetch.isEmpty

/-! ### Leaving the queue -/

/-- Threads that wait for the queue issue again. -/
def Tile.wakeMatrix (x : Tile) : Tile :=
  x.mapTh fun h => if h.need = .matrix then { h with st := .ready, need := .none } else h

/-- An entry leaves the queue (R237). -/
def State.dropEntry (s : State) (t serial : Nat) : State :=
  ((s.modMatrix t fun m => { m with queue := m.queue.filter (·.serial != serial) }).settleQueue t).modTile t (·.wakeMatrix)

def State.setEntry (s : State) (t : Nat) (e : MEntry) : State :=
  s.modMatrix t fun m => { m with queue := m.queue.map fun f => if f.serial = e.serial then e else f }

def accIx (n : Nat) : Fin 8 := ⟨n % 8, Nat.mod_lt n (by decide)⟩
def State.acc (s : State) (t n : Nat) : AccReg := (s.tile t).matrix.accs[accIx n]
def State.setAcc (s : State) (t n : Nat) (a : AccReg) : State :=
  s.modMatrix t fun m => { m with accs := m.accs.set (accIx n) a }
/-- A poison mark (R236). -/
def accMark (cls src : Nat) : Word := BitVec.ofNat 32 (field 23 1 1 + field 20 3 cls + field 0 20 src)

/-! ### Gate (R242, R243) -/

/-- MATRIX_GATE_EVALUATE: the oldest evaluation of the entry in its gate stage. -/
def execMatrixGateEvaluate (tile : Nat) (s : State) : Outcome :=
  onTile s tile <|
    match (s.tile tile).matrix.queue.find? (·.stage == .gate) with
    | none => .next s
    | some e =>
      match e.evals with
      | [] => .next s
      | w :: rest =>
        if riserBad w then
          .next ((s.setAcc tile e.acc { s.acc tile e.acc with mark := accMark (riserClass w) (riserSrc w) }).dropEntry tile e.serial)
        else if e.gateTgt ≤ riserCount w then .next ((s.setEntry tile { e with stage := .fetch, evals := [] }).settleQueue tile)
        else .next (s.setEntry tile { e with evals := rest })

/-! ### Fetch (R237, R238) -/

/-- The first entry that has not fetched everything, if every scratchpad step ahead of it is performed. -/
def fetching : List MEntry → Option MEntry
  | [] => none
  | e :: r => if e.isMst ∨ e.stage ≠ .fetch then none else if e.toFetch.isEmpty then fetching r else some e

/-- One block's bytes as they stand, and whether a word of them is uncorrectable. -/
def MEntry.takeBlock (e : MEntry) (s : State) (t blk : Nat) : MEntry :=
  let second := bBlock ≤ blk
  let base := if second then bByte else 0
  let as := dedup ((e.operand second).filter fun a => a / 64 == blk % bBlock)
  { e with
    blocks := blk :: e.blocks
    fetched := e.fetched ++ as.map fun a => (base + a, s.byte (tileKey t a))
    bad := e.bad || as.any fun a => s.marked (tileKey t a) }

/-- MATRIX_FETCH: one aligned 64-byte block of an operand (R184, R237). -/
def execMatrixFetch (tile blk : Nat) (s : State) : Outcome :=
  onTile s tile <|
    match fetching (s.tile tile).matrix.queue with
    | none => .next s
    | some e => if memNat blk e.toFetch then .next (s.setEntry tile (e.takeBlock s tile blk)) else .next s

/-! ### Compute (R240, R241) -/

/-- A fetched value of n bytes of operand A or B at a list of addresses. -/
def MEntry.val (e : MEntry) (second : Bool) (as : List Nat) : Nat :=
  leVal (as.map fun a => Assoc.get 0 (e.fetched.map fun p => (p.1, p.2)) ((if second then bByte else 0) + a))

/-- Elements of line i of an operand, of size bytes each. -/
def MEntry.line (e : MEntry) (second : Bool) (i size : Nat) : List Nat :=
  let d := if second then (e.e0, e.e1) else (e.d0, e.d1)
  (upTo (32 / size)).map fun k => e.val second ((upTo size).map fun b => lineByte d.1 d.2 i (size * k + b))
def MEntry.scale (e : MEntry) (second : Bool) (i : Nat) : Nat :=
  let d := if second then (e.e0, e.e1) else (e.d0, e.d1)
  e.val second [scaleByte d.1 d.2 i]

/-- acc(i, j) after an MMA. -/
def MEntry.product (e : MEntry) (acc i j : Nat) : Nat :=
  match e.op with
  | .mma fa fb =>
    mmaMX acc (fp8Fmt fa) (e.line false i 1) (e.scale false i) (fp8Fmt fb) (e.line true j 1) (e.scale true j)
  | _ => mmaBF acc (e.line false i 2) (e.line true j 2)

def headEntry (s : State) (t : Nat) : Option MEntry := (s.tile t).matrix.queue.head?

/-- The matrix and vector units may begin compute in this cycle: in k of every 16 when the island is throttled (R326). -/
def Tile.mayCompute (x : Tile) (throttle : Nat) : Bool := decide (x.cycle % 16 < throttle)
def State.mayCompute (s : State) (t : Nat) : Bool := (s.tile t).mayCompute (s.island (islandOf t)).throttle

/-- MZERO_COMPUTE (R240). -/
def execMzeroCompute (tile : Nat) (s : State) : Outcome :=
  onTile s tile <|
    match headEntry s tile with
    | some e =>
      if e.op = .mzero ∧ e.fetchedAll ∧ s.mayCompute tile then
        .next ((s.setAcc tile e.acc {}).dropEntry tile e.serial)
      else .next s
    | none => .next s

/-- MLD_COMPUTE (R240). -/
def execMldCompute (tile : Nat) (s : State) : Outcome :=
  onTile s tile <|
    match headEntry s tile with
    | some e =>
      if e.op = .mld ∧ e.fetchedAll ∧ s.mayCompute tile then
        let el := Vector.ofFn fun n : Fin 64 => BitVec.ofNat 32 ((e.line false (n.val / 8) 4).getD (n.val % 8) 0)
        .next ((s.setAcc tile e.acc
          { el := el, mark := if e.bad then accMark 2 (s.tile tile).lidx else 0 }).dropEntry tile e.serial)
      else .next s
    | none => .next s

/-- MMA_COMPUTE: at the end of its 16 cycles; an existing mark is kept (R238, R241). -/
def execMmaCompute (tile : Nat) (s : State) : Outcome :=
  onTile s tile <|
    match headEntry s tile with
    | some e =>
      match e.began with
      | none => .next s
      | some c =>
        if e.isMma ∧ c + 16 ≤ (s.tile tile).cycle + 1 then
          let a := s.acc tile e.acc
          let el := Vector.ofFn fun n : Fin 64 => BitVec.ofNat 32 (e.product a.el[n].toNat (n.val / 8) (n.val % 8))
          .next ((s.setAcc tile e.acc
            { el := el, mark := if e.bad ∧ !bitAt a.mark 23 then accMark 2 (s.tile tile).lidx else a.mark }).dropEntry tile e.serial)
        else .next s
    | none => .next s

/-! ### MST (R240) -/

/-- The bytes of a tile's lines, line by line, of element encodings of size bytes. -/
def storeLines (e : MEntry) (size : Nat) (el : List Nat) : List (List (Nat × Byte)) :=
  (upTo 8).map fun i => (upTo 8).flatMap fun j =>
    (leBytes size (el.getD (8 * i + j) 0)).zipIdx.map fun p => (lineByte e.d0 e.d1 i (size * j + p.2), p.1)

/-- What an MST writes, in its order: the lines, then the scale bytes. -/
def MEntry.stores (e : MEntry) (a : AccReg) : List (List (Nat × Byte)) :=
  let v := a.el.toList.map (·.toNat)
  match e.op with
  | .mstF32 => storeLines e 4 v
  | .mstBf =>
    storeLines e 2 (if bitAt e.jmcfg 1 then (roundSRs v (BitVec.ofNat 32 (bits e.seed 0 32))).1
      else v.map fun x => bf16.convert false (fp32.read x))
  | .mstFp8 f =>
    let pack (b : Nat) : Nat × List Nat := packMX (((v.drop (32 * b)).take 32).map fp32.read) f (bitAt e.jmcfg 0)
    storeLines e 1 ((pack 0).2 ++ (pack 1).2)
      ++ (upTo 2).map fun b => [(scaleByte e.d0 e.d1 (4 * b), BitVec.ofNat 8 (pack b).1)]
  | _ => []

/-- Bytes by the 64-byte blocks they lie in, in ascending order. -/
def byBlock (l : List (Nat × Byte)) : List (List (Nat × Byte)) :=
  ((l.map (·.1 / 64)).foldl (fun b k => insertNat k b) []).map fun k => l.filter fun p => p.1 / 64 == k
/-- Parts that follow one another in one block are one step (R184). -/
def joinSteps : List (List (Nat × Byte)) → List (List (Nat × Byte))
  | [] => []
  | l :: r =>
    match joinSteps r with
    | m :: rest => if l.head?.map (·.1 / 64) = m.head?.map (·.1 / 64) then (l ++ m) :: rest else l :: m :: rest
    | [] => [l]
/-- The write steps of an MST, in their order (R184, R240). -/
def MEntry.steps (e : MEntry) (a : AccReg) : List (List (Nat × Byte)) := joinSteps ((e.stores a).flatMap byBlock)

/-- The last byte written to each address. -/
def lastBytes (l : List (Nat × Byte)) : List (Nat × Byte) := l.foldl (fun m p => Assoc.put p.1 p.2 m) []

/-- Bytes at rising addresses as runs. -/
def runsOf : List (Nat × Byte) → List (Nat × List Byte)
  | [] => []
  | (a, b) :: r =>
    match runsOf r with
    | (c, bs) :: rest => if c = a + 1 then (a, b :: bs) :: rest else (a, [b]) :: (c, bs) :: rest
    | [] => [(a, [b])]

/-- Bits of a mask of bytes are marked uncorrectable: the words any byte of which was written. -/
def State.markBytes (s : State) (t : Nat) (l : List (Nat × Byte)) : State :=
  l.foldl (fun s p => s.markWord (tileKey t p.1)) s

/-- The matrix unit as the writer of n bytes. -/
def matrixWriter (s : State) (t n : Nat) : Writer :=
  let x := s.tile t
  { kind := 9, org := { party := .matrix, tile := t, lidx := x.lidx, pid := x.core.pid }, logged := true, lsize := Nat.log2 n }

/-- MST_COMPUTE, for the entry at the queue's head: its compute begins, which takes the accumulator as it stands; then a
step of it, of one block of the destination, in the order of its lines, the scale bytes last (R184, R196, R240). -/
def execMstCompute (tile serial : Nat) (s : State) : Outcome :=
  onTile s tile <|
    match (headEntry s tile).filter (·.serial == serial) with
    | none => .next s
    | some e =>
      match e.out with
      | none =>
        if e.isMst ∧ e.stage = .fetch ∧ s.mayCompute tile then
          let a := s.acc tile e.acc
          .next (s.setEntry tile { e with out := some (e.steps a, bitAt a.mark 23) })
        else .next s
      | some ([], _) => .next (s.dropEntry tile e.serial)
      | some (l :: rest, mark) =>
        let mine := lastBytes l
        let off := (mine.head?.map (·.1)).getD 0
        let w := matrixWriter s tile mine.length
        .next (s.atPort s tile (.matrixStep tile e.serial rest.length) w
            ((runsOf mine).map fun r => (r.1, r.2.length)) fun s =>
          let s := s.stepWrite tile (runsOf mine) w off
          let s := if mark then s.markBytes tile mine else s
          if rest.isEmpty then s.dropEntry tile e.serial else s.setEntry tile { e with out := some (rest, mark) })

/-! ### Power states (R246) -/

/-- An MMA is ready to compute: at the head, fetched, not begun. -/
def Matrix.mmaReady (m : Matrix) : Bool :=
  match m.queue.head? with
  | some e => e.isMma && e.fetchedAll && e.began.isNone
  | none => false
/-- An MMA is computing, or has begun its fetch stage and not its compute. -/
def Matrix.busy (m : Matrix) : Bool := m.queue.any fun e => e.isMma && (e.began.isSome || !e.blocks.isEmpty)

/-- One cycle of the array, after the cycle count has advanced; in a cycle that a throttled island withholds no MMA begins
(R246, R326). -/
def Matrix.cycle (m : Matrix) (now : Nat) (may : Bool) : Matrix :=
  match m.power with
  | .idle => if m.mmaReady then { m with power := .rampUp, since := now } else m
  | .rampUp => m
  | .rampDown => if m.mmaReady then { m with power := .active, since := now, gaps := 0 } else m
  | .active =>
    if m.mmaReady ∧ may then
      { m with
        burst := m.burst - 1
        gaps := 0
        queue := match m.queue with
          | e :: r => { e with began := some now } :: r
          | [] => [] }
    else if m.busy then { m with gaps := 0 }
    else if m.burst = 0 then { m with power := .rampDown, since := now, gaps := 0 }
    else { m with gaps := m.gaps + 1 }

/-- MATRIX_RAMP_UP_DONE: after the 24th filler cycle. -/
def execMatrixRampUpDone (tile : Nat) (s : State) : Outcome :=
  onTile s tile <|
    let x := s.tile tile
    if x.matrix.power = .rampUp ∧ x.matrix.since + 24 ≤ x.cycle + 1 then
      .next (s.modMatrix tile fun m => { m with power := .active, since := x.cycle, gaps := 0 })
    else .next s

/-- MATRIX_RAMP_DOWN_DONE. -/
def execMatrixRampDownDone (tile : Nat) (s : State) : Outcome :=
  onTile s tile <|
    let x := s.tile tile
    if x.matrix.power = .rampDown ∧ x.matrix.since + 24 ≤ x.cycle + 1 ∧ !x.matrix.mmaReady then
      .next (s.modMatrix tile fun m => { m with power := .idle, since := x.cycle })
    else .next s

/-- BURST_GAP_EXPIRY: after 4,096 gap cycles in a row the declaration ends. -/
def execBurstGapExpiry (tile : Nat) (s : State) : Outcome :=
  onTile s tile <|
    if 4096 ≤ (s.tile tile).matrix.gaps then .next (s.modMatrix tile fun m => { m with burst := 0, gaps := 0 }) else .next s

end Sys2Proof.Machine
end

