-- ==== Sys2Proof/Machine/Partition.lean ====
section
/-!
DEFINITION. Partitions as firmware opens and closes them (R58, R60-R66, R99, R115, R116, R222, R273, R292, R336): the
region control block, the kernel image, the partition registers, and the drain of a close.
-/
namespace Sys2Proof.Machine

/-! ### Requests of the mailbox (R291, R292, R320, R322, R333) -/

/-- The states in which firmware serves an operation; in any other it answers 13. -/
def State.opAllowed (s : State) (op : Nat) : Bool :=
  if s.strap then op == 7 || op == 8
  else if s.cryo.st = .warmService then op == 7 || op == 8 || op == 9
  else if op = 1 ∨ op = 4 then s.cryo.st == .coldReady
  else true

/-- The events that a request raises at the core whose firmware serves it: MAILBOX, and COMMAND for CLOSE, SUSPEND and
RESUME (R267, log 39). -/
def State.called (s : State) (pkg op : Nat) : State :=
  if s.fwResident then s.event (cornerTile pkg) (if 2 ≤ op ∧ op ≤ 4 then 0x18 else 0x10) else s

/-- A request to the mailbox of a package: answered 11 for its arguments, 13 for the state, or served. With no firmware
running nothing serves it. -/
def mailbox (s : State) (pkg op seq : Nat) (bad : Bool) (k : State → State) : Outcome :=
  .next (if s.bootRom ∨ s.cryo.st = .warmOff then s
    else s.submit pkg op seq fun s =>
      let s := s.called pkg op
      if bad then s.respond pkg 11 0 else if !s.opAllowed op then s.respond pkg 13 0 else k s)

/-- An RCB address as the mailbox takes it (R60). -/
def badRcb (s : State) (a : Dword) : Bool := a.toNat % 256 != 0 || decide (s.hbmEnd < a.toNat + 256)
def State.partAt (s : State) (a : Dword) : Option Part := s.parts.find? (·.rcb == a.toNat)
/-- Answers the package whose request about a partition is still in service. -/
def State.served (s : State) (pid result : Nat) : State :=
  (upTo s.packages).foldl
    (fun s p => if (s.pack p).mail.serving = some pid then s.respond p result 0 else s) s

/-! ### The region control block (R60, R61) -/

/-- n words of HBM by rising physical address. -/
def State.paWords (s : State) (pa n : Nat) : List Dword := (upTo n).map fun k => s.paRead (pa + 8 * k)
def State.paBytes (s : State) (pa n : Nat) : List Byte := (upTo n).map fun k => s.byte (s.paKey (pa + k))
def State.paWriteBytes (s : State) (pa : Nat) : List Byte → State
  | [] => s
  | b :: r => (s.writeB (s.paKey pa) [b]).paWriteBytes (pa + 1) r

def rcbInherit (w : List Dword) : Nat := bits (descWord w 12) 0 10
def rcbState (w : List Dword) : Nat := bits (descWord w 0) 0 4
def rcbExports (w : List Dword) : Bool := bitAt (descWord w 3) 8

/-- The fields as written. -/
def rcbPart (a : Nat) (w : List Dword) : Part :=
  let v := descWord w
  { rcb := a, parent := (v 2).toNat, orgY := bits (v 1) 50 10, orgX := bits (v 1) 40 10, height := bits (v 1) 11 11
    width := bits (v 1) 0 11, jobid := bits (v 0) 32 32, fdom := bits (v 3) 48 16, gslots := bits (v 3) 12 3
    prio := bits (v 3) 0 2, power := bits (v 4) 0 32, caps := bits (v 5) 0 18, ptroot := (v 6).toNat
    asid := bits (v 7) 0 16, save := (v 8).toNat, stallto := bits (v 9) 0 32, hostlat := bits (v 10) 0 32
    report := (v 11).toNat, image := (v 13).toNat }

/-- Bytes of a save area (R280). -/
def saveSize (h w : Nat) : Nat := 0x1000 + h * w * 0x94000

/-- An area of HBM: aligned, and inside it whole. -/
def areaOk (s : State) (a len align : Nat) : Bool := a % align == 0 && decide (a + len ≤ s.hbmEnd)

/-- Reserved fields are zero and every field is in its range. -/
def rcbOk (s : State) (w : List Dword) : Bool :=
  let v := descWord w
  let q := rcbPart 0 w
  bits (v 0) 4 28 == 0 && decide (rcbState w ≤ 4) && bits (v 1) 60 4 == 0 && bits (v 1) 22 18 == 0
    && decide (1 ≤ q.height ∧ q.height ≤ 1024 ∧ 1 ≤ q.width ∧ q.width ≤ 1024) && areaOk s q.parent 256 256
    && bits (v 3) 15 33 == 0 && decide (q.gslots ≤ 6) && bits (v 3) 9 3 == 0 && bits (v 3) 2 6 == 0
    && bits (v 4) 32 32 == 0 && bits (v 5) 18 46 == 0 && areaOk s q.ptroot 2048 2048 && bits (v 7) 16 48 == 0
    && (q.save == 0 || areaOk s q.save (saveSize q.height q.width) 4096) && bits (v 9) 32 32 == 0
    && bits (v 10) 32 32 == 0 && (q.report == 0 || areaOk s q.report 0x1040 64) && bits (v 12) 10 54 == 0
    && areaOk s q.image 256 256 && ((w.drop 14).take 10).all (· == 0)
    && (q.parent != 0 || rcbInherit w == 0)

/-- The effective fields below a parent. -/
def Part.under (q p : Part) (inherit : Nat) : Part :=
  let on (b : Nat) : Bool := inherit / 2 ^ b % 2 == 1
  { q with
    prio := if on 0 then p.prio else min q.prio p.prio
    power := if on 1 then p.power else q.power
    inheritsPower := on 1
    fdom := if on 2 then p.fdom else q.fdom
    caps := if on 3 then p.caps else q.caps ||| p.caps
    ptroot := if on 4 then p.ptroot else q.ptroot
    asid := if on 4 then p.asid else q.asid
    jobid := if on 5 then p.jobid else q.jobid
    stallto := if on 6 then p.stallto else q.stallto
    hostlat := if on 7 then p.hostlat else q.hostlat
    report := if on 8 then p.report else q.report
    image := if on 9 then p.image else q.image }

/-- STATE of an RCB, which firmware alone writes. -/
def State.rcbSet (s : State) (rcb st : Nat) : State := s.paWrite rcb (putBits (s.paRead rcb) 0 4 st)

/-- The effective fields and STATE = 1 (R336). -/
def State.rcbStore (s : State) (q : Part) : State :=
  let a := q.rcb
  let ex := b2n (bitAt (s.paRead (a + 0x18)) 8)
  (((((((((s.paWrite a (nd (field 32 32 q.jobid + 1))).paWrite (a + 0x18)
    (nd (field 48 16 q.fdom + field 12 3 q.gslots + field 8 1 ex + q.prio))).paWrite (a + 0x20) (nd q.power)).paWrite
    (a + 0x28) (nd q.caps)).paWrite (a + 0x30) (nd q.ptroot)).paWrite (a + 0x38) (nd q.asid)).paWrite (a + 0x48)
    (nd q.stallto)).paWrite (a + 0x50) (nd q.hostlat)).paWrite (a + 0x58) (nd q.report)).paWrite (a + 0x68) (nd q.image)

/-! ### The kernel image (R115, R116) -/

/-- CRC-32 of IEEE 802.3. -/
def crcBit (c : Word) : Word := if bitAt c 0 then (c >>> 1) ^^^ 0xEDB88320#32 else c >>> 1
def crcByte (c : Word) (b : Byte) : Word := (upTo 8).foldl (fun c _ => crcBit c) (c ^^^ b.zeroExtend 32)
def crc32 (bs : List Byte) : Word := ~~~(bs.foldl crcByte 0xFFFFFFFF#32)

/-- A section's size and offset. -/
def imgSection (w : List Dword) (k : Nat) : Nat × Nat := (bits (descWord w k) 32 32, bits (descWord w k) 0 32)
def imgCodeBase (w : List Dword) : Nat := bits (descWord w 4) 0 19
def imgSpadBase (w : List Dword) : Nat := bits (descWord w 4) 32 19
def imgPages (w : List Dword) : Nat := bits (descWord w 5) 32 8
def imgSlots (w : List Dword) : Nat := bits (descWord w 5) 40 3
def imgCaps (w : List Dword) : Nat := bits (descWord w 5) 0 18
def imgEntry (w : List Dword) (i : Nat) : Nat := bits (descWord w (8 + i / 2)) (32 * (i % 2)) 32
def imgCodewin (w : List Dword) : Dword := nd (field 32 8 (imgPages w) + imgCodeBase w / 4096)

/-- R116 on the 256-byte header: its words, and its CRC over the first 0xF8 bytes. -/
def imgOk (w : List Dword) (crc : Word) : Bool :=
  let v := descWord w
  let code := imgSection w 1
  let spad := imgSection w 2
  let size := (v 30).toNat
  let placed (c : Nat × Nat) : Bool :=
    c.1 % 4 == 0 && (c.1 == 0 || (c.2 % 8 == 0 && decide (256 ≤ c.2) && decide (c.2 + c.1 ≤ size)))
  let cb := imgCodeBase w
  let sb := imgSpadBase w
  let top := cb + 4096 * imgPages w
  v 0 == 0x010000014D494B4C && bits (v 31) 0 32 == crc.toNat && bits (v 4) 51 13 == 0 && bits (v 4) 19 13 == 0
    && bits (v 5) 43 21 == 0 && bits (v 5) 18 14 == 0 && bits (v 7) 4 60 == 0 && ((w.drop 16).take 14).all (· == 0)
    && bits (v 31) 32 32 == 0 && placed code && placed spad && placed (imgSection w 3) && cb % 4096 == 0
    && sb % 4096 == 0 && imgPages w != 0 && imgPages w == (code.1 + 4095) / 4096
    && decide (cb / 4096 + imgPages w ≤ 128)
    && (spad.1 == 0 || (!(decide (sb < top) && decide (cb < sb + spad.1)) && decide (sb + spad.1 ≤ 0x80000)))
    && decide (1 ≤ imgSlots w) && decide (imgSlots w ≤ 6) && decide (1 ≤ bits (v 7) 0 4) && decide (bits (v 7) 0 4 ≤ 8)
    && (upTo 8).all fun i =>
      let e := imgEntry w i
      e % 4 == 0 && (decide (bits (v 7) 0 4 ≤ i) || (decide (cb ≤ e) && decide (e < cb + code.1)))

/-! ### Partition registers (R62, R99) -/

def Part.extent (q : Part) : Dword := nd (field 50 10 q.orgY + field 40 10 q.orgX + field 11 11 q.height + field 0 11 q.width)
def Part.identity (q : Part) (hold : Bool) : Dword :=
  nd (field 48 16 q.pid + field 32 16 q.fdom + field 12 3 q.gslots + field 8 1 (b2n q.eidx.isSome) + field 4 1 (b2n hold)
    + field 0 2 q.prio)

/-- The registers that firmware loads into a core of the partition. -/
def Part.registers (q : Part) (hold : Bool) (c : CoreRegs) : CoreRegs :=
  { c with
    jmpart0 := q.extent, jmpart1 := q.identity hold, jmrcb := nd q.rcb, jmstall := stallWord q.stallto, jmdeleg := q.deleg
    jkcaps := nd q.kcaps, jmodule := q.jmodule, jcodewin := q.codewin, ptroot := q.ptroot, asid := q.asid, jobid := q.jobid }
/-- The registers of a core in no partition. -/
def CoreRegs.freed (c : CoreRegs) : CoreRegs :=
  { c with
    jmpart0 := 0, jmpart1 := 0, jmrcb := 0, jmstall := 0, jmdeleg := 0, jkcaps := 0, jmodule := 0, jcodewin := 0
    ptroot := 0, asid := 0, jobid := 0 }

/-- A partition holds its spawns off: it closes, suspends or is suspended. -/
def Part.holds (q : Part) : Bool := q.state != 1 || q.stopping.isSome

/-! ### Rectangles and trees -/

def rectTiles (s : State) (oy ox h w : Nat) : List Nat :=
  (upTo h).flatMap fun y => (upTo w).map fun x => (s.core (oy + y) (ox + x)).getD nowhere
/-- The tiles that hold a partition's registers. -/
def State.tilesOf (s : State) (q : Part) : List Nat := (s.partCores q).map (·.2.2)

/-- A partition and its descendants. -/
def familyGo (ps : List Part) : Nat → List Nat → List Nat
  | 0, l => l
  | n + 1, l =>
    familyGo ps n (l ++ ((ps.filter fun q =>
      !memNat q.pid l && q.parent != 0 && ps.any fun p => memNat p.pid l && p.rcb == q.parent).map (·.pid)))
def State.family (s : State) (pid : Nat) : List Part :=
  s.parts.filter fun q => memNat q.pid (familyGo s.parts s.parts.length [pid])

/-- The partition that a core of a rectangle given up then belongs to (R62): the deepest open one whose rectangle
contains it, or the deepest suspended one above q, whose cores it keeps (log 41). -/
def State.ownerAt (s : State) (q : Part) (t : Nat) : Option Part :=
  let y := (s.tile t).core.gy
  let x := (s.tile t).core.gx
  let holds (p : Part) : Bool :=
    p.pid != q.pid && decide (p.orgY ≤ y) && decide (y < p.orgY + p.height) && decide (p.orgX ≤ x) && decide (x < p.orgX + p.width)
  let deepest (l : List Part) : Option Part := l.find? fun p => !l.any fun c => c.parent != 0 && c.parent == p.rcb
  (deepest (s.parts.filter fun p => p.state != 2 && holds p)).or
    (deepest (s.parts.filter fun p => p.state == 2 && holds p && q.parent != 0 && (s.family p.pid).any (·.rcb == q.parent)))

/-- The cores of a partition that gives them up are handed to the partition that then holds them, or to none (R62, R66,
R281). -/
def State.handBack (s : State) (q : Part) (ts : List Nat) : State :=
  ts.foldl
    (fun s t => s.modTile t fun x =>
      { x with
        core := match s.ownerAt q t with
          | some p => p.registers p.holds x.core
          | none => x.core.freed
        partTick := s.tick }) s

def overlap (p q : Part) : Bool :=
  decide (p.orgY < q.orgY + q.height) && decide (q.orgY < p.orgY + p.height) && decide (p.orgX < q.orgX + q.width)
    && decide (q.orgX < p.orgX + p.width)
def insideOf (q p : Part) : Bool :=
  decide (p.orgY ≤ q.orgY) && decide (q.orgY + q.height ≤ p.orgY + p.height) && decide (p.orgX ≤ q.orgX)
    && decide (q.orgX + q.width ≤ p.orgX + p.width)

/-- Open children of a partition, or the open top-level partitions, other than q itself. -/
def State.siblings (s : State) (q : Part) : List Part :=
  s.parts.filter fun p => p.parent == q.parent && p.state != 2 && p.pid != q.pid

/-- The logical grid holds the rectangle (R64). -/
def gridHolds (s : State) (q : Part) : Bool := decide (q.orgY + q.height ≤ s.side) && decide (q.orgX + q.width ≤ s.cols)

/-- The budget a partition and its siblings ask for exceeds the parent's or the module's (R61, R327). -/
def overBudget (s : State) (q : Part) (parent : Option Part) : Bool :=
  let used := (s.siblings q).foldl (fun n p => if p.inheritsPower then n else n + p.power) 0
  !q.inheritsPower && decide ((parent.map (·.power)).getD s.modBudget < used + q.power)

/-- A core that an open or a resume may take (R64). -/
def Tile.idle (x : Tile) : Bool :=
  (x.threads.toList.all fun h => h.st == .empty) && x.inbox.isEmpty
    && (x.chans.toList.all fun c => c.fifo.isEmpty && c.started.isEmpty) && x.ladle.queue.isEmpty && x.matrix.queue.isEmpty

/-! ### OPEN (R64, R292, R336) -/

def State.clearSpad (s : State) (t : Nat) : State :=
  let lo := tileKey t 0
  { s with
    mem := s.mem.filter fun c => !(decide (lo ≤ c.1) && decide (c.1 < lo + 0x80000))
    marks := clearMarks s.marks lo 0x80000 }

/-- No TLB keeps a leaf of an address-space identifier that firmware gives a new translation root, nor does a page fault
found before stand; walks begin again at the new root, but for those whose core is in no partition or no longer has the
identifier, which leave their service (R287). -/
def State.dropAsid (s : State) (asid : Nat) : State :=
  let gone (w : Walk) : Bool := w.asid == asid && ((s.tile w.tile).core.asid != asid || (s.tile w.tile).core.pid == 0)
  let s := (s.walks.filter gone).foldl (·.endWalk) s
  { s with
    tiles := s.tiles.map fun p =>
      (p.1, { p.2.forgetFaults asid fun _ => true with tlb := p.2.tlb.filter (·.asid != asid) })
    dieTlb := s.dieTlb.map fun p => (p.1, p.2.filter (·.asid != asid))
    walks := s.walks.map fun w => if w.asid = asid then w.again s else w }

/-- The lowest export index that no partition holds. -/
def State.freeIndex (s : State) : Option Nat := (upTo 16).find? fun i => !(s.parts.any fun q => q.eidx == some i)

/-- The job module table that OPEN names lies in HBM whole (R292, R303). -/
def tableInside (s : State) (a jmods : Nat) : Bool := a == 0 || decide (a + 2 * (jmods + 1) ≤ s.hbmEnd)

def openArgsBad (s : State) (pkg : Nat) : Bool :=
  let a := s.arg pkg
  badRcb s (a 0) || a 1 &&& ~~~0x1B70000FF#64 != 0 || bits (a 3) 28 36 != 0 || bits (a 3) 12 4 != 0
    || decide (bits (a 3) 16 12 < bits (a 3) 0 12) || (bits (a 3) 16 12 != 0 && a 2 == 0)
    || !tableInside s (a 2).toNat (bits (a 3) 16 12)

/-- What OPEN comes to: a result, or the partition with its effective fields and the image header. -/
def openCheck (s : State) (pkg : Nat) : Except Nat (Part × List Dword) :=
  let a := (s.arg pkg 0).toNat
  let w := s.paWords a 32
  let q := rcbPart a w
  let table := (s.arg pkg 2).toNat
  let parent := s.parts.find? fun p => q.parent != 0 && p.rcb == q.parent
  if !rcbOk s w ∨ (rcbExports w ∧ s.freeIndex.isNone) then .error 4
  else if !(rcbState w == 0 || rcbState w == 4) then .error 7
  else if q.parent ≠ 0 ∧ !(parent.any fun p => p.state == 1 && rcbState (s.paWords q.parent 1) == 1) then .error 7
  else if !gridHolds s q then .error 1
  else if (parent.any fun p => !insideOf q p) ∨ (s.siblings q).any (overlap q) then .error 2
  else
    let q := match parent with
      | some p => q.under p (rcbInherit w)
      | none => q
    let img := s.paWords q.image 32
    if table ≠ 0 ∧ (fabricPart s q.jobid).isSome then .error 12
    else if overBudget s q parent then .error 6
    else if !imgOk img (crc32 (s.paBytes q.image 0xF8)) then .error 5
    else if !(rectTiles s q.orgY q.orgX q.height q.width).all (fun t => (s.tile t).idle) then .error 3
    else
      .ok ({ q with
        pid := s.nextPid
        gslots := if q.gslots = 0 then imgSlots img else q.gslots
        eidx := if rcbExports w then s.freeIndex else none
        deleg := s.arg pkg 1
        jmodule := s.arg pkg 3
        kcaps := imgCaps img ||| q.caps
        codewin := imgCodewin img
        table := if table = 0 then []
          else tableOf 2 (bits (s.arg pkg 3) 16 12 + 1) (s.paBytes table (2 * bits (s.arg pkg 3) 16 12 + 2))
        opened := s.tick
        busy := s.tick }, img)

/-- Steps 2 and 3 of R336 at one core. -/
def State.openCore (s : State) (q : Part) (t : Nat) : State :=
  (s.clearSpad t).modTile t fun x =>
    { x with core := q.registers false x.core, chans := Vector.replicate 4 {}, ladle := {}, partTick := s.tick }

/-- The code and scratchpad sections go to the root core (R336, step 4). -/
def State.loadImage (s : State) (q : Part) (img : List Dword) (root : Nat) : State :=
  let put (s : State) (c : Nat × Nat) (base : Nat) : State :=
    s.writeB (tileKey root base) (s.paBytes (q.image + c.2) c.1)
  put (put s (imgSection img 1) (imgCodeBase img)) (imgSection img 2) (imgSpadBase img)

/-- DATA0 of OPEN and RESUME. -/
def Part.answer (q : Part) : Dword := nd (field 48 16 q.pid + q.eidx.getD 0)

/-- Islands of a rectangle that are not running begin to wake (R325): true when there are none. -/
def wakeTicks (pstate : Nat) : Nat :=
  match pstate with
  | 1 => 50
  | 2 => 5000
  | _ => 500000
def State.wakeIsland (s : State) (i : Nat) : State :=
  s.modIsland i fun k => if k.pstate ≠ 0 ∧ k.waking.isNone then { k with waking := some (s.tick + wakeTicks k.pstate) } else k
def allAwake (s : State) (ts : List Nat) : Bool := ts.all fun t => s.awake t
def State.wakeAll (s : State) (ts : List Nat) : State := ts.foldl (fun s t => s.wakeIsland (islandOf t)) s

/-- OPEN as firmware serves it. -/
def State.openServe (s : State) (pkg : Nat) : State :=
  match openCheck s pkg with
  | .error r => s.respond pkg r 0
  | .ok (q, img) =>
    let ts := rectTiles s q.orgY q.orgX q.height q.width
    if !allAwake s ts then s.wakeAll ts
    else
      let s := { s with nextPid := s.nextPid % 65535 + 1, parts := s.parts ++ [q] }
      let s := (ts.foldl (fun s t => s.openCore q t) (s.rcbStore q)).dropAsid q.asid
      (s.loadImage q img (s.rootTile q)).respond pkg 0 q.answer

/-- OPEN (R336). -/
def execOpenPart (pkg seq : Nat) (s : State) : Outcome :=
  mailbox s pkg 1 seq (openArgsBad s pkg) (·.openServe pkg)

/-! ### CLOSE (R66, R222, R273) -/

/-- Step 1 for one partition. -/
def State.holdPart (s : State) (q : Part) : State :=
  (s.tilesOf q).foldl (fun s t => s.modCore t fun c => { c with jmpart1 := c.jmpart1 ||| 0x10 }) s

/-- The thread is between two instructions; a vector access that has performed elements is in the middle of one (R254). -/
def Thread.atBoundary (h : Thread) : Bool := h.vecAt == 0 && h.vec.isNone
/-- Every general thread at its boundary ends (R66, step 2). -/
def State.endThreads (s : State) (t : Nat) : State :=
  (upTo 6).foldl
    (fun s i => if (s.tile t).isEmpty i ∨ !(s.th t (slotIx i)).atBoundary then s else s.emptySlot t (slotIx i)) s

/-- Steps 1 to 3: HOLD is set, no thread or engine command starts anything more, the threads end as they reach their
boundaries, and the inbox is discarded. -/
def State.startClose (s : State) (pid : Nat) : State :=
  (s.family pid).foldl
    (fun s q =>
      let s := (s.tilesOf q).foldl
        (fun s t => (s.modTile t fun x => { x with inbox := [], halted := true }).endThreads t) (s.holdPart q)
      (s.rcbSet q.rcb 3).modPart q.pid fun q => { q with state := 3, stopping := none }) s

/-- CLOSE (R66). -/
def execClosePart (pkg seq : Nat) (s : State) : Outcome :=
  mailbox s pkg 2 seq (badRcb s (s.arg pkg 0)) fun s =>
    match s.partAt (s.arg pkg 0) with
    | some q =>
      if q.state = 3 then s.respond pkg 7 0
      else (s.startClose q.pid).modMail pkg fun m => { m with serving := some q.pid }
    | none => s.respond pkg 7 0

/-- From step 4 of a close or a suspension no engine command starts any more (R222; log 101). -/
def State.seal (s : State) (ts : List Nat) : State := ts.foldl (fun s t => s.modTile t fun x => { x with sealed := true }) s

/-- Nothing that the threads of a core have sent is still out (R148). -/
def Tile.drained (x : Tile) : Bool :=
  x.reqs.isEmpty && x.divider.isNone && x.intake.isEmpty && x.lateChecks.isEmpty
    && (x.threads.toList.all fun h => h.rcfg.isNone && h.checks.all fun c => c.answer.isSome)
def netDrained (s : State) (ts : List Nat) : Bool :=
  !((s.net ++ s.fabricOut).any fun p => !p.org.fab && p.org.party != .host && memNat p.org.tile ts)
    && !(s.spawns.any fun r => r.host.isNone && memNat r.org.tile ts)
/-- A PLAN that waits for the other members of its round (R227). -/
def planWaits (s : State) (t : Nat) (c : LadleCmd) : Bool :=
  c.joined && !c.finished && c.bad.isNone
    && (match roundOf s t c with
      | some r => decide (r.members.length < dscGh c.desc * dscGw c.desc)
      | none => true)
/-- The engines have finished what they started. -/
def enginesIdle (s : State) (t : Nat) : Bool :=
  let x := s.tile t
  (x.chans.toList.all fun c => c.started.isEmpty) && x.ladle.queue.all fun c => !c.started || planWaits s t c
/-- A started SCATTER has a row or a riser still to write or to poison in these tiles; before it has read its records, by
the records as they stand. -/
def ladleInward (s : State) (u : Nat) (ts : List Nat) (c : LadleCmd) : Bool :=
  let c := c.filled s u
  c.started && wLop c.w0 == 1 && (c.table.getD []).zipIdx.any fun p =>
    recValid p.1 && !memNat p.2 c.stepped && (match rowTarget s u c.desc p.1 with
      | .ok (buf, _, core) => [buf, core].any fun a => match riserHome s u a with
        | some (.tile v) => memNat v ts
        | _ => false
      | .error _ => false)
/-- No command started elsewhere has its destination in these tiles. -/
def noneInward (s : State) (ts : List Nat) : Bool :=
  s.tiles.all fun (u, x) => memNat u ts || (!x.ladle.queue.any (ladleInward s u ts)
    && x.chans.toList.all fun c => c.started.all fun r =>
      !((destsOf s u r.cmd).any fun d =>
        match destHome s u r.cmd d with
        | some (.tile v, _) => memNat v ts
        | _ => false))

/-- The commands of a tile that have not started fail with DISCARD: their next steps are those of failed commands (R220,
R222, R230). -/
def Channel.discarded (c : Channel) : Channel :=
  { c with fifo := [], gate := 0, started := c.started ++ c.fifo.map fun h => { cmd := h, bad := some (8, 6) } }
def Tile.discarded (x : Tile) : Tile :=
  { x with
    chans := mapV x.chans (·.discarded)
    ladle := { x.ladle with queue := x.ladle.queue.map fun c => { c with started := true }.fails 9 } }
def State.discardAll (s : State) (t : Nat) : State := s.modTile t (·.discarded)
def Tile.queued (x : Tile) : Bool := (x.chans.toList.any fun c => !c.fifo.isEmpty) || !x.ladle.queue.isEmpty

/-- Step 5 at one core. -/
def State.closeCore (s : State) (t : Nat) : State :=
  (s.clearSpad t).modTile t fun x =>
    { x with
      chans := Vector.replicate 4 {}
      ladle := {}
      matrix := { x.matrix with accs := Vector.replicate 8 {}, queue := [], burst := 0 }
      halted := false
      sealed := false }

/-- CLOSE_DRAIN_COMPLETE: threads that have reached their boundary end; when none is left, nothing more starts; when
everything of the partition and its descendants has completed, what has not started is discarded; when that too has
completed, the rectangle is cleared and the cores are handed back (R66, R222), and screened where that is owed (R313). -/
def execCloseDrainComplete (pid : Nat) (s : State) : Outcome :=
  match s.parts.find? (·.pid == pid) with
  | none => .next s
  | some q =>
    let fam := s.family pid
    let ts := fam.flatMap s.tilesOf
    let above := s.parts.any fun p => q.parent != 0 && p.rcb == q.parent && p.state == 3
    let quietNow := ts.all fun t => (s.tile t).drained && enginesIdle s t
    if q.state ≠ 3 ∨ above then .next s
    else if ts.any fun t => (upTo 6).any fun i => !(s.tile t).isEmpty i then .next (ts.foldl (·.endThreads) s)
    else if !(ts.all fun t => (upTo 8).all (s.tile t).isEmpty) then .next s
    else if ts.any fun t => !(s.tile t).sealed then .next (s.seal ts)
    else if !quietNow ∨ !netDrained s ts ∨ !noneInward s ts then .next s
    else if ts.any fun t => (s.tile t).queued then .next (ts.foldl (·.discardAll) s)
    else
      let pids := fam.map (·.pid)
      let s := fam.foldl (fun s p => s.rcbSet p.rcb 4) (ts.foldl (·.closeCore) s)
      let s := { s with rounds := s.rounds.filter fun r => !memNat r.pid pids
                        saves := s.saves.filter fun p => !memNat p.1 pids }
      let s := { s with parts := s.parts.filter fun p => !memNat p.pid pids }.handBack q ts
      .next (((fam.foldl (fun s p => s.dropAsid p.asid) s).screenFreed ts).served pid 0)

/-- Every open partition of a job and fault domain is closed, each with a notice (R66, R273, R293). -/
def State.closeDomain (s : State) (job fdom : Nat) (cause epc val : Dword) : State :=
  (s.parts.filter fun q => q.jobid == job && q.fdom == fdom && q.state == 1).foldl
    (fun s q =>
      let root := s.rootTile q
      (s.startClose q.pid).notice (pkgOf root) 3 q.pid q.jobid (s.tile root).lidx 0 cause epc val) s

end Sys2Proof.Machine
end

