-- ==== Sys2Proof/Machine/Suspension.lean ====
section
/-!
DEFINITION. Pre-emption (R148, R180, R222, R247, R273, R277-R282): suspending a partition, the save area, and resuming it.
-/
namespace Sys2Proof.Machine

/-! ### Suspension (R277) -/

/-- Steps 1 and 2: HOLD, and no general thread issues. -/
def State.stopPart (s : State) (q : Part) : State :=
  let s := (s.tilesOf q).foldl (fun s t => s.modTile t fun x => { x with halted := true }) (s.holdPart q)
  s.modPart q.pid fun p => { p with stopping := some s.tick, rolled := false }
/-- The open partitions of a family. -/
def State.openFamily (s : State) (pid : Nat) : List Part := (s.family pid).filter (·.state == 1)
def State.startSuspend (s : State) (pid : Nat) : State := (s.openFamily pid).foldl (·.stopPart) s

/-- SUSPEND (R277): refused with 8 where a partition of the family has no save area. -/
def execSuspend (pkg seq : Nat) (s : State) : Outcome :=
  mailbox s pkg 3 seq (badRcb s (s.arg pkg 0)) fun s =>
    match s.partAt (s.arg pkg 0) with
    | some q =>
      if q.holds then s.respond pkg 7 0
      else if (s.openFamily q.pid).any (·.save == 0) then s.respond pkg 8 0
      else (s.startSuspend q.pid).modMail pkg fun m => { m with serving := some q.pid }
    | none => s.respond pkg 7 0

/-! ### Region restart (R278) -/

/-- The registers a mark's mask names, from the snapshot. -/
def Thread.restore (h : Thread) : Thread :=
  { h with x := Vector.ofFn fun n : Fin 32 => if bitAt h.jrmark n.val ∧ n.val ≠ 0 then h.snap[n] else h.x[n] }
/-- A region restart of a thread whose mark is valid. A thread asleep stays so until it is saved (R282). -/
def Thread.restart (h : Thread) : Thread :=
  { h.restore with
    pc := nd (bits h.jrmark 32 19), st := if h.st = .sleep then .sleep else .ready, need := .none, woken := none, awaits := none
    lat := [], vlat := [], uhold := false, vecAt := 0, vec := none }

/-- Step 4: the stalled command of channel 3 fails with DISCARD, and its thread is restarted if it is still there and has a
valid mark. -/
def State.discardStalled (s : State) (t : Nat) : State :=
  match ((s.tile t).chans[3]).stall with
  | none => s
  | some (serial, _) =>
    match ((s.tile t).chans[3]).started.find? (·.cmd.serial == serial) with
    | none => s
    | some r =>
      let s := (s.failRun t r 8 6).modChan t 3 fun c => { c with stall := none, ask := none }
      let i := slotIx r.cmd.slot
      let h := s.th t i
      if h.epoch = r.cmd.epoch ∧ h.st ≠ .empty ∧ bitAt h.jrmark 63 then
        let s := s.modTile t fun x =>
          { x.modTh i (·.restart) with
            reqs := x.reqs.map fun e => if e.slot = i.val ∧ e.epoch = h.epoch then { e with discard := true } else e }
        s.modPart (s.tile t).core.pid fun q => { q with rolled := true }
      else s

/-! ### The save area (R280) -/

/-- Words to the save area, each with its mark. -/
def State.saveWord (s : State) (pa k : Nat) : State :=
  let s' := s.paWrite pa (s.readD k)
  if s.marked k then s'.markWord (s.paKey pa) else s'
def State.saveSpad (s : State) (block t : Nat) : State :=
  (upTo 0x10000).foldl (fun s i => s.saveWord (block + 8 * i) (tileKey t (8 * i))) s
def State.loadSpad (s : State) (block t : Nat) : State :=
  (upTo 0x10000).foldl
    (fun s i =>
      let k := s.paKey (block + 8 * i)
      let s' := s.writeN (tileKey t (8 * i)) 8 (s.readD k).toNat
      if s.marked k then s'.markWord (tileKey t (8 * i)) else s') s

/-- n 64-bit words of a wider register, and back. -/
def vecWords (v : Vec) : List Dword := (upTo 4).map fun k => nd (bits v (64 * k) 64)
def wordsVec (l : List Dword) : Vec := BitVec.ofNat 256 (leVal (l.flatMap fun w => leBytes 8 w.toNat))

/-- A fault record's four words (R270), with its cause and trap value before them. -/
def FaultRec.words (r : FaultRec) : List Dword :=
  [nd r.cause, r.val, 0, 0] ++ (upTo 4).map fun k => nd (leVal ((r.bytes.drop (8 * k)).take 8))
def faultOf (w : List Dword) : FaultRec :=
  let v := descWord w
  { cause := (v 0).toNat, val := v 1, opc := v 4, target := v 5, reason := bits (v 6) 40 8, fab := bitAt (v 6) 20
    remote := bits (v 6) 0 20, ts := (v 7).toNat }

/-- The lowest-numbered entry whose interval check mismatched becomes a pending fault, of which a slot holds one (R179,
R180). The answers of a FENCEF that the thread had not finished are settled here too, and the FENCEF issued again on resume
finds no entry (log 92). -/
def Thread.settled (h : Thread) (ts : Nat) : Thread :=
  let k := { h with checks := [], unchk := h.unchk || h.checks.any fun c => c.answer.any (·.1 == 2) }
  match firstMismatch h.checks with
  | some (c, rcvd) => if h.pend.any (·.cause == 28) then k else { k with pend := h.pend ++ [countFault c rcvd ts] }
  | none => k

/-- SLOTCTX of one slot, up to its last pending fault. -/
def Thread.context (h : Thread) : List Dword :=
  if h.st = .empty then [0]
  else
    [nd (field 63 1 1 + field 62 1 (b2n (h.mode == .machine)) + field 61 1 (b2n h.uhold) + field 40 16 h.budget
        + field 32 2 h.prio + field 0 7 h.pend.length), h.pc]
      ++ (0 :: (h.x.toList.drop 1)) ++ h.v.toList.flatMap vecWords
      ++ [h.mstatus, h.mie, h.mtvec, h.mscratch, h.mepc, h.mcause, h.mtval, h.instret, h.jsrseed, h.jmcfg, h.jvcfg, h.jutvec,
        h.jutcause, h.jutepc, h.jutval, h.jmgate, h.jmgatev, h.jrmark]
      ++ h.snap.toList.drop 1 ++ List.replicate 5 0 ++ (h.pend.take 66).flatMap (·.words)

/-- A slot's context in the save area, its reserved words zero (R280). -/
def State.saveSlot (s : State) (pa : Nat) (h : Thread) : State :=
  ((s.paWrites pa h.context).paWrites (pa + 0x4A0) (List.replicate 4 0)).paWrites (pa + 0x1540) (List.replicate 344 0)

/-- The thread that a saved context holds, in a slot whose occupants are numbered from epoch. Each word is taken as it
stands, whatever the host has written there: the saved jsrseed too, without R86's rule for its seeds (log 89). -/
def contextOf (w : List Dword) (epoch last : Nat) : Thread :=
  let v := descWord w
  if !bitAt (v 0) 63 then { epoch := epoch, lastIssue := last }
  else
    let c (k : Nat) : Dword := v (98 + k)
    let n := bits (v 0) 0 7
    { epoch := epoch, lastIssue := last, st := .ready, mode := if bitAt (v 0) 62 then .machine else .user
      uhold := bitAt (v 0) 61, budget := bits (v 0) 40 16, prio := bits (v 0) 32 2, pc := v 1
      x := Vector.ofFn fun i => v (2 + i.val)
      v := Vector.ofFn fun i => wordsVec ((w.drop (34 + 4 * i.val)).take 4)
      mstatus := c 0, mie := c 1, mtvec := c 2, mscratch := c 3, mepc := c 4, mcause := c 5, mtval := c 6, instret := c 7
      jsrseed := c 8, jmcfg := c 9, jvcfg := c 10, jutvec := c 11, jutcause := c 12, jutepc := c 13, jutval := c 14
      jmgate := c 15, jmgatev := c 16, jrmark := c 17
      snap := Vector.ofFn fun i => if i.val = 0 then 0 else v (115 + i.val)
      pend := (upTo (min n 66)).map fun i => faultOf ((w.drop (152 + 8 * i)).take 8) }

/-- What MQUEUE and ENGINES hold, as numbers; the layout is open (R280, log 44). -/
def MOp.number : MOp → Nat
  | .mzero => 0
  | .mld => 1
  | .mstF32 => 2
  | .mstBf => 3
  | .mstFp8 f => if f = .e4m3 then 4 else 5
  | .mma a b => 6 + 2 * (if a = .e4m3 then 0 else 1) + (if b = .e4m3 then 0 else 1)
  | .mmaBf => 10
def MEntry.numbers (e : MEntry) : List Nat :=
  [e.op.number, e.acc, e.d0.toNat, e.d1.toNat, e.e0.toNat, e.e1.toNat, b2n e.gated, e.gateOff, e.gateTgt, e.jmcfg.toNat, e.seed.toNat]
def Tile.engineNumbers (x : Tile) : List Nat :=
  (x.chans.toList.flatMap fun c =>
    [c.jcpnext.toNat, c.jcpdone.toNat, c.jcperr.toNat]
      ++ c.fifo.flatMap fun m => [m.id, m.w0.toNat, m.w1.toNat, m.w2.toNat, m.w3.toNat, m.opc.toNat, m.slot])
    ++ x.ladle.rounds :: x.ladle.queue.flatMap fun m => [m.w0.toNat, m.w1.toNat, m.opc.toNat, m.slot]
def areaWords (area : Nat) (l : List Nat) : List Dword := (upTo 512).map fun i => nd (Config.areaWord (area :: l) i)

/-- An accumulator's 64 elements, and its mark. -/
def AccReg.words (a : AccReg) : List Dword :=
  ((upTo 32).map fun k => nd (field 32 32 (a.el.toList.getD (2 * k + 1) 0).toNat + (a.el.toList.getD (2 * k) 0).toNat))
    ++ [nd a.mark.toNat]
def accOf (w : List Dword) : AccReg :=
  { el := Vector.ofFn fun i => BitVec.ofNat 32 (bits (descWord w (i.val / 2)) (32 * (i.val % 2)) 32)
    mark := BitVec.ofNat 32 (bits (descWord w 32) 0 32) }

def messageWords (m : Message) : List Dword := [m.entry, m.a0, m.a1, m.a2, m.a3, m.ident]
def messageOf (w : List Dword) : Message :=
  let v := descWord w
  { entry := v 0, a0 := v 1, a1 := v 2, a2 := v 3, a3 := v 4, ident := v 5 }

def blockAt (q : Part) (y x : Nat) : Nat := q.save + 0x1000 + (y * q.width + x) * 0x94000

/-- A PLAN whose round has not delivered is saved as not started (R222). -/
def LadleCmd.unstarted (c : LadleCmd) : LadleCmd :=
  { c with started := false, joined := false, parts := [], desc := [], table := none, watching := false, gate := 0 }

/-- What a core's failed PLANs leave in rounds that have not delivered (R222, R227). -/
def State.failedRounds (s : State) (pid t : Nat) : List Round :=
  (s.rounds.filter fun r => r.pid == pid && r.members.any fun m => m.tile == t && m.bad).map fun r =>
    { r with members := r.members.filter fun m => m.tile == t && m.bad }
/-- A saved member takes its place in its round again, at its new core. -/
def State.rejoin (s : State) (r : Round) (t : Nat) : State :=
  let ms := r.members.map fun m => { m with tile := t }
  let same (q : Round) : Bool := q.pid == r.pid && q.rect == r.rect && q.n == r.n
  { s with rounds :=
      if s.rounds.any same then s.rounds.map fun q => if same q then { q with members := q.members ++ ms } else q
      else s.rounds ++ [{ r with members := ms }] }

/-- Step 6 for one core: its block, and what the engines hold. -/
def State.saveCore (s : State) (q : Part) (c : Nat × Nat × Nat) : State × SavedCore :=
  let t := c.2.2
  let block := blockAt q c.1 c.2.1
  let s := s.modTile t fun x => x.mapTh (·.settled s.tsc)
  let x := s.tile t
  let s := s.saveSpad block t
  let s := (upTo 8).foldl (fun s i => s.saveSlot (block + 0x80000 + 0x2000 * i) (x.th (slotIx i))) s
  let s := (upTo 8).foldl (fun s i => s.paWrites (block + 0x90000 + 0x200 * i) (s.acc t i).words) s
  let s := s.paWrites (block + 0x91000) (areaWords 0 (x.core.jcodewin.toNat :: x.matrix.queue.flatMap (·.numbers)))
  let s := s.paWrites (block + 0x92000) (areaWords 1 x.engineNumbers)
  let s := s.paWrites (block + 0x93000) (x.inbox.flatMap messageWords)
  let unjoined := (x.ladle.queue.filter (·.joined)).length
  let saved : SavedCore :=
    { y := c.1, x := c.2.1, chans := x.chans, mqueue := x.matrix.queue, jcodewin := x.core.jcodewin
      ladle := { x.ladle with queue := x.ladle.queue.map (·.unstarted), rounds := x.ladle.rounds - unjoined }
      epochs := x.threads.toList.map (·.epoch), traps := x.threads.toList.map (·.fwTrap)
      unchk := x.threads.toList.map (·.unchk), inbox := x.inbox.length, failed := s.failedRounds q.pid t }
  (s, saved)

/-- The core after its block is saved: idle, and still with its partition and HOLD. -/
def State.vacate (s : State) (t : Nat) : State :=
  let s := (upTo 8).foldl (fun s i => if (s.tile t).isEmpty i then s else s.emptySlot t (slotIx i)) s
  s.modTile t fun x =>
    { x with
      inbox := [], chans := mapV x.chans fun c => { c with fifo := [], gate := 0 }, ladle := {}
      matrix := { x.matrix with queue := [], burst := 0 }, halted := false, sealed := false, partTick := s.tick }

/-- Step 6 for one partition; its cores are screened where that is owed (R313). -/
def State.savePart (s : State) (q : Part) : State :=
  let cores := s.partCores q
  let head := [q.extent, nd (field 48 16 s.gen + b2n q.rolled), nd s.tsc] ++ List.replicate 509 0
  let r := cores.foldl
    (fun (r : State × List SavedCore) c => let w := r.1.saveCore q c; (w.1, r.2 ++ [w.2])) (s.paWrites q.save head, [])
  let s := cores.foldl (fun s c => s.vacate c.2.2) r.1
  let s := { s with
    saves := Assoc.put q.pid r.2 s.saves
    rounds := s.rounds.filter fun r => r.pid != q.pid }
  ((s.rcbSet q.rcb 2).modPart q.pid fun p => { p with state := 2, stopping := none }).screenFreed (cores.map (·.2.2))

/-- Every thread is at its boundary. -/
def Tile.atBoundary (x : Tile) : Bool := x.threads.toList.all fun h => h.atBoundary || h.st == .empty
/-- Interval tables still to be checked (R180). -/
def State.checkAll (s : State) (t : Nat) : State :=
  (upTo 6).foldl
    (fun s i =>
      let h := s.th t (slotIx i)
      if h.intervals.isEmpty then s else (s.asThread t (slotIx i)).sendChecks true h.intervals) s
/-- No request of the threads is on its way. -/
def threadsDrained (s : State) (ts : List Nat) : Bool :=
  !(s.net.any fun p => !p.org.fab && p.org.party == .thread && memNat p.org.tile ts)
    && !(s.spawns.any fun r => r.host.isNone && memNat r.org.tile ts)
def matrixSettled (x : Tile) : Bool := x.matrix.queue.all fun e => e.stage == .waiting || e.stage == .gate

/-- SUSPEND_SAVE: the next of steps 3 to 6 whose conditions hold (R277-R280). -/
def execSuspendSave (pid : Nat) (s : State) : Outcome :=
  match s.parts.find? (·.pid == pid) with
  | none => .next s
  | some q =>
    let above := s.parts.any fun p => q.parent != 0 && p.rcb == q.parent && p.stopping.isSome
    if q.stopping.isNone ∨ above then .next s
    else
      let fam := (s.family pid).filter (·.stopping.isSome)
      let ts := fam.flatMap s.tilesOf
      let still := ts.all fun t =>
        let x := s.tile t
        x.drained && x.isEmpty 6 && x.isEmpty 7 && x.atBoundary
      if !still ∨ !threadsDrained s ts then .next s
      else if ts.any fun t => (s.tile t).threads.toList.any fun h => !h.intervals.isEmpty then
        .next { ts.foldl (·.checkAll) s with cur := s.cur }
      else if ts.any fun t => !(s.tile t).sealed then .next (s.seal ts)
      else if ts.any fun t => ((s.tile t).chans[3]).stall.isSome then .next (ts.foldl (·.discardStalled) s)
      else if !(ts.all fun t => enginesIdle s t && matrixSettled (s.tile t)) ∨ !netDrained s ts then .next s
      else .next ((fam.foldl (·.savePart) s).served pid 0)

/-! ### Resumption (R281) -/

/-- Commands keep their thread where it is resumed with them, and belong to an ended one otherwise. -/
def newEpoch (saved : SavedCore) (x : Tile) (slot epoch : Nat) : Nat :=
  let h := x.th (slotIx slot)
  if saved.epochs.getD slot 0 = epoch ∧ h.st ≠ .empty then h.epoch else h.epoch - 1

/-- A saved core's block into a core. -/
def State.loadCore (s : State) (q : Part) (c : SavedCore) (t : Nat) : State :=
  let block := blockAt q c.y c.x
  let s := s.loadSpad block t
  let s := s.modTile t fun x =>
    { x with
      core := { x.core with jcodewin := c.jcodewin }
      threads := x.threads.mapFinIdx fun i h _ =>
        { contextOf (s.paWords (block + 0x80000 + 0x2000 * i) 680) (h.epoch + 2) h.lastIssue with
          fwTrap := (c.traps.getD i none), unchk := c.unchk.getD i false }
      inbox := (upTo c.inbox).map fun i => messageOf (s.paWords (block + 0x93000 + 48 * i) 6)
      matrix := { x.matrix with
        accs := Vector.ofFn fun i => accOf (s.paWords (block + 0x90000 + 0x200 * i.val) 33)
        queue := c.mqueue.map fun e => { e with stage := .waiting, evals := [] }
        burst := 0 }
      halted := false
      sealed := false
      partTick := s.tick }
  let s := c.failed.foldl (fun s r => s.rejoin r t) s
  let s := s.modTile t fun x =>
    let keep (slot epoch : Nat) : Nat := newEpoch c x slot epoch
    { x with
      chans := mapV c.chans fun k =>
        ({ k with fifo := k.fifo.map fun m => { m with epoch := keep m.slot m.epoch } } : Channel).newHead s t
      ladle := { c.ladle with
        queue := match c.ladle.queue.map fun m => { m with epoch := keep m.slot m.epoch } with
          | m :: r =>
            { m with watching := true, gate := gateNow s t m.w0, gateTs := s.tsc }
              :: r.map fun m => if wLop m.w0 = 3 then { m with watching := true, gate := gateNow s t m.w0 } else m
          | [] => [] } }
  s.settleQueue t

/-- What RESUME comes to: a result, or the partition at its new place. -/
def resumeCheck (s : State) (pkg : Nat) : Except Nat Part :=
  match s.partAt (s.arg pkg 0) with
  | none => .error 7
  | some q =>
    let a := s.arg pkg 1
    let q : Part := { q with orgY := bits a 10 10, orgX := bits a 0 10 }
    let parent := s.parts.find? fun p => q.parent != 0 && p.rcb == q.parent
    let ts := rectTiles s q.orgY q.orgX q.height q.width
    if q.state ≠ 2 ∨ (q.parent ≠ 0 ∧ !(parent.any fun p => p.state == 1)) then .error 7
    else if !gridHolds s q then .error 1
    else if (parent.any fun p => !insideOf q p) ∨ (s.siblings q).any (overlap q) then .error 2
    else if overBudget s q parent then .error 6
    else if !(ts.all fun t => s.inFrame t && (s.tile t).enabled && (s.tile t).idle) then .error 3
    else if ts.any fun t => nd q.kcaps &&& ~~~(s.tile t).core.jcaps != 0 then .error 9
    else .ok { q with state := 1, stopping := none, opened := s.tick, busy := s.tick, quietRun := 0, declared := false }

/-- RESUME as firmware serves it: the old rectangle is handed back, every core of the new one holds the partition's
registers, those of descendants that stay suspended included (R62), and the saved blocks are loaded. -/
def State.resumeServe (s : State) (pkg : Nat) : State :=
  match resumeCheck s pkg with
  | .error r => s.respond pkg r 0
  | .ok q =>
    let ts := rectTiles s q.orgY q.orgX q.height q.width
    if !allAwake s ts then s.wakeAll ts
    else
      let old : Option Part := s.parts.find? (·.pid == q.pid)
      let left := (old.map s.tilesOf).getD []
      let s := { s with parts := s.parts.map fun (p : Part) => if p.pid = q.pid then q else p }.handBack q left
      let s := ts.foldl (fun s t => s.modTile t fun x => { x with core := q.registers false x.core, partTick := s.tick }) s
      let s := ((Assoc.get [] s.saves q.pid).foldl
        (fun (s : State) c => s.loadCore q c ((s.core (q.orgY + c.y) (q.orgX + c.x)).getD nowhere)) s).dropAsid q.asid
      let s := { s with saves := s.saves.filter (·.1 != q.pid) }
      (s.rcbSet q.rcb 1).respond pkg 0 q.answer

/-- RESUME (R281). -/
def execResume (pkg seq : Nat) (s : State) : Outcome :=
  mailbox s pkg 4 seq (badRcb s (s.arg pkg 0) || bits (s.arg pkg 1) 20 44 != 0) (·.resumeServe pkg)

/-! ### The bound on quiescing (R273, R279) -/

/-- QUIESCE_BOUND_EXCEEDED: a suspension that has taken more than 62,500 cycles ends its partitions. -/
def execQuiesceBoundExceeded (pid : Nat) (s : State) : Outcome :=
  match s.parts.find? (·.pid == pid) with
  | none => .next s
  | some q =>
    match q.stopping with
    | none => .next s
    | some since =>
      if s.tick ≤ since + 62500 then .next s
      else
        let s := s.closeDomain q.jobid q.fdom 0 0 0
        .next (s.served pid 7)

end Sys2Proof.Machine
end

