-- ==== Sys2Proof/Machine/Host.lean ====
section
/-!
DEFINITION. The host (R288, R290-R298): INVAL and HRISER of the mailbox, the mesh window with its spawn and signal
registers, and the memory window.
-/
namespace Sys2Proof.Machine

/-! ### INVAL (R288) -/

/-- First page and number of pages of a range; all of the space for a length of 0. -/
def invalRange (first len : Nat) : Nat × Nat :=
  if len = 0 then (0, 2 ^ 40) else (first / 4096, (first + len + 4095) / 4096 - first / 4096)

def invalBad (s : State) (pkg : Nat) : Bool :=
  let a := s.arg pkg
  bits (a 0) 16 48 != 0 || decide (2 ^ 52 ≤ (a 1).toNat) || decide (2 ^ 52 < (a 1).toNat + (a 2).toNat)

/-- A leaf of the ASID that overlaps the pages. -/
def overlapsPages (asid first n : Nat) (e : TlbEntry) : Bool :=
  e.asid == asid && decide (e.page < first + n) && decide (first < e.page + e.pages)

/-- INVAL (R288, R292): the TLBs lose the leaves, page faults found before are forgotten, and walks in progress
begin again. -/
def execInval (pkg seq : Nat) (s : State) : Outcome :=
  mailbox s pkg 5 seq (invalBad s pkg) fun s =>
    let asid := bits (s.arg pkg 0) 0 16
    let r := invalRange (s.arg pkg 1).toNat (s.arg pkg 2).toNat
    let inside (page : Nat) : Bool := decide (r.1 ≤ page) && decide (page < r.1 + r.2)
    { s with
      tiles := s.tiles.map fun p =>
        (p.1, { p.2.forgetFaults asid inside with tlb := p.2.tlb.filter fun e => !overlapsPages asid r.1 r.2 e })
      dieTlb := s.dieTlb.map fun p => (p.1, p.2.filter fun e => !overlapsPages asid r.1 r.2 e)
      walks := s.walks.map fun w => if w.asid = asid then w.again s else w
      invals := s.invals ++ [(pkg, asid, r.1, r.2)] }

/-- Pages of the largest leaf: 16 GiB (R283). -/
def leafSpan : Nat := 4 ^ 11
/-- An access of the address space that may have been translated through a leaf that overlaps the pages has not been
performed at its home: one in the span of a largest leaf that meets them, since an access does not carry its leaf's size
(R288, log 102). -/
def translatedOut (s : State) (asid first n : Nat) : Bool :=
  (s.net.any fun p =>
    !p.org.fab && p.cls == 3 && (s.tile p.org.tile).core.asid == asid
      && (let span := bits p.addr 0 52 / 4096 / leafSpan
          decide (first / leafSpan ≤ span) && decide (span * leafSpan < first + n)))
    || s.tiles.any fun (_, x) => x.core.asid == asid && x.chans.toList.any fun c => c.started.any fun r => !r.outstanding.isEmpty

/-- INVAL_COMPLETE (R288). -/
def execInvalComplete (pkg : Nat) (s : State) : Outcome :=
  match s.invals.find? (·.1 == pkg) with
  | none => .next s
  | some i =>
    if translatedOut s i.2.1 i.2.2.1 i.2.2.2 then .next s
    else .next ({ s with invals := s.invals.filter (·.1 != pkg) }.respond pkg 0 0)

/-! ### HRISER (R292, R298) -/

/-- The core that an HRISER request names. -/
def hriserCore (s : State) (pkg : Nat) (q : Part) : Option Nat :=
  let a := s.arg pkg 1
  let y := bits a 30 10
  let x := bits a 20 10
  if y < q.height ∧ x < q.width then s.core (q.orgY + y) (q.orgX + x) else none

def hriserBad (s : State) (pkg : Nat) : Bool :=
  let a := s.arg pkg
  badRcb s (a 0) || bits (a 1) 40 24 != 0 || bits (a 1) 0 3 != 0 || bits (a 1) 19 1 != 0
    || decide ((a 2).toNat < 2) || decide (2047 < (a 2).toNat) || bits (a 3) 1 63 != 0
    || (match s.partAt (a 0) with
      | some q => (hriserCore s pkg q).isNone
      | none => false)

/-- The first entry that fits, replaced. -/
def replaceFirst (ok : Dword → Bool) (v : Dword) : List Dword → List Dword
  | [] => []
  | e :: r => if ok e then v :: r else e :: replaceFirst ok v r
def setEntries (x : Tile) (l : List Dword) : Tile := { x with hriser := Vector.ofFn fun i => l.getD i.val 0 }

/-- HRISER: registers or removes an entry of a core; a registered entry is not listed twice. -/
def execHriser (pkg seq : Nat) (s : State) : Outcome :=
  mailbox s pkg 6 seq (hriserBad s pkg) fun s =>
    match s.partAt (s.arg pkg 0) with
    | none => s.respond pkg 7 0
    | some q =>
      match hriserCore s pkg q with
      | none => s.respond pkg 11 0
      | some t =>
        let e := nd (field 63 1 1 + field 32 11 (s.arg pkg 2).toNat + bits (s.arg pkg 1) 3 16)
        let l := (s.tile t).hriser.toList
        if q.state ≠ 1 then s.respond pkg 7 0
        else if bitAt (s.arg pkg 3) 0 then
          if l.any (· == e) then s.respond pkg 0 0
          else if l.all fun d => bitAt d 63 then s.respond pkg 10 0
          else (s.modTile t fun x => setEntries x (replaceFirst (fun d => !bitAt d 63) e l)).respond pkg 0 0
        else (s.modTile t fun x => setEntries x (replaceFirst (· == e) 0 l)).respond pkg 0 0

/-! ### The mesh window (R294-R296) -/

/-- The fields of a mesh-window offset. -/
def meshY (off : Nat) : Nat := off / 2 ^ 30 % 1024
def meshX (off : Nat) : Nat := off / 2 ^ 20 % 1024
def meshPage (off : Nat) : Nat := off / 2 ^ 19 % 2
def meshOff (off : Nat) : Nat := off % 2 ^ 19

/-- The partition and the core that an offset reaches, unless the access is refused. -/
def meshTarget (s : State) (off : Nat) : Option (Part × Nat) :=
  match s.parts.find? fun q => q.eidx == some (off / 2 ^ 40 % 16) with
  | none => none
  | some q =>
    if q.holds ∨ q.height ≤ meshY off ∨ q.width ≤ meshX off then none
    else (s.core (q.orgY + meshY off) (q.orgX + meshX off)).map fun t => (q, t)

/-- Aligned accesses of 1, 2, 4 or 8 bytes. -/
def wordShape (off n : Nat) : Bool := (n == 1 || n == 2 || n == 4 || n == 8) && off % n == 0

def hostOrigin (pkg : Nat) (q : Part) : Origin :=
  { party := .host, tile := cornerTile pkg, pid := q.pid, job := q.jobid }

/-- A host request enters the mesh at its port, in the order the requests left the link; its address is the window's
offset, which its completion names (R294, R296). -/
def State.hostSend (s : State) (pkg : Nat) (org : Origin) (op : Op) (home : Home) (off win : Nat) : State :=
  { s with
    nextId := s.nextId + 1
    net := s.net ++ [{ id := s.nextId, op := op, org := org, home := home, off := off, addr := nd win, req := pkg }] }

def State.dropWrite (s : State) (pkg : Nat) : State := s.modMail pkg fun m => { m with hdrop := m.hdrop + 1 }

/-- HOST_MESH_READ: refused, or sent to the core, where it is performed (R294). -/
def execHostMeshRead (pkg off size : Nat) (s : State) : Outcome :=
  .next (if s.packages ≤ pkg ∨ 2 ^ 44 ≤ off then s
    else
      match (if meshPage off = 0 ∧ wordShape (meshOff off) size then meshTarget s off else none) with
      | none => s.complete pkg off 1 [] false
      | some (q, t) => s.hostSend pkg (hostOrigin pkg q) (.load size) (.tile t) (meshOff off) off)

/-- One mesh-window write to a scratchpad. -/
def hostWrite (s : State) (pkg off : Nat) (bs : List Byte) : State :=
  match meshTarget s off with
  | none => s.dropWrite pkg
  | some (q, t) => s.hostSend pkg (hostOrigin pkg q) (.store bs.length (leVal bs)) (.tile t) (meshOff off) off

/-- HOST_MESH_WRITE: at PAGE 0, in pieces within 64-byte blocks (R294); at PAGE 1 outside the host registers it is
dropped. -/
def execHostMeshWrite (pkg off : Nat) (data : List Byte) (s : State) : Outcome :=
  .next (if s.packages ≤ pkg ∨ 2 ^ 44 ≤ off ∨ data.isEmpty then s
    else if meshPage off = 1 then
      if meshOff off = 0 ∨ meshOff off = 0x40 then s else s.dropWrite pkg
    else if 2 ^ 19 < meshOff off + data.length then s.dropWrite pkg
    else
      (blocksOf off data.length).foldl (fun s b => hostWrite s pkg (off + b.1) ((data.drop b.1).take b.2)) s)

/-- HOST_SPAWN_WRITE (R295): one aligned 64-byte write; the spawn has PCAP's priority. -/
def execHostSpawnWrite (pkg off : Nat) (data : List Byte) (s : State) : Outcome :=
  .next (if s.packages ≤ pkg ∨ 2 ^ 44 ≤ off ∨ meshPage off = 0 ∨ meshOff off ≠ 0 then s
    else
      match (if data.length = 64 then meshTarget s off else none) with
      | none => s.dropWrite pkg
      | some (q, t) =>
        let w (k : Nat) : Dword := nd (leVal ((data.drop (8 * k)).take 8))
        let m : Message := { entry := w 0, a0 := w 1, a1 := w 2, a2 := w 3, a3 := w 4, ident := 2 ^ 63, prio := 3 }
        let p : Packet :=
          { id := s.nextId, op := .spawn m, org := hostOrigin pkg q, home := .tile t, addr := nd off, req := s.nextId }
        { s with
          nextId := s.nextId + 1
          net := s.net ++ [p]
          spawns := s.spawns ++
            [{ id := p.id, org := p.org, home := p.home, op := p.op, addr := p.addr, req := p.id
               host := some (pkg, (w 5).toNat, bits (w 6) 0 32) }] })

/-- HOST_SIGNAL_WRITE (R295): RSIG of AMOUNT on the riser at 8 * ROFF. -/
def execHostSignalWrite (pkg off : Nat) (data : List Byte) (s : State) : Outcome :=
  .next (if s.packages ≤ pkg ∨ 2 ^ 44 ≤ off ∨ meshPage off = 0 ∨ meshOff off ≠ 0x40 then s
    else
      match (if data.length = 8 then meshTarget s off else none) with
      | none => s.dropWrite pkg
      | some (q, t) =>
        let v := nd (leVal data)
        s.hostSend pkg (hostOrigin pkg q) (.rsig (bits v 16 40)) (.tile t) (8 * bits v 0 16) off)

/-! ### The memory window (R297) -/

/-- HOST_MEMORY_ACCESS: a read, or a write of the bytes given, sent to the home pseudo-channel. -/
def execHostMemoryAccess (pkg off size : Nat) (data : Option (List Byte)) (s : State) : Outcome :=
  let mode := off / 2 ^ (37 + s.dBits)
  let send (op : Op) (a : Nat) (s : State) : State :=
    let r := interleave s mode (a % 2 ^ (37 + s.dBits))
    s.hostSend pkg { party := .host, tile := cornerTile pkg } op (.chan r.1) r.2 a
  .next (if s.packages ≤ pkg ∨ 4 ≤ mode then s
    else
      match data with
      | none =>
        if mode = 3 ∨ !wordShape off size then s.complete pkg off 1 [] false else send (.load size) off s
      | some bs =>
        if mode = 3 ∨ bs.isEmpty ∨ (off + bs.length - 1) / 2 ^ (37 + s.dBits) ≠ mode then s
        else (blocksOf off bs.length).foldl (fun s b => send (.store b.2 (leVal ((bs.drop b.1).take b.2))) (off + b.1) s) s)

/-! ### The management window (R291) -/

/-- A host read of the window completes at once; one of another size or alignment as Unsupported Request. -/
def State.readWindow (s : State) (pkg off size : Nat) : State :=
  if s.packages ≤ pkg then s
  else if windowShape off size ∧ !(s.bootRom && pkg != 0) then s.complete pkg off 0 (windowRead s pkg off size) false
  else s.complete pkg off 1 [] false

end Sys2Proof.Machine
end

