-- ==== Sys2Proof/Machine/Fabric.lean ====
section
/-!
DEFINITION. The links of the scale-up fabric (R174, R273, R302, R303, R305): flits accepted in order, routes by the hash of
the flow, and a link's failure.
-/
namespace Sys2Proof.Machine

def State.link (s : State) (port : Nat) : Link := Assoc.get {} s.links port
def State.setLink (s : State) (port : Nat) (l : Link) : State := { s with links := Assoc.put port l s.links }
/-- Fabric ports: four on each package (R14). -/
def State.ports (s : State) : Nat := 4 * s.packages

/-- What comes back to the sender of a request. -/
def isReply : Op → Bool
  | .result .. | .complete | .reject .. | .refused | .status _ | .answer .. => true
  | _ => false

/-- One message of a flit: an answer goes to the core that waits for it, a fabric store or a check waits at the gateway, and
any other request is admitted there. -/
def State.fromFabric (s : State) (port : Nat) (p : Packet) : State :=
  if isReply p.op then s.sendPkt { p with org := { p.org with fab := false } }
  else
    let q := { p with id := s.nextId, extId := p.id, port := port, org := { p.org with fab := true } }
    let s := { s with nextId := s.nextId + 1 }
    match q.op with
    | .check .. => s.sendPkt q
    | _ => if fabricStore q then s.sendPkt q else s.gateway q

/-- The module that an address of space 0x3 names. -/
def moduleOf (a : Dword) : Option Nat := if spaceOf a = 3 then some (bits a 48 12) else none

/-- Requests of a core that wait for an answer from another module: their entries, with the port each takes. -/
def fabricWaits (s : State) (t : Nat) : List (Nat × Option Nat) :=
  let x := s.tile t
  let far (a : Dword) : Option Nat := (moduleOf a).bind fun m => if m = x.core.jmod then none else some m
  (x.reqs.filterMap fun e => (far e.target).map fun m => (e.id, pathPort s t e.slot m))
    ++ (x.threads.toList.zipIdx.flatMap fun p => p.1.checks.filterMap fun c =>
      if c.answer.isNone then some (c.id, pathPort s t p.2 c.module) else none)
    ++ x.lateChecks.map fun c => (c.2.id, pathPort s t c.1 c.2.module)

/-! ### Failure of a link (R273, R305) -/

/-- The message of a number was placed on the port's link. -/
def placedOn (s : State) (port id : Nat) : Bool := (s.link port).wire.any fun f => f.2.any fun p => p.id == id && !p.org.fab
/-- The other end has not acknowledged it. -/
def unacked (s : State) (port id : Nat) : Bool := (s.link port).buffer.any fun f => f.2.any fun p => p.id == id && !p.org.fab

/-- A copy command whose path is lost fails with LINK; the riser steps among the messages lost have not been taken. -/
def CopyRun.cut (r : CopyRun) (lost : Nat → Bool) : CopyRun :=
  { r.fails 9 1 with
    outstanding := [], sent := [], owed := if r.final then r.owed else 0
    stepped := r.stepped.filter fun d => !r.sent.any fun e => lost e.1 && e.2 == d }

/-- What is out at other modules by way of the port is given up. -/
def LadleCmd.cut (c : LadleCmd) (took lost : Nat → Bool) : LadleCmd :=
  if (c.out.any fun o => took o.1) || c.rows.any fun r => r.outstanding.any fun o => took o.1 then
    { c.fails 2 with
      out := c.out.filter fun o => !took o.1
      stepped := c.stepped.filter fun j => !c.out.any fun o => lost o.1 && o.2 == j
      rows := c.rows.map fun r => { r with outstanding := r.outstanding.filter fun o => !took o.1 } }
  else c

/-- Channel-2 commands whose steps took the port fail with LINK, and the ladle rows that took it are rejected. -/
def State.failEngines (s : State) (port t : Nat) : State :=
  let uses (r : CopyRun) : Bool :=
    [r.cmd.w1, r.cmd.w2].any (fun a => (moduleOf a).any fun m => pathPort s t r.cmd.slot m == some port)
      || r.outstanding.any fun o => placedOn s port o.1
  s.modTile t fun x =>
    { x with
      chans := x.chans.set 2 { x.chans[2] with
        started := x.chans[2].started.map fun r => if uses r then r.cut (unacked s port) else r }
      ladle := { x.ladle with queue := x.ladle.queue.map (·.cut (placedOn s port) (unacked s port)) } }

/-- The port leaves every route. -/
def State.dropRoute (s : State) (port : Nat) : State :=
  { s with routes := s.routes.map fun r => (r.1, r.2.filter (· != port)) }

/-- A link fails: what has lost its path is noted, and firmware closes the fabric partitions that used the port. -/
def State.failLink (s : State) (port : Nat) : State :=
  let lost := s.tiles.flatMap fun p =>
    (fabricWaits s p.1).filterMap fun e => if placedOn s port e.1 then some (p.1, e.1) else none
  let users := s.parts.filter fun q => q.table.any fun d => memNat port (Assoc.get [] s.routes d)
  let s := (s.tiles.map (·.1)).foldl (fun s t => s.failEngines port t) s
  let s := (s.setLink port { s.link port with failed := some s.tick, lost := lost, buffer := [] }).dropRoute port
  users.foldl (fun s q => s.closeDomain q.jobid q.fdom 25 0 0) s

/-! ### The sending side (R302) -/

/-- A message without a path is lost: a fabric store's entry is free, a channel-2 step fails its command with LINK, a
ladle row is rejected; a request that awaits a response is left to the timeout, and an answer goes nowhere (R305). -/
def State.loseMessage (s : State) (p : Packet) : State :=
  if p.org.fab then s
  else
    match p.org.party with
    | .copy => s.modRun p.org.tile p.req fun r => r.cut (· == p.id)
    | .ladle => s.sendPkt { p with op := .reject 5 0 true, home := .tile p.org.tile }
    | _ => if posted p.op then s.sendPkt { p with op := .complete, home := .tile p.org.tile } else s

/-- A message with a path to a link that runs. -/
def hasPath (s : State) (p : Packet) : Bool :=
  match outPort s p with
  | some port => decide (port < s.ports) && (s.link port).failed.isNone
  | none => false
/-- A request that stays where it is while it has no path, until its timeout (R305). -/
def awaitsAnswer (p : Packet) : Bool := !p.org.fab && p.org.party == .thread && !posted p.op

/-- The completion of a fabric store, as its gateway places it on the link (R174). -/
def State.placed (s : State) (p : Packet) : State :=
  if !p.org.fab ∧ p.org.party = .thread ∧ posted p.op then s.sendPkt { p with op := .complete, home := .tile p.org.tile } else s

/-- Two messages of one thread, which keep their order. -/
def oneThread (p q : Packet) : Bool :=
  !p.org.fab && !q.org.fab && p.org.party == .thread && q.org.party == .thread && p.org.tile == q.org.tile
    && p.org.slot == q.org.slot
/-- The messages that may leave by a port: an element of a vector access waits for those below it, and what the same
thread has sent after it waits with it (R185, R254). -/
def State.sendable (s : State) (port : Nat) : List Packet :=
  ((s.fabricOut.filter fun p => outPort s p == some port && hasPath s p).foldl
    (fun (r : List Packet × List Packet) p =>
      if elementWaits s p ∨ r.2.any (oneThread p) then (r.1, r.2 ++ [p]) else (r.1 ++ [p], r.2)) ([], [])).1

/-- A port places its next flit: the oldest n messages that may leave by it, in their order, as long as its replay buffer
of 1,024 flits has room and the other end has given credit (log 31). -/
def State.placeFlit (s : State) (port n credits : Nat) : State :=
  let l := s.link port
  let mine := (s.sendable port).take n
  if mine.isEmpty ∨ 1024 ≤ l.buffer.length ∨ l.credits ≤ l.buffer.length then s
  else
    let header : FlitHeader :=
      { seq := l.next, ack := l.expect, again := l.replays != 0, credits := credits }
    let flit : Flit := (header, mine)
    let s := s.setLink port { l with next := l.next + 1, buffer := l.buffer ++ [flit], wire := l.wire ++ [flit] }
    mine.foldl (fun s p => s.placed p) { s with fabricOut := s.fabricOut.filter fun p => !mine.any (· == p) }

/-- Messages whose path is gone are lost. -/
def State.losePaths (s : State) : State :=
  let gone := s.fabricOut.filter fun p => !hasPath s p && !awaitsAnswer p
  gone.foldl (fun s p => s.loseMessage p) { s with fabricOut := s.fabricOut.filter fun p => hasPath s p || awaitsAnswer p }

/-- What every port places in the n-th tick: Config chooses how many messages its flit holds, and the
credit it gives (log 31). -/
def State.placeFlits (s : State) (n : Nat) : State :=
  (upTo s.ports).foldl
    (fun s port => s.placeFlit port (Config.choice n [10, port] % 16) (Config.choice n [11, port])) s.losePaths

/-- The acknowledged sequence of a flit's header: the peer has accepted every flit before it, which leave the replay
buffer. When the peer refused that flit, it and those after it are sent again, up to eight times; refused once more
without progress, it fails the link. -/
def State.acknowledged (s : State) (port ack : Nat) (again : Bool) : State :=
  let l := s.link port
  let rest := l.buffer.filter (ack ≤ ·.1.seq)
  let resent := if rest.length < l.buffer.length then 0 else l.resent
  if again ∧ !rest.isEmpty then
    if 8 ≤ resent then (s.setLink port { l with buffer := rest, resent := resent }).failLink port
    else s.setLink port { l with buffer := rest, resent := resent + 1, wire := l.wire ++ rest }
  else s.setLink port { l with buffer := rest, resent := resent }

/-- FABRIC_FLIT_RECEIVE (R302): a flit of a bad CRC is refused, and the refusal of its eighth replay fails the link.
A flit out of sequence is not accepted. An accepted one acknowledges what the link has sent, and delivers its messages
in order. -/
def execFabricFlitReceive (port : Nat) (header : FlitHeader) (crcOk : Bool) (payload : List Packet) (s : State) : Outcome :=
  let l := s.link port
  .next (if s.ports ≤ port ∨ l.failed.isSome ∨ header.seq ≠ l.expect then s
    else if !crcOk then
      if 8 ≤ l.replays then (s.setLink port { l with replays := l.replays + 1 }).failLink port
      else s.setLink port { l with replays := l.replays + 1 }
    else
      (payload.foldl (fun s p => s.fromFabric port p) (s.setLink port
        { l with expect := header.seq + 1, replays := 0, credits := header.credits })).acknowledged
        port header.ack header.again)

/-- A request that will not be answered: cause 25 REASON 5 for one that awaits a response, an unchecked answer for a
check. -/
def State.noAnswer (s : State) (t id : Nat) : State :=
  let s := { s with spawns := s.spawns.filter (·.id != id) }
  match (s.tile t).reqs.find? (·.id == id) with
  | some e =>
    threadReply s
      { op := .reject 5 0 true, org := { party := .thread, tile := t, slot := e.slot, epoch := e.epoch }, req := id, opc := e.opc
        addr := e.target, id := id }
  | none =>
    let s := s.modTile t fun x => { x with lateChecks := x.lateChecks.filter fun c => c.2.id != id }
    s.modTile t fun x => x.mapTh (·.answered id 2 0)

/-- LINK_FAILURE_TIMEOUT: 2^20 cycles after a failure, the requests without a path are answered (R305). -/
def execLinkFailureTimeout (port : Nat) (s : State) : Outcome :=
  let l := s.link port
  match l.failed with
  | none => .next s
  | some f =>
    if s.tick < f + 2 ^ 20 then .next s
    else
      let stranded := s.tiles.flatMap fun p =>
        (fabricWaits s p.1).filterMap fun e => if e.2.isNone then some (p.1, e.1) else none
      .next ((l.lost ++ stranded).foldl (fun s e => s.noAnswer e.1 e.2) (s.setLink port { l with lost := [] }))

end Sys2Proof.Machine
end

