-- ==== Sys2Proof/Machine/Health.lean ====
section
/-!
DEFINITION. Health of cores and memory (R309-R316, R323): outcomes of the known-answer tests, guard bands and
end of life, and the patrol scrub.
-/
namespace Sys2Proof.Machine

/-! ### Known-answer tests (R309) -/

/-- The class is fenced: its bit cleared, and recorded where there is room (R316); a HEALTH event of its core (R267, log
39). -/
def State.fence (s : State) (t cls : Nat) : State :=
  let s := s.modCore t fun c => { c with jcaps := c.jcaps &&& ~~~nd (2 ^ cls) }
  let s := match s.deconf t (deconfEntry 2 cls t) with
    | some s => s
    | none => s.notice (pkgOf t) 1 0 0 (s.tile t).lidx 0 24 0 0
  (s.fenceLog 2 cls t).event t 0x20

/-- A failed test of a class, and whether its second run failed too. -/
def State.testFailed (s : State) (t cls : Nat) (again : Bool) : State :=
  let x := s.tile t
  let n := Assoc.get 0 x.transient cls
  if 18 ≤ cls ∨ !bitAt x.core.jcaps cls then s
  else if again ∨ n = 2 then s.fence t cls
  else (s.fenceLog 1 cls t).modTile t fun x => { x with transient := Assoc.put cls (n + 1) x.transient }

/-- PERIODIC_TEST: a core of no open partition for 60 s, last tested more than 24 h ago (R309); no firmware tests
anything in a lattice boot (R333). -/
def execPeriodicTest (tile : Nat) (fails : List (Nat × Bool)) (s : State) : Outcome :=
  onTile s tile <|
    let x := s.tile tile
    if !x.enabled ∨ s.strap ∨ s.inOpen tile ∨ s.tick < x.partTick + 60 * second ∨ s.tick ≤ x.tested + 86400 * second then
      .next s
    else
      .next ((fails.foldl (fun s f => s.testFailed tile f.1 f.2) s).modTile tile fun x => { x with tested := s.tick })

/-! ### Guard bands (R312-R314) -/

/-- The supply of an island: 20 mV more in band B and above (R312, R317). -/
def State.supply (s : State) (i : Island) : Nat := 380 + i.guard + (if s.cryo.band = 0 then 0 else 20)
def leastOf : List Nat → Nat
  | [] => 2 ^ 16
  | [a] => a
  | a :: r => min a (leastOf r)

/-- AdjustGuard. -/
def Island.adjust (i : Island) : Island :=
  let m := leastOf i.margins
  let i := if m < 40 ∧ i.guard < 80 then { i with guard := min 80 (i.guard + 5) } else i
  if m < 20 ∧ i.guard = 80 ∧ !i.worn then { i with worn := true } else i

/-- An island that reaches end of life: each of its cores is to be screened, and has a HEALTH event (R267, R313, log 39). -/
def State.wornOut (s : State) (island : Nat) : State :=
  { s with tiles := s.tiles.map fun p =>
      if islandOf p.1 = island ∧ p.2.enabled then (p.1, { p.2 with unscreened := true, evpend := p.2.evpend ||| 0x20 }) else p }

/-- GUARD_ADJUST: once per second, AdjustGuard in band A or B, and the screens that are owed (R313). A lattice boot
writes no flash (R333). -/
def execGuardAdjust (island : Nat) (fails : List (Nat × Nat)) (s : State) : Outcome :=
  .next (if s.tick % second ≠ 0 ∨ s.strap ∨ s.cryo.st = .warmOff then s
    else if 1 < s.cryo.band then s.screened island fails
    else
      let s' := s.modIsland island fun i => let i := i.adjust; { i with vdd := s.supply i }
      (if (s'.island island).worn ∧ !(s.island island).worn then s'.wornOut island else s').screened island fails)

/-- n, sum of x, of y, of x·y and of x² for values numbered from 0. -/
def fitSums (l : List Nat) : Nat × Nat × Nat × Nat × Nat :=
  l.zipIdx.foldl (fun a p => (a.1 + 1, a.2.1 + p.2, a.2.2.1 + p.1, a.2.2.2.1 + p.1 * p.2, a.2.2.2.2 + p.2 * p.2)) (0, 0, 0, 0, 0)
/-- EOLDAYS from the last 90 daily values: with the least-squares slope r = num / den, floor((80 − GUARD) / r). -/
def Island.fit (i : Island) : Island :=
  let f := fitSums (i.daily.take 90).reverse
  let num : Int := (f.1 * f.2.2.2.1 : Nat) - (f.2.1 * f.2.2.1 : Nat)
  let den := f.1 * f.2.2.2.2 - f.2.1 * f.2.1
  { i with eolDays :=
      if i.daily.length < 90 ∨ num ≤ 0 then 0xFFFFFFFF
      else if i.worn then 0
      else min 0xFFFFFFFE ((80 - i.guard) * den / num.toNat) }

/-- EOL_FIT: the day's GUARD joins the history, and the line is fitted (R314). -/
def execEolFit (island : Nat) (s : State) : Outcome :=
  .next (if s.tick % (86400 * second) ≠ 0 ∨ s.strap ∨ s.cryo.st = .warmOff then s
    else s.modIsland island fun i => ({ i with daily := (i.guard :: i.daily).take 90 } : Island).fit)

/-! ### Errors of memory cells (R276, R312, R323) -/

/-- The island whose counter a word's correction raises: that of its tile, or of its pseudo-channel's. -/
def wordIsland (w : Nat) : Nat := if 8 * w < 2 ^ 44 then islandOf (8 * w / 2 ^ 20) else islandOf (chanTile ((8 * w - 2 ^ 44) / 2 ^ 30))
/-- Scratchpad, machine RAM and HBM carry check bits. -/
def State.checkedWord (s : State) (w : Nat) : Bool :=
  if 8 * w < 2 ^ 44 then s.inFrame (8 * w / 2 ^ 20) && decide (8 * w % 2 ^ 20 < mramBase + 0x8000)
  else decide (8 * w < 2 ^ 44 + 128 * 4 * s.packages * 2 ^ 30)
/-- A read or fetch meets an error of a cell: corrected and counted, or the word becomes marked, before the read that
finds it acts (log 56). -/
def State.upset (s : State) (e : Nat × Bool) : State :=
  if !s.checkedWord e.1 then s
  else if e.2 then s.markWord (8 * e.1)
  else s.modIsland (wordIsland e.1) fun i => { i with ceCount := (i.ceCount + 1) % 2 ^ 32 }

/-! ### Patrol scrub (R276, R323) -/

/-- PATROL_SCRUB_STEP: the next word of a pseudo-channel; error 1 is corrected and counted, 2 is uncorrectable. -/
def execPatrolScrubStep (chan addr : Nat) (error : BitVec 2) (s : State) : Outcome :=
  let t := chanTile chan
  onTile s t <|
    let x := s.tile t
    if x.scrubPtr ≠ addr ∨ !x.pcPowered then .next s
    else
      let s := s.modTile t fun x => { x with scrubPtr := (addr + 8) % 2 ^ 30 }
      if error = 1 then .next (s.modIsland (islandOf t) fun i => { i with ceCount := (i.ceCount + 1) % 2 ^ 32 })
      else if error = 2 then
        .next (((s.markWord (hbmKey chan addr)).modTile t fun x => { x with ueCount := (x.ueCount + 1) % 2 ^ 32 }).logError t 4
          x.lidx false 0 0 (nd addr) 0)
      else .next s

end Sys2Proof.Machine
end

