-- ==== Sys2Proof/Machine/Power.lean ====
section
/-!
DEFINITION. Power (R67, R324-R327): quiet cores, the power states of islands, shares and throttling, and the module's
envelope.
-/
namespace Sys2Proof.Machine

/-! ### Quiet cores (R67) -/

/-- A command whose gate is neither reached nor poisoned, as its riser stands (log 99). -/
def gateShut (s : State) (t : Nat) (w0 : Dword) : Bool := gateNow s t w0 == 0
/-- A channel whose every command waits on its gate riser. -/
def Channel.waits (c : Channel) (s : State) (t : Nat) : Bool :=
  c.started.isEmpty && (match c.fifo with
    | h :: l => gateOff h.w0 != 0 && c.gate == 0 && l.all fun m => gateShut s t m.w0
    | [] => true)
/-- A thread that keeps its core quiet: none, asleep in a wait that goes on, or in QUEUE on a channel that waits. -/
def Thread.quiet (h : Thread) (s : State) (t : Nat) : Bool :=
  let x := s.tile t
  match h.st, h.sleep, h.need with
  | .empty, _, _ => true
  | .sleep, some (.riser _ _ (some e) _), _ => x.halted || (h.woken.isNone && decide (s.tick < e))
  | .sleep, some _, _ => x.halted || h.woken.isNone
  | .queue, _, .channel ch => (x.chans.toList.getD ch {}).waits s t
  | _, _, _ => false
/-- Every matrix entry waits on a gate. -/
def matrixQuiet (s : State) (t : Nat) : Bool :=
  (s.tile t).matrix.queue.all fun e =>
    e.gated && (match e.stage with
      | .gate => e.evals.isEmpty
      | .waiting => gateTest (s.readD (tileKey t e.gateOff)) e.gateTgt == 0
      | _ => false)
/-- Every ladle command waits on a gate, or in a round. -/
def ladleQuiet (s : State) (t : Nat) : Bool :=
  (s.tile t).ladle.queue.all fun c =>
    if c.started then planWaits s t c else if c.watching then c.gate == 0 else gateShut s t c.w0
/-- Requests and spawns on their way to other modules: those that await their link, and those that it has not yet
acknowledged. -/
def State.outward (s : State) : List Packet := s.fabricOut ++ s.links.flatMap fun l => l.2.buffer.flatMap (·.2)

/-- A core is quiet in this cycle. -/
def coreQuiet (s : State) (t : Nat) : Bool :=
  let x := s.tile t
  (x.threads.toList.all fun h => h.quiet s t) && x.inbox.isEmpty && x.intake.isEmpty && x.reqs.isEmpty
    && x.lateChecks.isEmpty && (x.threads.toList.all fun h => h.checks.all fun c => c.answer.isSome)
    && (x.chans.toList.all fun c => c.waits s t) && matrixQuiet s t && ladleQuiet s t
    && !((s.net ++ s.outward ++ s.uio).any fun p =>
      (!p.org.fab && p.org.tile == t && p.org.party != .host) || (isSpawn p.op && p.home == .tile t))
    && !(s.spawns.any fun r => (r.host.isNone && r.org.tile == t) || r.home == .tile t)

/-! ### Islands (R324, R325) -/

/-- The tiles of an island that hold an enabled core. -/
def islandCores (s : State) (i : Nat) : List Nat :=
  (s.tiles.filter fun p => p.2.enabled && islandOf p.1 == i).map (·.1)
/-- Cycles for which a core has been quiet. -/
def quietFor (s : State) (t n : Nat) : Bool := coreQuiet s t && decide ((s.tile t).busyTick + n ≤ s.tick)
/-- Idle for 1,024 cycles, with every slot EMPTY or asleep. -/
def islandIdle (s : State) (ts : List Nat) : Bool :=
  ts.all fun t => quietFor s t 1024 && (s.tile t).threads.toList.all fun h => h.st == .empty || h.st == .sleep

/-- A core waits on a riser of its own. -/
def waitsHere (x : Tile) : Bool := x.threads.toList.any fun h =>
  match h.sleep with
  | some (.riser ..) => true
  | _ => false
def leastLat (l : List Part) : Nat := l.foldl (fun n q => min n q.hostlat) (2 ^ 32)
/-- The island of a package's corner core, where management runs: it is never off (R317, log 80). -/
def State.manages (s : State) (i : Nat) : Bool := (upTo s.packages).any fun p => islandOf (cornerTile p) == i
/-- The deepest state the island's conditions allow: wake times of 40 ns, 4 µs and 400 µs against HOSTLAT. -/
def deepest (s : State) (i : Nat) (ts : List Nat) : Nat :=
  let owners := s.parts.filter fun q => ts.any fun t => (s.tile t).core.pid == q.pid
  let lat := leastLat owners
  min (if ts.any fun t => waitsHere (s.tile t) then 1 else 3)
    (if owners.isEmpty then (if s.manages i then 2 else 3) else if 4000 ≤ lat then 2 else if 40 ≤ lat then 1 else 0)

/-- What a tile keeps in state 3: machine RAM, which lies in memory, and what its router and fuses hold. -/
def Tile.off (x : Tile) : Tile :=
  { fused := x.fused, router := x.router, core := x.core, cycle := x.cycle, evpend := x.evpend, elhead := x.elhead
    elog := x.elog, hriser := x.hriser, pcTrained := x.pcTrained, pcPowered := x.pcPowered, scrubPtr := x.scrubPtr
    ueCount := x.ueCount, transient := x.transient, tested := x.tested, partTick := x.partTick, unscreened := x.unscreened
    busyTick := x.busyTick }
def State.powerOff (s : State) (t : Nat) : State := (s.clearSpad t).modTile t (·.off)

/-- ISLAND_POWER_DOWN: to the deepest state, from any that is less deep (R325). -/
def execIslandPowerDown (island : Nat) (s : State) : Outcome :=
  let ts := islandCores s island
  let p := deepest s island ts
  let i := s.island island
  .next (if p ≤ i.pstate ∨ i.waking.isSome ∨ ts.isEmpty ∨ !islandIdle s ts then s
    else
      let s := if p = 3 then ts.foldl (·.powerOff) s else s
      s.modIsland island fun i => { i with pstate := p, waking := none })

/-- Something is to be delivered to a core, or a timeout has expired there. -/
def deliveryWaits (s : State) (t : Nat) : Bool :=
  (s.net.any fun p => p.home == .tile t || (match p.op with
    | .nb _ dir skip => (receiver s s.side p.org.tile dir skip).any (·.1 == t)
    | _ => false))
    || ((s.tile t).threads.toList.any fun h =>
      !(s.tile t).halted && (h.woken.isSome || (match h.sleep with
        | some (.riser _ _ (some e) _) => decide (e ≤ s.tick)
        | _ => false)))
    || ((s.tile t).chans.toList.any fun c => !c.started.isEmpty)
    || ((s.tile t).ladle.queue.any fun c => c.started && !planWaits s t c)
    || s.tiles.any fun (u, x) => u != t && ((x.ladle.queue.any fun c => c.started && !planWaits s u c)
      || x.chans.toList.any fun c => c.started.any fun r =>
        (destsOf s u r.cmd).any (fun d => match destHome s u r.cmd d with
          | some (.tile v, _) => v == t
          | _ => false)
          || (match locate (s.viewFrom u) (modeOf r.cmd) r.cmd.w1 with
            | some (.mesh y z _) => (s.viewFrom u).meshTile u y z == t
            | some (.abs y z _) => tileOf y z == t
            | _ => false))

/-- ISLAND_WAKE: a delivery or an expiry begins the wake (R325). -/
def execIslandWake (island : Nat) (s : State) : Outcome :=
  .next (if (s.island island).pstate ≠ 0 ∧ (islandCores s island).any (deliveryWaits s) then s.wakeIsland island else s)

/-- The requests of the mailbox that waited for a wake are served (R325), or refused where the state no longer serves
them (R317, R322; log 87). -/
def State.serveWaiting (s : State) : State :=
  (upTo s.packages).foldl
    (fun s p =>
      let m := (s.pack p).mail
      let op := bits m.req 56 8
      if m.done ∨ m.serving.isSome ∨ !(op == 1 || op == 4) then s
      else if !s.opAllowed op then s.respond p 13 0
      else if op = 1 then s.openServe p
      else s.resumeServe p) s

/-- ISLAND_WAKE_COMPLETE: after 40 ns, 4 µs or 400 µs (R324). -/
def execIslandWakeComplete (island : Nat) (s : State) : Outcome :=
  match (s.island island).waking with
  | none => .next s
  | some t =>
    if s.tick < t then .next s
    else .next (s.modIsland island fun i => { i with pstate := 0, waking := none }).serveWaiting

/-! ### Shares (R326) -/

/-- Open children of a partition. -/
def State.openChildren (s : State) (q : Part) : List Part := s.parts.filter fun p => p.parent == q.rcb && p.state == 1
/-- A partition's own budget. -/
def budgetOf (s : State) (q : Part) : Nat :=
  q.power - ((s.openChildren q).filter fun p => !p.inheritsPower).foldl (fun n p => n + p.power) 0
/-- The partitions that draw on a partition's budget: itself, its children that inherit POWER, and theirs. -/
def drawersGo (s : State) : Nat → List Part → List Part
  | 0, l => l
  | n + 1, l =>
    l ++ drawersGo s n (l.flatMap fun q => (s.openChildren q).filter (·.inheritsPower))
def budgetTiles (s : State) (q : Part) : List Nat := (drawersGo s s.parts.length [q]).flatMap s.tilesOf

/-- The share of an island: its part of every partition's budget, scaled (R327). -/
def shareOf (s : State) (island : Nat) : Nat :=
  let sum := (s.parts.filter fun q => q.state == 1 && !q.inheritsPower).foldl
    (fun n q =>
      let ts := budgetTiles s q
      n + budgetOf s q * (ts.filter fun t => islandOf t == island).length / max 1 ts.length) 0
  sum * 9 ^ s.scale / 10 ^ s.scale

/-- The throttle after 10 µs at a measured power. -/
def Island.throttled (i : Island) (power : Nat) : Island :=
  if i.share < power then { i with throttle := max 4 (i.throttle - 1) }
  else if 10 * power < 9 * i.share then { i with throttle := min 16 (i.throttle + 1) }
  else i

/-- SHARE_GRANT: every 10 µs; every island of the package has its share, and power lists those measured, in mW (R326). -/
def execShareGrant (pkg : Nat) (power : List (Nat × Nat)) (s : State) : Outcome :=
  .next (if s.packages ≤ pkg ∨ s.tick % 12500 ≠ 0 then s
    else
      let mine := power.filter fun p => p.1 / 256 == pkg
      let isles := (upTo 256).map (256 * pkg + ·)
      let s := isles.foldl (fun s n => s.modIsland n fun i => { i with share := shareOf s n }) s
      let s := mine.foldl (fun s p => s.modIsland p.1 (·.throttled p.2)) s
      s.modPack pkg fun k =>
        { k with
          power := mine.foldl (fun n p => n + p.2) 0
          share := isles.foldl (fun n p => n + (s.island p).share) 0 })

/-- The envelope of the module in mW (R3): 18 kW, or 1.2 kW of LK64Q-77. -/
def State.envelope (s : State) : Nat :=
  match s.code with
  | .lk1024n => 18000000
  | .lk64q => 1200000

/-- ENVELOPE_CHECK: every 100 µs; the factor 0.9 is applied above 17.5 kW, and again until the sum falls below 16.5 kW
(R327). R327 gives these for the envelope of 18 kW; of another envelope the model takes the same 35/36 and 33/36 (log
77). -/
def execEnvelopeCheck (power : List (Nat × Nat)) (s : State) : Outcome :=
  .next (if s.tick % 125000 ≠ 0 then s
    else
      let s := power.foldl (fun s p => if p.1 < s.packages then s.modPack p.1 fun k => { k with power := p.2 } else s) s
      let sum := (upTo s.packages).foldl (fun n p => n + (s.pack p).power) 0
      { s with scale :=
          if 36 * sum < 33 * s.envelope then 0
          else if s.scale ≠ 0 ∨ 35 * s.envelope < 36 * sum then s.scale + 1
          else 0 })

end Sys2Proof.Machine
end

