-- ==== Sys2Proof/Machine/Boot.lean ====
section
/-!
DEFINITION. The firmware image and its boot (R20-R24, R42, R309, R314, R328-R335): verification, CALIBRATE with the map of
the logical grid and the boot tests, the lattice boot, attestation and the security version.
-/
namespace Sys2Proof.Machine

/-! ### The firmware image (R328) -/

def imgBytes (b : List Byte) (lo n : Nat) : List Byte := (b.drop lo).take n
def imgNat (b : List Byte) (lo n : Nat) : Nat := leVal (imgBytes b lo n)
def fwMagic (b : List Byte) : Nat := imgNat b 0 4
def fwBodySize (b : List Byte) : Nat := imgNat b 4 4
def fwSvn (b : List Byte) : Nat := imgNat b 8 2
def fwResSize (b : List Byte) : Nat := imgNat b 12 4
def fwBody (b : List Byte) : List Byte := imgBytes b 0x200 (fwBodySize b)

/-- The boot ROM accepts the image. -/
def fwAccepted (svn : Nat) (b : List Byte) : Bool :=
  let key := imgBytes b 0x80 97
  fwMagic b == 0x46574C4B && decide (svn ≤ fwSvn b) && Config.sha384 key == Config.keyHash
    && Config.ecdsaVerify (leVal key) (Config.sha384 (imgBytes b 0 0x80 ++ fwBody b)) (imgNat b 0x100 96)
    && fwResSize b % 64 == 0 && decide (0x100 ≤ fwResSize b) && decide (fwResSize b ≤ 0x7000)
    && decide (fwResSize b ≤ fwBodySize b)

/-- The image in the service flash is verified: it runs, or the boot ROM alone serves package 0. -/
def State.verifyFlash (s : State) : State :=
  if fwAccepted s.fuseSvn s.flash then { s with image := s.flash, bootRom := false } else { s with image := [], bootRom := true }

/-- IMAGE_UPDATE, OP 10 of the boot ROM: the image written at offset 0x8_0000 is verified and written to the flash
(R328). The value of RESULT is open (log 3). -/
def execImageUpdate (pkg seq : Nat) (s : State) : Outcome :=
  .next (if pkg ≠ 0 ∨ s.cryo.st = .warmOff then s
    else if !s.bootRom then (s.submit pkg 10 seq fun s => s.respond pkg 11 0)
    else
      s.submit 0 10 seq fun s =>
        let all := Memory.read s.mem (windowKey 0 0x80000) 0x80000
        let b := all.take (0x200 + fwBodySize all)
        let r := s.draw
        let s := if fwAccepted s.fuseSvn b then
            { r.2 with flash := if s.strap then s.flash else b, image := b, bootRom := false }
          else r.2
        s.respond 0 (r.1 % 256) 0)

/-! ### Attestation and the security version (R331, R332) -/

/-- Bytes 0x00 to 0xDF of the report. -/
def attestBody (s : State) (pkg : Nat) : List Byte :=
  (upTo 6).flatMap (fun k => leBytes 8 (s.arg pkg (k + 1)).toNat) ++ leBytes 48 (Config.sha384 s.image)
    ++ leBytes 8 (field 48 16 (fwSvn s.image) + field 32 16 s.fuseSvn + bits s.cryoWord 0 32) ++ leBytes 8 s.jgeom.toNat
    ++ (upTo 8).flatMap (fun c => leBytes 8 (s.widths.getD c 0)) ++ (upTo 16).flatMap (fun p => leBytes 3 (s.pack p).deconf.length)

/-- ATTEST: the 320-byte report goes to host memory (R332). -/
def execAttest (pkg seq : Nat) (s : State) : Outcome :=
  mailbox s pkg 8 seq ((s.arg pkg 0).toNat % 64 != 0) fun s =>
    let body := attestBody s pkg
    let sig := leBytes 96 (Config.ecdsaSign Config.deviceKey (Config.sha384 body))
    (s.writeB (hostKey (s.arg pkg 0).toNat) (body ++ sig)).respond pkg 0 0

/-- SVNCOMMIT (R331). -/
def execSvncommit (pkg seq : Nat) (s : State) : Outcome :=
  mailbox s pkg 9 seq false fun s => { s with fuseSvn := max s.fuseSvn (fwSvn s.image) }.respond pkg 0 0

/-! ### The logical map (R20-R24) -/

/-- A tile is neither fused nor deconfigured. -/
def working (s : State) (t : Nat) : Bool :=
  !(s.tile t).fused && !((s.pack (pkgOf t)).deconf.any (· == deconfEntry 1 0 t))
/-- The working tiles of a die segment, by rising px. -/
def segment (s : State) (py c : Nat) : List Nat := ((upTo 128).map fun i => tileOf py (128 * c + i)).filter (working s)
/-- w_c. -/
def columnWidth (s : State) (c : Nat) : Nat :=
  let w := (upTo s.side).foldl (fun n py => min n (segment s py c).length) 124
  if w < 64 then 0 else w
def mapWidths (s : State) : List Nat := (upTo s.dieCols).map (columnWidth s)
/-- The enabled tiles of a row, by rising px. -/
def rowEnabled (s : State) (ws : List Nat) (py : Nat) : List Nat :=
  (upTo s.dieCols).flatMap fun c => (segment s py c).take (ws.getD c 0)

/-- A router word with LOCK set (R146). -/
def routerWord (py px bound tstate : Nat) : Dword :=
  nd (2 ^ 63 + field 50 10 py + field 40 10 px + field 20 10 bound + tstate)
/-- The router of a tile in the configuration of R21. -/
def mapRouter (s : State) (en : List Nat) (t : Nat) : Dword :=
  let bound := (en.filter fun u => pxOf u < pxOf t).length
  routerWord (pyOf t) (pxOf t) bound (if memNat t en then 1 else if working s t then 2 else 3)

/-- The enabled tiles and the widths of the map that step 2 builds. -/
def State.newMap (s : State) : List Nat × List Nat :=
  let ws := mapWidths s
  ((upTo s.side).flatMap (rowEnabled s ws), ws)
/-- Step 2: every router. -/
def State.buildMap (s : State) : State :=
  (upTo s.side).foldl
    (fun s' py =>
      let en := rowEnabled s (mapWidths s) py
      (upTo s.side).foldl (fun s' px =>
        let t := tileOf py px
        s'.modTile t fun x => writeRouter x (mapRouter s en t)) s') s
/-- Step 4: jgeom, with the generation of a map that differs from the last (R24). -/
def State.setGeometry (s : State) (now : List Nat × List Nat) : State :=
  { s with widths := now.2, lastMap := now, gen := if now = s.lastMap then s.gen else (s.gen + 1) % 65536 }

/-! ### CALIBRATE (R309, R329, R335) -/

def allTiles (s : State) : List Nat := (upTo s.side).flatMap fun py => (upTo s.side).map fun px => tileOf py px

/-- Core reset of a tile: its fuses are kept, the entries of its error log (Reset X, R9), what its pseudo-channel's
controller holds, and a screen that is owed; its pseudo-channel is powered and trained. That ELHEAD is 0 after it, and
that PCUECOUNT and SCRUBPTR are kept, the spec does not say (logs 78, 79). -/
def Tile.coreReset (x : Tile) (t : Nat) : Tile :=
  { fused := x.fused, pcTrained := (dieXY t).1 == 127, pcPowered := (dieXY t).1 == 127, scrubPtr := x.scrubPtr, ueCount := x.ueCount
    elog := x.elog, unscreened := x.unscreened }

/-- The core has counted n cycles since its reset: cores are not reset in one cycle, and "cycle" starts from 0 on each
at its own instant (R335), here at one that the tick chooses. -/
def Tile.ranFor (x : Tile) (n : Nat) : Tile := { x with cycle := n }

/-- Without HBMKEPT nothing that HBM held is left: machine-owned HBM is zeroed, and the rest holds no defined value
(R322, log 1). -/
def State.hbmCleared (s : State) : State :=
  if s.cryo.hbmKept then s
  else
    { s with
      mem := s.mem.filter fun c => decide (c.1 < 2 ^ 44) || decide (2 ^ 60 ≤ c.1)
      marks := s.marks.filter fun w => decide (8 * w < 2 ^ 44) || decide (2 ^ 60 ≤ 8 * w) }

/-- VALID of every NBSEND header is 0 after a core reset (R145, log 100). -/
def State.clearHeaders (s : State) (t : Nat) : State := s.writeB (tileKey t (headerOff 0)) (List.replicate 32 0)

/-- Step 1: islands run at their supply, cores are reset, and links are trained. -/
def State.powerUp (s : State) (c : Calibration) (ts : List Nat) : State :=
  let old := s
  let s := { s with
    tiles := (s.tiles.filter fun (p : Nat × Tile) => p.2.fused).map fun (p : Nat × Tile) => (p.1, { fused := true })
    net := [], spawns := [], walks := [], dieTlb := [], rounds := [], deadLinks := c.dead, routes := c.routes
    links := [], receive := [], uncounted := [], fabricOut := [], uio := [] }
  let s := ts.foldl (fun s t => ((s.clearSpad t).clearHeaders t).setTile t (((old.tile t).coreReset t).ranFor (Config.choice old.free [10, t]))) s
  (upTo (256 * s.packages)).foldl
    (fun s i => s.modIsland i fun k =>
      { k with pstate := if s.strap && !ts.any (fun t => islandOf t == i) then 3 else 0, waking := none, throttle := 16, share := 0
               freq := if s.cryo.band = 0 then 1250 else 1000, vdd := s.supply k })
    { s.hbmCleared with cryo := { s.cryo with managed := false } }

/-- Capabilities at boot: all, less what fuses fence; none for a core whose deconfiguration found the list full (R309,
R316). -/
def bootCaps (s : State) (t : Nat) : Dword :=
  let k := s.pack (pkgOf t)
  if memNat t k.retired then 0
  else
    k.deconf.foldl
      (fun v e => if bits e 62 2 = 2 ∧ bits e 0 20 = tileField t then v &&& ~~~nd (2 ^ bits e 57 5) else v) 0x3FFFF

/-- Step 3: the body of the image in machine-owned HBM, its resident part in every enabled tile, and the boot tests. -/
def State.bootTests (s : State) (c : Calibration) : State :=
  let en := (s.tiles.filter fun p => p.2.enabled).map (·.1)
  let s := s.paWriteBytes (Config.bodyPlace % (s.hbmEnd - 2 ^ 21)) (fwBody s.image)
  let s := en.foldl
    (fun s t =>
      let s := s.writeB (tileKey t mramBase) ((fwBody s.image).take (fwResSize s.image))
      s.modTile t fun x => { x with core := { x.core with jcaps := bootCaps s t }, transient := [], tested := s.tick, partTick := s.tick }) s
  c.tests.foldl (fun s f => if (s.tile f.1).enabled then s.testFailed f.1 f.2.1 f.2.2 else s) s

/-- Step 4: the geometry published in every management window (R42), the only place where w_c can be read (log 82). -/
def State.publish (s : State) : State :=
  (upTo s.packages).foldl
    (fun s p =>
      let s := s.writeN (windowKey p 0x200) 8 s.jgeom.toNat
      (upTo 8).foldl (fun s c => s.writeN (windowKey p (0x208 + 8 * c)) 8 (s.widths.getD c 0)) s) s

/-- A failed CALIBRATE stays, with a KIND 4 notice (R293, R320). -/
def State.calibrateFailed (s : State) (step : Nat) : State :=
  { s with cryo := { s.cryo with st := .calibrate } }.notice 0 4 0 0 0 0 5 (nd step) (nd s.cryo.last.tmax)
def State.ready (s : State) : State :=
  { s with cryo := { s.cryo with st := .coldReady, hbmKept := true, bandASince := s.tick } }

/-- The tiles of the lattice (R333). -/
def latticeTiles : List Nat := (upTo 32).flatMap fun py => (upTo 32).map fun px => tileOf py px
def latticeEdges : List (Nat × Nat) := (upTo 32).flatMap fun i => [(tileOf i 31, 1), (tileOf 31 i, 2)]

/-- The lattice boot: the body in machine RAM of tile (0, 0), whose slot 0 starts in M-mode, and a responder everywhere
else. -/
def State.latticeBoot (s : State) : State :=
  let s := { s with deadLinks := s.deadLinks ++ latticeEdges, fwResident := false }
  let s := s.writeB (tileKey 0 mramBase) ((fwBody s.image).take 0x8000)
  latticeTiles.foldl
    (fun s t =>
      if !working s t then s
      else
        s.modTile t fun x =>
          { (x.modTh 0 fun h =>
              { h with st := .ready, mode := .machine, pc := 0x5000000000000000, jsrseed := x.firstSeed 0 }) with
            core := { x.core with jcaps := 0x3FFFF }
            lattice := if t = 0 then none else some {} }) s

/-- CALIBRATE (R329, R333), with what the hardware answers in it. -/
def State.calibrate (s : State) (c : Calibration) : State :=
  let s := { s with fwResident := false, cryo := { s.cryo with st := .calibrate } }
  let s1 := { s.powerUp c (if s.strap then latticeTiles else allTiles s) with bootRom := false }
  if s.strap then (if c.failStep = 1 then s.calibrateFailed 1 else s1.latticeBoot.ready)
  else if c.failStep = 1 then s.calibrateFailed 1
  else
    let now := s1.newMap
    let s2 := s1.buildMap
    if c.failStep = 2 ∨ now.2.foldl (· + ·) 0 < 64 then s1.calibrateFailed 2
    else if c.failStep = 3 then s2.calibrateFailed 3
    else
      let s3 := (s2.bootTests c)
      let s3 := { s3 with islands := s3.islands.map fun (p : Nat × Island) => (p.1, p.2.fit) }
      if c.failStep = 4 then s3.calibrateFailed 4 else { (s3.setGeometry now).publish with fwResident := true }.ready

/-! ### The lattice responder (R334) -/

/-- A packet: eight doublewords. -/
def latPacket (op py px n arg : Nat) : List Byte := ([op, py, px, n, arg, 0, 0, 0].map (leBytes 8)).flatten
def latWord (b : List Byte) (k : Nat) : Nat := leVal ((b.drop (8 * k)).take 8)

/-- Cfg(py, px, j) of R334. -/
def latCfg (w py px j : Nat) : Dword := routerWord py px (min j w) (if j < w then 1 else 2)

/-- The lowest entry with VALID = 1: its number. -/
def validPacket (s : State) (t : Nat) : Option Nat :=
  (upTo 4).find? fun i => bitAt (s.readD (tileKey t (headerOff i))) 63

/-- Row(P): the configuration of the east neighbour, then the send to the east. -/
def Responder.rowOf (r : Responder) (t op arg k : Nat) : Responder :=
  { r with
    todo := r.todo ++ (if op = 2 ∧ r.px < 31 then [LatTask.cfg (t + 1) (latCfg r.w r.py (r.px + 1) (k + 1))] else [])
      ++ [LatTask.send (latPacket op r.py r.px (k + 1) arg) 1] }

/-- Combine(): the report to the north once both answers are held. -/
def Responder.combine (r : Responder) : Responder :=
  match r.row, decide (r.south = 2) || r.rsouth.isSome with
  | some n, true =>
    { r with
      todo := r.todo ++ [LatTask.send (latPacket 3 r.py r.px (min n (r.rsouth.getD n)) 0) 0], row := none, rsouth := none }
  | _, _ => r

/-- A packet handled: its operation, the direction it came from, and the tiles it skipped. -/
def Responder.take (r : Responder) (t from_ skip : Nat) (b : List Byte) : Responder :=
  let op := latWord b 0
  let k := latWord b 3
  let arg := latWord b 4
  if op = 3 then
    if r.px ≠ 0 then { r with todo := r.todo ++ [LatTask.send b 3] }
    else
      let r := if from_ = 3 then { r with row := some k } else if from_ = 0 then { r with rsouth := some k } else r
      r.combine
  else if from_ = 2 then
    let py := latWord b 1 + 1
    let r := { r with py := py, px := 0, w := if op = 2 then arg else r.w
                      todo := r.todo ++ (if op = 2 then [LatTask.cfg t (latCfg arg py 0 0)] else [])
                        ++ [LatTask.send (latPacket op py (latWord b 2) k arg) 2] }
    r.rowOf t op arg 0
  else if from_ = 1 then
    let py := latWord b 1
    let px := latWord b 2 + 1 + skip
    let w := if op = 2 then arg else r.w
    let own := if op = 2 ∧ 1 ≤ skip then [LatTask.cfg t (latCfg w py px k)] else []
    let west := if op = 2 ∧ skip = 2 then [LatTask.cfg (t - 1) (routerWord py (px - 1) (min k w) 3)] else []
    ({ r with py := py, px := px, south := 2, w := w, todo := r.todo ++ own ++ west } : Responder).rowOf t op arg k
  else r

/-- What follows a send to the east once its status is final. -/
def latAfterEast (s : State) (t : Nat) (r : Responder) (b : List Byte) (status : Nat) : State :=
  let k := latWord b 3 - 1
  if latWord b 0 = 4 then
    let s := s.modTile t fun x => { x with lattice := none }
    if k < r.w then s.modTh t 0 fun h => { h with pc := nd (5 * 2 ^ 60 + latWord b 4 % 2 ^ 15), fbuf := [] } else s.emptySlot t 0
  else if status = 2 then
    let r := if r.px = 0 then { r with row := some (k + 1) }.combine
      else { r with todo := r.todo ++ [LatTask.send (latPacket 3 r.py r.px (k + 1) 0) 3] }
    s.modTile t fun x => { x with lattice := some r }
  else s

/-- A responder's write is one of its slot 0. -/
def latWriter (s : State) (t lsize : Nat) : Writer :=
  { kind := 0, org := { tile := t, epoch := (s.th t 0).epoch, machine := true }, logged := false, lsize := lsize }

/-- NbSend, and what follows its status: stored at the receiver with status 0, held back while its entries are full, while
it is asleep and while an LR hold delays the stores, or status 2 at an edge (R136, R144, R325). -/
def latSend (s : State) (t : Nat) (b : List Byte) (dir : Nat) (k : State → Nat → State) : State :=
  match receiver s s.side t dir 0 with
  | none => k s 2
  | some (u, skip) =>
    match freePacket s u with
    | none => s
    | some i =>
      if !s.awake u then s
      else s.atPort s u (.lattice t) (latWriter s t 6) (packetSpans i) fun s' =>
        k (s'.storePacket u i b dir skip (latWriter s t 6)) 0

/-- The responder's RCFG raises cause 7 (R146): the responder is left, at a pc of the ROM that is open (log 3), for the
trap entry. -/
def State.latTrap (s : State) (t : Nat) (d : Dword) : State :=
  let r := s.draw
  let u := ((r.2.modTile t fun x => { x with lattice := none }).asThread t 0).takeTrap 7 (nd r.1) d none false
  { u with cur := s.cur }

/-- LATTICE_RESPONDER: the next router word, the next send, or the next packet (R334). -/
def execLatticeResponder (tile : Nat) (s : State) : Outcome :=
  onTile s tile <|
    match (s.tile tile).lattice with
    | none => .next s
    | some r =>
      let set (r : Responder) (s : State) : State := s.modTile tile fun x => { x with lattice := some r }
      match r.todo with
      | .cfg u w :: rest =>
        let d : Dword := if u = tile then 0 else if u = tile + 1 then 2 else 4
        if !rcfgReaches s tile u d ∨ routerLocked (s.tile u) then .next (s.latTrap tile d)
        else .next (set { r with todo := rest } (s.modTile u fun x => writeRouter x w))
      | .send b dir :: rest =>
        .next (latSend s tile b dir fun s status =>
          let r := { r with todo := rest, south := if dir = 2 then status else r.south }
          if dir = 1 then latAfterEast (set r s) tile r b status else set r s)
      | [] =>
        match validPacket s tile with
        | none => .next s
        | some i =>
          let h := s.readD (tileKey tile (headerOff i))
          let b := Memory.read s.mem (tileKey tile (packetOff i)) 64
          .next (s.atPort s tile (.lattice tile) (latWriter s tile 3) [(headerOff i, 8)] fun s' =>
            set (r.take tile (bits h 8 2) (bits h 16 8) b)
              (s'.stepWrite tile [(headerOff i, leBytes 8 0)] (latWriter s tile 3) (headerOff i)))

end Sys2Proof.Machine
end

