-- ==== Sys2Proof/Machine/Cryo.lean ====
section
/-!
DEFINITION. Cryogenic operation (R317-R322): power of the carrier, the 1 ms sample with its bands and transitions, and the
CRYO requests of the mailbox; and a submission to the mailbox (R291).
-/
namespace Sys2Proof.Machine

/-! ### Carrier power (R320, R328, R335) -/

/-- What survives without power: fuses, the service flash with guard bands and histories, and what is burned in; and what
is not the module's, the hosts' and the pooled memory. -/
def State.unpowered (s : State) : State :=
  { State.reset with
    code := s.code
    mem := s.mem.filter fun c => decide (2 ^ 65 ≤ c.1)
    tiles := (s.tiles.filter fun p => p.2.fused || p.2.unscreened).map fun p =>
      (p.1, { fused := p.2.fused, unscreened := p.2.unscreened })
    nextId := s.nextId, free := s.free, gen := s.gen, lastMap := s.lastMap, fuseSvn := s.fuseSvn, flash := s.flash
    packs := s.packs.map fun p =>
      (p.1, { deconf := p.2.deconf, retired := p.2.retired, fenceLog := p.2.fenceLog, fenceHead := p.2.fenceHead })
    islands := s.islands.map fun p => (p.1, { guard := p.2.guard, daily := p.2.daily, worn := p.2.worn }) }

/-- CARRIER_POWER_OFF. -/
def execCarrierPowerOff (s : State) : Outcome := .next s.unpowered

/-- Management alone runs, at 250 MHz: the islands of the corner cores (R317, R320). -/
def State.managedIslands (s : State) : State :=
  (upTo (256 * s.packages)).foldl
    (fun s i => s.modIsland i fun k => { k with pstate := if s.manages i then 0 else 3, waking := none, freq := 250 })
    { s with cryo := { s.cryo with managed := true } }

/-- CARRIER_POWER_ON: the time stamp starts from 0, compute islands are off, and the boot ROM verifies the image. -/
def execCarrierPowerOn (strap : Bool) (s : State) : Outcome :=
  .next (if s.cryo.st ≠ .warmOff then s
    else { s with strap := strap, tick := 0, cryo := { s.cryo with st := .warmService } }.managedIslands.verifyFlash)

/-! ### Bands (R317-R319) -/

def bandFloor (b : Nat) : Nat :=
  match b with
  | 1 => 85000
  | 2 => 110000
  | _ => 180000
/-- Since when TMAX has stayed 2 K below a boundary. -/
def lowFrom (old : Option Nat) (b tmax tick : Nat) : Option Nat :=
  if bandFloor b < tmax + 2000 then none else some (old.getD tick)
def dwelled (low : Option Nat) (tick : Nat) : Bool :=
  match low with
  | some t => decide (t + 60 * second ≤ tick)
  | none => false
/-- A band is in force: its boundary is exceeded, or it was in force and has not been left for 60 s. -/
def inBand (c : Cryo) (b : Nat) (low : Option Nat) (tmax tick : Nat) : Bool :=
  decide (bandFloor b < tmax) || (decide (b ≤ c.band) && !dwelled low tick)

/-- The readings, with the carrier sensor's of the 60,000 samples before (R307, log 98). -/
def Cryo.read (c : Cryo) (x : Sensors) : Cryo := { c with last := x, carrier := (x.carrierMax :: c.carrier).take 60001 }
/-- The ramp limit in force, in mK per minute (R320). -/
def rampLimit (x : Sensors) : Nat := if 150000 < x.carrierMax then 3000 else 6000

/-- The sample's effect on the band and on RAMPVIOL (R317, R320). -/
def Cryo.sampled (c : Cryo) (x : Sensors) (tick : Nat) : Cryo :=
  let c := c.read x
  let b := lowFrom c.lowB 1 x.tmax tick
  let d := lowFrom c.lowC 2 x.tmax tick
  let e := lowFrom c.lowD 3 x.tmax tick
  let band := if inBand c 3 e x.tmax tick then 3 else if inBand c 2 d x.tmax tick then 2
    else if inBand c 1 b x.tmax tick then 1 else 0
  { c with
    lowB := b, lowC := d, lowD := e, band := band
    bandASince := if band = 0 ∧ c.band ≠ 0 then tick else c.bandASince
    rampViol := c.rampViol || decide (rampLimit x < c.ramp.natAbs) }

/-- An island's readings, its clock and its supply. -/
def State.islandSample (s : State) (e : Nat × Nat × Nat) : State :=
  s.modIsland e.1 fun i => { i with temp := e.2.1, margin := e.2.2, margins := (e.2.2 :: i.margins).take 1000 }
/-- The clock that runs, in MHz: where management alone runs, in band A, and above it (R317). -/
def Cryo.clock (c : Cryo) : Nat := if c.managed then 250 else if c.band = 0 then 1250 else 1000
def State.islandClocks (s : State) : State :=
  { s with islands := s.islands.map fun (p : Nat × Island) => (p.1, { p.2 with vdd := s.supply p.2, freq := s.cryo.clock }) }

/-- Every open partition is suspended, or closed, its descendants with it, where it has no save area (R317, R319). -/
def State.stopAll (s : State) : State :=
  let open_ (s : State) : List Part := s.parts.filter fun q => q.state == 1 && q.stopping.isNone
  let stop (bad : Part → Bool) (f : State → Nat → State) (s : State) : State :=
    (open_ s).foldl
      (fun s q =>
        match (open_ s).find? (·.pid == q.pid) with
        | some p => if bad p then f s p.pid else s
        | none => s) s
  stop (fun _ => true) State.startSuspend (stop (·.save == 0) State.startClose s)

/-- Compute islands go off once no partition is open or on its way out; those of the corner cores stay (R317). -/
def State.islandsOff (s : State) : State :=
  if s.parts.all fun q => q.state == 2 then
    (((s.tiles.map (·.1)).filter fun t => !s.manages (islandOf t)).foldl (·.powerOff) s).managedIslands
  else s

/-- HBM goes off: what it held is lost, suspended partitions with it. -/
def State.hbmOff (s : State) : State :=
  { s with
    mem := s.mem.filter fun c => decide (c.1 < 2 ^ 44) || decide (2 ^ 60 ≤ c.1)
    marks := s.marks.filter fun w => decide (8 * w < 2 ^ 44) || decide (2 ^ 60 ≤ 8 * w)
    tiles := s.tiles.map fun p => (p.1, { p.2 with pcPowered := false, pcTrained := false })
    parts := [], saves := [], cryo := { s.cryo with hbmKept := false } }

/-! ### The state machine (R320) -/

def spread (x : Sensors) : Nat := x.carrierMax - x.carrierMin
/-- A state is entered: what was accepted of CRYO and the state has no row for is dropped (log 58). -/
def State.enter (s : State) (st : CryoState) : State :=
  { s with cryo := { s.cryo with
      st := st, cool := false, recal := none, warm := s.cryo.warm && (st == .excursion || st == .coldReady) } }
def State.warmService (s : State) : State := { s.islandsOff.hbmOff with fwResident := false }.enter .warmService
/-- A KIND 4 notice of PRECOOL. -/
def State.precoolFailed (s : State) (why val : Nat) : State :=
  (s.enter .warmService).notice 0 4 0 0 0 0 2 (nd why) (nd val)
def State.enterSoak (s : State) : State :=
  let n := if s.cryo.rampViol then 2400 * second else 1200 * second
  let s := s.enter .soak
  { s with cryo := { s.cryo with soakLen := n, soakEnd := s.tick + n } }

/-- The transition that the sample decides, in the order of its state's row. -/
def State.transition (s : State) (x : Sensors) : State :=
  let c := s.cryo
  match c.st with
  | .warmOff => s
  | .warmService =>
    if c.cool ∧ x.carrierMax ≤ 300000 then
      let s := s.enter .precool
      { s with cryo := { s.cryo with precoolAt := s.tick } }
    else s
  | .precool =>
    if x.tmax ≤ 280000 then s.enter .cooldown
    else if c.precoolAt + 3600 * second ≤ s.tick then s.precoolFailed 1 x.tmax
    else if 2000 < spread x then s.precoolFailed 2 (spread x)
    else s
  | .cooldown => if x.tmax ≤ 80000 then s.enterSoak else s
  | .soak =>
    if 85000 < x.tmax ∨ 1000 < spread x then { s with cryo := { c with soakEnd := s.tick + c.soakLen } } else s
  | .calibrate => if 85000 < x.tmax then s.enterSoak else if c.warm then s.enter .warmup else s
  | .coldReady =>
    if c.band ≠ 0 then s.enter .excursion
    else if c.warm then s.enter .warmup
    else
      match c.recal with
      | some k =>
        let s := { s with cryo := { s.cryo with recal := none } }
        if s.parts.all fun q => q.state == 2 then s.calibrate k else s
      | none => s
  | .excursion =>
    if c.band = 0 ∧ c.bandASince + 60 * second ≤ s.tick then s.enter .coldReady
    else if c.band = 3 ∨ c.warm then s.enter .warmup
    else s
  | .warmup => if 280000 ≤ x.carrierMin then s.warmService else s

/-- TMAX: the highest reading of all island, HBM stack and carrier sensors (R317). -/
def highest (x : Sensors) : Sensors :=
  { x with tmax := x.islands.foldl (fun m i => max m i.2.1) (max x.hbm x.carrierMax) }

/-- Ticks of 1 ms. -/
def sampleTicks : Nat := 1250000

/-- TMAX_SAMPLE: every 1 ms (R317, R320). A mailbox request that waits for a wake is served in the state that the sample
leaves (log 87). -/
def execTmaxSample (readings : Sensors) (s : State) : Outcome :=
  let x := highest readings
  .next (if s.cryo.st = .warmOff ∨ s.tick % sampleTicks ≠ 0 then s
    else
      let s := (x.islands.foldl (fun s e => State.islandSample s e) { s with cryo := s.cryo.sampled x s.tick }).islandClocks
      let s := s.transition x
      let s := if 2 ≤ s.cryo.band ∨ s.cryo.st = .warmup then s.stopAll else s
      (if s.cryo.st = .warmup ∨ s.cryo.band = 3 then s.islandsOff else s).serveWaiting)

/-- PRECOOL_TIMEOUT: 60 minutes without TMAX at 280 K, at a sample. -/
def execPrecoolTimeout (s : State) : Outcome :=
  .next (if s.tick % sampleTicks = 0 ∧ s.cryo.st = .precool ∧ s.cryo.precoolAt + 3600 * second ≤ s.tick ∧ 280000 < s.cryo.last.tmax then
      s.precoolFailed 1 s.cryo.last.tmax
    else s)

/-- SOAK_TIMER_EXPIRY: CALIBRATE runs, at a sample (R320, R329, R333). -/
def execSoakTimerExpiry (c : Calibration) (s : State) : Outcome :=
  .next (if s.tick % sampleTicks = 0 ∧ s.cryo.st = .soak ∧ s.cryo.soakEnd ≤ s.tick then s.calibrate c else s)

/-! ### CRYO requests (R322) -/

def cryoBad (s : State) (pkg : Nat) : Bool := bits (s.arg pkg 0) 2 62 != 0 || bits (s.arg pkg 0) 0 2 == 0

/-- CRYO COOL: accepted in WARM_SERVICE, taken at the sample that meets its condition. -/
def execCryoCool (pkg seq : Nat) (s : State) : Outcome :=
  if s.arg pkg 0 ≠ 1 then .next s
  else mailbox s pkg 7 seq false fun s =>
    if s.cryo.st = .warmService then { s with cryo := { s.cryo with cool := true } }.respond pkg 0 0 else s.respond pkg 13 0

/-- CRYO WARM: accepted in CALIBRATE, COLD_READY and EXCURSION; to WARMUP at the next sample. -/
def execCryoWarm (pkg seq : Nat) (s : State) : Outcome :=
  if s.arg pkg 0 ≠ 2 then .next s
  else mailbox s pkg 7 seq false fun s =>
    if s.cryo.st = .calibrate ∨ s.cryo.st = .coldReady ∨ s.cryo.st = .excursion then
      { s with cryo := { s.cryo with warm := true } }.respond pkg 0 0
    else s.respond pkg 13 0

/-- CRYO RECAL: accepted in COLD_READY with no open partition; to CALIBRATE at the next sample. -/
def execCryoRecal (pkg seq : Nat) (c : Calibration) (s : State) : Outcome :=
  if s.arg pkg 0 ≠ 3 then .next s
  else mailbox s pkg 7 seq false fun s =>
    if s.cryo.st = .coldReady ∧ s.parts.all fun q => q.state == 2 then
      { s with cryo := { s.cryo with recal := some c } }.respond pkg 0 0
    else s.respond pkg 13 0

/-! ### Submissions (R291) -/

/-- MAILBOX_SUBMISSION: an 8-byte write to offset 0x0000 of a package's window, served by its operation. A
RECAL is left to CRYO_RECAL, which says what the hardware answers in it. -/
def execMailboxSubmission (pkg : Nat) (v : Dword) (s : State) : Outcome :=
  let seq := bits v 48 8
  match bits v 56 8 with
  | 1 => execOpenPart pkg seq s
  | 2 => execClosePart pkg seq s
  | 3 => execSuspend pkg seq s
  | 4 => execResume pkg seq s
  | 5 => execInval pkg seq s
  | 6 => execHriser pkg seq s
  | 7 =>
    if cryoBad s pkg then mailbox s pkg 7 seq true id
    else if s.arg pkg 0 = 1 then execCryoCool pkg seq s
    else if s.arg pkg 0 = 2 then execCryoWarm pkg seq s
    else .next s
  | 8 => execAttest pkg seq s
  | 9 => execSvncommit pkg seq s
  | 10 => execImageUpdate pkg seq s
  | op => mailbox s pkg op seq true id

end Sys2Proof.Machine
end

