-- ==== Sys2Proof/WellFormed.lean ====
section
/-!
DEFINITION. The conditions of R101, R109 and R260 that an instruction's operands obey beyond the width of their
fields. A word that breaks one of them is illegal (cause 2), so the decoder refuses it. Events carry no word and
are always well formed.
-/
namespace Sys2Proof

/-- INT of R109: .w, .h, .b. -/
def Sfx.isInt : Sfx → Bool
  | .w | .h | .b => true
  | .hu | .bu | .f32 | .bf => false

/-- U of R109: .hu, .bu. -/
def Sfx.isU : Sfx → Bool
  | .hu | .bu => true
  | .w | .h | .b | .f32 | .bf => false

/-- FP of R109: .f32, .bf. -/
def Sfx.isFp : Sfx → Bool
  | .f32 | .bf => true
  | .w | .h | .b | .hu | .bu => false

/-- A register quad names x[f] … x[f+3] and needs f ≤ 28 (R101). -/
def quadOk (f : Reg) : Bool := f.toNat ≤ 28
/-- A register pair is named by an even register (R101). -/
def pairOk (f : Reg) : Bool := f.toNat % 2 = 0
/-- A vector pair needs an even field, a vector quad a multiple of 4 (R101). -/
def vPairOk (v : VReg) : Bool := v.toNat % 2 = 0
def vQuadOk (v : VReg) : Bool := v.toNat % 4 = 0

/-- The unpacked side of VPACK and VUNPACK: a quad for .f32, a pair for .bf (R261). -/
def groupOk (f : Sfx) (v : VReg) : Bool :=
  match f with
  | .f32 => vQuadOk v
  | .bf => vPairOk v
  | .w | .h | .b | .hu | .bu => false

/-- The operands meet every rule of the opcode tables. -/
def wellFormed (i : Instr) : Bool :=
  match i with
  | .spawna _ rs1 _ | .spawn _ rs1 _ _ | .spawnm _ rs1 _ _ | .amsg _ rs1 _ _
  | .cpq _ rs1 _ | .cpqn _ rs1 _ | .ldlq _ rs1 => quadOk rs1
  | .binit _ rs2 => pairOk rs2
  | .vadd f _ _ _ | .vsub f _ _ _ | .vmul f _ _ _ | .vabs f _ _ | .vneg f _ _
  | .vcmpeq f _ _ _ | .vredsum f _ _ | .vscan f _ _ _ => f.isInt || f.isFp
  | .vfma f _ _ _ => f.isFp
  | .vsll f _ _ _ | .vsrl f _ _ _ | .vsra f _ _ _ | .vsel f _ _ _ | .vperm f _ _ _
  | .vslide f _ _ _ | .vbcast f _ _ | .vlds f _ _ _ | .vldx f _ _ _ | .vsts f _ _ _ | .vstx f _ _ _ => f.isInt
  | .vmvx f _ _ _ => f.isInt || f.isU
  | .vcvt dst src _ _ => (dst.isFp || src.isFp) && dst != src
  | .vpack f _ vd vs1 => vPairOk vd && groupOk f vs1
  | .vunpack f _ vd vs1 => groupOk f vd && vPairOk vs1
  | _ => true

end Sys2Proof
end

