-- ==== Sys2Proof/Decode.lean ====
section
/-!
DEFINITION. The decoder and the encoder, both written from the encoding tables of R100-R109 and of the instruction
chapters. A word is first cut into the six fields every format is made of (R100, R104), then each major opcode has
one function. A word that no table lists, or that breaks a rule of R101 or R109, is refused by name.
-/
namespace Sys2Proof

/-- Why bytes are no instruction (R100, R103). -/
inductive DecodeError where
  /-- fewer than four bytes are there -/
  | tooShort
  /-- bits [1:0] are not 0b11: a 16-bit encoding -/
  | compressed
  /-- bits [4:2] are 0b111: a longer encoding -/
  | longer
  /-- a 32-bit word that the opcode tables do not list, or that breaks a field rule -/
  | undefinedWord
  deriving DecidableEq, Repr

/-- The six fields of a word (R100). -/
structure Raw where
  op : BitVec 7
  rd : BitVec 5
  f3 : BitVec 3
  rs1 : BitVec 5
  rs2 : BitVec 5
  f7 : BitVec 7
  deriving DecidableEq, Repr

def Raw.ofWord (w : Word) : Raw :=
  ⟨w.extractLsb' 0 7, w.extractLsb' 7 5, w.extractLsb' 12 3, w.extractLsb' 15 5, w.extractLsb' 20 5,
    w.extractLsb' 25 7⟩

def Raw.toWord (r : Raw) : Word := r.f7 ++ r.rs2 ++ r.rs1 ++ r.f3 ++ r.rd ++ r.op

/-- The I-format immediate, bits [31:20]. -/
def Raw.immI (r : Raw) : BitVec 12 := r.f7 ++ r.rs2
/-- The U-format immediate, bits [31:12]. -/
def Raw.immU (r : Raw) : BitVec 20 := r.f7 ++ r.rs2 ++ r.rs1 ++ r.f3
/-- rs3 of the TS format (R100). -/
def Raw.rs3 (r : Raw) : BitVec 5 := r.f7.extractLsb' 2 5
/-- The copy channel, funct7[1:0] (R107). -/
def Raw.ch (r : Raw) : BitVec 2 := r.f7.extractLsb' 0 2
/-- AQ and RL of the AMO format (R133). -/
def Raw.aq (r : Raw) : Bool := r.f7.getLsbD 1
def Raw.rl (r : Raw) : Bool := r.f7.getLsbD 0

/-- A word of the U or J format. -/
def Raw.ofU (op : BitVec 7) (rd : BitVec 5) (imm : BitVec 20) : Raw :=
  ⟨op, rd, imm.extractLsb' 0 3, imm.extractLsb' 3 5, imm.extractLsb' 8 5, imm.extractLsb' 13 7⟩
/-- A word of the I format. -/
def Raw.ofI (op : BitVec 7) (f3 : BitVec 3) (rd rs1 : BitVec 5) (imm : BitVec 12) : Raw :=
  ⟨op, rd, f3, rs1, imm.extractLsb' 0 5, imm.extractLsb' 5 7⟩

/-- off[20:1] of the J format from word bits [31:12] (ratified format, R100). -/
def offOfU (u : BitVec 20) : BitVec 20 :=
  u.extractLsb' 19 1 ++ u.extractLsb' 0 8 ++ u.extractLsb' 8 1 ++ u.extractLsb' 9 10
/-- Word bits [31:12] of the J format from off[20:1]. -/
def uOfOff (o : BitVec 20) : BitVec 20 :=
  o.extractLsb' 19 1 ++ o.extractLsb' 0 10 ++ o.extractLsb' 10 1 ++ o.extractLsb' 11 8
/-- off[12:1] of the B format from funct7 and the rd field. -/
def offOfB (f7 : BitVec 7) (rd : BitVec 5) : BitVec 12 :=
  f7.extractLsb' 6 1 ++ rd.extractLsb' 0 1 ++ f7.extractLsb' 0 6 ++ rd.extractLsb' 1 4
/-- funct7 and the rd field of the B format from off[12:1]. -/
def bF7 (o : BitVec 12) : BitVec 7 := o.extractLsb' 11 1 ++ o.extractLsb' 4 6
def bRd (o : BitVec 12) : BitVec 5 := o.extractLsb' 0 4 ++ o.extractLsb' 10 1
/-- funct7 of the AMO format. -/
def f7A (f5 : BitVec 5) (aq rl : Bool) : BitVec 7 := f5 ++ BitVec.ofBool aq ++ BitVec.ofBool rl

/-- The instruction, when a field condition holds. -/
def req (p : Prop) [Decidable p] (i : Instr) : Option Instr := if p then some i else none
def reqO (p : Prop) [Decidable p] (i : Option Instr) : Option Instr := if p then i else none
/-- The first of two readings that stands. -/
def firstOf (a b : Option Instr) : Option Instr :=
  match a with
  | some i => some i
  | none => b

/-- A vector register field holds 0-15 (R101). -/
def vregOf (f : BitVec 5) (k : VReg → Option Instr) : Option Instr :=
  if f.extractLsb' 4 1 = 0 then k (f.extractLsb' 0 4) else none
def vregF (v : VReg) : BitVec 5 := 0b0#1 ++ v
/-- An accumulator field holds 0-7 with bits 4 and 3 zero (R101). -/
def accOf (f : BitVec 5) (k : Acc → Option Instr) : Option Instr :=
  if f.extractLsb' 3 2 = 0 then k (f.extractLsb' 0 3) else none
def accF (n : Acc) : BitVec 5 := 0b00#2 ++ n
/-- A register pair field is even (R101). -/
def pairOf (f : BitVec 5) (k : Pair → Option Instr) : Option Instr :=
  if f.extractLsb' 0 1 = 0 then k (f.extractLsb' 1 4) else none
def pairF (p : Pair) : BitVec 5 := p ++ 0b0#1
/-- Element suffix codes (R109); 0b111 is illegal. -/
def sfxOf (f : BitVec 3) (k : Sfx → Option Instr) : Option Instr :=
  match f with
  | 0b000#3 => k .w
  | 0b001#3 => k .h
  | 0b010#3 => k .b
  | 0b011#3 => k .hu
  | 0b100#3 => k .bu
  | 0b101#3 => k .f32
  | 0b110#3 => k .bf
  | _ => none
def sfxCode : Sfx → BitVec 3
  | .w => 0b000#3
  | .h => 0b001#3
  | .b => 0b010#3
  | .hu => 0b011#3
  | .bu => 0b100#3
  | .f32 => 0b101#3
  | .bf => 0b110#3
/-- VCVT's source suffix: the rs2 field, its bits [4:3] zero (R109). -/
def srcOf (f : BitVec 5) (k : Sfx → Option Instr) : Option Instr :=
  if f.extractLsb' 3 2 = 0 then sfxOf (f.extractLsb' 0 3) k else none
/-- VPACK and VUNPACK's format: rs2 = 0 for E4M3, 1 for E5M2 (R109). -/
def fp8Of (f : BitVec 5) (k : Fp8 → Option Instr) : Option Instr :=
  match f with
  | 0b00000#5 => k .e4m3
  | 0b00001#5 => k .e5m2
  | _ => none
def fp8F : Fp8 → BitVec 5
  | .e4m3 => 0b00000#5
  | .e5m2 => 0b00001#5
/-- VSCAN's kind: rs2 = 0 inclusive, 1 exclusive (R109). -/
def flagOf (f : BitVec 5) (k : Bool → Option Instr) : Option Instr :=
  match f with
  | 0b00000#5 => k false
  | 0b00001#5 => k true
  | _ => none
def flagF : Bool → BitVec 5
  | false => 0b00000#5
  | true => 0b00001#5

/-- LOAD (R125). -/
def loadOf (r : Raw) : Option Instr :=
  match r.f3 with
  | 0b000#3 => some (.lb r.rd r.rs1 r.immI)
  | 0b001#3 => some (.lh r.rd r.rs1 r.immI)
  | 0b010#3 => some (.lw r.rd r.rs1 r.immI)
  | 0b011#3 => some (.ld r.rd r.rs1 r.immI)
  | 0b100#3 => some (.lbu r.rd r.rs1 r.immI)
  | 0b101#3 => some (.lhu r.rd r.rs1 r.immI)
  | 0b110#3 => some (.lwu r.rd r.rs1 r.immI)
  | _ => none

/-- STORE (R125). -/
def storeOf (r : Raw) : Option Instr :=
  match r.f3 with
  | 0b000#3 => some (.sb r.rs1 r.rs2 (r.f7 ++ r.rd))
  | 0b001#3 => some (.sh r.rs1 r.rs2 (r.f7 ++ r.rd))
  | 0b010#3 => some (.sw r.rs1 r.rs2 (r.f7 ++ r.rd))
  | 0b011#3 => some (.sd r.rs1 r.rs2 (r.f7 ++ r.rd))
  | _ => none

/-- BRANCH (R122). -/
def branchOf (r : Raw) : Option Instr :=
  match r.f3 with
  | 0b000#3 => some (.beq r.rs1 r.rs2 (offOfB r.f7 r.rd))
  | 0b001#3 => some (.bne r.rs1 r.rs2 (offOfB r.f7 r.rd))
  | 0b100#3 => some (.blt r.rs1 r.rs2 (offOfB r.f7 r.rd))
  | 0b101#3 => some (.bge r.rs1 r.rs2 (offOfB r.f7 r.rd))
  | 0b110#3 => some (.bltu r.rs1 r.rs2 (offOfB r.f7 r.rd))
  | 0b111#3 => some (.bgeu r.rs1 r.rs2 (offOfB r.f7 r.rd))
  | _ => none

/-- MISC-MEM (R137, R138): FENCE with FM 0b0000 or 0b1000 and any predecessor and successor bits, and FENCE.I. -/
def miscMemOf (r : Raw) : Option Instr :=
  match r.f3 with
  | 0b000#3 =>
    reqO (r.rd = 0 ∧ r.rs1 = 0)
      (match r.immI.extractLsb' 8 4 with
       | 0b0000#4 => some (.fence (r.immI.extractLsb' 4 4) (r.immI.extractLsb' 0 4))
       | 0b1000#4 => some (.fenceTso (r.immI.extractLsb' 4 4) (r.immI.extractLsb' 0 4))
       | _ => none)
  | 0b001#3 => req (r.immI = 0 ∧ r.rs1 = 0 ∧ r.rd = 0) .fenceI
  | _ => none

/-- OP-IMM (R118). -/
def opImmOf (r : Raw) : Option Instr :=
  match r.f3 with
  | 0b000#3 => some (.addi r.rd r.rs1 r.immI)
  | 0b010#3 => some (.slti r.rd r.rs1 r.immI)
  | 0b011#3 => some (.sltiu r.rd r.rs1 r.immI)
  | 0b100#3 => some (.xori r.rd r.rs1 r.immI)
  | 0b110#3 => some (.ori r.rd r.rs1 r.immI)
  | 0b111#3 => some (.andi r.rd r.rs1 r.immI)
  | 0b001#3 =>
    req (r.f7.extractLsb' 1 6 = 0b000000#6) (.slli r.rd r.rs1 (r.f7.extractLsb' 0 1 ++ r.rs2))
  | 0b101#3 =>
    firstOf (req (r.f7.extractLsb' 1 6 = 0b000000#6) (.srli r.rd r.rs1 (r.f7.extractLsb' 0 1 ++ r.rs2)))
      (req (r.f7.extractLsb' 1 6 = 0b010000#6) (.srai r.rd r.rs1 (r.f7.extractLsb' 0 1 ++ r.rs2)))
  | _ => none

/-- OP-IMM-32 (R118). -/
def opImm32Of (r : Raw) : Option Instr :=
  match r.f3 with
  | 0b000#3 => some (.addiw r.rd r.rs1 r.immI)
  | 0b001#3 =>
    match r.f7 with
    | 0b0000000#7 => some (.slliw r.rd r.rs1 r.rs2)
    | _ => none
  | 0b101#3 =>
    match r.f7 with
    | 0b0000000#7 => some (.srliw r.rd r.rs1 r.rs2)
    | 0b0100000#7 => some (.sraiw r.rd r.rs1 r.rs2)
    | _ => none
  | _ => none

/-- OP (R118, R120). -/
def opRegOf (r : Raw) : Option Instr :=
  match r.f3 with
  | 0b000#3 =>
    match r.f7 with
    | 0b0000000#7 => some (.add r.rd r.rs1 r.rs2)
    | 0b0100000#7 => some (.sub r.rd r.rs1 r.rs2)
    | 0b0000001#7 => some (.mul r.rd r.rs1 r.rs2)
    | _ => none
  | 0b001#3 =>
    match r.f7 with
    | 0b0000000#7 => some (.sll r.rd r.rs1 r.rs2)
    | 0b0000001#7 => some (.mulh r.rd r.rs1 r.rs2)
    | _ => none
  | 0b010#3 =>
    match r.f7 with
    | 0b0000000#7 => some (.slt r.rd r.rs1 r.rs2)
    | 0b0000001#7 => some (.mulhsu r.rd r.rs1 r.rs2)
    | _ => none
  | 0b011#3 =>
    match r.f7 with
    | 0b0000000#7 => some (.sltu r.rd r.rs1 r.rs2)
    | 0b0000001#7 => some (.mulhu r.rd r.rs1 r.rs2)
    | _ => none
  | 0b100#3 =>
    match r.f7 with
    | 0b0000000#7 => some (.xor r.rd r.rs1 r.rs2)
    | 0b0000001#7 => some (.div r.rd r.rs1 r.rs2)
    | _ => none
  | 0b101#3 =>
    match r.f7 with
    | 0b0000000#7 => some (.srl r.rd r.rs1 r.rs2)
    | 0b0100000#7 => some (.sra r.rd r.rs1 r.rs2)
    | 0b0000001#7 => some (.divu r.rd r.rs1 r.rs2)
    | _ => none
  | 0b110#3 =>
    match r.f7 with
    | 0b0000000#7 => some (.or r.rd r.rs1 r.rs2)
    | 0b0000001#7 => some (.rem r.rd r.rs1 r.rs2)
    | _ => none
  | 0b111#3 =>
    match r.f7 with
    | 0b0000000#7 => some (.and r.rd r.rs1 r.rs2)
    | 0b0000001#7 => some (.remu r.rd r.rs1 r.rs2)
    | _ => none
  | _ => none

/-- OP-32 (R118, R120). -/
def op32Of (r : Raw) : Option Instr :=
  match r.f3 with
  | 0b000#3 =>
    match r.f7 with
    | 0b0000000#7 => some (.addw r.rd r.rs1 r.rs2)
    | 0b0100000#7 => some (.subw r.rd r.rs1 r.rs2)
    | 0b0000001#7 => some (.mulw r.rd r.rs1 r.rs2)
    | _ => none
  | 0b001#3 =>
    match r.f7 with
    | 0b0000000#7 => some (.sllw r.rd r.rs1 r.rs2)
    | _ => none
  | 0b101#3 =>
    match r.f7 with
    | 0b0000000#7 => some (.srlw r.rd r.rs1 r.rs2)
    | 0b0100000#7 => some (.sraw r.rd r.rs1 r.rs2)
    | 0b0000001#7 => some (.divuw r.rd r.rs1 r.rs2)
    | _ => none
  | 0b100#3 =>
    match r.f7 with
    | 0b0000001#7 => some (.divw r.rd r.rs1 r.rs2)
    | _ => none
  | 0b110#3 =>
    match r.f7 with
    | 0b0000001#7 => some (.remw r.rd r.rs1 r.rs2)
    | _ => none
  | 0b111#3 =>
    match r.f7 with
    | 0b0000001#7 => some (.remuw r.rd r.rs1 r.rs2)
    | _ => none
  | _ => none

/-- AMO (R133). -/
def amoOf (r : Raw) : Option Instr :=
  match r.f3 with
  | 0b010#3 =>
    match r.f7.extractLsb' 2 5 with
    | 0b00010#5 => req (r.rs2 = 0) (.lrW r.rd r.rs1 r.aq r.rl)
    | 0b00011#5 => some (.scW r.rd r.rs1 r.rs2 r.aq r.rl)
    | 0b00001#5 => some (.amoswapW r.rd r.rs1 r.rs2 r.aq r.rl)
    | 0b00000#5 => some (.amoaddW r.rd r.rs1 r.rs2 r.aq r.rl)
    | 0b00100#5 => some (.amoxorW r.rd r.rs1 r.rs2 r.aq r.rl)
    | 0b01100#5 => some (.amoandW r.rd r.rs1 r.rs2 r.aq r.rl)
    | 0b01000#5 => some (.amoorW r.rd r.rs1 r.rs2 r.aq r.rl)
    | 0b10000#5 => some (.amominW r.rd r.rs1 r.rs2 r.aq r.rl)
    | 0b10100#5 => some (.amomaxW r.rd r.rs1 r.rs2 r.aq r.rl)
    | 0b11000#5 => some (.amominuW r.rd r.rs1 r.rs2 r.aq r.rl)
    | 0b11100#5 => some (.amomaxuW r.rd r.rs1 r.rs2 r.aq r.rl)
    | _ => none
  | 0b011#3 =>
    match r.f7.extractLsb' 2 5 with
    | 0b00010#5 => req (r.rs2 = 0) (.lrD r.rd r.rs1 r.aq r.rl)
    | 0b00011#5 => some (.scD r.rd r.rs1 r.rs2 r.aq r.rl)
    | 0b00001#5 => some (.amoswapD r.rd r.rs1 r.rs2 r.aq r.rl)
    | 0b00000#5 => some (.amoaddD r.rd r.rs1 r.rs2 r.aq r.rl)
    | 0b00100#5 => some (.amoxorD r.rd r.rs1 r.rs2 r.aq r.rl)
    | 0b01100#5 => some (.amoandD r.rd r.rs1 r.rs2 r.aq r.rl)
    | 0b01000#5 => some (.amoorD r.rd r.rs1 r.rs2 r.aq r.rl)
    | 0b10000#5 => some (.amominD r.rd r.rs1 r.rs2 r.aq r.rl)
    | 0b10100#5 => some (.amomaxD r.rd r.rs1 r.rs2 r.aq r.rl)
    | 0b11000#5 => some (.amominuD r.rd r.rs1 r.rs2 r.aq r.rl)
    | 0b11100#5 => some (.amomaxuD r.rd r.rs1 r.rs2 r.aq r.rl)
    | _ => none
  | _ => none

/-- custom-0 (R105, R106). -/
def custom0Of (r : Raw) : Option Instr :=
  match r.f3 with
  | 0b000#3 =>
    match r.f7 with
    | 0b0000000#7 => req (r.rd = 0 ∧ r.rs1 = 0 ∧ r.rs2 = 0) .quit
    | 0b0000001#7 => req (r.rd = 0 ∧ r.rs1 = 0 ∧ r.rs2 = 0) .yield
    | 0b0000010#7 => req (r.rd = 0 ∧ r.rs1 = 0 ∧ r.rs2 = 0) .hret
    | 0b0000011#7 => req (r.rd = 0 ∧ r.rs2 = 0) (.setprio r.rs1)
    | 0b0000100#7 => some (.spawna r.rd r.rs1 r.rs2)
    | 0b0000101#7 => req (r.rs2 = 0) (.capq r.rd r.rs1)
    | 0b0000110#7 => req (r.rd = 0 ∧ r.rs2 = 0) (.utrap r.rs1)
    | 0b0000111#7 => req (r.rd = 0 ∧ r.rs2 = 0) (.rmark r.rs1)
    | _ => none
  | 0b001#3 => some (.rwaitImm r.rd r.rs1 r.rs2 r.f7)
  | 0b010#3 =>
    match r.f7 with
    | 0b0000000#7 => some (.rwait r.rd r.rs1 r.rs2)
    | 0b0000001#7 => some (.radd r.rd r.rs1 r.rs2)
    | 0b0000010#7 => req (r.rd = 0) (.rpoison r.rs1 r.rs2)
    | 0b0000011#7 => req (r.rd = 0) (.binit r.rs1 r.rs2)
    | 0b0000100#7 => req (r.rs2 = 0) (.barv r.rd r.rs1)
    | 0b0000101#7 => some (.bexp r.rd r.rs1 r.rs2)
    | 0b0000110#7 => req (r.rd = 0) (.bpoison r.rs1 r.rs2)
    | _ => none
  | 0b011#3 =>
    match r.f7.extractLsb' 0 2 with
    | 0b00#2 => some (.spawn r.rd r.rs1 r.rs2 r.rs3)
    | 0b01#2 => some (.spawnm r.rd r.rs1 r.rs2 r.rs3)
    | 0b10#2 => some (.amsg r.rd r.rs1 r.rs2 r.rs3)
    | 0b11#2 => some (.rwaitt r.rd r.rs1 r.rs2 r.rs3)
  | 0b111#3 =>
    match r.f7 with
    | 0b0000000#7 => some (.nbsend r.rd r.rs1 r.rs2)
    | 0b0000001#7 => req (r.rd = 0) (.rcfg r.rs1 r.rs2)
    | 0b0000010#7 => req (r.rd = 0) (.capset r.rs1 r.rs2)
    | _ => none
  | _ => none

/-- custom-1 (R107). -/
def custom1Of (r : Raw) : Option Instr :=
  match r.f3 with
  | 0b000#3 =>
    match r.f7.extractLsb' 0 2 with
    | 0b00#2 => req (r.rd = 0) (.sdc r.rs1 r.rs2 r.rs3)
    | 0b01#2 => req (r.rd = 0) (.swc r.rs1 r.rs2 r.rs3)
    | _ => none
  | 0b001#3 =>
    match r.f7 with
    | 0b0000000#7 => some (.amofaddS r.rd r.rs1 r.rs2)
    | 0b0000001#7 => some (.amofaddBf r.rd r.rs1 r.rs2)
    | 0b0000010#7 => some (.amofmaxS r.rd r.rs1 r.rs2)
    | 0b0000011#7 => some (.amofminS r.rd r.rs1 r.rs2)
    | 0b0000100#7 => some (.amoincbW r.rd r.rs1 r.rs2)
    | 0b0000101#7 => some (.amoincbD r.rd r.rs1 r.rs2)
    | 0b0000110#7 => some (.amocasD r.rd r.rs1 r.rs2)
    | 0b0000111#7 => req (r.rd = 0) (.rsig r.rs1 r.rs2)
    | 0b0001000#7 => req (r.rs1 = 0 ∧ r.rs2 = 0) (.fencef r.rd)
    | _ => none
  | 0b010#3 =>
    match r.f7.extractLsb' 2 5 with
    | 0b00000#5 => req (r.rs2 = 0) (.cpq r.rd r.rs1 r.ch)
    | 0b00001#5 => req (r.rs2 = 0) (.cpqn r.rd r.rs1 r.ch)
    | 0b00010#5 => req (r.rd = 0 ∧ r.rs2 = 0) (.cpwait r.rs1 r.ch)
    | 0b00011#5 => reqO (r.ch = 0b00#2) (req (r.rs2 = 0) (.ldlq r.rd r.rs1))
    | _ => none
  | _ => none

/-- custom-2 (R108). -/
def custom2Of (r : Raw) : Option Instr :=
  match r.f3 with
  | 0b000#3 =>
    match r.f7 with
    | 0b0000000#7 => accOf r.rd fun acc => pairOf r.rs1 fun a => pairOf r.rs2 fun b => some (.mmaE4e4 acc a b)
    | 0b0000001#7 => accOf r.rd fun acc => pairOf r.rs1 fun a => pairOf r.rs2 fun b => some (.mmaE4e5 acc a b)
    | 0b0000010#7 => accOf r.rd fun acc => pairOf r.rs1 fun a => pairOf r.rs2 fun b => some (.mmaE5e4 acc a b)
    | 0b0000011#7 => accOf r.rd fun acc => pairOf r.rs1 fun a => pairOf r.rs2 fun b => some (.mmaE5e5 acc a b)
    | 0b0000100#7 => accOf r.rd fun acc => pairOf r.rs1 fun a => pairOf r.rs2 fun b => some (.mmaBf acc a b)
    | _ => none
  | 0b001#3 =>
    match r.f7 with
    | 0b0000000#7 => accOf r.rd fun acc => req (r.rs1 = 0 ∧ r.rs2 = 0) (.mzero acc)
    | 0b0000001#7 => accOf r.rd fun acc => pairOf r.rs1 fun p => req (r.rs2 = 0) (.mld acc p)
    | 0b0000010#7 => accOf r.rd fun acc => pairOf r.rs1 fun p => req (r.rs2 = 0) (.mstF32 acc p)
    | 0b0000011#7 => accOf r.rd fun acc => pairOf r.rs1 fun p => req (r.rs2 = 0) (.mstBf acc p)
    | 0b0000100#7 => accOf r.rd fun acc => pairOf r.rs1 fun p => req (r.rs2 = 0) (.mstE4m3 acc p)
    | 0b0000101#7 => accOf r.rd fun acc => pairOf r.rs1 fun p => req (r.rs2 = 0) (.mstE5m2 acc p)
    | 0b0000110#7 => req (r.rd = 0) (.mgate r.rs1 r.rs2)
    | 0b0000111#7 => req (r.rd = 0 ∧ r.rs2 = 0) (.mburst r.rs1)
    | 0b0001000#7 => req (r.rd = 0 ∧ r.rs1 = 0 ∧ r.rs2 = 0) .mfence
    | _ => reqO (r.f7.extractLsb' 3 4 = 0b0010#4) (vregOf r.rd fun vd => accOf r.rs1 fun acc => req (r.rs2 = 0) (.mrowv vd acc (r.f7.extractLsb' 0 3)))
  | _ => none

/-- custom-3 (R109): funct7 selects the operation, funct3 the element suffix. -/
def custom3Of (r : Raw) : Option Instr :=
  match r.f7 with
  | 0b0000000#7 => sfxOf r.f3 fun f => vregOf r.rd fun vd => vregOf r.rs1 fun vs1 => vregOf r.rs2 fun vs2 => some (.vadd f vd vs1 vs2)
  | 0b0000001#7 => sfxOf r.f3 fun f => vregOf r.rd fun vd => vregOf r.rs1 fun vs1 => vregOf r.rs2 fun vs2 => some (.vsub f vd vs1 vs2)
  | 0b0000010#7 => sfxOf r.f3 fun f => vregOf r.rd fun vd => vregOf r.rs1 fun vs1 => vregOf r.rs2 fun vs2 => some (.vmul f vd vs1 vs2)
  | 0b0000011#7 => sfxOf r.f3 fun f => vregOf r.rd fun vd => vregOf r.rs1 fun vs1 => vregOf r.rs2 fun vs2 => some (.vfma f vd vs1 vs2)
  | 0b0000100#7 => sfxOf r.f3 fun f => vregOf r.rd fun vd => vregOf r.rs1 fun vs1 => vregOf r.rs2 fun vs2 => some (.vmax f vd vs1 vs2)
  | 0b0000101#7 => sfxOf r.f3 fun f => vregOf r.rd fun vd => vregOf r.rs1 fun vs1 => vregOf r.rs2 fun vs2 => some (.vmin f vd vs1 vs2)
  | 0b0000110#7 => sfxOf r.f3 fun f => vregOf r.rd fun vd => vregOf r.rs1 fun vs1 => req (r.rs2 = 0) (.vabs f vd vs1)
  | 0b0000111#7 => sfxOf r.f3 fun f => vregOf r.rd fun vd => vregOf r.rs1 fun vs1 => req (r.rs2 = 0) (.vneg f vd vs1)
  | 0b0001000#7 => vregOf r.rd fun vd => vregOf r.rs1 fun vs1 => vregOf r.rs2 fun vs2 => req (r.f3 = 0b000#3) (.vand vd vs1 vs2)
  | 0b0001001#7 => vregOf r.rd fun vd => vregOf r.rs1 fun vs1 => vregOf r.rs2 fun vs2 => req (r.f3 = 0b000#3) (.vor vd vs1 vs2)
  | 0b0001010#7 => vregOf r.rd fun vd => vregOf r.rs1 fun vs1 => vregOf r.rs2 fun vs2 => req (r.f3 = 0b000#3) (.vxor vd vs1 vs2)
  | 0b0001011#7 => sfxOf r.f3 fun f => vregOf r.rd fun vd => vregOf r.rs1 fun vs1 => vregOf r.rs2 fun vs2 => some (.vsll f vd vs1 vs2)
  | 0b0001100#7 => sfxOf r.f3 fun f => vregOf r.rd fun vd => vregOf r.rs1 fun vs1 => vregOf r.rs2 fun vs2 => some (.vsrl f vd vs1 vs2)
  | 0b0001101#7 => sfxOf r.f3 fun f => vregOf r.rd fun vd => vregOf r.rs1 fun vs1 => vregOf r.rs2 fun vs2 => some (.vsra f vd vs1 vs2)
  | 0b0010000#7 => sfxOf r.f3 fun f => vregOf r.rd fun vd => vregOf r.rs1 fun vs1 => vregOf r.rs2 fun vs2 => some (.vcmpeq f vd vs1 vs2)
  | 0b0010001#7 => sfxOf r.f3 fun f => vregOf r.rd fun vd => vregOf r.rs1 fun vs1 => vregOf r.rs2 fun vs2 => some (.vcmplt f vd vs1 vs2)
  | 0b0010010#7 => sfxOf r.f3 fun f => vregOf r.rd fun vd => vregOf r.rs1 fun vs1 => vregOf r.rs2 fun vs2 => some (.vcmple f vd vs1 vs2)
  | 0b0010011#7 => sfxOf r.f3 fun f => vregOf r.rd fun vd => vregOf r.rs1 fun vs1 => vregOf r.rs2 fun vs2 => some (.vsel f vd vs1 vs2)
  | 0b0011000#7 => vregOf r.rd fun vd => vregOf r.rs1 fun vs1 => req (r.f3 = 0b101#3 ∧ r.rs2 = 0) (.vrcp vd vs1)
  | 0b0011001#7 => vregOf r.rd fun vd => vregOf r.rs1 fun vs1 => req (r.f3 = 0b101#3 ∧ r.rs2 = 0) (.vrsq vd vs1)
  | 0b0011010#7 => vregOf r.rd fun vd => vregOf r.rs1 fun vs1 => req (r.f3 = 0b101#3 ∧ r.rs2 = 0) (.vexp2 vd vs1)
  | 0b0011011#7 => vregOf r.rd fun vd => vregOf r.rs1 fun vs1 => req (r.f3 = 0b101#3 ∧ r.rs2 = 0) (.vlog2 vd vs1)
  | 0b0100000#7 => sfxOf r.f3 fun dst => srcOf r.rs2 fun src => vregOf r.rd fun vd => vregOf r.rs1 fun vs1 => some (.vcvt dst src vd vs1)
  | 0b0100001#7 => sfxOf r.f3 fun f => fp8Of r.rs2 fun m => vregOf r.rd fun vd => vregOf r.rs1 fun vs1 => some (.vpack f m vd vs1)
  | 0b0100010#7 => sfxOf r.f3 fun f => fp8Of r.rs2 fun m => vregOf r.rd fun vd => vregOf r.rs1 fun vs1 => some (.vunpack f m vd vs1)
  | 0b0101000#7 => sfxOf r.f3 fun f => vregOf r.rd fun vd => vregOf r.rs1 fun vs1 => req (r.rs2 = 0) (.vredsum f vd vs1)
  | 0b0101001#7 => sfxOf r.f3 fun f => vregOf r.rd fun vd => vregOf r.rs1 fun vs1 => req (r.rs2 = 0) (.vredmax f vd vs1)
  | 0b0101010#7 => sfxOf r.f3 fun f => flagOf r.rs2 fun excl => vregOf r.rd fun vd => vregOf r.rs1 fun vs1 => some (.vscan f excl vd vs1)
  | 0b0110000#7 => sfxOf r.f3 fun f => vregOf r.rd fun vd => vregOf r.rs1 fun vs1 => vregOf r.rs2 fun vs2 => some (.vperm f vd vs1 vs2)
  | 0b0110001#7 => sfxOf r.f3 fun f => vregOf r.rd fun vd => vregOf r.rs1 fun vs1 => some (.vslide f vd vs1 r.rs2)
  | 0b0111000#7 => sfxOf r.f3 fun f => vregOf r.rd fun vd => req (r.rs2 = 0) (.vbcast f vd r.rs1)
  | 0b0111001#7 => sfxOf r.f3 fun f => vregOf r.rs1 fun vs1 => some (.vmvx f r.rd vs1 r.rs2)
  | 0b1000000#7 => vregOf r.rd fun vd => req (r.f3 = 0b000#3 ∧ r.rs2 = 0) (.vld vd r.rs1)
  | 0b1000001#7 => sfxOf r.f3 fun f => vregOf r.rd fun vd => some (.vlds f vd r.rs1 r.rs2)
  | 0b1000010#7 => sfxOf r.f3 fun f => vregOf r.rd fun vd => vregOf r.rs2 fun vs2 => some (.vldx f vd r.rs1 vs2)
  | 0b1000011#7 => vregOf r.rd fun vs3 => req (r.f3 = 0b000#3 ∧ r.rs2 = 0) (.vst vs3 r.rs1)
  | 0b1000100#7 => sfxOf r.f3 fun f => vregOf r.rd fun vs3 => some (.vsts f vs3 r.rs1 r.rs2)
  | 0b1000101#7 => sfxOf r.f3 fun f => vregOf r.rd fun vs3 => vregOf r.rs2 fun vs2 => some (.vstx f vs3 r.rs1 vs2)
  | 0b1000110#7 => vregOf r.rd fun vs3 => req (r.f3 = 0b000#3) (.vstc vs3 r.rs1 r.rs2)
  | _ => none

/-- SYSTEM: the Zicsr forms and the four whole-word instructions (R139-R142). -/
def systemOf (r : Raw) : Option Instr :=
  match r.f3 with
  | 0b000#3 =>
    reqO (r.rd = 0 ∧ r.rs1 = 0)
      (match r.immI with
       | 0x000#12 => some .ecall
       | 0x001#12 => some .ebreak
       | 0x302#12 => some .mret
       | 0x105#12 => some .wfi
       | _ => none)
  | 0b001#3 => some (.csrrw r.rd r.immI r.rs1)
  | 0b010#3 => some (.csrrs r.rd r.immI r.rs1)
  | 0b011#3 => some (.csrrc r.rd r.immI r.rs1)
  | 0b101#3 => some (.csrrwi r.rd r.immI r.rs1)
  | 0b110#3 => some (.csrrsi r.rd r.immI r.rs1)
  | 0b111#3 => some (.csrrci r.rd r.immI r.rs1)
  | _ => none

/-- The major opcodes (R103). Every value not listed is illegal. -/
def decodeRaw (r : Raw) : Option Instr :=
  match r.op with
  | 0b0000011#7 => loadOf r
  | 0b0001011#7 => custom0Of r
  | 0b0001111#7 => miscMemOf r
  | 0b0010011#7 => opImmOf r
  | 0b0010111#7 => some (.auipc r.rd r.immU)
  | 0b0011011#7 => opImm32Of r
  | 0b0100011#7 => storeOf r
  | 0b0101011#7 => custom1Of r
  | 0b0101111#7 => amoOf r
  | 0b0110011#7 => opRegOf r
  | 0b0110111#7 => some (.lui r.rd r.immU)
  | 0b0111011#7 => op32Of r
  | 0b1011011#7 => custom2Of r
  | 0b1100011#7 => branchOf r
  | 0b1100111#7 => req (r.f3 = 0b000#3) (.jalr r.rd r.rs1 r.immI)
  | 0b1101111#7 => some (.jal r.rd (offOfU r.immU))
  | 0b1110011#7 => systemOf r
  | 0b1111011#7 => custom3Of r
  | _ => none

/-- The instruction a 32-bit word stands for, or why it stands for none (R100-R109). -/
def decodeWord (w : Word) : Except DecodeError Instr :=
  if w.extractLsb' 0 2 ≠ 0b11#2 then .error .compressed
  else if w.extractLsb' 2 3 = 0b111#3 then .error .longer
  else
    match decodeRaw (Raw.ofWord w) with
    | some i => if wellFormed i then .ok i else .error .undefinedWord
    | none => .error .undefinedWord

/-- Decoding the bytes of memory: one little-endian word (R7, R100), and the bytes after it. Total on any bytes. -/
def decode : List Byte → Except DecodeError (Instr × List Byte)
  | b0 :: b1 :: b2 :: b3 :: rest =>
    match decodeWord (b3 ++ b2 ++ b1 ++ b0) with
    | .ok i => .ok (i, rest)
    | .error e => .error e
  | _ => .error .tooShort

/-- The fields of an instruction's word, by the same encoding tables; none for an event, which has no word. -/
def encodeRaw (i : Instr) : Option Raw :=
  match i with
  | .lui rd imm => some (Raw.ofU 0b0110111#7 rd imm)
  | .auipc rd imm => some (Raw.ofU 0b0010111#7 rd imm)
  | .jal rd off => some (Raw.ofU 0b1101111#7 rd (uOfOff off))
  | .jalr rd rs1 imm => some (Raw.ofI 0b1100111#7 0b000#3 rd rs1 imm)
  | .beq rs1 rs2 off => some ⟨0b1100011#7, bRd off, 0b000#3, rs1, rs2, bF7 off⟩
  | .bne rs1 rs2 off => some ⟨0b1100011#7, bRd off, 0b001#3, rs1, rs2, bF7 off⟩
  | .blt rs1 rs2 off => some ⟨0b1100011#7, bRd off, 0b100#3, rs1, rs2, bF7 off⟩
  | .bge rs1 rs2 off => some ⟨0b1100011#7, bRd off, 0b101#3, rs1, rs2, bF7 off⟩
  | .bltu rs1 rs2 off => some ⟨0b1100011#7, bRd off, 0b110#3, rs1, rs2, bF7 off⟩
  | .bgeu rs1 rs2 off => some ⟨0b1100011#7, bRd off, 0b111#3, rs1, rs2, bF7 off⟩
  | .lb rd rs1 imm => some (Raw.ofI 0b0000011#7 0b000#3 rd rs1 imm)
  | .lh rd rs1 imm => some (Raw.ofI 0b0000011#7 0b001#3 rd rs1 imm)
  | .lw rd rs1 imm => some (Raw.ofI 0b0000011#7 0b010#3 rd rs1 imm)
  | .ld rd rs1 imm => some (Raw.ofI 0b0000011#7 0b011#3 rd rs1 imm)
  | .lbu rd rs1 imm => some (Raw.ofI 0b0000011#7 0b100#3 rd rs1 imm)
  | .lhu rd rs1 imm => some (Raw.ofI 0b0000011#7 0b101#3 rd rs1 imm)
  | .lwu rd rs1 imm => some (Raw.ofI 0b0000011#7 0b110#3 rd rs1 imm)
  | .sb rs1 rs2 imm => some ⟨0b0100011#7, imm.extractLsb' 0 5, 0b000#3, rs1, rs2, imm.extractLsb' 5 7⟩
  | .sh rs1 rs2 imm => some ⟨0b0100011#7, imm.extractLsb' 0 5, 0b001#3, rs1, rs2, imm.extractLsb' 5 7⟩
  | .sw rs1 rs2 imm => some ⟨0b0100011#7, imm.extractLsb' 0 5, 0b010#3, rs1, rs2, imm.extractLsb' 5 7⟩
  | .sd rs1 rs2 imm => some ⟨0b0100011#7, imm.extractLsb' 0 5, 0b011#3, rs1, rs2, imm.extractLsb' 5 7⟩
  | .addi rd rs1 imm => some (Raw.ofI 0b0010011#7 0b000#3 rd rs1 imm)
  | .slti rd rs1 imm => some (Raw.ofI 0b0010011#7 0b010#3 rd rs1 imm)
  | .sltiu rd rs1 imm => some (Raw.ofI 0b0010011#7 0b011#3 rd rs1 imm)
  | .xori rd rs1 imm => some (Raw.ofI 0b0010011#7 0b100#3 rd rs1 imm)
  | .ori rd rs1 imm => some (Raw.ofI 0b0010011#7 0b110#3 rd rs1 imm)
  | .andi rd rs1 imm => some (Raw.ofI 0b0010011#7 0b111#3 rd rs1 imm)
  | .slli rd rs1 sh => some ⟨0b0010011#7, rd, 0b001#3, rs1, sh.extractLsb' 0 5, 0b000000#6 ++ sh.extractLsb' 5 1⟩
  | .srli rd rs1 sh => some ⟨0b0010011#7, rd, 0b101#3, rs1, sh.extractLsb' 0 5, 0b000000#6 ++ sh.extractLsb' 5 1⟩
  | .srai rd rs1 sh => some ⟨0b0010011#7, rd, 0b101#3, rs1, sh.extractLsb' 0 5, 0b010000#6 ++ sh.extractLsb' 5 1⟩
  | .add rd rs1 rs2 => some ⟨0b0110011#7, rd, 0b000#3, rs1, rs2, 0b0000000#7⟩
  | .sub rd rs1 rs2 => some ⟨0b0110011#7, rd, 0b000#3, rs1, rs2, 0b0100000#7⟩
  | .sll rd rs1 rs2 => some ⟨0b0110011#7, rd, 0b001#3, rs1, rs2, 0b0000000#7⟩
  | .slt rd rs1 rs2 => some ⟨0b0110011#7, rd, 0b010#3, rs1, rs2, 0b0000000#7⟩
  | .sltu rd rs1 rs2 => some ⟨0b0110011#7, rd, 0b011#3, rs1, rs2, 0b0000000#7⟩
  | .xor rd rs1 rs2 => some ⟨0b0110011#7, rd, 0b100#3, rs1, rs2, 0b0000000#7⟩
  | .srl rd rs1 rs2 => some ⟨0b0110011#7, rd, 0b101#3, rs1, rs2, 0b0000000#7⟩
  | .sra rd rs1 rs2 => some ⟨0b0110011#7, rd, 0b101#3, rs1, rs2, 0b0100000#7⟩
  | .or rd rs1 rs2 => some ⟨0b0110011#7, rd, 0b110#3, rs1, rs2, 0b0000000#7⟩
  | .and rd rs1 rs2 => some ⟨0b0110011#7, rd, 0b111#3, rs1, rs2, 0b0000000#7⟩
  | .addiw rd rs1 imm => some (Raw.ofI 0b0011011#7 0b000#3 rd rs1 imm)
  | .slliw rd rs1 sh => some ⟨0b0011011#7, rd, 0b001#3, rs1, sh, 0b0000000#7⟩
  | .srliw rd rs1 sh => some ⟨0b0011011#7, rd, 0b101#3, rs1, sh, 0b0000000#7⟩
  | .sraiw rd rs1 sh => some ⟨0b0011011#7, rd, 0b101#3, rs1, sh, 0b0100000#7⟩
  | .addw rd rs1 rs2 => some ⟨0b0111011#7, rd, 0b000#3, rs1, rs2, 0b0000000#7⟩
  | .subw rd rs1 rs2 => some ⟨0b0111011#7, rd, 0b000#3, rs1, rs2, 0b0100000#7⟩
  | .sllw rd rs1 rs2 => some ⟨0b0111011#7, rd, 0b001#3, rs1, rs2, 0b0000000#7⟩
  | .srlw rd rs1 rs2 => some ⟨0b0111011#7, rd, 0b101#3, rs1, rs2, 0b0000000#7⟩
  | .sraw rd rs1 rs2 => some ⟨0b0111011#7, rd, 0b101#3, rs1, rs2, 0b0100000#7⟩
  | .mul rd rs1 rs2 => some ⟨0b0110011#7, rd, 0b000#3, rs1, rs2, 0b0000001#7⟩
  | .mulh rd rs1 rs2 => some ⟨0b0110011#7, rd, 0b001#3, rs1, rs2, 0b0000001#7⟩
  | .mulhsu rd rs1 rs2 => some ⟨0b0110011#7, rd, 0b010#3, rs1, rs2, 0b0000001#7⟩
  | .mulhu rd rs1 rs2 => some ⟨0b0110011#7, rd, 0b011#3, rs1, rs2, 0b0000001#7⟩
  | .div rd rs1 rs2 => some ⟨0b0110011#7, rd, 0b100#3, rs1, rs2, 0b0000001#7⟩
  | .divu rd rs1 rs2 => some ⟨0b0110011#7, rd, 0b101#3, rs1, rs2, 0b0000001#7⟩
  | .rem rd rs1 rs2 => some ⟨0b0110011#7, rd, 0b110#3, rs1, rs2, 0b0000001#7⟩
  | .remu rd rs1 rs2 => some ⟨0b0110011#7, rd, 0b111#3, rs1, rs2, 0b0000001#7⟩
  | .mulw rd rs1 rs2 => some ⟨0b0111011#7, rd, 0b000#3, rs1, rs2, 0b0000001#7⟩
  | .divw rd rs1 rs2 => some ⟨0b0111011#7, rd, 0b100#3, rs1, rs2, 0b0000001#7⟩
  | .divuw rd rs1 rs2 => some ⟨0b0111011#7, rd, 0b101#3, rs1, rs2, 0b0000001#7⟩
  | .remw rd rs1 rs2 => some ⟨0b0111011#7, rd, 0b110#3, rs1, rs2, 0b0000001#7⟩
  | .remuw rd rs1 rs2 => some ⟨0b0111011#7, rd, 0b111#3, rs1, rs2, 0b0000001#7⟩
  | .lrW rd rs1 aq rl => some ⟨0b0101111#7, rd, 0b010#3, rs1, 0, f7A 0b00010#5 aq rl⟩
  | .lrD rd rs1 aq rl => some ⟨0b0101111#7, rd, 0b011#3, rs1, 0, f7A 0b00010#5 aq rl⟩
  | .scW rd rs1 rs2 aq rl => some ⟨0b0101111#7, rd, 0b010#3, rs1, rs2, f7A 0b00011#5 aq rl⟩
  | .scD rd rs1 rs2 aq rl => some ⟨0b0101111#7, rd, 0b011#3, rs1, rs2, f7A 0b00011#5 aq rl⟩
  | .amoswapW rd rs1 rs2 aq rl => some ⟨0b0101111#7, rd, 0b010#3, rs1, rs2, f7A 0b00001#5 aq rl⟩
  | .amoswapD rd rs1 rs2 aq rl => some ⟨0b0101111#7, rd, 0b011#3, rs1, rs2, f7A 0b00001#5 aq rl⟩
  | .amoaddW rd rs1 rs2 aq rl => some ⟨0b0101111#7, rd, 0b010#3, rs1, rs2, f7A 0b00000#5 aq rl⟩
  | .amoaddD rd rs1 rs2 aq rl => some ⟨0b0101111#7, rd, 0b011#3, rs1, rs2, f7A 0b00000#5 aq rl⟩
  | .amoxorW rd rs1 rs2 aq rl => some ⟨0b0101111#7, rd, 0b010#3, rs1, rs2, f7A 0b00100#5 aq rl⟩
  | .amoxorD rd rs1 rs2 aq rl => some ⟨0b0101111#7, rd, 0b011#3, rs1, rs2, f7A 0b00100#5 aq rl⟩
  | .amoandW rd rs1 rs2 aq rl => some ⟨0b0101111#7, rd, 0b010#3, rs1, rs2, f7A 0b01100#5 aq rl⟩
  | .amoandD rd rs1 rs2 aq rl => some ⟨0b0101111#7, rd, 0b011#3, rs1, rs2, f7A 0b01100#5 aq rl⟩
  | .amoorW rd rs1 rs2 aq rl => some ⟨0b0101111#7, rd, 0b010#3, rs1, rs2, f7A 0b01000#5 aq rl⟩
  | .amoorD rd rs1 rs2 aq rl => some ⟨0b0101111#7, rd, 0b011#3, rs1, rs2, f7A 0b01000#5 aq rl⟩
  | .amominW rd rs1 rs2 aq rl => some ⟨0b0101111#7, rd, 0b010#3, rs1, rs2, f7A 0b10000#5 aq rl⟩
  | .amominD rd rs1 rs2 aq rl => some ⟨0b0101111#7, rd, 0b011#3, rs1, rs2, f7A 0b10000#5 aq rl⟩
  | .amomaxW rd rs1 rs2 aq rl => some ⟨0b0101111#7, rd, 0b010#3, rs1, rs2, f7A 0b10100#5 aq rl⟩
  | .amomaxD rd rs1 rs2 aq rl => some ⟨0b0101111#7, rd, 0b011#3, rs1, rs2, f7A 0b10100#5 aq rl⟩
  | .amominuW rd rs1 rs2 aq rl => some ⟨0b0101111#7, rd, 0b010#3, rs1, rs2, f7A 0b11000#5 aq rl⟩
  | .amominuD rd rs1 rs2 aq rl => some ⟨0b0101111#7, rd, 0b011#3, rs1, rs2, f7A 0b11000#5 aq rl⟩
  | .amomaxuW rd rs1 rs2 aq rl => some ⟨0b0101111#7, rd, 0b010#3, rs1, rs2, f7A 0b11100#5 aq rl⟩
  | .amomaxuD rd rs1 rs2 aq rl => some ⟨0b0101111#7, rd, 0b011#3, rs1, rs2, f7A 0b11100#5 aq rl⟩
  | .fence pred succ => some (Raw.ofI 0b0001111#7 0b000#3 0 0 (0b0000#4 ++ pred ++ succ))
  | .fenceTso pred succ => some (Raw.ofI 0b0001111#7 0b000#3 0 0 (0b1000#4 ++ pred ++ succ))
  | .fenceI => some ⟨0b0001111#7, 0b00000#5, 0b001#3, 0b00000#5, 0b00000#5, 0b0000000#7⟩
  | .ecall => some ⟨0b1110011#7, 0b00000#5, 0b000#3, 0b00000#5, 0b00000#5, 0b0000000#7⟩
  | .ebreak => some ⟨0b1110011#7, 0b00000#5, 0b000#3, 0b00000#5, 0b00001#5, 0b0000000#7⟩
  | .mret => some ⟨0b1110011#7, 0b00000#5, 0b000#3, 0b00000#5, 0b00010#5, 0b0011000#7⟩
  | .wfi => some ⟨0b1110011#7, 0b00000#5, 0b000#3, 0b00000#5, 0b00101#5, 0b0001000#7⟩
  | .csrrw rd csr rs1 => some (Raw.ofI 0b1110011#7 0b001#3 rd rs1 csr)
  | .csrrs rd csr rs1 => some (Raw.ofI 0b1110011#7 0b010#3 rd rs1 csr)
  | .csrrc rd csr rs1 => some (Raw.ofI 0b1110011#7 0b011#3 rd rs1 csr)
  | .csrrwi rd csr uimm => some (Raw.ofI 0b1110011#7 0b101#3 rd uimm csr)
  | .csrrsi rd csr uimm => some (Raw.ofI 0b1110011#7 0b110#3 rd uimm csr)
  | .csrrci rd csr uimm => some (Raw.ofI 0b1110011#7 0b111#3 rd uimm csr)
  | .quit => some ⟨0b0001011#7, 0b00000#5, 0b000#3, 0b00000#5, 0b00000#5, 0b0000000#7⟩
  | .yield => some ⟨0b0001011#7, 0b00000#5, 0b000#3, 0b00000#5, 0b00000#5, 0b0000001#7⟩
  | .hret => some ⟨0b0001011#7, 0b00000#5, 0b000#3, 0b00000#5, 0b00000#5, 0b0000010#7⟩
  | .setprio rs1 => some ⟨0b0001011#7, 0, 0b000#3, rs1, 0, 0b0000011#7⟩
  | .spawna rd rs1 rs2 => some ⟨0b0001011#7, rd, 0b000#3, rs1, rs2, 0b0000100#7⟩
  | .capq rd rs1 => some ⟨0b0001011#7, rd, 0b000#3, rs1, 0, 0b0000101#7⟩
  | .utrap rs1 => some ⟨0b0001011#7, 0, 0b000#3, rs1, 0, 0b0000110#7⟩
  | .rmark rs1 => some ⟨0b0001011#7, 0, 0b000#3, rs1, 0, 0b0000111#7⟩
  | .rwaitImm rd rs1 off tgt => some ⟨0b0001011#7, rd, 0b001#3, rs1, off, tgt⟩
  | .rwait rd rs1 rs2 => some ⟨0b0001011#7, rd, 0b010#3, rs1, rs2, 0b0000000#7⟩
  | .radd rd rs1 rs2 => some ⟨0b0001011#7, rd, 0b010#3, rs1, rs2, 0b0000001#7⟩
  | .rpoison rs1 rs2 => some ⟨0b0001011#7, 0, 0b010#3, rs1, rs2, 0b0000010#7⟩
  | .binit rs1 rs2 => some ⟨0b0001011#7, 0, 0b010#3, rs1, rs2, 0b0000011#7⟩
  | .barv rd rs1 => some ⟨0b0001011#7, rd, 0b010#3, rs1, 0, 0b0000100#7⟩
  | .bexp rd rs1 rs2 => some ⟨0b0001011#7, rd, 0b010#3, rs1, rs2, 0b0000101#7⟩
  | .bpoison rs1 rs2 => some ⟨0b0001011#7, 0, 0b010#3, rs1, rs2, 0b0000110#7⟩
  | .spawn rd rs1 rs2 rs3 => some ⟨0b0001011#7, rd, 0b011#3, rs1, rs2, rs3 ++ 0b00#2⟩
  | .spawnm rd rs1 rs2 rs3 => some ⟨0b0001011#7, rd, 0b011#3, rs1, rs2, rs3 ++ 0b01#2⟩
  | .amsg rd rs1 rs2 rs3 => some ⟨0b0001011#7, rd, 0b011#3, rs1, rs2, rs3 ++ 0b10#2⟩
  | .rwaitt rd rs1 rs2 rs3 => some ⟨0b0001011#7, rd, 0b011#3, rs1, rs2, rs3 ++ 0b11#2⟩
  | .nbsend rd rs1 rs2 => some ⟨0b0001011#7, rd, 0b111#3, rs1, rs2, 0b0000000#7⟩
  | .rcfg rs1 rs2 => some ⟨0b0001011#7, 0, 0b111#3, rs1, rs2, 0b0000001#7⟩
  | .capset rs1 rs2 => some ⟨0b0001011#7, 0, 0b111#3, rs1, rs2, 0b0000010#7⟩
  | .sdc rs1 rs2 rs3 => some ⟨0b0101011#7, 0, 0b000#3, rs1, rs2, rs3 ++ 0b00#2⟩
  | .swc rs1 rs2 rs3 => some ⟨0b0101011#7, 0, 0b000#3, rs1, rs2, rs3 ++ 0b01#2⟩
  | .amofaddS rd rs1 rs2 => some ⟨0b0101011#7, rd, 0b001#3, rs1, rs2, 0b0000000#7⟩
  | .amofaddBf rd rs1 rs2 => some ⟨0b0101011#7, rd, 0b001#3, rs1, rs2, 0b0000001#7⟩
  | .amofmaxS rd rs1 rs2 => some ⟨0b0101011#7, rd, 0b001#3, rs1, rs2, 0b0000010#7⟩
  | .amofminS rd rs1 rs2 => some ⟨0b0101011#7, rd, 0b001#3, rs1, rs2, 0b0000011#7⟩
  | .amoincbW rd rs1 rs2 => some ⟨0b0101011#7, rd, 0b001#3, rs1, rs2, 0b0000100#7⟩
  | .amoincbD rd rs1 rs2 => some ⟨0b0101011#7, rd, 0b001#3, rs1, rs2, 0b0000101#7⟩
  | .amocasD rd rs1 rs2 => some ⟨0b0101011#7, rd, 0b001#3, rs1, rs2, 0b0000110#7⟩
  | .rsig rs1 rs2 => some ⟨0b0101011#7, 0, 0b001#3, rs1, rs2, 0b0000111#7⟩
  | .fencef rd => some ⟨0b0101011#7, rd, 0b001#3, 0, 0, 0b0001000#7⟩
  | .cpq rd rs1 ch => some ⟨0b0101011#7, rd, 0b010#3, rs1, 0, 0b00000#5 ++ ch⟩
  | .cpqn rd rs1 ch => some ⟨0b0101011#7, rd, 0b010#3, rs1, 0, 0b00001#5 ++ ch⟩
  | .cpwait rs1 ch => some ⟨0b0101011#7, 0, 0b010#3, rs1, 0, 0b00010#5 ++ ch⟩
  | .ldlq rd rs1 => some ⟨0b0101011#7, rd, 0b010#3, rs1, 0, 0b0001100#7⟩
  | .mmaE4e4 acc a b => some ⟨0b1011011#7, accF acc, 0b000#3, pairF a, pairF b, 0b0000000#7⟩
  | .mmaE4e5 acc a b => some ⟨0b1011011#7, accF acc, 0b000#3, pairF a, pairF b, 0b0000001#7⟩
  | .mmaE5e4 acc a b => some ⟨0b1011011#7, accF acc, 0b000#3, pairF a, pairF b, 0b0000010#7⟩
  | .mmaE5e5 acc a b => some ⟨0b1011011#7, accF acc, 0b000#3, pairF a, pairF b, 0b0000011#7⟩
  | .mmaBf acc a b => some ⟨0b1011011#7, accF acc, 0b000#3, pairF a, pairF b, 0b0000100#7⟩
  | .mzero acc => some ⟨0b1011011#7, accF acc, 0b001#3, 0, 0, 0b0000000#7⟩
  | .mld acc p => some ⟨0b1011011#7, accF acc, 0b001#3, pairF p, 0, 0b0000001#7⟩
  | .mstF32 acc p => some ⟨0b1011011#7, accF acc, 0b001#3, pairF p, 0, 0b0000010#7⟩
  | .mstBf acc p => some ⟨0b1011011#7, accF acc, 0b001#3, pairF p, 0, 0b0000011#7⟩
  | .mstE4m3 acc p => some ⟨0b1011011#7, accF acc, 0b001#3, pairF p, 0, 0b0000100#7⟩
  | .mstE5m2 acc p => some ⟨0b1011011#7, accF acc, 0b001#3, pairF p, 0, 0b0000101#7⟩
  | .mgate rs1 rs2 => some ⟨0b1011011#7, 0, 0b001#3, rs1, rs2, 0b0000110#7⟩
  | .mburst rs1 => some ⟨0b1011011#7, 0, 0b001#3, rs1, 0, 0b0000111#7⟩
  | .mfence => some ⟨0b1011011#7, 0b00000#5, 0b001#3, 0b00000#5, 0b00000#5, 0b0001000#7⟩
  | .mrowv vd acc row => some ⟨0b1011011#7, vregF vd, 0b001#3, accF acc, 0, 0b0010#4 ++ row⟩
  | .vadd f vd vs1 vs2 => some ⟨0b1111011#7, vregF vd, sfxCode f, vregF vs1, vregF vs2, 0b0000000#7⟩
  | .vsub f vd vs1 vs2 => some ⟨0b1111011#7, vregF vd, sfxCode f, vregF vs1, vregF vs2, 0b0000001#7⟩
  | .vmul f vd vs1 vs2 => some ⟨0b1111011#7, vregF vd, sfxCode f, vregF vs1, vregF vs2, 0b0000010#7⟩
  | .vfma f vd vs1 vs2 => some ⟨0b1111011#7, vregF vd, sfxCode f, vregF vs1, vregF vs2, 0b0000011#7⟩
  | .vmax f vd vs1 vs2 => some ⟨0b1111011#7, vregF vd, sfxCode f, vregF vs1, vregF vs2, 0b0000100#7⟩
  | .vmin f vd vs1 vs2 => some ⟨0b1111011#7, vregF vd, sfxCode f, vregF vs1, vregF vs2, 0b0000101#7⟩
  | .vabs f vd vs1 => some ⟨0b1111011#7, vregF vd, sfxCode f, vregF vs1, 0, 0b0000110#7⟩
  | .vneg f vd vs1 => some ⟨0b1111011#7, vregF vd, sfxCode f, vregF vs1, 0, 0b0000111#7⟩
  | .vand vd vs1 vs2 => some ⟨0b1111011#7, vregF vd, 0b000#3, vregF vs1, vregF vs2, 0b0001000#7⟩
  | .vor vd vs1 vs2 => some ⟨0b1111011#7, vregF vd, 0b000#3, vregF vs1, vregF vs2, 0b0001001#7⟩
  | .vxor vd vs1 vs2 => some ⟨0b1111011#7, vregF vd, 0b000#3, vregF vs1, vregF vs2, 0b0001010#7⟩
  | .vsll f vd vs1 vs2 => some ⟨0b1111011#7, vregF vd, sfxCode f, vregF vs1, vregF vs2, 0b0001011#7⟩
  | .vsrl f vd vs1 vs2 => some ⟨0b1111011#7, vregF vd, sfxCode f, vregF vs1, vregF vs2, 0b0001100#7⟩
  | .vsra f vd vs1 vs2 => some ⟨0b1111011#7, vregF vd, sfxCode f, vregF vs1, vregF vs2, 0b0001101#7⟩
  | .vcmpeq f vd vs1 vs2 => some ⟨0b1111011#7, vregF vd, sfxCode f, vregF vs1, vregF vs2, 0b0010000#7⟩
  | .vcmplt f vd vs1 vs2 => some ⟨0b1111011#7, vregF vd, sfxCode f, vregF vs1, vregF vs2, 0b0010001#7⟩
  | .vcmple f vd vs1 vs2 => some ⟨0b1111011#7, vregF vd, sfxCode f, vregF vs1, vregF vs2, 0b0010010#7⟩
  | .vsel f vd vs1 vs2 => some ⟨0b1111011#7, vregF vd, sfxCode f, vregF vs1, vregF vs2, 0b0010011#7⟩
  | .vrcp vd vs1 => some ⟨0b1111011#7, vregF vd, 0b101#3, vregF vs1, 0, 0b0011000#7⟩
  | .vrsq vd vs1 => some ⟨0b1111011#7, vregF vd, 0b101#3, vregF vs1, 0, 0b0011001#7⟩
  | .vexp2 vd vs1 => some ⟨0b1111011#7, vregF vd, 0b101#3, vregF vs1, 0, 0b0011010#7⟩
  | .vlog2 vd vs1 => some ⟨0b1111011#7, vregF vd, 0b101#3, vregF vs1, 0, 0b0011011#7⟩
  | .vcvt dst src vd vs1 => some ⟨0b1111011#7, vregF vd, sfxCode dst, vregF vs1, 0b00#2 ++ sfxCode src, 0b0100000#7⟩
  | .vpack f m vd vs1 => some ⟨0b1111011#7, vregF vd, sfxCode f, vregF vs1, fp8F m, 0b0100001#7⟩
  | .vunpack f m vd vs1 => some ⟨0b1111011#7, vregF vd, sfxCode f, vregF vs1, fp8F m, 0b0100010#7⟩
  | .vredsum f vd vs1 => some ⟨0b1111011#7, vregF vd, sfxCode f, vregF vs1, 0, 0b0101000#7⟩
  | .vredmax f vd vs1 => some ⟨0b1111011#7, vregF vd, sfxCode f, vregF vs1, 0, 0b0101001#7⟩
  | .vscan f excl vd vs1 => some ⟨0b1111011#7, vregF vd, sfxCode f, vregF vs1, flagF excl, 0b0101010#7⟩
  | .vperm f vd vs1 vs2 => some ⟨0b1111011#7, vregF vd, sfxCode f, vregF vs1, vregF vs2, 0b0110000#7⟩
  | .vslide f vd vs1 rs2 => some ⟨0b1111011#7, vregF vd, sfxCode f, vregF vs1, rs2, 0b0110001#7⟩
  | .vbcast f vd rs1 => some ⟨0b1111011#7, vregF vd, sfxCode f, rs1, 0, 0b0111000#7⟩
  | .vmvx f rd vs1 rs2 => some ⟨0b1111011#7, rd, sfxCode f, vregF vs1, rs2, 0b0111001#7⟩
  | .vld vd rs1 => some ⟨0b1111011#7, vregF vd, 0b000#3, rs1, 0, 0b1000000#7⟩
  | .vlds f vd rs1 rs2 => some ⟨0b1111011#7, vregF vd, sfxCode f, rs1, rs2, 0b1000001#7⟩
  | .vldx f vd rs1 vs2 => some ⟨0b1111011#7, vregF vd, sfxCode f, rs1, vregF vs2, 0b1000010#7⟩
  | .vst vs3 rs1 => some ⟨0b1111011#7, vregF vs3, 0b000#3, rs1, 0, 0b1000011#7⟩
  | .vsts f vs3 rs1 rs2 => some ⟨0b1111011#7, vregF vs3, sfxCode f, rs1, rs2, 0b1000100#7⟩
  | .vstx f vs3 rs1 vs2 => some ⟨0b1111011#7, vregF vs3, sfxCode f, rs1, vregF vs2, 0b1000101#7⟩
  | .vstc vs3 rs1 rs2 => some ⟨0b1111011#7, vregF vs3, 0b000#3, rs1, rs2, 0b1000110#7⟩
  | _ => none

/-- The 32-bit word of an instruction (R100). -/
def encodeWord (i : Instr) : Option Word := (encodeRaw i).map Raw.toWord

/-- The bytes of an instruction as they stand in memory, lowest address first (R7). -/
def encode (i : Instr) : Option (List Byte) :=
  (encodeWord i).map fun w =>
    [w.extractLsb' 0 8, w.extractLsb' 8 8, w.extractLsb' 16 8, w.extractLsb' 24 8]

/-- The instruction the decoder reads from an instruction whose bits are w, numbered as the opcode table numbers
them: every instruction is one 32-bit word, laid out little-endian (R7, R100); bits above nbits are 0. -/
def decodeTableWord (nbits w : Nat) : Option Instr :=
  match decode (leBytes 4 (w % 2 ^ nbits)) with
  | .ok (i, _) => some i
  | .error _ => none

end Sys2Proof
end

