-- ==== Sys2Proof/Machine/VectorOps.lean ====
section
/-!
DEFINITION. The vector instructions (R248-R263): elements, arithmetic, conversions, reductions, permutations, and
the vector loads and stores.
-/
namespace Sys2Proof.Machine

/-! ### Elements (R248) -/

/-- Element width in bits. -/
def wBits : Sfx → Nat
  | .w | .f32 => 32
  | .h | .hu | .bf => 16
  | .b | .bu => 8
def isSigned : Sfx → Bool
  | .w | .h | .b => true
  | _ => false
/-- The element format of a floating-point suffix. -/
def fmtOf : Sfx → Option Fmt
  | .f32 => some fp32
  | .bf => some bf16
  | _ => none

/-- The elements of a register, element 0 first, and a register from its elements. -/
def elems (w : Nat) (v : Vec) : List Nat := (upTo (256 / w)).map fun i => bits v (w * i) w
def ofElems (w : Nat) : List Nat → Nat
  | [] => 0
  | e :: r => e % 2 ^ w + 2 ^ w * ofElems w r
def vecOf (w : Nat) (l : List Nat) : Vec := BitVec.ofNat 256 (ofElems w l)

/-- An element as an integer. -/
def elemInt (f : Sfx) (e : Nat) : Int := if isSigned f then Int.bmod e (2 ^ wBits f) else e
/-- An integer as an element: it wraps (R72). -/
def wrap (w : Nat) (i : Int) : Nat := (i % 2 ^ w).toNat

def map1 (w : Nat) (g : Nat → Nat) (a : Vec) : Vec := vecOf w ((elems w a).map g)
def map2 (w : Nat) (g : Nat → Nat → Nat) (a b : Vec) : Vec := vecOf w (List.zipWith g (elems w a) (elems w b))
def map3 (w : Nat) (g : Nat → Nat → Nat → Nat) (a b c : Vec) : Vec :=
  vecOf w (List.zipWith (fun x p => g x p.1 p.2) (elems w a) ((elems w b).zip (elems w c)))

/-- An operation on elements, in integers or in the format of the suffix. -/
def elem1 (f : Sfx) (int : Int → Int) (fp : Fmt → Nat → Nat) (a : Nat) : Nat :=
  match fmtOf f with
  | some t => fp t a
  | none => wrap (wBits f) (int (elemInt f a))
def elem2 (f : Sfx) (int : Int → Int → Int) (fp : Fmt → Nat → Nat → Nat) (a b : Nat) : Nat :=
  match fmtOf f with
  | some t => fp t a b
  | none => wrap (wBits f) (int (elemInt f a) (elemInt f b))

/-- An element as a unit writes it unchanged (R76). -/
def canonicalOf (f : Sfx) (e : Nat) : Nat :=
  match fmtOf f with
  | some t => t.canonical e
  | none => e

/-! ### Classes, latencies, results (R250, R251) -/

/-- The class of a suffix: VINT, VF32 or VBF16. -/
def sfxCap : Sfx → Nat
  | .f32 => 2
  | .bf => 3
  | _ => 1
/-- The latency of a simple operation: 2 for integers, 4 for floating point. -/
def simpleLat (f : Sfx) : Nat := if (fmtOf f).isSome then 4 else 2
def vresult (vd : VReg) (v : Vec) (lat : Nat) (s : State) : Outcome := .next (s.wvLate vd v lat).retire

/-- An instruction of one operand, and of two, of the class its suffix selects. -/
def vec1 (f : Sfx) (lat : Nat) (vd vs1 : VReg) (g : Vec → Vec) (s : State) : Outcome :=
  needCap (sfxCap f) s fun s => vresult vd (g (s.rv vs1)) lat s
def vec2 (f : Sfx) (lat : Nat) (vd vs1 vs2 : VReg) (g : Vec → Vec → Vec) (s : State) : Outcome :=
  needCap (sfxCap f) s fun s => vresult vd (g (s.rv vs1) (s.rv vs2)) lat s

/-- Latency of VMUL: 4 also for integers (R251). -/
def mulLat : Nat := 4

/-! ### Arithmetic (R256) -/

/-- VADD (R256). -/
def execVadd (f : Sfx) (vd vs1 vs2 : VReg) (s : State) : Outcome :=
  vec2 f (simpleLat f) vd vs1 vs2 (map2 (wBits f) (elem2 f (· + ·) Fmt.add)) s

/-- VSUB (R256). -/
def execVsub (f : Sfx) (vd vs1 vs2 : VReg) (s : State) : Outcome :=
  vec2 f (simpleLat f) vd vs1 vs2 (map2 (wBits f) (elem2 f (· - ·) Fmt.sub)) s

/-- VMUL (R256). -/
def execVmul (f : Sfx) (vd vs1 vs2 : VReg) (s : State) : Outcome :=
  vec2 f mulLat vd vs1 vs2 (map2 (wBits f) (elem2 f (· * ·) Fmt.mul)) s

/-- VFMA: vd := vs1 × vs2 + vd, rounded once (R256). -/
def execVfma (f : Sfx) (vd vs1 vs2 : VReg) (s : State) : Outcome :=
  needCap (sfxCap f) s fun s =>
    let t := (fmtOf f).getD fp32
    vresult vd (map3 (wBits f) (fun a b c => t.fma a b c) (s.rv vs1) (s.rv vs2) (s.rv vd)) 4 s

/-- VMAX (R256, R81). -/
def execVmax (f : Sfx) (vd vs1 vs2 : VReg) (s : State) : Outcome :=
  vec2 f (simpleLat f) vd vs1 vs2 (map2 (wBits f) (elem2 f max Fmt.max)) s

/-- VMIN (R256, R81). -/
def execVmin (f : Sfx) (vd vs1 vs2 : VReg) (s : State) : Outcome :=
  vec2 f (simpleLat f) vd vs1 vs2 (map2 (wBits f) (elem2 f min Fmt.min)) s

/-- VABS (R256, R80). -/
def execVabs (f : Sfx) (vd vs1 : VReg) (s : State) : Outcome :=
  vec1 f (simpleLat f) vd vs1 (map1 (wBits f) (elem1 f (fun a => if a < 0 then -a else a) Fmt.abs)) s

/-- VNEG (R256, R80). -/
def execVneg (f : Sfx) (vd vs1 : VReg) (s : State) : Outcome :=
  vec1 f (simpleLat f) vd vs1 (map1 (wBits f) (elem1 f (fun a => -a) Fmt.flip)) s

/-! ### Logic and shifts (R257) -/

/-- VAND (R257). -/
def execVand (vd vs1 vs2 : VReg) (s : State) : Outcome := vresult vd (s.rv vs1 &&& s.rv vs2) 2 s
/-- VOR (R257). -/
def execVor (vd vs1 vs2 : VReg) (s : State) : Outcome := vresult vd (s.rv vs1 ||| s.rv vs2) 2 s
/-- VXOR (R257). -/
def execVxor (vd vs1 vs2 : VReg) (s : State) : Outcome := vresult vd (s.rv vs1 ^^^ s.rv vs2) 2 s

/-- VSLL: by the low log2 w bits of the element of vs2 (R257). -/
def execVsll (f : Sfx) (vd vs1 vs2 : VReg) (s : State) : Outcome :=
  vec2 f 2 vd vs1 vs2 (map2 (wBits f) fun a b => a * 2 ^ (b % wBits f)) s

/-- VSRL (R257). -/
def execVsrl (f : Sfx) (vd vs1 vs2 : VReg) (s : State) : Outcome :=
  vec2 f 2 vd vs1 vs2 (map2 (wBits f) fun a b => a / 2 ^ (b % wBits f)) s

/-- VSRA: arithmetic (R257). -/
def execVsra (f : Sfx) (vd vs1 vs2 : VReg) (s : State) : Outcome :=
  vec2 f 2 vd vs1 vs2 (map2 (wBits f) fun a b => wrap (wBits f) (elemInt f a / 2 ^ (b % wBits f))) s

/-! ### Compares and selection (R258) -/

/-- All ones when a comparison holds (R258). -/
def maskOf (f : Sfx) (int : Int → Int → Bool) (fp : Fmt → Nat → Nat → Bool) (a b : Nat) : Nat :=
  let c :=
    match fmtOf f with
    | some t => fp t a b
    | none => int (elemInt f a) (elemInt f b)
  if c then 2 ^ wBits f - 1 else 0

/-- VCMPEQ (R258). -/
def execVcmpeq (f : Sfx) (vd vs1 vs2 : VReg) (s : State) : Outcome :=
  vec2 f (simpleLat f) vd vs1 vs2 (map2 (wBits f) (maskOf f (fun a b => a == b) Fmt.eq)) s

/-- VCMPLT (R258). -/
def execVcmplt (f : Sfx) (vd vs1 vs2 : VReg) (s : State) : Outcome :=
  vec2 f (simpleLat f) vd vs1 vs2 (map2 (wBits f) (maskOf f (fun a b => decide (a < b)) Fmt.lt)) s

/-- VCMPLE (R258). -/
def execVcmple (f : Sfx) (vd vs1 vs2 : VReg) (s : State) : Outcome :=
  vec2 f (simpleLat f) vd vs1 vs2 (map2 (wBits f) (maskOf f (fun a b => decide (a ≤ b)) Fmt.le)) s

/-- VSEL: the mask is the top bit of each old element of vd; no class (R250, R258). -/
def execVsel (f : Sfx) (vd vs1 vs2 : VReg) (s : State) : Outcome :=
  let w := wBits f
  vresult vd (map3 w (fun a b m => if m / 2 ^ (w - 1) % 2 = 1 then a else b) (s.rv vs1) (s.rv vs2) (s.rv vd)) 2 s

/-! ### Special functions (R251, R259) -/

/-- The core's one special-function unit accepts an instruction every 4 cycles (R251). -/
def special (g : FVal → Nat) (vd vs1 : VReg) (s : State) : Outcome :=
  needCap 4 s fun s =>
    let x := s.here
    if x.cycle < x.sfuFree then .next (s.block .unit (.result x.sfuFree))
    else
      let s := s.modHere fun x => { x with sfuFree := x.cycle + 4 }
      vresult vd (map1 32 (fun a => g (fp32.read a)) (s.rv vs1)) 12 s

/-- VRCP (R88). -/
def execVrcp (vd vs1 : VReg) (s : State) : Outcome := special rcp vd vs1 s
/-- VRSQ (R88). -/
def execVrsq (vd vs1 : VReg) (s : State) : Outcome := special rsqrt vd vs1 s
/-- VEXP2 (R88). -/
def execVexp2 (vd vs1 : VReg) (s : State) : Outcome := special exp2 vd vs1 s
/-- VLOG2 (R88). -/
def execVlog2 (vd vs1 : VReg) (s : State) : Outcome := special Sys2Proof.Machine.log2 vd vs1 s

/-! ### Conversions (R77, R260, R261) -/

/-- One element converted (R77). -/
def convertElem (dst src : Sfx) (e : Nat) : Nat :=
  match fmtOf dst, fmtOf src with
  | some d, some t => d.convert false (t.read e)
  | some d, none => ofInteger d (elemInt src e)
  | none, some t =>
    let w := wBits dst
    let lo : Int := if isSigned dst then -(2 ^ (w - 1) : Nat) else 0
    let hi : Int := if isSigned dst then (2 ^ (w - 1) : Nat) - 1 else (2 ^ w : Nat) - 1
    wrap w (toInteger (t.read e) lo hi)
  | none, none => 0

/-- The stochastic conversion applies: FP32 to BF16 with SRBF = 1 (R87, R260). -/
def State.stochastic (s : State) (dst src : Sfx) : Bool := dst == .bf && src == .f32 && bitAt s.me.jvcfg 1

/-- Every class a conversion needs (R250). -/
def convertCaps (s : State) (dst src : Sfx) : List Nat :=
  (if dst = .f32 ∨ src = .f32 then [2] else []) ++ (if dst = .bf ∨ src = .bf then [3] else [])
    ++ (if (fmtOf dst).isNone ∨ (fmtOf src).isNone then [1] else []) ++ (if s.stochastic dst src then [11] else [])

def needCaps : List Nat → State → (State → Outcome) → Outcome
  | [], s, k => k s
  | c :: r, s, k => needCap c s fun s => needCaps r s k

/-- VCVT: the first n elements convert, the rest of vd are 0; the stochastic form takes one generator step each
(R87, R260). -/
def execVcvt (dst src : Sfx) (vd vs1 : VReg) (s : State) : Outcome :=
  needCaps (convertCaps s dst src) s fun s =>
    let n := 256 / max (wBits dst) (wBits src)
    let l := (elems (wBits src) (s.rv vs1)).take n
    if s.stochastic dst src then
      let r := roundSRs l (low32 s.me.jsrseed)
      vresult vd (vecOf 16 r.1) 4 (s.modMe fun h => { h with jsrseed := zext r.2 })
    else vresult vd (vecOf (wBits dst) (l.map (convertElem dst src))) 4 s

/-- The 32 source values of a pack: element k mod n of register vs1 + k div n (R261). -/
def packSource (s : State) (f : Sfx) (vs1 : VReg) : List FVal :=
  let t := (fmtOf f).getD fp32
  (vgroup f vs1).flatMap fun v => (elems (wBits f) (s.rv v)).map t.read

/-- VPACK (R84, R261). -/
def execVpack (f : Sfx) (m : Fp8) (vd vs1 : VReg) (s : State) : Outcome :=
  needCap 10 s fun s =>
    let r := packMX (packSource s f vs1) m (bitAt s.me.jvcfg 0)
    .next ((s.wvLate vd (vecOf 8 r.2) 6).wvLate (vd + 1) (BitVec.ofNat 256 r.1) 6).retire

/-- The registers of an unpacked block, in order. -/
def writeGroup (w : Nat) : List VReg → List Nat → State → State
  | [], _, s => s
  | v :: r, l, s => writeGroup w r (l.drop (256 / w)) (s.wvLate v (vecOf w (l.take (256 / w))) 4)

/-- VUNPACK (R85, R261). -/
def execVunpack (f : Sfx) (m : Fp8) (vd vs1 : VReg) (s : State) : Outcome :=
  needCap 10 s fun s =>
    let t := (fmtOf f).getD fp32
    let x := bits (s.rv (vs1 + 1)) 0 8
    let l := (elems 8 (s.rv vs1)).map fun e => unpackMX m x e t
    .next (writeGroup (wBits f) (vgroup f vd) l s).retire

/-! ### Reductions and scans (R89, R90, R262) -/

/-- One level of the pairwise tree. -/
def pairUp (g : Nat → Nat → Nat) : List Nat → List Nat
  | a :: b :: r => g a b :: pairUp g r
  | l => l
/-- The tree of R89: n levels of pairs. -/
def tree (g : Nat → Nat → Nat) : Nat → List Nat → Nat
  | 0, l => l.headD 0
  | n + 1, l => tree g n (pairUp g l)

/-- VREDSUM (R89, R262). -/
def execVredsum (f : Sfx) (vd vs1 : VReg) (s : State) : Outcome :=
  vec1 f 8 vd vs1 (fun a => vecOf (wBits f) [tree (elem2 f (· + ·) Fmt.add) 5 (elems (wBits f) a)]) s

/-- VREDMAX (R89, R262). -/
def execVredmax (f : Sfx) (vd vs1 : VReg) (s : State) : Outcome :=
  vec1 f 8 vd vs1 (fun a => vecOf (wBits f) [tree (elem2 f max Fmt.max) 5 (elems (wBits f) a)]) s

/-- The inclusive prefixes after a first value (R90). -/
def scanFrom (g : Nat → Nat → Nat) (p : Nat) : List Nat → List Nat
  | [] => [p]
  | e :: r => p :: scanFrom g (g p e) r
def scan (g : Nat → Nat → Nat) : List Nat → List Nat
  | [] => []
  | e :: r => scanFrom g e r

/-- VSCAN: the exclusive form starts with zero, and a first element that is a NaN is written as the canonical one (R76,
R90, R262). -/
def execVscan (f : Sfx) (excl : Bool) (vd vs1 : VReg) (s : State) : Outcome :=
  vec1 f 8 vd vs1 (fun a =>
    let p := scan (elem2 f (· + ·) Fmt.add) ((elems (wBits f) a).map (canonicalOf f))
    vecOf (wBits f) (if excl then 0 :: p.dropLast else p)) s

/-! ### Moves and permutations (R263) -/

/-- VPERM (R263). -/
def execVperm (f : Sfx) (vd vs1 vs2 : VReg) (s : State) : Outcome :=
  let w := wBits f
  let l := elems w (s.rv vs1)
  vresult vd (vecOf w ((elems w (s.rv vs2)).map fun i => l.getD (i % (256 / w)) 0)) 2 s

/-- VSLIDE (R263). -/
def execVslide (f : Sfx) (vd vs1 : VReg) (rs2 : Reg) (s : State) : Outcome :=
  let w := wBits f
  let l := elems w (s.rv vs1)
  let t := (s.rx rs2).toInt
  vresult vd (vecOf w ((upTo (256 / w)).map fun (i : Nat) =>
    if 0 ≤ (i : Int) - t ∧ (i : Int) - t < (256 / w : Nat) then l.getD ((i : Int) - t).toNat 0 else 0)) 2 s

/-- VBCAST (R263). -/
def execVbcast (f : Sfx) (vd : VReg) (rs1 : Reg) (s : State) : Outcome :=
  let w := wBits f
  let e := bits (s.rx rs1) 0 w
  vresult vd (vecOf w ((upTo (256 / w)).map fun _ => e)) 2 s

/-- VMVX (R263). -/
def execVmvx (f : Sfx) (rd : Reg) (vs1 : VReg) (rs2 : Reg) (s : State) : Outcome :=
  let w := wBits f
  let i := (s.rx rs2).toNat
  let v := if i < 256 / w then loadExt (w / 8) (isSigned f) ((elems w (s.rv vs1)).getD i 0) else 0
  .next (s.wxIn rd v 2).retire

/-! ### Vector memory (R252-R255) -/

/-- Where an element is performed. -/
inductive Place where
  | near (off : Nat)
  | far (home : Home) (off cls : Nat)
  deriving DecidableEq, Repr

/-- An element's address checked as R252 states, translated where it needs to be. -/
def resolve (write : Bool) (size : Nat) (a : Dword) (s : State) (k : Place → State → Outcome) : Outcome :=
  checked s write a size size fun l =>
    match l.localOff with
    | some off => k (.near off) s
    | none =>
      match l with
      | .mgmt .. => .next (s.trap (if write then 7 else 5) a)
      | l => withHome s a l write fun h off cls s => k (.far h off cls) s

/-- Every element's address in ascending order; the first failure decides, and then nothing is performed (R254). -/
def resolveAll (write : Bool) (size : Nat) : List Dword → List Place → State → (List Place → State → Outcome) → Outcome
  | [], ps, s, k => k ps s
  | a :: r, ps, s, k => resolve write size a s fun p s => resolveAll write size r (ps ++ [p]) s k

def Place.isFar : Place → Bool
  | .far .. => true
  | .near _ => false
/-- Request entries for n elements at once (R254). -/
def needEntries (n : Nat) (s : State) (k : State → Outcome) : Outcome :=
  if n = 0 ∨ (s.here.reqs.length + n ≤ 256 ∧ s.myEntries.length + n ≤ 64) then k s
  else .next (s.block .queue .entry)

/-- The requests of the routed elements of a load, each an entry of the access's group (R254). -/
def sendLoads (size gid : Nat) : List (Nat × Dword × Place) → State → State
  | [], s => s
  | (i, a, .far h off cls) :: r, s =>
    sendLoads size gid r (s.issue (.load size) h off cls a { group := some (gid, i), size := size })
  | (_, _, .near _) :: r, s => sendLoads size gid r s

/-- The local elements of an access, each with its part of the stored register. -/
def nearOf (size : Nat) (v : Vec) (l : List (Nat × Dword × Place)) : List (Nat × Dword × Nat × Nat) :=
  l.filterMap fun p => match p.2.2 with
    | .near off => some (p.1, p.2.1, off, bits v (8 * size * p.1) (8 * size))
    | .far .. => none

/-- A load's group is given up: the entries of its elements are free, what they still bring is discarded, and vd stays
as it is (R255, R265). -/
def State.dropGroup (s : State) (r : VecRun) : State :=
  match r.group with
  | none => s
  | some gid => s.modHere (·.dropGroup gid)

/-- A vector access of a slot is cut short by a fault: its local elements are not gone on with, what its routed ones
bring is discarded, and their faults are still reported (R268). -/
def State.cutVec (s : State) (t : Nat) (i : Fin 8) : State :=
  let h := s.th t i
  match h.vec with
  | none => s
  | some r =>
    match r.write, r.group with
    | false, some gid =>
      s.groupStep t gid { slot := i, epoch := h.epoch, quiet := h.mode == .machine || decide (6 ≤ i.val) } fun g => { g with vd := none }
    | _, _ => s

/-- A vector access whose local elements are all performed retires; a load writes vd as a whole, now or when its last
routed element has returned (R254). It counted as an issue when its first element did. -/
def endVec (first : Bool) (r : VecRun) (s : State) : State :=
  let s := s.modMe fun h => { h with vec := none, vecAt := 0 }
  let s :=
    if r.write then s
    else
      match r.group with
      | none => s.wvLate r.vd (BitVec.ofNat 256 r.buf) 3
      | some gid =>
        s.groupStep s.cur.tile gid { slot := s.cur.slot, epoch := s.me.epoch, quiet := s.quietFaults } fun g =>
          { g with buf := BitVec.ofNat 256 (g.buf.toNat + r.buf) }
  if first then s.retire else s.modMe (·.finish (s.me.pc + 4) (decide (6 ≤ s.cur.slot.val)))

/-- An element has been performed: the thread stays in UNIT while there are more (R254). -/
def vecNext (first : Bool) (r : VecRun) (s : State) : State :=
  if r.rest.isEmpty then endVec first r s
  else ((if first then s.noteIssue else s).modMe fun h => { h with vec := some r }).block .unit .element

/-- The next element is not performed yet: an access that has sent nothing issues again, any other waits in UNIT. -/
def vecWaits (first : Bool) (r : VecRun) (s : State) : State :=
  if !first then s
  else if r.group.isNone then s.block .unit .hold
  else (s.noteIssue.modMe fun h => { h with vec := some r }).block .unit .element

/-- The next local element of a vector access, one step at the port, in its turn among all of them: a store waits for a hold
on its granule (R136), and a load that meets a marked word traps (R254, R255). -/
def vecStep (first : Bool) (r : VecRun) (s : State) : Outcome :=
  match r.rest with
  | [] => .next (endVec first r s)
  | (i, a, off, e) :: rest =>
    if r.group.any fun gid => earlierOut s s.cur.tile gid i then .next (vecWaits first r s)
    else if r.write then
      if s.here.held s.cur.tile (s.localWriter r.size) off r.size then .next (vecWaits first r s)
      else .next (vecNext first { r with rest := rest } (s.storeLocal off r.size e))
    else
      localMark (if s.markedIn (s.myKey off) r.size ∧ off < mramBase then s.dropGroup r else s) a off r.size fun s =>
        .next (vecNext first
          { r with rest := rest, buf := r.buf + s.readN (s.myKey off) r.size * 2 ^ (8 * r.size * i) } s)

/-- A local element that meets a marked word of the scratchpad traps before any routed one is sent (R255, R265). -/
def unmarked (near : List (Nat × Dword × Nat × Nat)) (size : Nat) (s : State) (k : State → Outcome) : Outcome :=
  match near.find? fun e => decide (e.2.2.1 < mramBase) && s.markedIn (s.myKey e.2.2.1) size with
  | some e => .next (s.trap 32 e.2.1)
  | none => k s

/-- A vector load of elements of size bytes at the given addresses (R252, R254): its routed elements are requested, and the
first of its local ones is performed. -/
def vload (size : Nat) (vd : VReg) (addrs : List Dword) (s : State) : Outcome :=
  resolveAll false size addrs [] s fun ps s =>
    let l := (upTo addrs.length).zip (addrs.zip ps)
    let far := ps.countP Place.isFar
    let near := nearOf size 0 l
    needEntries far s fun s =>
      if far = 0 then vecStep true { size := size, vd := vd, rest := near } s
      else unmarked near size s fun s =>
        let g : VGroup :=
          { id := s.nextId, slot := s.cur.slot, epoch := s.me.epoch, vd := some vd, width := size
            left := far + (if near.isEmpty then 0 else 1) }
        let s := { s with nextId := s.nextId + 1 }.modHere fun x => { x with groups := x.groups ++ [g] }
        let s := sendLoads size g.id l s
        if near.isEmpty then .next s.retire
        else vecStep true { size := size, vd := vd, group := some g.id, rest := near } s

/-- The routed elements of a vector store in ascending order. An element that has to wait for an interval check leaves the
rest to be sent when the instruction issues again (R175, R254). -/
def sendStores (size : Nat) (gid : Nat) (v : Vec) (k : State → Outcome) : List (Nat × Dword × Place) → State → Outcome
  | [], s => k s
  | (_, _, .near _) :: r, s => sendStores size gid v k r s
  | (i, a, .far h off cls) :: r, s =>
    let go (s : State) : Outcome :=
      let s := s.modHere fun x =>
        { x with groups := x.groups.map fun g => if g.id = gid then { g with left := g.left + 1 } else g }
      let s := s.issue (.store size (bits v (8 * size * i) (8 * size))) h off cls a
        { group := some (gid, i), size := size }
      sendStores size gid v k r (s.modMe fun h => { h with vecAt := h.vecAt + 1 })
    match h with
    | .module m _ _ => countFabric s m go
    | _ => go s

/-- The group of a vector store's routed elements: the one it had if it issues again with some of them sent (R254). -/
def storeGroup (s : State) : Nat := if s.me.vecAt = 0 then s.nextId else s.me.vecGid
/-- The group as the store finds it: empty if it is new, or if all that was sent has returned. -/
def withGroup (s : State) (size : Nat) : State :=
  let gid := storeGroup s
  let s := if s.me.vecAt = 0 then { s with nextId := s.nextId + 1 }.modMe fun h => { h with vecGid := gid } else s
  let g : VGroup := { id := gid, slot := s.cur.slot, epoch := s.me.epoch, width := size }
  s.modHere fun x =>
    if x.groups.any (·.id == gid) then x else { x with groups := (x.groups.filter fun (g : VGroup) => g.left ≠ 0) ++ [g] }

/-- A vector store of elements of size bytes at the given addresses (R252, R254, R255): its routed elements are sent,
and the first of its local ones is performed. -/
def vstore (size : Nat) (v : Vec) (addrs : List Dword) (s : State) : Outcome :=
  resolveAll true size addrs [] s fun ps s =>
    let l := (upTo addrs.length).zip (addrs.zip ps)
    let out := (l.filter fun p => p.2.2.isFar).drop s.me.vecAt
    needEntries out.length s fun s =>
      let gid := storeGroup s
      let run : VecRun :=
        { write := true, size := size, rest := nearOf size v l
          group := if (l.filter (·.2.2.isFar)).isEmpty then none else some gid }
      sendStores size gid v (vecStep true run) out (if out.isEmpty then s else withGroup s size)

/-- Element addresses: with a byte stride, and with unsigned indices in elements (R254). -/
def strided (f : Sfx) (a stride : Dword) : List Dword :=
  (upTo (256 / wBits f)).map fun i => a + BitVec.ofNat 64 i * stride
def indexed (f : Sfx) (a : Dword) (idx : Vec) : List Dword :=
  (elems (wBits f) idx).map fun i => a + BitVec.ofNat 64 (i * (wBits f / 8))

/-- VLD (R252). -/
def execVld (vd : VReg) (rs1 : Reg) (s : State) : Outcome := vload 32 vd [s.rx rs1] s
/-- VLDS (R254). -/
def execVlds (f : Sfx) (vd : VReg) (rs1 rs2 : Reg) (s : State) : Outcome :=
  vload (wBits f / 8) vd (strided f (s.rx rs1) (s.rx rs2)) s
/-- VLDX (R254). -/
def execVldx (f : Sfx) (vd : VReg) (rs1 : Reg) (vs2 : VReg) (s : State) : Outcome :=
  vload (wBits f / 8) vd (indexed f (s.rx rs1) (s.rv vs2)) s
/-- VST (R252). -/
def execVst (vs3 : VReg) (rs1 : Reg) (s : State) : Outcome := vstore 32 (s.rv vs3) [s.rx rs1] s
/-- VSTS (R254). -/
def execVsts (f : Sfx) (vs3 : VReg) (rs1 rs2 : Reg) (s : State) : Outcome :=
  vstore (wBits f / 8) (s.rv vs3) (strided f (s.rx rs1) (s.rx rs2)) s
/-- VSTX (R254). -/
def execVstx (f : Sfx) (vs3 : VReg) (rs1 : Reg) (vs2 : VReg) (s : State) : Outcome :=
  vstore (wBits f / 8) (s.rv vs3) (indexed f (s.rx rs1) (s.rv vs2)) s

/-- VSTC: CountedStore with 32 bytes (R253). -/
def execVstc (vs3 : VReg) (rs1 rs2 : Reg) (s : State) : Outcome :=
  countedBytes 32 (s.rv vs3).toNat (s.rx rs1) (s.rx rs2) s

end Sys2Proof.Machine
end

