-- ==== Sys2Proof/Machine/Issue.lean ====
section
/-!
DEFINITION. One cycle of a core (R36, R44, R47, R57, R121, R134, R138, R237, R246, R251, R266-R268, R273, R326): what each
thread waits for, the selection of a slot, the traps taken in place of an issue, the dispositions of firmware, and the
fetch. The instruction word fetched is left at the cursor, and the step executes it.
-/
namespace Sys2Proof.Machine

/-! ### Fetch (R36, R138) -/

/-- The offset in the tile's storage that a thread fetches from, or the cause of the fetch's trap. -/
def fetchPlace (c : CoreRegs) (h : Thread) : Except Nat Nat :=
  let pc := h.pc.toNat
  if pc % 4 ≠ 0 then .error 0
  else
    match h.mode with
    | .user => if pc < 2 ^ 19 ∧ c.winLo ≤ pc ∧ pc < c.winHi then .ok pc else .error 1
    | .machine => if pc / 2 ^ 15 = 5 * 2 ^ 45 then .ok (mramBase + pc % 2 ^ 15) else .error 1

/-- The next instruction word of a thread: fetched ahead, or as it stands in storage; or the cause of a trap. -/
def nextWord (s : State) (t : Nat) (h : Thread) : Except Nat Word :=
  match fetchPlace (s.tile t).core h with
  | .error c => .error c
  | .ok off =>
    match h.fbuf.find? (·.1 == h.pc) with
    | some e => .ok e.2
    | none => if s.markedIn (tileKey t off) 4 then .error 32 else .ok (BitVec.ofNat 32 (s.readN (tileKey t off) 4))

/-- An uncorrectable word that a fetch of the thread at the cursor meets in machine RAM is logged and left to the
firmware, as for any read of it (R276). -/
def State.fetchedBad (s : State) : State :=
  if s.me.mode = .machine then s.ramFound s.cur.tile s.me.pc (tileKey s.cur.tile (mramBase + s.me.pc.toNat % 2 ^ 15)) 4 else s

/-- The fetch buffer keeps what lies ahead of the pc, up to 64 bytes. -/
def Thread.trimmed (h : Thread) : Thread :=
  { h with fbuf := h.fbuf.filter fun e => decide (h.pc.toNat < e.1.toNat) && decide (e.1.toNat < h.pc.toNat + 64) }

/-! ### What holds an instruction (R44, R121, R127, R134, R251) -/

/-- Memory instructions, which AQ holds back (R134): those that access a word that their own operands address, of any
family. Which instructions R134 means is the model's choice (log 91). -/
def isMemory : Instr → Bool
  | .lb .. | .lh .. | .lw .. | .ld .. | .lbu .. | .lhu .. | .lwu .. | .sb .. | .sh .. | .sw .. | .sd .. | .lrW .. | .lrD ..
  | .scW .. | .scD .. | .amoswapW .. | .amoswapD .. | .amoaddW .. | .amoaddD .. | .amoxorW .. | .amoxorD .. | .amoandW ..
  | .amoandD .. | .amoorW .. | .amoorD .. | .amominW .. | .amominD .. | .amomaxW .. | .amomaxD .. | .amominuW ..
  | .amominuD .. | .amomaxuW .. | .amomaxuD .. | .radd .. | .rsig .. | .rpoison .. | .binit .. | .barv .. | .bexp ..
  | .bpoison .. | .sdc .. | .swc .. | .amofaddS .. | .amofaddBf .. | .amofmaxS .. | .amofminS .. | .amoincbW ..
  | .amoincbD .. | .amocasD .. | .vld .. | .vlds .. | .vldx .. | .vst .. | .vsts .. | .vstx .. | .vstc .. => true
  | _ => false
/-- Instructions that begin a compute of the vector unit, which a throttled island delays (R326). -/
def isVector : Instr → Bool
  | .vadd .. | .vsub .. | .vmul .. | .vfma .. | .vmax .. | .vmin .. | .vabs .. | .vneg .. | .vand .. | .vor .. | .vxor ..
  | .vsll .. | .vsrl .. | .vsra .. | .vcmpeq .. | .vcmplt .. | .vcmple .. | .vsel .. | .vrcp .. | .vrsq .. | .vexp2 ..
  | .vlog2 .. | .vcvt .. | .vpack .. | .vunpack .. | .vredsum .. | .vredmax .. | .vscan .. | .vperm .. | .vslide ..
  | .vbcast .. | .vmvx .. => true
  | _ => false

/-- Why the next instruction of a thread cannot issue in this cycle: its state and what it needs. -/
def holdOf (s : State) (x : Tile) (i : Fin 8) (h : Thread) (throttle : Nat) (ins : Instr) : Option (SlotState × Need) :=
  let n := names s ins
  let regs := n.xr ++ n.xw
  let vregs := n.vr ++ n.vw
  let mine := x.entriesOf i
  let owed := mine.any fun e => match e.rd with
    | some r => regs.any (· == r)
    | none => false
  let vowed := x.groups.any fun g => g.slot == i.val && g.epoch == h.epoch && (match g.vd with
    | some v => vregs.any (· == v)
    | none => false)
  let divides := match x.divider with
    | some (_, slot, epoch, rd, _) => slot == i.val && epoch == h.epoch && rd != 0 && regs.any (· == rd)
    | none => false
  let late := (h.lat.filter fun p => n.xr.any (· == p.1)).map (·.2) ++ (h.vlat.filter fun p => n.vr.any (· == p.1)).map (·.2)
  let until_ := late.foldl max 0
  if owed ∨ vowed then some (.score, .none)
  else if h.acquire ∧ isMemory ins then some (.score, .none)
  else if divides then some (.unit, .divider)
  else if x.cycle < until_ then some (.unit, .result until_)
  else if isVector ins ∧ throttle ≤ x.cycle % 16 then some (.unit, .result (x.cycle + 1))
  else none

/-! ### Faults and events that come before an instruction (R267, R268) -/

/-- Delegated of R266 but for UHOLD and the epc: a fault that arrives at any boundary of the user trap routine, its first
included, is held (R268; the chapter's case of a second rejection during the routine). -/
def delegable (x : Tile) (i : Fin 8) (h : Thread) (cause : Nat) : Bool :=
  h.mode == .user && decide (i.val < 6) && bitAt x.core.jmdeleg cause && decide (8 ≤ bits h.jutvec 2 17)
/-- The pending fault that the thread takes, at its boundary or out of whatever it waits for. -/
def Thread.dueFault (h : Thread) (x : Tile) (i : Fin 8) : Option FaultRec :=
  match h.pend with
  | [] => none
  | f :: _ => if h.mode = .user ∧ !(h.uhold && delegable x i h f.cause) then some f else none

/-- The lowest slot that takes a pending firmware event. -/
def Tile.eventSlot (x : Tile) : Option Nat :=
  if x.evpend = 0 then none
  else (upTo 8).find? fun i => (x.th (slotIx i)).takesEvents && !(x.halted && decide (i < 6))

/-- Slots that issue: a suspension holds the general threads back at their boundaries (R277), and a lattice responder its
slot 0. -/
def Tile.mayIssue (x : Tile) (i : Fin 8) (h : Thread) : Bool :=
  !(x.halted && decide (i.val < 6) && h.vecAt == 0) && !(x.lattice.isSome && i.val == 0)

/-- The fault record of a pending fault waits for an LR hold (R136). -/
def recordHeld (s : State) (t : Nat) (x : Tile) (i : Fin 8) (f : FaultRec) : Bool :=
  let s := s.asThread t i
  x.held t (s.localWriter 32) (s.recordOff f.cause (x.th i).pc false) 32

/-- A thread as the cycle finds it: waits that have ended leave it READY, a fault or an event takes it out of its wait,
and a READY thread whose next instruction is held leaves READY. -/
def classify (s : State) (t throttle : Nat) (x : Tile) (i : Fin 8) : Thread :=
  let h := x.th i
  let ready (h : Thread) : Thread := { h with st := .ready, need := .none }
  let h := match h.st, h.need with
    | .unit, .result c => if c ≤ x.cycle then ready h else h
    | .score, .none => ready h
    | _, _ => h
  if h.st = .empty ∨ !x.mayIssue i h then h
  else if (h.dueFault x i).isSome then
    if h.st = .unit ∧ h.need = .hold ∧ (h.dueFault x i).any (recordHeld s t x i) then h
    else { ready h with sleep := none, woken := none, awaits := none }
  else if h.vec.isSome then h
  else if (h.fwTrap.isSome ∧ s.fwResident) ∨ (x.eventSlot = some i.val ∧ h.vecAt = 0) then
    { ready h with sleep := none, woken := none, awaits := none }
  else if h.st ≠ .ready ∨ (if h.firmware then s.fwResident else decide (6 ≤ i.val) && h.budget == 0) then h
  else
    match nextWord s t h with
    | .error _ => h
    | .ok w =>
      match decodeWord w with
      | .error _ => h
      | .ok ins =>
        match holdOf (s.asThread t i) x i h throttle ins with
        | some (st, need) => { h with st := st, need := need, sleepTs := s.tsc }
        | none => h

/-! ### Selection (R47) -/

/-- The slot of a list with the largest WAIT, ties to the lower slot. -/
def longest (x : Tile) (l : List Nat) : Option Nat :=
  l.foldl
    (fun b i =>
      match b with
      | none => some i
      | some j => if (x.th (slotIx j)).wait < (x.th (slotIx i)).wait then some i else b) none
/-- The slot of a list that issued least recently, ties to the lower slot. -/
def leastRecent (x : Tile) (l : List Nat) : Option Nat :=
  l.foldl
    (fun b i =>
      match b with
      | none => some i
      | some j => if (x.th (slotIx i)).lastIssue < (x.th (slotIx j)).lastIssue then some i else b) none
def Tile.lastOf (x : Tile) (level : Nat) : Nat :=
  match level with
  | 0 => x.last0
  | 1 => x.last1
  | 2 => x.last2
  | _ => x.last3

/-- Select of R47 over the slots that are READY. -/
def Tile.select (x : Tile) (ready : List Nat) : Option Nat :=
  let g := ready.filter (· < 6)
  let hs := ready.filter (6 ≤ ·)
  let old := g.filter fun i => decide (2048 ≤ (x.th (slotIx i)).wait)
  let level (i : Nat) : Nat := x.eprio (x.th (slotIx i))
  if !old.isEmpty then longest x old
  else if !hs.isEmpty then leastRecent x hs
  else
    let top := g.foldl (fun m i => max m (level i)) 0
    let l := g.filter fun i => level i == top
    let waited := l.filter fun i => decide (512 ≤ (x.th (slotIx i)).wait)
    if !waited.isEmpty then longest x waited
    else ((upTo 6).map fun k => (x.lastOf top + 1 + k) % 6).find? fun i => memNat i l

/-! ### Firmware (R267, R273) -/

/-- A fault notice of the thread at the cursor, and the KIND 6 entry of a disposition that ends it: ADDR is mtval, of a trap
with no target or word address too (R272, log 96). -/
def State.faultNotice (s : State) : State :=
  let h := s.me
  let c := s.here.core
  s.notice (pkgOf s.cur.tile) 1 c.pid c.jobid s.here.lidx s.cur.slot h.mcause h.mepc h.mtval
def State.endByFirmware (s : State) (cause : Nat) (notice : Bool) : State :=
  let h := s.me
  let s := s.logError s.cur.tile 6 s.here.lidx false 0 cause h.mtval h.mepc
  let s := if notice then s.faultNotice else s
  s.noteIssue.emptySlot s.cur.tile s.cur.slot

/-- The thread at the cursor resumes by MRET at a pc (R273). -/
def State.resumeAt (s : State) (pc : Dword) : State :=
  (s.modMe fun h =>
    { h with
      mepc := pc, pc := pc, mode := mppOf h.mstatus, mstatus := mkStatus .user true (mpieOf h.mstatus), fwTrap := none
      st := .ready, need := .none }).noteIssue

/-- The notice of every declared stall whose root core is this one: it names the partition that was declared (R293). -/
def State.stallNotices (s : State) (t : Nat) : State :=
  (s.parts.filter fun q => q.owesNotice && s.rootTile q == t).foldl
    (fun s q => (s.notice (pkgOf t) 2 q.pid q.jobid (s.tile t).lidx 0 0 0 0).modPart q.pid fun q => { q with owesNotice := false }) s

/-- Firmware services a core's events: a stall notice for STALL, and the partitions of a bad machine RAM closed. -/
def State.serviceEvents (s : State) (t : Nat) : State :=
  let x := s.tile t
  let c := x.core
  let s := if bitAt x.evpend 1 then s.stallNotices t else s
  let s :=
    if x.ramBad then
      match s.parts.find? (·.pid == c.pid) with
      | some q => s.closeDomain q.jobid q.fdom 0 0 0
      | none => s
    else s
  s.modTile t fun x => { x with evpend := 0, ramBad := false }

/-- The disposition of the trap that the thread at the cursor has taken into firmware. -/
def dispose (s : State) (cause int : Nat) : State :=
  let h := s.me
  if s.handler then s.endByFirmware cause false
  else if int = 1 then (s.serviceEvents s.cur.tile).resumeAt h.mepc
  else if cause = 8 then (s.wx 10 0xFFFFFFFFFFFFFFFF).resumeAt (h.mepc + 4)
  else s.endByFirmware cause true

/-! ### The cycle -/

/-- What the selected slot does in its cycle: a disposition, a trap, or the fetch of an instruction. A handler without
budget takes cause 27 before any fault of its fetch (log 90). -/
def issueSlot (s : State) (t : Nat) (i : Fin 8) : State :=
  let s := s.asThread t i
  let x := s.here
  let h := s.me
  match (if s.fwResident then h.fwTrap else none) with
  | some (cause, int) => dispose s cause int
  | none =>
    if s.fwResident ∧ h.firmware then (s.serviceEvents t).noteIssue.emptySlot t i
    else
      match h.dueFault x i with
      | some f =>
        if recordHeld s t x i f then s.block .unit .hold
        else ((s.modMe fun h => { h with pend := h.pend.drop 1 }).cutVec t i).takeTrap f.cause h.pc f.val (some f) false
      | none =>
        if x.eventSlot = some i.val ∧ h.vecAt = 0 then s.takeTrap (if bitAt x.evpend 1 then 30 else 11) h.pc 0 none true
        else if 6 ≤ i.val ∧ !h.firmware ∧ h.budget = 0 then s.trap 27 0
        else
          match nextWord s t h with
          | .error c => (if c = 32 then s.fetchedBad else s).trap c h.pc
          | .ok w => { s.modMe (·.trimmed) with cur := { s.cur with word := w }, latch := true }

/-- The next local element of each of the given slots' vector accesses (R254). -/
def State.vecSteps (s : State) (t : Nat) (slots : List Nat) : State :=
  slots.foldl
    (fun s i =>
      let h := s.th t (slotIx i)
      match (if h.st = .unit then h.vec else none) with
      | none => s
      | some r =>
        match vecStep false r (s.asThread t (slotIx i)) with
        | .next s' => { s' with cur := s.cur }
        | _ => s) s
/-- The slots above a slot: their local accesses come after its own in a cycle (R182). -/
def slotsAbove (i : Nat) : List Nat := (upTo 8).filter (i < ·)

/-- One cycle of a core, before an instruction executes: the counter, the array, the threads, the selection, and the
local accesses of the slots up to the selected one. Those of the slots above it follow its instruction (R182). -/
def issueCycle (s : State) (t : Nat) : State :=
  let throttle := (s.island (islandOf t)).throttle
  let s := s.modTile t fun x =>
    let c := x.cycle + 1
    { x with cycle := c, was := none, matrix := x.matrix.cycle c (decide (c % 16 < throttle)) }
  let x := s.tile t
  let x := { x with threads := Vector.ofFn fun i => classify s t throttle x i }
  let ready := (upTo 8).filter fun i => (x.th (slotIx i)).st == .ready && x.mayIssue (slotIx i) (x.th (slotIx i))
  match x.select ready with
  | none => (s.setTile t x).vecSteps t (upTo 8)
  | some i =>
    let x := (ready.filter (· != i)).foldl (fun x j => x.modTh (slotIx j) fun h => { h with wait := h.wait + 1 }) x
    let s := issueSlot ((s.setTile t { x with busyTick := s.tick + 1 }).vecSteps t (upTo i)) t (slotIx i)
    if s.latch then s else s.vecSteps t (slotsAbove i)

/-- ISSUE_SELECT (R47): a core that executes, in an island that runs. -/
def execIssueSelect (tile : Nat) (s : State) : Outcome :=
  onTile s tile <| .next (if 1 < (s.tile tile).tstate ∨ !s.awake tile then s else issueCycle s tile)

end Sys2Proof.Machine
end

