-- ==== Sys2Proof/Machine/Dispatch.lean ====
section
/-!
DEFINITION. The meaning of every instruction and event: one arm per constructor of Instr.
-/
namespace Sys2Proof.Machine

def exec (i : Instr) (s : State) : Host.Outcome State Fault Refusal :=
  match i with
  | .lui rd imm => Sys2Proof.Machine.execLui rd imm s
  | .auipc rd imm => Sys2Proof.Machine.execAuipc rd imm s
  | .jal rd off => Sys2Proof.Machine.execJal rd off s
  | .jalr rd rs1 imm => Sys2Proof.Machine.execJalr rd rs1 imm s
  | .beq rs1 rs2 off => Sys2Proof.Machine.execBeq rs1 rs2 off s
  | .bne rs1 rs2 off => Sys2Proof.Machine.execBne rs1 rs2 off s
  | .blt rs1 rs2 off => Sys2Proof.Machine.execBlt rs1 rs2 off s
  | .bge rs1 rs2 off => Sys2Proof.Machine.execBge rs1 rs2 off s
  | .bltu rs1 rs2 off => Sys2Proof.Machine.execBltu rs1 rs2 off s
  | .bgeu rs1 rs2 off => Sys2Proof.Machine.execBgeu rs1 rs2 off s
  | .lb rd rs1 imm => Sys2Proof.Machine.execLb rd rs1 imm s
  | .lh rd rs1 imm => Sys2Proof.Machine.execLh rd rs1 imm s
  | .lw rd rs1 imm => Sys2Proof.Machine.execLw rd rs1 imm s
  | .ld rd rs1 imm => Sys2Proof.Machine.execLd rd rs1 imm s
  | .lbu rd rs1 imm => Sys2Proof.Machine.execLbu rd rs1 imm s
  | .lhu rd rs1 imm => Sys2Proof.Machine.execLhu rd rs1 imm s
  | .lwu rd rs1 imm => Sys2Proof.Machine.execLwu rd rs1 imm s
  | .sb rs1 rs2 imm => Sys2Proof.Machine.execSb rs1 rs2 imm s
  | .sh rs1 rs2 imm => Sys2Proof.Machine.execSh rs1 rs2 imm s
  | .sw rs1 rs2 imm => Sys2Proof.Machine.execSw rs1 rs2 imm s
  | .sd rs1 rs2 imm => Sys2Proof.Machine.execSd rs1 rs2 imm s
  | .addi rd rs1 imm => Sys2Proof.Machine.execAddi rd rs1 imm s
  | .slti rd rs1 imm => Sys2Proof.Machine.execSlti rd rs1 imm s
  | .sltiu rd rs1 imm => Sys2Proof.Machine.execSltiu rd rs1 imm s
  | .xori rd rs1 imm => Sys2Proof.Machine.execXori rd rs1 imm s
  | .ori rd rs1 imm => Sys2Proof.Machine.execOri rd rs1 imm s
  | .andi rd rs1 imm => Sys2Proof.Machine.execAndi rd rs1 imm s
  | .slli rd rs1 sh => Sys2Proof.Machine.execSlli rd rs1 sh s
  | .srli rd rs1 sh => Sys2Proof.Machine.execSrli rd rs1 sh s
  | .srai rd rs1 sh => Sys2Proof.Machine.execSrai rd rs1 sh s
  | .add rd rs1 rs2 => Sys2Proof.Machine.execAdd rd rs1 rs2 s
  | .sub rd rs1 rs2 => Sys2Proof.Machine.execSub rd rs1 rs2 s
  | .sll rd rs1 rs2 => Sys2Proof.Machine.execSll rd rs1 rs2 s
  | .slt rd rs1 rs2 => Sys2Proof.Machine.execSlt rd rs1 rs2 s
  | .sltu rd rs1 rs2 => Sys2Proof.Machine.execSltu rd rs1 rs2 s
  | .xor rd rs1 rs2 => Sys2Proof.Machine.execXor rd rs1 rs2 s
  | .srl rd rs1 rs2 => Sys2Proof.Machine.execSrl rd rs1 rs2 s
  | .sra rd rs1 rs2 => Sys2Proof.Machine.execSra rd rs1 rs2 s
  | .or rd rs1 rs2 => Sys2Proof.Machine.execOr rd rs1 rs2 s
  | .and rd rs1 rs2 => Sys2Proof.Machine.execAnd rd rs1 rs2 s
  | .addiw rd rs1 imm => Sys2Proof.Machine.execAddiw rd rs1 imm s
  | .slliw rd rs1 sh => Sys2Proof.Machine.execSlliw rd rs1 sh s
  | .srliw rd rs1 sh => Sys2Proof.Machine.execSrliw rd rs1 sh s
  | .sraiw rd rs1 sh => Sys2Proof.Machine.execSraiw rd rs1 sh s
  | .addw rd rs1 rs2 => Sys2Proof.Machine.execAddw rd rs1 rs2 s
  | .subw rd rs1 rs2 => Sys2Proof.Machine.execSubw rd rs1 rs2 s
  | .sllw rd rs1 rs2 => Sys2Proof.Machine.execSllw rd rs1 rs2 s
  | .srlw rd rs1 rs2 => Sys2Proof.Machine.execSrlw rd rs1 rs2 s
  | .sraw rd rs1 rs2 => Sys2Proof.Machine.execSraw rd rs1 rs2 s
  | .mul rd rs1 rs2 => Sys2Proof.Machine.execMul rd rs1 rs2 s
  | .mulh rd rs1 rs2 => Sys2Proof.Machine.execMulh rd rs1 rs2 s
  | .mulhsu rd rs1 rs2 => Sys2Proof.Machine.execMulhsu rd rs1 rs2 s
  | .mulhu rd rs1 rs2 => Sys2Proof.Machine.execMulhu rd rs1 rs2 s
  | .div rd rs1 rs2 => Sys2Proof.Machine.execDiv rd rs1 rs2 s
  | .divu rd rs1 rs2 => Sys2Proof.Machine.execDivu rd rs1 rs2 s
  | .rem rd rs1 rs2 => Sys2Proof.Machine.execRem rd rs1 rs2 s
  | .remu rd rs1 rs2 => Sys2Proof.Machine.execRemu rd rs1 rs2 s
  | .mulw rd rs1 rs2 => Sys2Proof.Machine.execMulw rd rs1 rs2 s
  | .divw rd rs1 rs2 => Sys2Proof.Machine.execDivw rd rs1 rs2 s
  | .divuw rd rs1 rs2 => Sys2Proof.Machine.execDivuw rd rs1 rs2 s
  | .remw rd rs1 rs2 => Sys2Proof.Machine.execRemw rd rs1 rs2 s
  | .remuw rd rs1 rs2 => Sys2Proof.Machine.execRemuw rd rs1 rs2 s
  | .lrW rd rs1 aq rl => Sys2Proof.Machine.execLrW rd rs1 aq rl s
  | .lrD rd rs1 aq rl => Sys2Proof.Machine.execLrD rd rs1 aq rl s
  | .scW rd rs1 rs2 aq rl => Sys2Proof.Machine.execScW rd rs1 rs2 aq rl s
  | .scD rd rs1 rs2 aq rl => Sys2Proof.Machine.execScD rd rs1 rs2 aq rl s
  | .amoswapW rd rs1 rs2 aq rl => Sys2Proof.Machine.execAmoswapW rd rs1 rs2 aq rl s
  | .amoswapD rd rs1 rs2 aq rl => Sys2Proof.Machine.execAmoswapD rd rs1 rs2 aq rl s
  | .amoaddW rd rs1 rs2 aq rl => Sys2Proof.Machine.execAmoaddW rd rs1 rs2 aq rl s
  | .amoaddD rd rs1 rs2 aq rl => Sys2Proof.Machine.execAmoaddD rd rs1 rs2 aq rl s
  | .amoxorW rd rs1 rs2 aq rl => Sys2Proof.Machine.execAmoxorW rd rs1 rs2 aq rl s
  | .amoxorD rd rs1 rs2 aq rl => Sys2Proof.Machine.execAmoxorD rd rs1 rs2 aq rl s
  | .amoandW rd rs1 rs2 aq rl => Sys2Proof.Machine.execAmoandW rd rs1 rs2 aq rl s
  | .amoandD rd rs1 rs2 aq rl => Sys2Proof.Machine.execAmoandD rd rs1 rs2 aq rl s
  | .amoorW rd rs1 rs2 aq rl => Sys2Proof.Machine.execAmoorW rd rs1 rs2 aq rl s
  | .amoorD rd rs1 rs2 aq rl => Sys2Proof.Machine.execAmoorD rd rs1 rs2 aq rl s
  | .amominW rd rs1 rs2 aq rl => Sys2Proof.Machine.execAmominW rd rs1 rs2 aq rl s
  | .amominD rd rs1 rs2 aq rl => Sys2Proof.Machine.execAmominD rd rs1 rs2 aq rl s
  | .amomaxW rd rs1 rs2 aq rl => Sys2Proof.Machine.execAmomaxW rd rs1 rs2 aq rl s
  | .amomaxD rd rs1 rs2 aq rl => Sys2Proof.Machine.execAmomaxD rd rs1 rs2 aq rl s
  | .amominuW rd rs1 rs2 aq rl => Sys2Proof.Machine.execAmominuW rd rs1 rs2 aq rl s
  | .amominuD rd rs1 rs2 aq rl => Sys2Proof.Machine.execAmominuD rd rs1 rs2 aq rl s
  | .amomaxuW rd rs1 rs2 aq rl => Sys2Proof.Machine.execAmomaxuW rd rs1 rs2 aq rl s
  | .amomaxuD rd rs1 rs2 aq rl => Sys2Proof.Machine.execAmomaxuD rd rs1 rs2 aq rl s
  | .fence pred succ => Sys2Proof.Machine.execFence pred succ s
  | .fenceTso pred succ => Sys2Proof.Machine.execFenceTso pred succ s
  | .csrrw rd csr rs1 => Sys2Proof.Machine.execCsrrw rd csr rs1 s
  | .csrrs rd csr rs1 => Sys2Proof.Machine.execCsrrs rd csr rs1 s
  | .csrrc rd csr rs1 => Sys2Proof.Machine.execCsrrc rd csr rs1 s
  | .csrrwi rd csr uimm => Sys2Proof.Machine.execCsrrwi rd csr uimm s
  | .csrrsi rd csr uimm => Sys2Proof.Machine.execCsrrsi rd csr uimm s
  | .csrrci rd csr uimm => Sys2Proof.Machine.execCsrrci rd csr uimm s
  | .setprio rs1 => Sys2Proof.Machine.execSetprio rs1 s
  | .spawna rd rs1 rs2 => Sys2Proof.Machine.execSpawna rd rs1 rs2 s
  | .capq rd rs1 => Sys2Proof.Machine.execCapq rd rs1 s
  | .utrap rs1 => Sys2Proof.Machine.execUtrap rs1 s
  | .rmark rs1 => Sys2Proof.Machine.execRmark rs1 s
  | .rwaitImm rd rs1 off tgt => Sys2Proof.Machine.execRwaitImm rd rs1 off tgt s
  | .rwait rd rs1 rs2 => Sys2Proof.Machine.execRwait rd rs1 rs2 s
  | .radd rd rs1 rs2 => Sys2Proof.Machine.execRadd rd rs1 rs2 s
  | .rpoison rs1 rs2 => Sys2Proof.Machine.execRpoison rs1 rs2 s
  | .binit rs1 rs2 => Sys2Proof.Machine.execBinit rs1 rs2 s
  | .barv rd rs1 => Sys2Proof.Machine.execBarv rd rs1 s
  | .bexp rd rs1 rs2 => Sys2Proof.Machine.execBexp rd rs1 rs2 s
  | .bpoison rs1 rs2 => Sys2Proof.Machine.execBpoison rs1 rs2 s
  | .spawn rd rs1 rs2 rs3 => Sys2Proof.Machine.execSpawn rd rs1 rs2 rs3 s
  | .spawnm rd rs1 rs2 rs3 => Sys2Proof.Machine.execSpawnm rd rs1 rs2 rs3 s
  | .amsg rd rs1 rs2 rs3 => Sys2Proof.Machine.execAmsg rd rs1 rs2 rs3 s
  | .rwaitt rd rs1 rs2 rs3 => Sys2Proof.Machine.execRwaitt rd rs1 rs2 rs3 s
  | .nbsend rd rs1 rs2 => Sys2Proof.Machine.execNbsend rd rs1 rs2 s
  | .rcfg rs1 rs2 => Sys2Proof.Machine.execRcfg rs1 rs2 s
  | .capset rs1 rs2 => Sys2Proof.Machine.execCapset rs1 rs2 s
  | .sdc rs1 rs2 rs3 => Sys2Proof.Machine.execSdc rs1 rs2 rs3 s
  | .swc rs1 rs2 rs3 => Sys2Proof.Machine.execSwc rs1 rs2 rs3 s
  | .amofaddS rd rs1 rs2 => Sys2Proof.Machine.execAmofaddS rd rs1 rs2 s
  | .amofaddBf rd rs1 rs2 => Sys2Proof.Machine.execAmofaddBf rd rs1 rs2 s
  | .amofmaxS rd rs1 rs2 => Sys2Proof.Machine.execAmofmaxS rd rs1 rs2 s
  | .amofminS rd rs1 rs2 => Sys2Proof.Machine.execAmofminS rd rs1 rs2 s
  | .amoincbW rd rs1 rs2 => Sys2Proof.Machine.execAmoincbW rd rs1 rs2 s
  | .amoincbD rd rs1 rs2 => Sys2Proof.Machine.execAmoincbD rd rs1 rs2 s
  | .amocasD rd rs1 rs2 => Sys2Proof.Machine.execAmocasD rd rs1 rs2 s
  | .rsig rs1 rs2 => Sys2Proof.Machine.execRsig rs1 rs2 s
  | .fencef rd => Sys2Proof.Machine.execFencef rd s
  | .cpq rd rs1 ch => Sys2Proof.Machine.execCpq rd rs1 ch s
  | .cpqn rd rs1 ch => Sys2Proof.Machine.execCpqn rd rs1 ch s
  | .cpwait rs1 ch => Sys2Proof.Machine.execCpwait rs1 ch s
  | .ldlq rd rs1 => Sys2Proof.Machine.execLdlq rd rs1 s
  | .mmaE4e4 acc a b => Sys2Proof.Machine.execMmaE4e4 acc a b s
  | .mmaE4e5 acc a b => Sys2Proof.Machine.execMmaE4e5 acc a b s
  | .mmaE5e4 acc a b => Sys2Proof.Machine.execMmaE5e4 acc a b s
  | .mmaE5e5 acc a b => Sys2Proof.Machine.execMmaE5e5 acc a b s
  | .mmaBf acc a b => Sys2Proof.Machine.execMmaBf acc a b s
  | .mzero acc => Sys2Proof.Machine.execMzero acc s
  | .mld acc p => Sys2Proof.Machine.execMld acc p s
  | .mstF32 acc p => Sys2Proof.Machine.execMstF32 acc p s
  | .mstBf acc p => Sys2Proof.Machine.execMstBf acc p s
  | .mstE4m3 acc p => Sys2Proof.Machine.execMstE4m3 acc p s
  | .mstE5m2 acc p => Sys2Proof.Machine.execMstE5m2 acc p s
  | .mgate rs1 rs2 => Sys2Proof.Machine.execMgate rs1 rs2 s
  | .mburst rs1 => Sys2Proof.Machine.execMburst rs1 s
  | .mrowv vd acc row => Sys2Proof.Machine.execMrowv vd acc row s
  | .vadd f vd vs1 vs2 => Sys2Proof.Machine.execVadd f vd vs1 vs2 s
  | .vsub f vd vs1 vs2 => Sys2Proof.Machine.execVsub f vd vs1 vs2 s
  | .vmul f vd vs1 vs2 => Sys2Proof.Machine.execVmul f vd vs1 vs2 s
  | .vfma f vd vs1 vs2 => Sys2Proof.Machine.execVfma f vd vs1 vs2 s
  | .vmax f vd vs1 vs2 => Sys2Proof.Machine.execVmax f vd vs1 vs2 s
  | .vmin f vd vs1 vs2 => Sys2Proof.Machine.execVmin f vd vs1 vs2 s
  | .vabs f vd vs1 => Sys2Proof.Machine.execVabs f vd vs1 s
  | .vneg f vd vs1 => Sys2Proof.Machine.execVneg f vd vs1 s
  | .vand vd vs1 vs2 => Sys2Proof.Machine.execVand vd vs1 vs2 s
  | .vor vd vs1 vs2 => Sys2Proof.Machine.execVor vd vs1 vs2 s
  | .vxor vd vs1 vs2 => Sys2Proof.Machine.execVxor vd vs1 vs2 s
  | .vsll f vd vs1 vs2 => Sys2Proof.Machine.execVsll f vd vs1 vs2 s
  | .vsrl f vd vs1 vs2 => Sys2Proof.Machine.execVsrl f vd vs1 vs2 s
  | .vsra f vd vs1 vs2 => Sys2Proof.Machine.execVsra f vd vs1 vs2 s
  | .vcmpeq f vd vs1 vs2 => Sys2Proof.Machine.execVcmpeq f vd vs1 vs2 s
  | .vcmplt f vd vs1 vs2 => Sys2Proof.Machine.execVcmplt f vd vs1 vs2 s
  | .vcmple f vd vs1 vs2 => Sys2Proof.Machine.execVcmple f vd vs1 vs2 s
  | .vsel f vd vs1 vs2 => Sys2Proof.Machine.execVsel f vd vs1 vs2 s
  | .vrcp vd vs1 => Sys2Proof.Machine.execVrcp vd vs1 s
  | .vrsq vd vs1 => Sys2Proof.Machine.execVrsq vd vs1 s
  | .vexp2 vd vs1 => Sys2Proof.Machine.execVexp2 vd vs1 s
  | .vlog2 vd vs1 => Sys2Proof.Machine.execVlog2 vd vs1 s
  | .vcvt dst src vd vs1 => Sys2Proof.Machine.execVcvt dst src vd vs1 s
  | .vpack f m vd vs1 => Sys2Proof.Machine.execVpack f m vd vs1 s
  | .vunpack f m vd vs1 => Sys2Proof.Machine.execVunpack f m vd vs1 s
  | .vredsum f vd vs1 => Sys2Proof.Machine.execVredsum f vd vs1 s
  | .vredmax f vd vs1 => Sys2Proof.Machine.execVredmax f vd vs1 s
  | .vscan f excl vd vs1 => Sys2Proof.Machine.execVscan f excl vd vs1 s
  | .vperm f vd vs1 vs2 => Sys2Proof.Machine.execVperm f vd vs1 vs2 s
  | .vslide f vd vs1 rs2 => Sys2Proof.Machine.execVslide f vd vs1 rs2 s
  | .vbcast f vd rs1 => Sys2Proof.Machine.execVbcast f vd rs1 s
  | .vmvx f rd vs1 rs2 => Sys2Proof.Machine.execVmvx f rd vs1 rs2 s
  | .vld vd rs1 => Sys2Proof.Machine.execVld vd rs1 s
  | .vlds f vd rs1 rs2 => Sys2Proof.Machine.execVlds f vd rs1 rs2 s
  | .vldx f vd rs1 vs2 => Sys2Proof.Machine.execVldx f vd rs1 vs2 s
  | .vst vs3 rs1 => Sys2Proof.Machine.execVst vs3 rs1 s
  | .vsts f vs3 rs1 rs2 => Sys2Proof.Machine.execVsts f vs3 rs1 rs2 s
  | .vstx f vs3 rs1 vs2 => Sys2Proof.Machine.execVstx f vs3 rs1 vs2 s
  | .vstc vs3 rs1 rs2 => Sys2Proof.Machine.execVstc vs3 rs1 rs2 s
  | .issueSelect tile => Sys2Proof.Machine.execIssueSelect tile s
  | .firmwareThreadFill tile => Sys2Proof.Machine.execFirmwareThreadFill tile s
  | .divideComplete tile => Sys2Proof.Machine.execDivideComplete tile s
  | .lrHoldExpiry tile slot => Sys2Proof.Machine.execLrHoldExpiry tile slot s
  | .spawnRequestArrival pkt => Sys2Proof.Machine.execSpawnRequestArrival pkt s
  | .spawnIntakeDrain tile => Sys2Proof.Machine.execSpawnIntakeDrain tile s
  | .spawnRefusalReturn pkt => Sys2Proof.Machine.execSpawnRefusalReturn pkt s
  | .spawnResend entry => Sys2Proof.Machine.execSpawnResend entry s
  | .spawnStatusReturn pkt => Sys2Proof.Machine.execSpawnStatusReturn pkt s
  | .messageArrival pkt => Sys2Proof.Machine.execMessageArrival pkt s
  | .handlerDispatch tile => Sys2Proof.Machine.execHandlerDispatch tile s
  | .routedLoadArrival pkt => Sys2Proof.Machine.execRoutedLoadArrival pkt s
  | .routedStoreArrival pkt => Sys2Proof.Machine.execRoutedStoreArrival pkt s
  | .routedAmoArrival pkt => Sys2Proof.Machine.execRoutedAmoArrival pkt s
  | .riserStepArrival pkt => Sys2Proof.Machine.execRiserStepArrival pkt s
  | .countedStoreArrival pkt => Sys2Proof.Machine.execCountedStoreArrival pkt s
  | .barrierStepArrival pkt => Sys2Proof.Machine.execBarrierStepArrival pkt s
  | .transferCompletionStep pkt => Sys2Proof.Machine.execTransferCompletionStep pkt s
  | .releaseSignalArrival pkt => Sys2Proof.Machine.execReleaseSignalArrival pkt s
  | .capqArrival pkt => Sys2Proof.Machine.execCapqArrival pkt s
  | .responseReturn pkt => Sys2Proof.Machine.execResponseReturn pkt s
  | .storeCompletionReturn pkt => Sys2Proof.Machine.execStoreCompletionReturn pkt s
  | .impreciseFaultArrival pkt => Sys2Proof.Machine.execImpreciseFaultArrival pkt s
  | .rwaitWake tile slot => Sys2Proof.Machine.execRwaitWake tile slot s
  | .rwaittTimeout tile slot => Sys2Proof.Machine.execRwaittTimeout tile slot s
  | .jcloadRefresh tile => Sys2Proof.Machine.execJcloadRefresh tile s
  | .intervalCheckArrival pkt => Sys2Proof.Machine.execIntervalCheckArrival pkt s
  | .intervalCheckAnswer pkt => Sys2Proof.Machine.execIntervalCheckAnswer pkt s
  | .fabricStoreReceive pkt bad => Sys2Proof.Machine.execFabricStoreReceive pkt bad s
  | .pageWalkComplete walk => Sys2Proof.Machine.execPageWalkComplete walk s
  | .copyCommandStart tile ch => Sys2Proof.Machine.execCopyCommandStart tile ch s
  | .copyEngineStep tile ch serial write byte => Sys2Proof.Machine.execCopyEngineStep tile ch serial write byte s
  | .copyDestinationRiserStep tile ch serial dst => Sys2Proof.Machine.execCopyDestinationRiserStep tile ch serial dst s
  | .copyCompletionStep tile ch serial => Sys2Proof.Machine.execCopyCompletionStep tile ch serial s
  | .mcastFlitForward tile serial byte node => Sys2Proof.Machine.execMcastFlitForward tile serial byte node s
  | .mcastAckCombine tile serial node => Sys2Proof.Machine.execMcastAckCombine tile serial node s
  | .pftimeout tile => Sys2Proof.Machine.execPftimeout tile s
  | .uioCompletion pkt poisoned => Sys2Proof.Machine.execUioCompletion pkt poisoned s
  | .ladleCommandStart tile => Sys2Proof.Machine.execLadleCommandStart tile s
  | .planScanComplete tile => Sys2Proof.Machine.execPlanScanComplete tile s
  | .ladleEngineStep tile turn => Sys2Proof.Machine.execLadleEngineStep tile turn s
  | .ladleCompletionStep tile => Sys2Proof.Machine.execLadleCompletionStep tile s
  | .ladleReset tile serial => Sys2Proof.Machine.execLadleReset tile serial s
  | .matrixGateEvaluate tile => Sys2Proof.Machine.execMatrixGateEvaluate tile s
  | .matrixFetch tile blk => Sys2Proof.Machine.execMatrixFetch tile blk s
  | .mmaCompute tile => Sys2Proof.Machine.execMmaCompute tile s
  | .mzeroCompute tile => Sys2Proof.Machine.execMzeroCompute tile s
  | .mldCompute tile => Sys2Proof.Machine.execMldCompute tile s
  | .mstCompute tile serial => Sys2Proof.Machine.execMstCompute tile serial s
  | .matrixRampUpDone tile => Sys2Proof.Machine.execMatrixRampUpDone tile s
  | .matrixRampDownDone tile => Sys2Proof.Machine.execMatrixRampDownDone tile s
  | .burstGapExpiry tile => Sys2Proof.Machine.execBurstGapExpiry tile s
  | .nbsendReceive pkt => Sys2Proof.Machine.execNbsendReceive pkt s
  | .nbsendStatusReturn pkt => Sys2Proof.Machine.execNbsendStatusReturn pkt s
  | .rcfgAck tile slot => Sys2Proof.Machine.execRcfgAck tile slot s
  | .closeDrainComplete pid => Sys2Proof.Machine.execCloseDrainComplete pid s
  | .suspendSave pid => Sys2Proof.Machine.execSuspendSave pid s
  | .invalComplete pkg => Sys2Proof.Machine.execInvalComplete pkg s
  | .latticeResponder tile => Sys2Proof.Machine.execLatticeResponder tile s
  | .patrolScrubStep chan addr error => Sys2Proof.Machine.execPatrolScrubStep chan addr error s
  | .islandPowerDown island => Sys2Proof.Machine.execIslandPowerDown island s
  | .islandWake island => Sys2Proof.Machine.execIslandWake island s
  | .fenceI => Sys2Proof.Machine.execFenceI s
  | .ecall => Sys2Proof.Machine.execEcall s
  | .ebreak => Sys2Proof.Machine.execEbreak s
  | .mret => Sys2Proof.Machine.execMret s
  | .wfi => Sys2Proof.Machine.execWfi s
  | .quit => Sys2Proof.Machine.execQuit s
  | .yield => Sys2Proof.Machine.execYield s
  | .hret => Sys2Proof.Machine.execHret s
  | .mfence => Sys2Proof.Machine.execMfence s
  | .routerConfigWrite tile v => Sys2Proof.Machine.execRouterConfigWrite tile v s
  | .evpendWrite tile v => Sys2Proof.Machine.execEvpendWrite tile v s
  | .jcodewinWrite tile v => Sys2Proof.Machine.execJcodewinWrite tile v s
  | .jsrseedWrite tile slot v => Sys2Proof.Machine.execJsrseedWrite tile slot v s
  | .jrmarkWrite tile slot v => Sys2Proof.Machine.execJrmarkWrite tile slot v s
  | .jmgateWrite tile slot csr v => Sys2Proof.Machine.execJmgateWrite tile slot csr v s
  | .jutcauseWrite tile slot v => Sys2Proof.Machine.execJutcauseWrite tile slot v s
  | .jmpartWrite tile csr v => Sys2Proof.Machine.execJmpartWrite tile csr v s
  | .registerWrite home off size v => Sys2Proof.Machine.execRegisterWrite home off size v s
  | .openPart pkg seq => Sys2Proof.Machine.execOpenPart pkg seq s
  | .closePart pkg seq => Sys2Proof.Machine.execClosePart pkg seq s
  | .suspend pkg seq => Sys2Proof.Machine.execSuspend pkg seq s
  | .resume pkg seq => Sys2Proof.Machine.execResume pkg seq s
  | .inval pkg seq => Sys2Proof.Machine.execInval pkg seq s
  | .hriser pkg seq => Sys2Proof.Machine.execHriser pkg seq s
  | .cryoCool pkg seq => Sys2Proof.Machine.execCryoCool pkg seq s
  | .cryoWarm pkg seq => Sys2Proof.Machine.execCryoWarm pkg seq s
  | .cryoRecal pkg seq c => Sys2Proof.Machine.execCryoRecal pkg seq c s
  | .attest pkg seq => Sys2Proof.Machine.execAttest pkg seq s
  | .svncommit pkg seq => Sys2Proof.Machine.execSvncommit pkg seq s
  | .imageUpdate pkg seq => Sys2Proof.Machine.execImageUpdate pkg seq s
  | .hostMeshRead pkg off size => Sys2Proof.Machine.execHostMeshRead pkg off size s
  | .hostMeshWrite pkg off data => Sys2Proof.Machine.execHostMeshWrite pkg off data s
  | .hostSpawnWrite pkg off data => Sys2Proof.Machine.execHostSpawnWrite pkg off data s
  | .hostSignalWrite pkg off data => Sys2Proof.Machine.execHostSignalWrite pkg off data s
  | .hostMemoryAccess pkg off size data => Sys2Proof.Machine.execHostMemoryAccess pkg off size data s
  | .fabricFlitReceive port header crcOk payload => Sys2Proof.Machine.execFabricFlitReceive port header crcOk payload s
  | .atsTranslationResponse pkg pasid page grant => Sys2Proof.Machine.execAtsTranslationResponse pkg pasid page grant s
  | .atsInvalidationRequest pkg pasid page pages => Sys2Proof.Machine.execAtsInvalidationRequest pkg pasid page pages s
  | .pageRequestResponseFailure pkg pasid page => Sys2Proof.Machine.execPageRequestResponseFailure pkg pasid page s
  | .pooledPageResident tile => Sys2Proof.Machine.execPooledPageResident tile s
  | .carrierPowerOn strap => Sys2Proof.Machine.execCarrierPowerOn strap s
  | .carrierPowerOff => Sys2Proof.Machine.execCarrierPowerOff s
  | .mailboxSubmission pkg v => Sys2Proof.Machine.execMailboxSubmission pkg v s
  | .tmaxSample x => Sys2Proof.Machine.execTmaxSample x s
  | .soakTimerExpiry c => Sys2Proof.Machine.execSoakTimerExpiry c s
  | .precoolTimeout => Sys2Proof.Machine.execPrecoolTimeout s
  | .guardAdjust island fails => Sys2Proof.Machine.execGuardAdjust island fails s
  | .eolFit island => Sys2Proof.Machine.execEolFit island s
  | .shareGrant pkg power => Sys2Proof.Machine.execShareGrant pkg power s
  | .envelopeCheck power => Sys2Proof.Machine.execEnvelopeCheck power s
  | .islandWakeComplete island => Sys2Proof.Machine.execIslandWakeComplete island s
  | .periodicTest tile fails => Sys2Proof.Machine.execPeriodicTest tile fails s
  | .linkFailureTimeout port => Sys2Proof.Machine.execLinkFailureTimeout port s
  | .quiesceBoundExceeded pid => Sys2Proof.Machine.execQuiesceBoundExceeded pid s
  | .quietSample pid => Sys2Proof.Machine.execQuietSample pid s

end Sys2Proof.Machine
end

