-- ==== Sys2Proof/Machine/Schedule.lean ====
section
/-!
DEFINITION. What happens in one tick of the module's timer (R8, R318): the core clocks, the fetch buffers, and the
agenda of events. Every core that runs issues once in each cycle of its clock; events due at a cycle or a tick follow; and
an event whose latency the spec leaves open happens in a tick that Config chooses, in an order that Config chooses (log
4). What the outside world and the measuring hardware do comes from Config too (log 5).
-/
namespace Sys2Proof.Machine

/-! ### Clocks and quiet times (R67, R68, R318, R325) -/

/-- A core of an island has a cycle in the tick that begins at the count n. -/
def clockEdge (freq n : Nat) : Bool := decide (n * freq / 1250 < (n + 1) * freq / 1250)

/-- A core has a cycle in this tick: its island runs, and its clock has an edge (R318, R325). -/
def clocked (s : State) (t : Nat) : Bool := s.awake t && clockEdge (s.island (islandOf t)).freq s.tick

/-- The ticks since which cores and partitions have been quiet, as the tick that ends leaves them; a core that had a
thread to select in it was not. -/
def State.noteBusy (s : State) : State :=
  let next := s.tick + 1
  let tiles := s.tiles.map fun p => if p.2.enabled && !coreQuiet s p.1 then (p.1, { p.2 with busyTick := next }) else p
  let busy := (tiles.filter fun p => p.2.busyTick == next).map (·.1)
  { s with
    tiles := tiles
    parts := s.parts.map fun q => if (s.tilesOf q).any (memNat · busy) then { q with busy := next } else q }

/-! ### The fetch buffer (R138) -/

/-- A thread may fetch a word ahead of its pc, within 64 bytes. -/
def fetchAhead (s : State) (n t : Nat) (i : Nat) (h : Thread) : Thread :=
  let k := Config.choice n [1, t, i] % 16
  let pc := h.pc + nd (4 * k)
  if h.st = .empty ∨ k = 0 ∨ h.fbuf.any (·.1 == pc) then h
  else
    match fetchPlace (s.tile t).core { h with pc := pc } with
    | .error _ => h
    | .ok off =>
      if s.markedIn (tileKey t off) 4 then h
      else { h with fbuf := (pc, BitVec.ofNat 32 (s.readN (tileKey t off) 4)) :: h.fbuf }

def State.prefetch (s : State) (n : Nat) : State :=
  { s with
    tiles := s.tiles.map fun p =>
      (p.1, { p.2 with threads := p.2.threads.mapFinIdx fun i h _ =>
        if p.2.lattice.isSome ∧ i = 0 then h else fetchAhead s n p.1 i h }) }

/-! ### Events of open latency -/

/-- The event that a packet in flight leads to. -/
def arrivalOf (s : State) (n : Nat) (p : Packet) : Instr :=
  match p.op with
  | .check .. => .intervalCheckArrival p.id
  | .result _ r => if r = 0 then .responseReturn p.id else .impreciseFaultArrival p.id
  | .complete => .storeCompletionReturn p.id
  | .reject .. => .impreciseFaultArrival p.id
  | .refused => .spawnRefusalReturn p.id
  | .status _ => if s.spawns.any (·.id == p.req) then .spawnStatusReturn p.id else .nbsendStatusReturn p.id
  | .answer .. => if p.org.party = .thread then .intervalCheckAnswer p.id else .impreciseFaultArrival p.id
  | .nb .. => .nbsendReceive p.id
  | op =>
    match p.home with
    | .module .. => .fabricStoreReceive p.id (Config.choice n [2, p.id] % 2 == 1)
    | _ =>
      match op with
      | .load _ => .routedLoadArrival p.id
      | .store .. => .routedStoreArrival p.id
      | .amo .. => .routedAmoArrival p.id
      | .radd _ | .rsig _ | .rpoison _ => .riserStepArrival p.id
      | .counted .. => .countedStoreArrival p.id
      | .done .. => .transferCompletionStep p.id
      | .release .. => .releaseSignalArrival p.id
      | .capq _ => .capqArrival p.id
      | .spawn _ => .spawnRequestArrival p.id
      | .message _ => .messageArrival p.id
      | _ => .barrierStepArrival p.id

/-- The command whose turn at the port comes after the last one's: the next of the started ones, cyclically (R205). -/
def nextTurn (last : Nat) (started : List (Ch × Nat)) : Option (Ch × Nat) :=
  (started.find? (last < ·.2)).or started.head?

/-- The engine steps, ends and multicast flits of one channel's started command. -/
def runEvents (s : State) (t : Nat) (ch : Ch) (r : CopyRun) : List Instr :=
  let k := r.cmd.serial
  let flits := r.flits.map fun f => Instr.mcastFlitForward t k f.1 f.2
  let tree : List Nat :=
    if r.cmd.op = 5 then t :: (mcastDests s t r.cmd).1.flatMap (route t) else []
  (destsOf s t r.cmd).map (.copyDestinationRiserStep t ch k ·) ++ flits ++ (dedup tree).map (.mcastAckCombine t k ·)
    ++ [.copyCompletionStep t ch k]

/-- Started commands of a tile in the order of their numbers. -/
def startedOf (x : Tile) : List (Ch × Nat) :=
  let all := (upTo 4).flatMap fun c => (x.chans[c % 4]'(Nat.mod_lt c (by decide))).started.map fun r =>
    ((BitVec.ofNat 2 c : Ch), r.cmd.serial)
  all.foldl (fun l e => l.filter (·.2 < e.2) ++ e :: l.filter (e.2 < ·.2)) []

/-- Rows of a gather or scatter, whose indices are numbered by row, or the bytes of any other command. -/
def CopyRun.units (r : CopyRun) : Nat := max r.total (max 1 r.rows)

/-- The port's engine step of this cycle, if it is one of the channel's (R205). -/
def turnEvent (n t : Nat) (x : Tile) (c : Ch) : List Instr :=
  match nextTurn x.turn (startedOf x) with
  | none => []
  | some (ch, k) =>
    match (x.chans[ch.toFin]).started.find? (·.cmd.serial == k) with
    | some r =>
      if ch = c then [.copyEngineStep t ch k (Config.choice n [3, t] % 2 == 1) (Config.choice n [4, t] % max 1 r.units)] else []
    | none => []

/-- The steps of a copy channel. -/
def channelEvents (s : State) (n t : Nat) (x : Tile) (c : Nat) : List Instr :=
  let ch : Ch := BitVec.ofNat 2 c
  .copyCommandStart t ch :: turnEvent n t x ch ++ (x.chans[ch.toFin]).started.flatMap (runEvents s t ch)

/-- Steps that a started ladle command may take, one of each kind, at rows and bytes that the tick chooses. -/
def ladleSteps (n t : Nat) (c : LadleCmd) : List Instr :=
  let pick (k m : Nat) : Nat := Config.choice n [5, t, c.serial, k] % max 1 m
  let step (e : LadleStep) : Instr := .ladleEngineStep t ⟨c.serial, e⟩
  let rows := if wLop c.w0 = 1 then dscNtok c.desc * dscK c.desc else dscNtok c.desc
  let busy (k : Nat) : Nat := (c.rows[pick k c.rows.length]?.map (·.row)).getD 0
  [step (.desc (pick 0 3)), step (.table (pick 1 (2 ^ 16))), step (.record (pick 2 rows) (pick 3 8)),
    step (.gate (busy 4) (pick 5 8)), step (.entry (if wLop c.w0 = 1 then pick 6 rows else busy 6) (pick 7 8)),
    step (.read (busy 8) (pick 9 (2 ^ 22))), step (.write (busy 10) (pick 11 (2 ^ 22))), step (.riser (busy 12))]
    ++ (match c.todo[pick 13 c.todo.length]? with
      | some w => [step (.result w.1)]
      | none => [])

/-- The matrix unit's steps. -/
def matrixEvents (t : Nat) (x : Tile) : List Instr :=
  .matrixGateEvaluate t
    :: (match fetching x.matrix.queue with
      | some e => e.toFetch.map (.matrixFetch t ·)
      | none => [])
    ++ [.mzeroCompute t, .mldCompute t] ++ x.matrix.queue.head?.toList.map fun e => .mstCompute t e.serial

/-- The ladle engine's steps. -/
def ladleEvents (n t : Nat) (x : Tile) : List Instr :=
  [.ladleCommandStart t, .planScanComplete t] ++ (x.ladle.queue.filter (·.started)).flatMap (ladleSteps n t)
    ++ .ladleCompletionStep t :: x.ladle.queue.map (fun c => .ladleReset t c.serial)

/-- Slots are filled, and the oldest request leaves the intake, in every cycle (R51, R56, R267). -/
def fillEvents (t : Nat) : List Instr := [.firmwareThreadFill t, .handlerDispatch t, .handlerDispatch t]

/-- Events of no tile's port, each with an open latency. -/
def moduleEvents (s : State) (n : Nat) : List Instr :=
  (s.net.filter fun p => match p.home with
    | .tile _ => false
    | _ => true).map (arrivalOf s n)
    ++ s.walks.map (fun w => .pageWalkComplete w.id)
    ++ s.uio.map (fun p => .uioCompletion p.id (Config.choice n [8, p.id] % 2 == 1))
    ++ s.parts.flatMap (fun q => [.closeDrainComplete q.pid, .suspendSave q.pid])
    ++ s.invals.map (fun i => .invalComplete i.1)
    ++ s.islands.flatMap (fun i => [.islandPowerDown i.1, .islandWake i.1])
    ++ s.tiles.flatMap (fun p =>
      (upTo 8).map (.rcfgAck p.1 ·)
        ++ match tileChan p.1 with
          | some g => [.patrolScrubStep g p.2.scrubPtr (BitVec.ofNat 2 (Config.choice n [7, p.1] % 3))]
          | none => [])

/-- What comes from outside: the host, the address translation service, the fabric and the power of the carrier. -/
def isInput : Instr → Bool
  | .hostMeshRead .. | .hostMeshWrite .. | .hostSpawnWrite .. | .hostSignalWrite .. | .hostMemoryAccess ..
  | .mailboxSubmission .. | .cryoRecal .. | .pooledPageResident _ | .atsTranslationResponse .. | .atsInvalidationRequest .. | .pageRequestResponseFailure ..
  | .fabricFlitReceive .. | .carrierPowerOn _ | .carrierPowerOff | .registerWrite (.host _) _ _ _ => true
  | _ => false

/-! ### Events due at a cycle or a tick -/

/-- At the end of a core's cycle. -/
def cycleEnds (t : Nat) : List Instr :=
  [.mmaCompute t, .matrixRampUpDone t, .matrixRampDownDone t, .burstGapExpiry t, .divideComplete t]
    ++ (upTo 8).map (.lrHoldExpiry t ·) ++ (upTo 8).map (.rwaitWake t ·)

/-- Counts of the timer that end at a tile, after the tick's last write there (R154, R318). -/
def timerEnds (s : State) (t : Nat) : List Instr :=
  (upTo 8).map (.rwaittTimeout t ·) ++ [.pftimeout t]
    ++ if s.tick % 64 = Config.choice 0 [9, t] % 64 then [.jcloadRefresh t] else []

/-- A meaning that answers a next state, applied. -/
def State.after (s : State) (f : State → Outcome) : State :=
  match f s with
  | .next s' => s'
  | _ => s

/-- What firmware, the power arbiter and the sensors do at their instants, each at its own count of the timer (R68, R276,
R279, R291, R302, R305, R309, R313, R314, R317, R320, R324, R326, R327). -/
def State.instants (s : State) (n : Nat) : State :=
  let s := (Config.upsets n).foldl (fun s e => s.upset e) s
  let s := ((Config.windowReads n).foldl (fun s r => s.readWindow r.1 r.2.1 r.2.2) s).placeFlits n
  let s := s.after (execTmaxSample (Config.sensors n))
  let s := (s.after (execSoakTimerExpiry (Config.calibration n))).after execPrecoolTimeout
  let s := s.links.foldl (fun s l => s.after (execLinkFailureTimeout l.1)) s
  let s := s.parts.foldl (fun s q => (s.after (execQuietSample q.pid)).after (execQuiesceBoundExceeded q.pid)) s
  let s := s.islands.foldl (fun s i =>
    ((s.after (execGuardAdjust i.1 (Config.screenFails n i.1))).after (execEolFit i.1)).after (execIslandWakeComplete i.1)) s
  let s := s.tiles.foldl (fun s p => s.after (execPeriodicTest p.1 (Config.testFails n p.1))) s
  ((upTo s.packages).foldl (fun s p => s.after (execShareGrant p (Config.measured n))) s).after
    (execEnvelopeCheck (Config.packagePower n))

/-! ### The agenda -/

def insertAt {α : Type} (a : α) : Nat → List α → List α
  | 0, l => a :: l
  | _ + 1, [] => [a]
  | k + 1, b :: r => b :: insertAt a k r

/-- Events in an order that the n-th tick chooses, and of those of open latency the ones it lets happen. -/
def shuffled (n : Nat) : Nat → List Instr → List Instr
  | _, [] => []
  | k, e :: r =>
    let l := shuffled n (k + 1) r
    insertAt e (Config.choice n [12, k] % (l.length + 1)) l
def chosen (n : Nat) : Nat → List Instr → List Instr
  | _, [] => []
  | k, e :: r => if Config.occurs n k then e :: chosen n (k + 1) r else chosen n (k + 1) r

/-- Two sequences of events run together: each keeps its order, and the n-th tick chooses the rest, under a tag. -/
def riffle (n tag : Nat) : List Instr → List Instr → Nat → List Instr
  | [], l, _ => l
  | e :: r, l, k =>
    let j := Config.choice n [tag, k] % (l.length + 1)
    l.take j ++ e :: riffle n tag r (l.drop j) (k + 1)
def riffleAll (n tag : Nat) : List (List Instr) → Nat → List Instr
  | [], _ => []
  | b :: r, k => riffle n tag b (riffleAll n tag r (k + b.length)) k

/-- The tile at whose port a step of an engine at an address is performed. -/
def stepTile (s : State) (t : Nat) (m : Mode) (a : Dword) : Option Nat :=
  match locate (s.viewFrom t) m a with
  | some (.own _) | some (.mram _) => some t
  | some (.mesh y x _) => some ((s.viewFrom t).meshTile t y x)
  | some (.abs py px _) => some (tileOf py px)
  | _ => none
/-- The address that a copy engine's step reads or writes; none for a step that has none yet, for an index, and for a
multicast's flit, which enters the own router. -/
def CopyRun.stepAddr (r : CopyRun) (write : Bool) (b : Nat) : Option Dword :=
  let i := b / r.unit
  if write then (if r.cmd.op = 5 then none else some ((r.places i).2 + nd (b - i * r.unit)))
  else if r.cmd.op = 2 ∧ r.map.isEmpty then some r.cmd.w3
  else match (r.places i).1 with
    | .at base => some (base + nd (b - i * r.unit))
    | _ => none
/-- The address that a ladle engine's step reads or writes away from its own offsets. -/
def LadleCmd.stepAddr (c : LadleCmd) : LadleStep → Option Dword
  | .read row b =>
    if wLop c.w0 = 1 then none
    else (c.rows.find? (·.row == row)).bind fun r =>
      (r.places.find? (·.1 == b / rowBytes c)).map fun p => p.2 + nd (b % rowBytes c)
  | .write row b =>
    if wLop c.w0 = 1 then (c.rows.find? (·.row == row)).bind fun r => r.places.head?.map fun p => p.2 + nd b else none
  | _ => none

/-- The step of an engine, or of a lattice responder, acts at the port of another tile than its own: there it is a request
from the router, where R182 puts those (log 4). -/
def outward (s : State) (e : Instr) : Bool :=
  let run (t : Nat) (ch : Ch) (k : Nat) : Option CopyRun := ((s.tile t).chans[ch.toFin]).started.find? (·.cmd.serial == k)
  let away (t : Nat) (u : Option Nat) : Bool := u.any (· != t)
  match e with
  | .copyEngineStep t ch k write b =>
    (run t ch k).any fun r => away t ((r.stepAddr write b).bind (stepTile s t (modeOf r.cmd)))
  | .copyDestinationRiserStep t ch k d => (run t ch k).any fun r => away t (destTile s t r.cmd d)
  | .mcastFlitForward t _ _ node => node != t
  | .copyCompletionStep t ch k =>
    (run t ch k).any fun r => r.bad.isSome && (unstepped s t r.cmd r.stepped).head?.any fun d => away t (destTile s t r.cmd d)
  | .ladleEngineStep t turn =>
    ((s.tile t).ladle.queue.find? (·.serial == turn.serial)).any fun c =>
      match turn.step with
      | .riser row => (c.rows.find? (·.row == row)).any fun r => match riserHome s t r.core with
        | some (.tile u) => u != t
        | _ => false
      | step => away t ((c.stepAddr step).bind (stepTile s t (if c.machine then .machine else .user)))
  | .ladleCompletionStep t =>
    (s.tile t).ladle.queue.head?.any fun c => c.bad.isSome && c.lfail && (owedRows s t c).head?.any fun e =>
      match e.2.1 with
      | .tile u => u != t
      | _ => false
  | .latticeResponder t => (s.tile t).lattice.any fun r => match r.todo.head? with
    | some (.send ..) => true
    | _ => false
  | _ => false

/-- The delayed writes of packets at a tile's port, in their arrival order, which the port takes up before any other
request of the router (R136). -/
def delayedArrivals (s : State) (n : Nat) (x : Tile) : List Instr :=
  x.delayed.filterMap fun d => match d.1 with
    | .packet id => (s.net.find? (·.id == id)).map (arrivalOf s n)
    | _ => none
/-- What the router delivers to a tile's port or core in a cycle, in an order that the tick chooses. -/
def arrivals (s : State) (n t : Nat) : List Instr :=
  let mine := s.net.filter fun p => p.home == .tile t
  let late := mine.filter fun p => (s.tile t).delayed.any (·.1 == .packet p.id)
  shuffled n (t * 2 ^ 20) (chosen n (t * 2 ^ 20) ((mine.filter fun p => !late.any (·.id == p.id)).map (arrivalOf s n)))

/-- What the matrix unit, the copy channels and the ladle engine of a tile do in a tick, in that order. -/
def engineEvents (s : State) (n t : Nat) (x : Tile) : List Instr :=
  chosen n (t * 2 ^ 20 + 2 ^ 18) (matrixEvents t x ++ (upTo 4).flatMap (channelEvents s n t x) ++ ladleEvents n t x)
/-- A lattice responder's next step, in a tick that Config chooses. -/
def responderEvents (s : State) (n t : Nat) : List Instr :=
  if (s.tile t).lattice.isSome then chosen n (t * 2 ^ 20 + 2 ^ 19) [.latticeResponder t] else []
/-- What happens at a tile's port in a tick before the requests of the router: local accesses, the matrix unit, the copy
channels and the ladle engine, in the order of R182. -/
def localBlock (s : State) (n t : Nat) (x : Tile) : List Instr :=
  if clocked s t then
    .issueSelect t :: fillEvents t ++ [.spawnIntakeDrain t]
      ++ (responderEvents s n t ++ engineEvents s n t x).filter fun e => !outward s e
  else []
/-- The requests from the router, and the steps of other tiles' engines, each of which has its turn among them. -/
def routerBlock (s : State) (n t : Nat) (x : Tile) : List Instr :=
  if clocked s t then delayedArrivals s n x ++ arrivals s n t else []
def outwardEvents (s : State) (n t : Nat) (x : Tile) : List Instr :=
  if clocked s t then
    (responderEvents s n t ++ engineEvents s n t x).filter (outward s)
  else []
/-- What follows the port's accesses of the tick: slots are filled, and cycles and timer counts end. -/
def endBlock (s : State) (t : Nat) : List Instr :=
  if clocked s t then fillEvents t ++ timerEnds s t ++ cycleEnds t else timerEnds s t

/-- The events of the tick that begins: what comes before the router's requests at every tile, then those, then the ends,
each part's sequences run together in an order that the tick chooses; and among them all what comes from outside, and the
events of no tile's port (R182, log 4). -/
def agendaOf (s : State) (n : Nat) : List Instr :=
  let others := chosen n 0 (moduleEvents s n) ++ s.spawns.map (fun r => Instr.spawnResend r.id)
  let ports :=
    riffleAll n 0 (s.tiles.map fun p => localBlock s n p.1 p.2) 0
      ++ riffleAll n 13 (s.tiles.map (fun p => routerBlock s n p.1 p.2)
        ++ s.tiles.flatMap fun p => (outwardEvents s n p.1 p.2).map fun e => [e]) 0
      ++ riffleAll n 14 (s.tiles.map fun p => endBlock s p.1) 0
  riffleAll n 15 (ports :: (Config.inputs n).filter isInput :: others.map fun e => [e]) 0

/-- The turn that each port's engine step takes in this tick. -/
def State.takeTurns (s : State) : State :=
  { s with
    tiles := s.tiles.map fun p =>
      match (if clocked s p.1 then nextTurn p.2.turn (startedOf p.2) else none) with
      | some (_, k) => (p.1, { p.2 with turn := k })
      | none => p }

/-- The next tick: what firmware and timers do at its instant, and the agenda of all that will happen in it. -/
def State.nextTick (s : State) : State :=
  let n := s.free
  let s := { s.noteBusy with tick := s.tick + 1, free := s.free + 1 }
  let s := (s.instants n).prefetch n
  { s.takeTurns with agenda := agendaOf s n }

end Sys2Proof.Machine
end

