-- ==== Sys2Proof/Machine/Step.lean ====
section
/-!
DEFINITION. One step of the module: the next event of the tick's agenda, with the instruction that an issue has fetched;
or, with the agenda at its end, the next tick.
-/
namespace Sys2Proof.Machine

/-- What follows the instruction at a cursor in its cycle: the local accesses of the slots above its own (R182). -/
def thenAbove (c : Cursor) : Host.Outcome State Fault Refusal → Host.Outcome State Fault Refusal
  | .next s => .next (s.vecSteps c.tile (slotsAbove c.slot))
  | .fault f => .fault f
  | .refused r => .refused r

/-- The word that an issue left at the cursor is decoded and executed in the same step; a word that decodes to no
instruction takes cause 2 (R100). -/
def runWord (s : State) : Host.Outcome State Fault Refusal :=
  if s.latch then
    let s := { s with latch := false }
    thenAbove s.cur (match decodeWord s.cur.word with
      | .ok i => exec i s
      | .error _ => .next s.illegal)
  else .next s

/-- One step. -/
def step (s : State) : Host.Outcome State Fault Refusal :=
  match s.agenda with
  | [] => .next s.nextTick
  | e :: rest =>
    match exec e { s with agenda := rest } with
    | .next s => runWord s
    | .fault f => .fault f
    | .refused r => .refused r

/-- A thread of slot 0 about to fetch in M-mode at offset 0 of machine RAM, with its registers as they stand. -/
def Thread.atFetch (h : Thread) : Thread :=
  { h with
    st := .ready, need := .none, mode := .machine, pc := 0x5000000000000000, epoch := h.epoch + 1
    lat := [], vlat := [], pend := [], fbuf := [], acquire := false, fwTrap := none, awaits := none, rcfg := none
    sleep := none, woken := none, vecAt := 0, vec := none }

/-- The state with an instruction stored where the next step fetches: offset 0 of tile 0's machine RAM, with tile 0
enabled and only its slot 0 READY, in M-mode, and that tile's issue next on the agenda (log 2). -/
def State.withFetchWord (s : State) (nbits w : Nat) : State :=
  let s := s.writeN (tileKey 0 mramBase) 8 (w % 2 ^ nbits)
  let s := s.modIsland (islandOf 0) fun i => { i with pstate := 0, waking := none, throttle := 16 }
  let s := s.modTile 0 fun x =>
    ({ x.mapTh (fun h => { h with st := .empty }) with
      router := putBits x.router 0 2 1, evpend := 0, halted := false, sealed := false, lattice := none } : Tile).setTh 0 (x.th 0).atFetch
  { s with latch := false, fwResident := false, agenda := [.issueSelect 0] }

end Sys2Proof.Machine
end

