-- ==== Sys2Proof/Laws/PerInstr.lean ====
section
/-!
SUPPORT. One lemma per instruction about its word: the fields that the encoder gives a well-formed instruction are read
back by the decoder as that instruction (R100-R109); an event has no word.
-/
namespace Sys2Proof.Laws.Encodes
open Sys2Proof

/-- The fields of the instruction's word, if it has one, decode to it. -/
def Statement (i : Instr) : Prop := ∀ r, wellFormed i = true → encodeRaw i = some r → decodeRaw r = some i

theorem noWord {i : Instr} (h : encodeRaw i = none) : Statement i := by
  intro r _ hr; rw [h] at hr; cases hr
theorem word {i : Instr} (r : Raw) (h : encodeRaw i = some r) (k : wellFormed i = true → decodeRaw r = some i) :
    Statement i := by
  intro r' hw hr; rw [h] at hr; cases hr; exact k hw

/-! ### Fields written and read back -/

theorem cat12 (i : BitVec 12) : i.extractLsb' 5 7 ++ i.extractLsb' 0 5 = i := by
  apply BitVec.eq_of_getLsbD_eq; intro n hn
  simp only [BitVec.getLsbD_append, BitVec.getLsbD_extractLsb']
  by_cases h : n < 5
  · simp [h]
  · have : n - 5 < 7 := by omega
    simp [h, this, show 5 + (n - 5) = n by omega]
theorem immI_ofI (op : BitVec 7) (f3 : BitVec 3) (rd rs1 : BitVec 5) (i : BitVec 12) :
    (Raw.ofI op f3 rd rs1 i).immI = i := cat12 i
theorem immU_ofU (op : BitVec 7) (rd : BitVec 5) (i : BitVec 20) : (Raw.ofU op rd i).immU = i := by
  apply BitVec.eq_of_getLsbD_eq; intro n hn
  simp only [Raw.immU, Raw.ofU, BitVec.getLsbD_append, BitVec.getLsbD_extractLsb']
  by_cases h : n < 3
  · simp [h]
  · by_cases h1 : n < 8
    · simp [h, show n - 3 < 5 by omega, show 3 + (n - 3) = n by omega]
    · by_cases h2 : n < 13
      · simp [h, show ¬ n - 3 < 5 by omega, show n - 3 - 5 < 5 by omega, show 8 + (n - 3 - 5) = n by omega]
      · simp [h, show ¬ n - 3 < 5 by omega, show ¬ n - 3 - 5 < 5 by omega, show n - 3 - 5 - 5 < 7 by omega,
          show 13 + (n - 3 - 5 - 5) = n by omega]
theorem offOfU_uOfOff (o : BitVec 20) : offOfU (uOfOff o) = o := by
  apply BitVec.eq_of_getLsbD_eq; intro n hn
  simp only [offOfU, uOfOff, BitVec.getLsbD_append, BitVec.getLsbD_extractLsb']
  interval_cases n <;> simp
theorem offOfB_of (o : BitVec 12) : offOfB (bF7 o) (bRd o) = o := by
  apply BitVec.eq_of_getLsbD_eq; intro n hn
  simp only [offOfB, bF7, bRd, BitVec.getLsbD_append, BitVec.getLsbD_extractLsb']
  interval_cases n <;> simp
theorem vregOf_vregF (v : VReg) (k : VReg → Option Instr) : vregOf (vregF v) k = k v := by
  have h : ∀ v : VReg, (vregF v).extractLsb' 4 1 = 0 ∧ (vregF v).extractLsb' 0 4 = v := by decide
  simp only [vregOf, h v, if_true]
theorem accOf_accF (n : Acc) (k : Acc → Option Instr) : accOf (accF n) k = k n := by
  have h : ∀ v : Acc, (accF v).extractLsb' 3 2 = 0 ∧ (accF v).extractLsb' 0 3 = v := by decide
  simp only [accOf, h n, if_true]
theorem pairOf_pairF (p : Pair) (k : Pair → Option Instr) : pairOf (pairF p) k = k p := by
  have h : ∀ v : Pair, (pairF v).extractLsb' 0 1 = 0 ∧ (pairF v).extractLsb' 1 4 = v := by decide
  simp only [pairOf, h p, if_true]
theorem sfxOf_code (f : Sfx) (k : Sfx → Option Instr) : sfxOf (sfxCode f) k = k f := by cases f <;> rfl
theorem srcOf_code (f : Sfx) (k : Sfx → Option Instr) : srcOf (0b00#2 ++ sfxCode f) k = k f := by cases f <;> rfl
theorem fp8Of_fp8F (f : Fp8) (k : Fp8 → Option Instr) : fp8Of (fp8F f) k = k f := by cases f <;> rfl
theorem flagOf_flagF (b : Bool) (k : Bool → Option Instr) : flagOf (flagF b) k = k b := by cases b <;> rfl

theorem shift0 : ∀ n : BitVec 6, (0b000000#6 ++ n.extractLsb' 5 1).extractLsb' 1 6 = 0b000000#6
    ∧ (0b000000#6 ++ n.extractLsb' 5 1).extractLsb' 0 1 ++ n.extractLsb' 0 5 = n := by decide
theorem shift1 : ∀ n : BitVec 6, (0b010000#6 ++ n.extractLsb' 5 1).extractLsb' 1 6 = 0b010000#6
    ∧ (0b010000#6 ++ n.extractLsb' 5 1).extractLsb' 0 1 ++ n.extractLsb' 0 5 = n := by decide
theorem fields5 (r : BitVec 5) (k : BitVec 2) : (r ++ k).extractLsb' 2 5 = r ∧ (r ++ k).extractLsb' 0 2 = k := by
  revert r k; decide
theorem f7ABits : ∀ (k : BitVec 5) (aq rl : Bool), (f7A k aq rl).extractLsb' 2 5 = k ∧ (f7A k aq rl)[1] = aq
    ∧ (f7A k aq rl)[0] = rl := by decide
theorem fenceBits : ∀ p q : BitVec 4, (0b0000#4 ++ p ++ q).extractLsb' 8 4 = 0b0000#4
    ∧ (0b0000#4 ++ p ++ q).extractLsb' 4 4 = p ∧ (0b0000#4 ++ p ++ q).extractLsb' 0 4 = q := by decide
theorem fenceTsoBits : ∀ p q : BitVec 4, (0b1000#4 ++ p ++ q).extractLsb' 8 4 = 0b1000#4
    ∧ (0b1000#4 ++ p ++ q).extractLsb' 4 4 = p ∧ (0b1000#4 ++ p ++ q).extractLsb' 0 4 = q := by decide

theorem fenceOf (i : BitVec 12) : decodeRaw (Raw.ofI 0b0001111#7 0b000#3 0 0 i)
    = match i.extractLsb' 8 4 with
      | 0b0000#4 => some (.fence (i.extractLsb' 4 4) (i.extractLsb' 0 4))
      | 0b1000#4 => some (.fenceTso (i.extractLsb' 4 4) (i.extractLsb' 0 4))
      | _ => none := by
  have h := immI_ofI 0b0001111#7 0b000#3 0 0 i
  show miscMemOf (Raw.ofI 0b0001111#7 0b000#3 0 0 i) = _
  unfold miscMemOf
  rw [h]; rfl
theorem row8 : ∀ c : BitVec 3, c = 0b000#3 ∨ c = 0b001#3 ∨ c = 0b010#3 ∨ c = 0b011#3 ∨ c = 0b100#3 ∨ c = 0b101#3
    ∨ c = 0b110#3 ∨ c = 0b111#3 := by decide
theorem ch4 : ∀ c : BitVec 2, c = 0b00#2 ∨ c = 0b01#2 ∨ c = 0b10#2 ∨ c = 0b11#2 := by decide

/-! ### The instructions -/

theorem lui (rd : Reg) (imm : BitVec 20) : Statement (.lui rd imm) := word _ rfl fun _ => congrArg (fun i => some (Instr.lui rd i)) (immU_ofU _ _ _)
theorem auipc (rd : Reg) (imm : BitVec 20) : Statement (.auipc rd imm) :=
  word _ rfl fun _ => congrArg (fun i => some (Instr.auipc rd i)) (immU_ofU _ _ _)
theorem jal (rd : Reg) (off : BitVec 20) : Statement (.jal rd off) :=
  word _ rfl fun _ => (congrArg (fun i => some (Instr.jal rd (offOfU i))) (immU_ofU _ _ _)).trans (congrArg (fun i => some (Instr.jal rd i)) (offOfU_uOfOff off))
theorem jalr (rd rs1 : Reg) (imm : BitVec 12) : Statement (.jalr rd rs1 imm) :=
  word _ rfl fun _ => congrArg (fun i => some (Instr.jalr rd rs1 i)) (immI_ofI _ _ _ _ _)
theorem beq (rs1 rs2 : Reg) (off : BitVec 12) : Statement (.beq rs1 rs2 off) :=
  word _ rfl fun _ => congrArg (fun i => some (Instr.beq rs1 rs2 i)) (offOfB_of off)
theorem bne (rs1 rs2 : Reg) (off : BitVec 12) : Statement (.bne rs1 rs2 off) :=
  word _ rfl fun _ => congrArg (fun i => some (Instr.bne rs1 rs2 i)) (offOfB_of off)
theorem blt (rs1 rs2 : Reg) (off : BitVec 12) : Statement (.blt rs1 rs2 off) :=
  word _ rfl fun _ => congrArg (fun i => some (Instr.blt rs1 rs2 i)) (offOfB_of off)
theorem bge (rs1 rs2 : Reg) (off : BitVec 12) : Statement (.bge rs1 rs2 off) :=
  word _ rfl fun _ => congrArg (fun i => some (Instr.bge rs1 rs2 i)) (offOfB_of off)
theorem bltu (rs1 rs2 : Reg) (off : BitVec 12) : Statement (.bltu rs1 rs2 off) :=
  word _ rfl fun _ => congrArg (fun i => some (Instr.bltu rs1 rs2 i)) (offOfB_of off)
theorem bgeu (rs1 rs2 : Reg) (off : BitVec 12) : Statement (.bgeu rs1 rs2 off) :=
  word _ rfl fun _ => congrArg (fun i => some (Instr.bgeu rs1 rs2 i)) (offOfB_of off)
theorem lb (rd rs1 : Reg) (imm : BitVec 12) : Statement (.lb rd rs1 imm) :=
  word _ rfl fun _ => congrArg (fun i => some (Instr.lb rd rs1 i)) (immI_ofI _ _ _ _ _)
theorem lh (rd rs1 : Reg) (imm : BitVec 12) : Statement (.lh rd rs1 imm) :=
  word _ rfl fun _ => congrArg (fun i => some (Instr.lh rd rs1 i)) (immI_ofI _ _ _ _ _)
theorem lw (rd rs1 : Reg) (imm : BitVec 12) : Statement (.lw rd rs1 imm) :=
  word _ rfl fun _ => congrArg (fun i => some (Instr.lw rd rs1 i)) (immI_ofI _ _ _ _ _)
theorem ld (rd rs1 : Reg) (imm : BitVec 12) : Statement (.ld rd rs1 imm) :=
  word _ rfl fun _ => congrArg (fun i => some (Instr.ld rd rs1 i)) (immI_ofI _ _ _ _ _)
theorem lbu (rd rs1 : Reg) (imm : BitVec 12) : Statement (.lbu rd rs1 imm) :=
  word _ rfl fun _ => congrArg (fun i => some (Instr.lbu rd rs1 i)) (immI_ofI _ _ _ _ _)
theorem lhu (rd rs1 : Reg) (imm : BitVec 12) : Statement (.lhu rd rs1 imm) :=
  word _ rfl fun _ => congrArg (fun i => some (Instr.lhu rd rs1 i)) (immI_ofI _ _ _ _ _)
theorem lwu (rd rs1 : Reg) (imm : BitVec 12) : Statement (.lwu rd rs1 imm) :=
  word _ rfl fun _ => congrArg (fun i => some (Instr.lwu rd rs1 i)) (immI_ofI _ _ _ _ _)
theorem sb (rs1 rs2 : Reg) (imm : BitVec 12) : Statement (.sb rs1 rs2 imm) :=
  word _ rfl fun _ => congrArg (fun i => some (Instr.sb rs1 rs2 i)) (cat12 imm)
theorem sh (rs1 rs2 : Reg) (imm : BitVec 12) : Statement (.sh rs1 rs2 imm) :=
  word _ rfl fun _ => congrArg (fun i => some (Instr.sh rs1 rs2 i)) (cat12 imm)
theorem sw (rs1 rs2 : Reg) (imm : BitVec 12) : Statement (.sw rs1 rs2 imm) :=
  word _ rfl fun _ => congrArg (fun i => some (Instr.sw rs1 rs2 i)) (cat12 imm)
theorem sd (rs1 rs2 : Reg) (imm : BitVec 12) : Statement (.sd rs1 rs2 imm) :=
  word _ rfl fun _ => congrArg (fun i => some (Instr.sd rs1 rs2 i)) (cat12 imm)
theorem addi (rd rs1 : Reg) (imm : BitVec 12) : Statement (.addi rd rs1 imm) :=
  word _ rfl fun _ => congrArg (fun i => some (Instr.addi rd rs1 i)) (immI_ofI _ _ _ _ _)
theorem slti (rd rs1 : Reg) (imm : BitVec 12) : Statement (.slti rd rs1 imm) :=
  word _ rfl fun _ => congrArg (fun i => some (Instr.slti rd rs1 i)) (immI_ofI _ _ _ _ _)
theorem sltiu (rd rs1 : Reg) (imm : BitVec 12) : Statement (.sltiu rd rs1 imm) :=
  word _ rfl fun _ => congrArg (fun i => some (Instr.sltiu rd rs1 i)) (immI_ofI _ _ _ _ _)
theorem xori (rd rs1 : Reg) (imm : BitVec 12) : Statement (.xori rd rs1 imm) :=
  word _ rfl fun _ => congrArg (fun i => some (Instr.xori rd rs1 i)) (immI_ofI _ _ _ _ _)
theorem ori (rd rs1 : Reg) (imm : BitVec 12) : Statement (.ori rd rs1 imm) :=
  word _ rfl fun _ => congrArg (fun i => some (Instr.ori rd rs1 i)) (immI_ofI _ _ _ _ _)
theorem andi (rd rs1 : Reg) (imm : BitVec 12) : Statement (.andi rd rs1 imm) :=
  word _ rfl fun _ => congrArg (fun i => some (Instr.andi rd rs1 i)) (immI_ofI _ _ _ _ _)
theorem slli (rd rs1 : Reg) (sh : BitVec 6) : Statement (.slli rd rs1 sh) := word _ rfl fun _ => by
  show opImmOf ⟨0b0010011#7, rd, 0b001#3, rs1, sh.extractLsb' 0 5, 0b000000#6 ++ sh.extractLsb' 5 1⟩ = _
  simp [opImmOf, req, shift0 sh]
theorem srli (rd rs1 : Reg) (sh : BitVec 6) : Statement (.srli rd rs1 sh) := word _ rfl fun _ => by
  show opImmOf ⟨0b0010011#7, rd, 0b101#3, rs1, sh.extractLsb' 0 5, 0b000000#6 ++ sh.extractLsb' 5 1⟩ = _
  simp [opImmOf, req, firstOf, shift0 sh]
theorem srai (rd rs1 : Reg) (sh : BitVec 6) : Statement (.srai rd rs1 sh) := word _ rfl fun _ => by
  show opImmOf ⟨0b0010011#7, rd, 0b101#3, rs1, sh.extractLsb' 0 5, 0b010000#6 ++ sh.extractLsb' 5 1⟩ = _
  simp [opImmOf, req, firstOf, shift1 sh]
theorem add (rd rs1 rs2 : Reg) : Statement (.add rd rs1 rs2) := word _ rfl fun _ => by with_unfolding_all rfl
theorem sub (rd rs1 rs2 : Reg) : Statement (.sub rd rs1 rs2) := word _ rfl fun _ => by with_unfolding_all rfl
theorem sll (rd rs1 rs2 : Reg) : Statement (.sll rd rs1 rs2) := word _ rfl fun _ => by with_unfolding_all rfl
theorem slt (rd rs1 rs2 : Reg) : Statement (.slt rd rs1 rs2) := word _ rfl fun _ => by with_unfolding_all rfl
theorem sltu (rd rs1 rs2 : Reg) : Statement (.sltu rd rs1 rs2) := word _ rfl fun _ => by with_unfolding_all rfl
theorem xor (rd rs1 rs2 : Reg) : Statement (.xor rd rs1 rs2) := word _ rfl fun _ => by with_unfolding_all rfl
theorem srl (rd rs1 rs2 : Reg) : Statement (.srl rd rs1 rs2) := word _ rfl fun _ => by with_unfolding_all rfl
theorem sra (rd rs1 rs2 : Reg) : Statement (.sra rd rs1 rs2) := word _ rfl fun _ => by with_unfolding_all rfl
theorem or (rd rs1 rs2 : Reg) : Statement (.or rd rs1 rs2) := word _ rfl fun _ => by with_unfolding_all rfl
theorem and (rd rs1 rs2 : Reg) : Statement (.and rd rs1 rs2) := word _ rfl fun _ => by with_unfolding_all rfl
theorem addiw (rd rs1 : Reg) (imm : BitVec 12) : Statement (.addiw rd rs1 imm) :=
  word _ rfl fun _ => congrArg (fun i => some (Instr.addiw rd rs1 i)) (immI_ofI _ _ _ _ _)
theorem slliw (rd rs1 : Reg) (sh : BitVec 5) : Statement (.slliw rd rs1 sh) := word _ rfl fun _ => by with_unfolding_all rfl
theorem srliw (rd rs1 : Reg) (sh : BitVec 5) : Statement (.srliw rd rs1 sh) := word _ rfl fun _ => by with_unfolding_all rfl
theorem sraiw (rd rs1 : Reg) (sh : BitVec 5) : Statement (.sraiw rd rs1 sh) := word _ rfl fun _ => by with_unfolding_all rfl
theorem addw (rd rs1 rs2 : Reg) : Statement (.addw rd rs1 rs2) := word _ rfl fun _ => by with_unfolding_all rfl
theorem subw (rd rs1 rs2 : Reg) : Statement (.subw rd rs1 rs2) := word _ rfl fun _ => by with_unfolding_all rfl
theorem sllw (rd rs1 rs2 : Reg) : Statement (.sllw rd rs1 rs2) := word _ rfl fun _ => by with_unfolding_all rfl
theorem srlw (rd rs1 rs2 : Reg) : Statement (.srlw rd rs1 rs2) := word _ rfl fun _ => by with_unfolding_all rfl
theorem sraw (rd rs1 rs2 : Reg) : Statement (.sraw rd rs1 rs2) := word _ rfl fun _ => by with_unfolding_all rfl
theorem mul (rd rs1 rs2 : Reg) : Statement (.mul rd rs1 rs2) := word _ rfl fun _ => by with_unfolding_all rfl
theorem mulh (rd rs1 rs2 : Reg) : Statement (.mulh rd rs1 rs2) := word _ rfl fun _ => by with_unfolding_all rfl
theorem mulhsu (rd rs1 rs2 : Reg) : Statement (.mulhsu rd rs1 rs2) := word _ rfl fun _ => by with_unfolding_all rfl
theorem mulhu (rd rs1 rs2 : Reg) : Statement (.mulhu rd rs1 rs2) := word _ rfl fun _ => by with_unfolding_all rfl
theorem div (rd rs1 rs2 : Reg) : Statement (.div rd rs1 rs2) := word _ rfl fun _ => by with_unfolding_all rfl
theorem divu (rd rs1 rs2 : Reg) : Statement (.divu rd rs1 rs2) := word _ rfl fun _ => by with_unfolding_all rfl
theorem rem (rd rs1 rs2 : Reg) : Statement (.rem rd rs1 rs2) := word _ rfl fun _ => by with_unfolding_all rfl
theorem remu (rd rs1 rs2 : Reg) : Statement (.remu rd rs1 rs2) := word _ rfl fun _ => by with_unfolding_all rfl
theorem mulw (rd rs1 rs2 : Reg) : Statement (.mulw rd rs1 rs2) := word _ rfl fun _ => by with_unfolding_all rfl
theorem divw (rd rs1 rs2 : Reg) : Statement (.divw rd rs1 rs2) := word _ rfl fun _ => by with_unfolding_all rfl
theorem divuw (rd rs1 rs2 : Reg) : Statement (.divuw rd rs1 rs2) := word _ rfl fun _ => by with_unfolding_all rfl
theorem remw (rd rs1 rs2 : Reg) : Statement (.remw rd rs1 rs2) := word _ rfl fun _ => by with_unfolding_all rfl
theorem remuw (rd rs1 rs2 : Reg) : Statement (.remuw rd rs1 rs2) := word _ rfl fun _ => by with_unfolding_all rfl
theorem lrW (rd rs1 : Reg) (aq rl : Bool) : Statement (.lrW rd rs1 aq rl) := word _ rfl fun _ => by
  show amoOf ⟨0b0101111#7, rd, 0b010#3, rs1, 0, f7A 0b00010#5 aq rl⟩ = _
  simp [amoOf, f7ABits, Raw.aq, Raw.rl, req]
theorem lrD (rd rs1 : Reg) (aq rl : Bool) : Statement (.lrD rd rs1 aq rl) := word _ rfl fun _ => by
  show amoOf ⟨0b0101111#7, rd, 0b011#3, rs1, 0, f7A 0b00010#5 aq rl⟩ = _
  simp [amoOf, f7ABits, Raw.aq, Raw.rl, req]
theorem scW (rd rs1 rs2 : Reg) (aq rl : Bool) : Statement (.scW rd rs1 rs2 aq rl) := word _ rfl fun _ => by
  show amoOf ⟨0b0101111#7, rd, 0b010#3, rs1, rs2, f7A 0b00011#5 aq rl⟩ = _
  simp [amoOf, f7ABits, Raw.aq, Raw.rl]
theorem scD (rd rs1 rs2 : Reg) (aq rl : Bool) : Statement (.scD rd rs1 rs2 aq rl) := word _ rfl fun _ => by
  show amoOf ⟨0b0101111#7, rd, 0b011#3, rs1, rs2, f7A 0b00011#5 aq rl⟩ = _
  simp [amoOf, f7ABits, Raw.aq, Raw.rl]
theorem amoswapW (rd rs1 rs2 : Reg) (aq rl : Bool) : Statement (.amoswapW rd rs1 rs2 aq rl) := word _ rfl fun _ => by
  show amoOf ⟨0b0101111#7, rd, 0b010#3, rs1, rs2, f7A 0b00001#5 aq rl⟩ = _
  simp [amoOf, f7ABits, Raw.aq, Raw.rl]
theorem amoswapD (rd rs1 rs2 : Reg) (aq rl : Bool) : Statement (.amoswapD rd rs1 rs2 aq rl) := word _ rfl fun _ => by
  show amoOf ⟨0b0101111#7, rd, 0b011#3, rs1, rs2, f7A 0b00001#5 aq rl⟩ = _
  simp [amoOf, f7ABits, Raw.aq, Raw.rl]
theorem amoaddW (rd rs1 rs2 : Reg) (aq rl : Bool) : Statement (.amoaddW rd rs1 rs2 aq rl) := word _ rfl fun _ => by
  show amoOf ⟨0b0101111#7, rd, 0b010#3, rs1, rs2, f7A 0b00000#5 aq rl⟩ = _
  simp [amoOf, f7ABits, Raw.aq, Raw.rl]
theorem amoaddD (rd rs1 rs2 : Reg) (aq rl : Bool) : Statement (.amoaddD rd rs1 rs2 aq rl) := word _ rfl fun _ => by
  show amoOf ⟨0b0101111#7, rd, 0b011#3, rs1, rs2, f7A 0b00000#5 aq rl⟩ = _
  simp [amoOf, f7ABits, Raw.aq, Raw.rl]
theorem amoxorW (rd rs1 rs2 : Reg) (aq rl : Bool) : Statement (.amoxorW rd rs1 rs2 aq rl) := word _ rfl fun _ => by
  show amoOf ⟨0b0101111#7, rd, 0b010#3, rs1, rs2, f7A 0b00100#5 aq rl⟩ = _
  simp [amoOf, f7ABits, Raw.aq, Raw.rl]
theorem amoxorD (rd rs1 rs2 : Reg) (aq rl : Bool) : Statement (.amoxorD rd rs1 rs2 aq rl) := word _ rfl fun _ => by
  show amoOf ⟨0b0101111#7, rd, 0b011#3, rs1, rs2, f7A 0b00100#5 aq rl⟩ = _
  simp [amoOf, f7ABits, Raw.aq, Raw.rl]
theorem amoandW (rd rs1 rs2 : Reg) (aq rl : Bool) : Statement (.amoandW rd rs1 rs2 aq rl) := word _ rfl fun _ => by
  show amoOf ⟨0b0101111#7, rd, 0b010#3, rs1, rs2, f7A 0b01100#5 aq rl⟩ = _
  simp [amoOf, f7ABits, Raw.aq, Raw.rl]
theorem amoandD (rd rs1 rs2 : Reg) (aq rl : Bool) : Statement (.amoandD rd rs1 rs2 aq rl) := word _ rfl fun _ => by
  show amoOf ⟨0b0101111#7, rd, 0b011#3, rs1, rs2, f7A 0b01100#5 aq rl⟩ = _
  simp [amoOf, f7ABits, Raw.aq, Raw.rl]
theorem amoorW (rd rs1 rs2 : Reg) (aq rl : Bool) : Statement (.amoorW rd rs1 rs2 aq rl) := word _ rfl fun _ => by
  show amoOf ⟨0b0101111#7, rd, 0b010#3, rs1, rs2, f7A 0b01000#5 aq rl⟩ = _
  simp [amoOf, f7ABits, Raw.aq, Raw.rl]
theorem amoorD (rd rs1 rs2 : Reg) (aq rl : Bool) : Statement (.amoorD rd rs1 rs2 aq rl) := word _ rfl fun _ => by
  show amoOf ⟨0b0101111#7, rd, 0b011#3, rs1, rs2, f7A 0b01000#5 aq rl⟩ = _
  simp [amoOf, f7ABits, Raw.aq, Raw.rl]
theorem amominW (rd rs1 rs2 : Reg) (aq rl : Bool) : Statement (.amominW rd rs1 rs2 aq rl) := word _ rfl fun _ => by
  show amoOf ⟨0b0101111#7, rd, 0b010#3, rs1, rs2, f7A 0b10000#5 aq rl⟩ = _
  simp [amoOf, f7ABits, Raw.aq, Raw.rl]
theorem amominD (rd rs1 rs2 : Reg) (aq rl : Bool) : Statement (.amominD rd rs1 rs2 aq rl) := word _ rfl fun _ => by
  show amoOf ⟨0b0101111#7, rd, 0b011#3, rs1, rs2, f7A 0b10000#5 aq rl⟩ = _
  simp [amoOf, f7ABits, Raw.aq, Raw.rl]
theorem amomaxW (rd rs1 rs2 : Reg) (aq rl : Bool) : Statement (.amomaxW rd rs1 rs2 aq rl) := word _ rfl fun _ => by
  show amoOf ⟨0b0101111#7, rd, 0b010#3, rs1, rs2, f7A 0b10100#5 aq rl⟩ = _
  simp [amoOf, f7ABits, Raw.aq, Raw.rl]
theorem amomaxD (rd rs1 rs2 : Reg) (aq rl : Bool) : Statement (.amomaxD rd rs1 rs2 aq rl) := word _ rfl fun _ => by
  show amoOf ⟨0b0101111#7, rd, 0b011#3, rs1, rs2, f7A 0b10100#5 aq rl⟩ = _
  simp [amoOf, f7ABits, Raw.aq, Raw.rl]
theorem amominuW (rd rs1 rs2 : Reg) (aq rl : Bool) : Statement (.amominuW rd rs1 rs2 aq rl) := word _ rfl fun _ => by
  show amoOf ⟨0b0101111#7, rd, 0b010#3, rs1, rs2, f7A 0b11000#5 aq rl⟩ = _
  simp [amoOf, f7ABits, Raw.aq, Raw.rl]
theorem amominuD (rd rs1 rs2 : Reg) (aq rl : Bool) : Statement (.amominuD rd rs1 rs2 aq rl) := word _ rfl fun _ => by
  show amoOf ⟨0b0101111#7, rd, 0b011#3, rs1, rs2, f7A 0b11000#5 aq rl⟩ = _
  simp [amoOf, f7ABits, Raw.aq, Raw.rl]
theorem amomaxuW (rd rs1 rs2 : Reg) (aq rl : Bool) : Statement (.amomaxuW rd rs1 rs2 aq rl) := word _ rfl fun _ => by
  show amoOf ⟨0b0101111#7, rd, 0b010#3, rs1, rs2, f7A 0b11100#5 aq rl⟩ = _
  simp [amoOf, f7ABits, Raw.aq, Raw.rl]
theorem amomaxuD (rd rs1 rs2 : Reg) (aq rl : Bool) : Statement (.amomaxuD rd rs1 rs2 aq rl) := word _ rfl fun _ => by
  show amoOf ⟨0b0101111#7, rd, 0b011#3, rs1, rs2, f7A 0b11100#5 aq rl⟩ = _
  simp [amoOf, f7ABits, Raw.aq, Raw.rl]
theorem fence (pred succ : BitVec 4) : Statement (.fence pred succ) := word _ rfl fun _ => by
  rw [fenceOf]; simp only [fenceBits]
theorem fenceTso (pred succ : BitVec 4) : Statement (.fenceTso pred succ) := word _ rfl fun _ => by
  rw [fenceOf]; simp only [fenceTsoBits]
theorem csrrw (rd : Reg) (csr : BitVec 12) (rs1 : Reg) : Statement (.csrrw rd csr rs1) :=
  word _ rfl fun _ => congrArg (fun i => some (Instr.csrrw rd i rs1)) (immI_ofI _ _ _ _ _)
theorem csrrs (rd : Reg) (csr : BitVec 12) (rs1 : Reg) : Statement (.csrrs rd csr rs1) :=
  word _ rfl fun _ => congrArg (fun i => some (Instr.csrrs rd i rs1)) (immI_ofI _ _ _ _ _)
theorem csrrc (rd : Reg) (csr : BitVec 12) (rs1 : Reg) : Statement (.csrrc rd csr rs1) :=
  word _ rfl fun _ => congrArg (fun i => some (Instr.csrrc rd i rs1)) (immI_ofI _ _ _ _ _)
theorem csrrwi (rd : Reg) (csr : BitVec 12) (uimm : BitVec 5) : Statement (.csrrwi rd csr uimm) :=
  word _ rfl fun _ => congrArg (fun i => some (Instr.csrrwi rd i uimm)) (immI_ofI _ _ _ _ _)
theorem csrrsi (rd : Reg) (csr : BitVec 12) (uimm : BitVec 5) : Statement (.csrrsi rd csr uimm) :=
  word _ rfl fun _ => congrArg (fun i => some (Instr.csrrsi rd i uimm)) (immI_ofI _ _ _ _ _)
theorem csrrci (rd : Reg) (csr : BitVec 12) (uimm : BitVec 5) : Statement (.csrrci rd csr uimm) :=
  word _ rfl fun _ => congrArg (fun i => some (Instr.csrrci rd i uimm)) (immI_ofI _ _ _ _ _)
theorem setprio (rs1 : Reg) : Statement (.setprio rs1) := word _ rfl fun _ => by with_unfolding_all rfl
theorem spawna (rd rs1 rs2 : Reg) : Statement (.spawna rd rs1 rs2) := word _ rfl fun _ => by with_unfolding_all rfl
theorem capq (rd rs1 : Reg) : Statement (.capq rd rs1) := word _ rfl fun _ => by with_unfolding_all rfl
theorem utrap (rs1 : Reg) : Statement (.utrap rs1) := word _ rfl fun _ => by with_unfolding_all rfl
theorem rmark (rs1 : Reg) : Statement (.rmark rs1) := word _ rfl fun _ => by with_unfolding_all rfl
theorem rwaitImm (rd rs1 : Reg) (off : BitVec 5) (tgt : BitVec 7) : Statement (.rwaitImm rd rs1 off tgt) :=
  word _ rfl fun _ => by with_unfolding_all rfl
theorem rwait (rd rs1 rs2 : Reg) : Statement (.rwait rd rs1 rs2) := word _ rfl fun _ => by with_unfolding_all rfl
theorem radd (rd rs1 rs2 : Reg) : Statement (.radd rd rs1 rs2) := word _ rfl fun _ => by with_unfolding_all rfl
theorem rpoison (rs1 rs2 : Reg) : Statement (.rpoison rs1 rs2) := word _ rfl fun _ => by with_unfolding_all rfl
theorem binit (rs1 rs2 : Reg) : Statement (.binit rs1 rs2) := word _ rfl fun _ => by with_unfolding_all rfl
theorem barv (rd rs1 : Reg) : Statement (.barv rd rs1) := word _ rfl fun _ => by with_unfolding_all rfl
theorem bexp (rd rs1 rs2 : Reg) : Statement (.bexp rd rs1 rs2) := word _ rfl fun _ => by with_unfolding_all rfl
theorem bpoison (rs1 rs2 : Reg) : Statement (.bpoison rs1 rs2) := word _ rfl fun _ => by with_unfolding_all rfl
theorem spawn (rd rs1 rs2 rs3 : Reg) : Statement (.spawn rd rs1 rs2 rs3) := word _ rfl fun _ => by
  show custom0Of ⟨0b0001011#7, rd, 0b011#3, rs1, rs2, rs3 ++ 0b00#2⟩ = _
  simp [custom0Of, fields5, Raw.rs3]
theorem spawnm (rd rs1 rs2 rs3 : Reg) : Statement (.spawnm rd rs1 rs2 rs3) := word _ rfl fun _ => by
  show custom0Of ⟨0b0001011#7, rd, 0b011#3, rs1, rs2, rs3 ++ 0b01#2⟩ = _
  simp [custom0Of, fields5, Raw.rs3]
theorem amsg (rd rs1 rs2 rs3 : Reg) : Statement (.amsg rd rs1 rs2 rs3) := word _ rfl fun _ => by
  show custom0Of ⟨0b0001011#7, rd, 0b011#3, rs1, rs2, rs3 ++ 0b10#2⟩ = _
  simp [custom0Of, fields5, Raw.rs3]
theorem rwaitt (rd rs1 rs2 rs3 : Reg) : Statement (.rwaitt rd rs1 rs2 rs3) := word _ rfl fun _ => by
  show custom0Of ⟨0b0001011#7, rd, 0b011#3, rs1, rs2, rs3 ++ 0b11#2⟩ = _
  simp [custom0Of, fields5, Raw.rs3]
theorem nbsend (rd rs1 rs2 : Reg) : Statement (.nbsend rd rs1 rs2) := word _ rfl fun _ => by with_unfolding_all rfl
theorem rcfg (rs1 rs2 : Reg) : Statement (.rcfg rs1 rs2) := word _ rfl fun _ => by with_unfolding_all rfl
theorem capset (rs1 rs2 : Reg) : Statement (.capset rs1 rs2) := word _ rfl fun _ => by with_unfolding_all rfl
theorem sdc (rs1 rs2 rs3 : Reg) : Statement (.sdc rs1 rs2 rs3) := word _ rfl fun _ => by
  show custom1Of ⟨0b0101011#7, 0, 0b000#3, rs1, rs2, rs3 ++ 0b00#2⟩ = _
  simp [custom1Of, fields5, Raw.rs3, req]
theorem swc (rs1 rs2 rs3 : Reg) : Statement (.swc rs1 rs2 rs3) := word _ rfl fun _ => by
  show custom1Of ⟨0b0101011#7, 0, 0b000#3, rs1, rs2, rs3 ++ 0b01#2⟩ = _
  simp [custom1Of, fields5, Raw.rs3, req]
theorem amofaddS (rd rs1 rs2 : Reg) : Statement (.amofaddS rd rs1 rs2) := word _ rfl fun _ => by with_unfolding_all rfl
theorem amofaddBf (rd rs1 rs2 : Reg) : Statement (.amofaddBf rd rs1 rs2) := word _ rfl fun _ => by with_unfolding_all rfl
theorem amofmaxS (rd rs1 rs2 : Reg) : Statement (.amofmaxS rd rs1 rs2) := word _ rfl fun _ => by with_unfolding_all rfl
theorem amofminS (rd rs1 rs2 : Reg) : Statement (.amofminS rd rs1 rs2) := word _ rfl fun _ => by with_unfolding_all rfl
theorem amoincbW (rd rs1 rs2 : Reg) : Statement (.amoincbW rd rs1 rs2) := word _ rfl fun _ => by with_unfolding_all rfl
theorem amoincbD (rd rs1 rs2 : Reg) : Statement (.amoincbD rd rs1 rs2) := word _ rfl fun _ => by with_unfolding_all rfl
theorem amocasD (rd rs1 rs2 : Reg) : Statement (.amocasD rd rs1 rs2) := word _ rfl fun _ => by with_unfolding_all rfl
theorem rsig (rs1 rs2 : Reg) : Statement (.rsig rs1 rs2) := word _ rfl fun _ => by with_unfolding_all rfl
theorem fencef (rd : Reg) : Statement (.fencef rd) := word _ rfl fun _ => by with_unfolding_all rfl
theorem cpq (rd rs1 : Reg) (ch : Ch) : Statement (.cpq rd rs1 ch) := by
  rcases ch4 ch with rfl | rfl | rfl | rfl <;> exact word _ rfl fun _ => by with_unfolding_all rfl
theorem cpqn (rd rs1 : Reg) (ch : Ch) : Statement (.cpqn rd rs1 ch) := by
  rcases ch4 ch with rfl | rfl | rfl | rfl <;> exact word _ rfl fun _ => by with_unfolding_all rfl
theorem cpwait (rs1 : Reg) (ch : Ch) : Statement (.cpwait rs1 ch) := by
  rcases ch4 ch with rfl | rfl | rfl | rfl <;> exact word _ rfl fun _ => by with_unfolding_all rfl
theorem ldlq (rd rs1 : Reg) : Statement (.ldlq rd rs1) := word _ rfl fun _ => by with_unfolding_all rfl
theorem mmaE4e4 (acc : Acc) (a b : Pair) : Statement (.mmaE4e4 acc a b) := word _ rfl fun _ => by
  show custom2Of ⟨0b1011011#7, accF acc, 0b000#3, pairF a, pairF b, 0b0000000#7⟩ = _
  simp [custom2Of, accOf_accF, pairOf_pairF]
theorem mmaE4e5 (acc : Acc) (a b : Pair) : Statement (.mmaE4e5 acc a b) := word _ rfl fun _ => by
  show custom2Of ⟨0b1011011#7, accF acc, 0b000#3, pairF a, pairF b, 0b0000001#7⟩ = _
  simp [custom2Of, accOf_accF, pairOf_pairF]
theorem mmaE5e4 (acc : Acc) (a b : Pair) : Statement (.mmaE5e4 acc a b) := word _ rfl fun _ => by
  show custom2Of ⟨0b1011011#7, accF acc, 0b000#3, pairF a, pairF b, 0b0000010#7⟩ = _
  simp [custom2Of, accOf_accF, pairOf_pairF]
theorem mmaE5e5 (acc : Acc) (a b : Pair) : Statement (.mmaE5e5 acc a b) := word _ rfl fun _ => by
  show custom2Of ⟨0b1011011#7, accF acc, 0b000#3, pairF a, pairF b, 0b0000011#7⟩ = _
  simp [custom2Of, accOf_accF, pairOf_pairF]
theorem mmaBf (acc : Acc) (a b : Pair) : Statement (.mmaBf acc a b) := word _ rfl fun _ => by
  show custom2Of ⟨0b1011011#7, accF acc, 0b000#3, pairF a, pairF b, 0b0000100#7⟩ = _
  simp [custom2Of, accOf_accF, pairOf_pairF]
theorem mzero (acc : Acc) : Statement (.mzero acc) := word _ rfl fun _ => by
  show custom2Of ⟨0b1011011#7, accF acc, 0b001#3, 0, 0, 0b0000000#7⟩ = _
  simp [custom2Of, accOf_accF, req]
theorem mld (acc : Acc) (p : Pair) : Statement (.mld acc p) := word _ rfl fun _ => by
  show custom2Of ⟨0b1011011#7, accF acc, 0b001#3, pairF p, 0, 0b0000001#7⟩ = _
  simp [custom2Of, accOf_accF, pairOf_pairF, req]
theorem mstF32 (acc : Acc) (p : Pair) : Statement (.mstF32 acc p) := word _ rfl fun _ => by
  show custom2Of ⟨0b1011011#7, accF acc, 0b001#3, pairF p, 0, 0b0000010#7⟩ = _
  simp [custom2Of, accOf_accF, pairOf_pairF, req]
theorem mstBf (acc : Acc) (p : Pair) : Statement (.mstBf acc p) := word _ rfl fun _ => by
  show custom2Of ⟨0b1011011#7, accF acc, 0b001#3, pairF p, 0, 0b0000011#7⟩ = _
  simp [custom2Of, accOf_accF, pairOf_pairF, req]
theorem mstE4m3 (acc : Acc) (p : Pair) : Statement (.mstE4m3 acc p) := word _ rfl fun _ => by
  show custom2Of ⟨0b1011011#7, accF acc, 0b001#3, pairF p, 0, 0b0000100#7⟩ = _
  simp [custom2Of, accOf_accF, pairOf_pairF, req]
theorem mstE5m2 (acc : Acc) (p : Pair) : Statement (.mstE5m2 acc p) := word _ rfl fun _ => by
  show custom2Of ⟨0b1011011#7, accF acc, 0b001#3, pairF p, 0, 0b0000101#7⟩ = _
  simp [custom2Of, accOf_accF, pairOf_pairF, req]
theorem mgate (rs1 rs2 : Reg) : Statement (.mgate rs1 rs2) := word _ rfl fun _ => by with_unfolding_all rfl
theorem mburst (rs1 : Reg) : Statement (.mburst rs1) := word _ rfl fun _ => by with_unfolding_all rfl
theorem mrowv (vd : VReg) (acc : Acc) (row : BitVec 3) : Statement (.mrowv vd acc row) := by
  rcases row8 row with rfl | rfl | rfl | rfl | rfl | rfl | rfl | rfl
  · exact word _ rfl fun _ => by
      show custom2Of ⟨0b1011011#7, vregF vd, 0b001#3, accF acc, 0, 0b0010#4 ++ 0b000#3⟩ = _
      simp [custom2Of, vregOf_vregF, accOf_accF, reqO, req]
  · exact word _ rfl fun _ => by
      show custom2Of ⟨0b1011011#7, vregF vd, 0b001#3, accF acc, 0, 0b0010#4 ++ 0b001#3⟩ = _
      simp [custom2Of, vregOf_vregF, accOf_accF, reqO, req]
  · exact word _ rfl fun _ => by
      show custom2Of ⟨0b1011011#7, vregF vd, 0b001#3, accF acc, 0, 0b0010#4 ++ 0b010#3⟩ = _
      simp [custom2Of, vregOf_vregF, accOf_accF, reqO, req]
  · exact word _ rfl fun _ => by
      show custom2Of ⟨0b1011011#7, vregF vd, 0b001#3, accF acc, 0, 0b0010#4 ++ 0b011#3⟩ = _
      simp [custom2Of, vregOf_vregF, accOf_accF, reqO, req]
  · exact word _ rfl fun _ => by
      show custom2Of ⟨0b1011011#7, vregF vd, 0b001#3, accF acc, 0, 0b0010#4 ++ 0b100#3⟩ = _
      simp [custom2Of, vregOf_vregF, accOf_accF, reqO, req]
  · exact word _ rfl fun _ => by
      show custom2Of ⟨0b1011011#7, vregF vd, 0b001#3, accF acc, 0, 0b0010#4 ++ 0b101#3⟩ = _
      simp [custom2Of, vregOf_vregF, accOf_accF, reqO, req]
  · exact word _ rfl fun _ => by
      show custom2Of ⟨0b1011011#7, vregF vd, 0b001#3, accF acc, 0, 0b0010#4 ++ 0b110#3⟩ = _
      simp [custom2Of, vregOf_vregF, accOf_accF, reqO, req]
  · exact word _ rfl fun _ => by
      show custom2Of ⟨0b1011011#7, vregF vd, 0b001#3, accF acc, 0, 0b0010#4 ++ 0b111#3⟩ = _
      simp [custom2Of, vregOf_vregF, accOf_accF, reqO, req]
theorem vadd (f : Sfx) (vd vs1 vs2 : VReg) : Statement (.vadd f vd vs1 vs2) := word _ rfl fun _ => by
  show custom3Of ⟨0b1111011#7, vregF vd, sfxCode f, vregF vs1, vregF vs2, 0b0000000#7⟩ = _
  simp [custom3Of, sfxOf_code, vregOf_vregF]
theorem vsub (f : Sfx) (vd vs1 vs2 : VReg) : Statement (.vsub f vd vs1 vs2) := word _ rfl fun _ => by
  show custom3Of ⟨0b1111011#7, vregF vd, sfxCode f, vregF vs1, vregF vs2, 0b0000001#7⟩ = _
  simp [custom3Of, sfxOf_code, vregOf_vregF]
theorem vmul (f : Sfx) (vd vs1 vs2 : VReg) : Statement (.vmul f vd vs1 vs2) := word _ rfl fun _ => by
  show custom3Of ⟨0b1111011#7, vregF vd, sfxCode f, vregF vs1, vregF vs2, 0b0000010#7⟩ = _
  simp [custom3Of, sfxOf_code, vregOf_vregF]
theorem vfma (f : Sfx) (vd vs1 vs2 : VReg) : Statement (.vfma f vd vs1 vs2) := word _ rfl fun _ => by
  show custom3Of ⟨0b1111011#7, vregF vd, sfxCode f, vregF vs1, vregF vs2, 0b0000011#7⟩ = _
  simp [custom3Of, sfxOf_code, vregOf_vregF]
theorem vmax (f : Sfx) (vd vs1 vs2 : VReg) : Statement (.vmax f vd vs1 vs2) := word _ rfl fun _ => by
  show custom3Of ⟨0b1111011#7, vregF vd, sfxCode f, vregF vs1, vregF vs2, 0b0000100#7⟩ = _
  simp [custom3Of, sfxOf_code, vregOf_vregF]
theorem vmin (f : Sfx) (vd vs1 vs2 : VReg) : Statement (.vmin f vd vs1 vs2) := word _ rfl fun _ => by
  show custom3Of ⟨0b1111011#7, vregF vd, sfxCode f, vregF vs1, vregF vs2, 0b0000101#7⟩ = _
  simp [custom3Of, sfxOf_code, vregOf_vregF]
theorem vabs (f : Sfx) (vd vs1 : VReg) : Statement (.vabs f vd vs1) := word _ rfl fun _ => by
  show custom3Of ⟨0b1111011#7, vregF vd, sfxCode f, vregF vs1, 0, 0b0000110#7⟩ = _
  simp [custom3Of, sfxOf_code, vregOf_vregF, req]
theorem vneg (f : Sfx) (vd vs1 : VReg) : Statement (.vneg f vd vs1) := word _ rfl fun _ => by
  show custom3Of ⟨0b1111011#7, vregF vd, sfxCode f, vregF vs1, 0, 0b0000111#7⟩ = _
  simp [custom3Of, sfxOf_code, vregOf_vregF, req]
theorem vand (vd vs1 vs2 : VReg) : Statement (.vand vd vs1 vs2) := word _ rfl fun _ => by
  show custom3Of ⟨0b1111011#7, vregF vd, 0b000#3, vregF vs1, vregF vs2, 0b0001000#7⟩ = _
  simp [custom3Of, vregOf_vregF, req]
theorem vor (vd vs1 vs2 : VReg) : Statement (.vor vd vs1 vs2) := word _ rfl fun _ => by
  show custom3Of ⟨0b1111011#7, vregF vd, 0b000#3, vregF vs1, vregF vs2, 0b0001001#7⟩ = _
  simp [custom3Of, vregOf_vregF, req]
theorem vxor (vd vs1 vs2 : VReg) : Statement (.vxor vd vs1 vs2) := word _ rfl fun _ => by
  show custom3Of ⟨0b1111011#7, vregF vd, 0b000#3, vregF vs1, vregF vs2, 0b0001010#7⟩ = _
  simp [custom3Of, vregOf_vregF, req]
theorem vsll (f : Sfx) (vd vs1 vs2 : VReg) : Statement (.vsll f vd vs1 vs2) := word _ rfl fun _ => by
  show custom3Of ⟨0b1111011#7, vregF vd, sfxCode f, vregF vs1, vregF vs2, 0b0001011#7⟩ = _
  simp [custom3Of, sfxOf_code, vregOf_vregF]
theorem vsrl (f : Sfx) (vd vs1 vs2 : VReg) : Statement (.vsrl f vd vs1 vs2) := word _ rfl fun _ => by
  show custom3Of ⟨0b1111011#7, vregF vd, sfxCode f, vregF vs1, vregF vs2, 0b0001100#7⟩ = _
  simp [custom3Of, sfxOf_code, vregOf_vregF]
theorem vsra (f : Sfx) (vd vs1 vs2 : VReg) : Statement (.vsra f vd vs1 vs2) := word _ rfl fun _ => by
  show custom3Of ⟨0b1111011#7, vregF vd, sfxCode f, vregF vs1, vregF vs2, 0b0001101#7⟩ = _
  simp [custom3Of, sfxOf_code, vregOf_vregF]
theorem vcmpeq (f : Sfx) (vd vs1 vs2 : VReg) : Statement (.vcmpeq f vd vs1 vs2) := word _ rfl fun _ => by
  show custom3Of ⟨0b1111011#7, vregF vd, sfxCode f, vregF vs1, vregF vs2, 0b0010000#7⟩ = _
  simp [custom3Of, sfxOf_code, vregOf_vregF]
theorem vcmplt (f : Sfx) (vd vs1 vs2 : VReg) : Statement (.vcmplt f vd vs1 vs2) := word _ rfl fun _ => by
  show custom3Of ⟨0b1111011#7, vregF vd, sfxCode f, vregF vs1, vregF vs2, 0b0010001#7⟩ = _
  simp [custom3Of, sfxOf_code, vregOf_vregF]
theorem vcmple (f : Sfx) (vd vs1 vs2 : VReg) : Statement (.vcmple f vd vs1 vs2) := word _ rfl fun _ => by
  show custom3Of ⟨0b1111011#7, vregF vd, sfxCode f, vregF vs1, vregF vs2, 0b0010010#7⟩ = _
  simp [custom3Of, sfxOf_code, vregOf_vregF]
theorem vsel (f : Sfx) (vd vs1 vs2 : VReg) : Statement (.vsel f vd vs1 vs2) := word _ rfl fun _ => by
  show custom3Of ⟨0b1111011#7, vregF vd, sfxCode f, vregF vs1, vregF vs2, 0b0010011#7⟩ = _
  simp [custom3Of, sfxOf_code, vregOf_vregF]
theorem vrcp (vd vs1 : VReg) : Statement (.vrcp vd vs1) := word _ rfl fun _ => by
  show custom3Of ⟨0b1111011#7, vregF vd, 0b101#3, vregF vs1, 0, 0b0011000#7⟩ = _
  simp [custom3Of, vregOf_vregF, req]
theorem vrsq (vd vs1 : VReg) : Statement (.vrsq vd vs1) := word _ rfl fun _ => by
  show custom3Of ⟨0b1111011#7, vregF vd, 0b101#3, vregF vs1, 0, 0b0011001#7⟩ = _
  simp [custom3Of, vregOf_vregF, req]
theorem vexp2 (vd vs1 : VReg) : Statement (.vexp2 vd vs1) := word _ rfl fun _ => by
  show custom3Of ⟨0b1111011#7, vregF vd, 0b101#3, vregF vs1, 0, 0b0011010#7⟩ = _
  simp [custom3Of, vregOf_vregF, req]
theorem vlog2 (vd vs1 : VReg) : Statement (.vlog2 vd vs1) := word _ rfl fun _ => by
  show custom3Of ⟨0b1111011#7, vregF vd, 0b101#3, vregF vs1, 0, 0b0011011#7⟩ = _
  simp [custom3Of, vregOf_vregF, req]
theorem vcvt (dst src : Sfx) (vd vs1 : VReg) : Statement (.vcvt dst src vd vs1) := word _ rfl fun _ => by
  show custom3Of ⟨0b1111011#7, vregF vd, sfxCode dst, vregF vs1, 0b00#2 ++ sfxCode src, 0b0100000#7⟩ = _
  simp [custom3Of, sfxOf_code, srcOf_code, vregOf_vregF]
theorem vpack (f : Sfx) (m : Fp8) (vd vs1 : VReg) : Statement (.vpack f m vd vs1) := word _ rfl fun _ => by
  show custom3Of ⟨0b1111011#7, vregF vd, sfxCode f, vregF vs1, fp8F m, 0b0100001#7⟩ = _
  simp [custom3Of, sfxOf_code, fp8Of_fp8F, vregOf_vregF]
theorem vunpack (f : Sfx) (m : Fp8) (vd vs1 : VReg) : Statement (.vunpack f m vd vs1) := word _ rfl fun _ => by
  show custom3Of ⟨0b1111011#7, vregF vd, sfxCode f, vregF vs1, fp8F m, 0b0100010#7⟩ = _
  simp [custom3Of, sfxOf_code, fp8Of_fp8F, vregOf_vregF]
theorem vredsum (f : Sfx) (vd vs1 : VReg) : Statement (.vredsum f vd vs1) := word _ rfl fun _ => by
  show custom3Of ⟨0b1111011#7, vregF vd, sfxCode f, vregF vs1, 0, 0b0101000#7⟩ = _
  simp [custom3Of, sfxOf_code, vregOf_vregF, req]
theorem vredmax (f : Sfx) (vd vs1 : VReg) : Statement (.vredmax f vd vs1) := word _ rfl fun _ => by
  show custom3Of ⟨0b1111011#7, vregF vd, sfxCode f, vregF vs1, 0, 0b0101001#7⟩ = _
  simp [custom3Of, sfxOf_code, vregOf_vregF, req]
theorem vscan (f : Sfx) (excl : Bool) (vd vs1 : VReg) : Statement (.vscan f excl vd vs1) := word _ rfl fun _ => by
  show custom3Of ⟨0b1111011#7, vregF vd, sfxCode f, vregF vs1, flagF excl, 0b0101010#7⟩ = _
  simp [custom3Of, sfxOf_code, flagOf_flagF, vregOf_vregF]
theorem vperm (f : Sfx) (vd vs1 vs2 : VReg) : Statement (.vperm f vd vs1 vs2) := word _ rfl fun _ => by
  show custom3Of ⟨0b1111011#7, vregF vd, sfxCode f, vregF vs1, vregF vs2, 0b0110000#7⟩ = _
  simp [custom3Of, sfxOf_code, vregOf_vregF]
theorem vslide (f : Sfx) (vd vs1 : VReg) (rs2 : Reg) : Statement (.vslide f vd vs1 rs2) := word _ rfl fun _ => by
  show custom3Of ⟨0b1111011#7, vregF vd, sfxCode f, vregF vs1, rs2, 0b0110001#7⟩ = _
  simp [custom3Of, sfxOf_code, vregOf_vregF]
theorem vbcast (f : Sfx) (vd : VReg) (rs1 : Reg) : Statement (.vbcast f vd rs1) := word _ rfl fun _ => by
  show custom3Of ⟨0b1111011#7, vregF vd, sfxCode f, rs1, 0, 0b0111000#7⟩ = _
  simp [custom3Of, sfxOf_code, vregOf_vregF, req]
theorem vmvx (f : Sfx) (rd : Reg) (vs1 : VReg) (rs2 : Reg) : Statement (.vmvx f rd vs1 rs2) := word _ rfl fun _ => by
  show custom3Of ⟨0b1111011#7, rd, sfxCode f, vregF vs1, rs2, 0b0111001#7⟩ = _
  simp [custom3Of, sfxOf_code, vregOf_vregF]
theorem vld (vd : VReg) (rs1 : Reg) : Statement (.vld vd rs1) := word _ rfl fun _ => by
  show custom3Of ⟨0b1111011#7, vregF vd, 0b000#3, rs1, 0, 0b1000000#7⟩ = _
  simp [custom3Of, vregOf_vregF, req]
theorem vlds (f : Sfx) (vd : VReg) (rs1 rs2 : Reg) : Statement (.vlds f vd rs1 rs2) := word _ rfl fun _ => by
  show custom3Of ⟨0b1111011#7, vregF vd, sfxCode f, rs1, rs2, 0b1000001#7⟩ = _
  simp [custom3Of, sfxOf_code, vregOf_vregF]
theorem vldx (f : Sfx) (vd : VReg) (rs1 : Reg) (vs2 : VReg) : Statement (.vldx f vd rs1 vs2) := word _ rfl fun _ => by
  show custom3Of ⟨0b1111011#7, vregF vd, sfxCode f, rs1, vregF vs2, 0b1000010#7⟩ = _
  simp [custom3Of, sfxOf_code, vregOf_vregF]
theorem vst (vs3 : VReg) (rs1 : Reg) : Statement (.vst vs3 rs1) := word _ rfl fun _ => by
  show custom3Of ⟨0b1111011#7, vregF vs3, 0b000#3, rs1, 0, 0b1000011#7⟩ = _
  simp [custom3Of, vregOf_vregF, req]
theorem vsts (f : Sfx) (vs3 : VReg) (rs1 rs2 : Reg) : Statement (.vsts f vs3 rs1 rs2) := word _ rfl fun _ => by
  show custom3Of ⟨0b1111011#7, vregF vs3, sfxCode f, rs1, rs2, 0b1000100#7⟩ = _
  simp [custom3Of, sfxOf_code, vregOf_vregF]
theorem vstx (f : Sfx) (vs3 : VReg) (rs1 : Reg) (vs2 : VReg) : Statement (.vstx f vs3 rs1 vs2) := word _ rfl fun _ => by
  show custom3Of ⟨0b1111011#7, vregF vs3, sfxCode f, rs1, vregF vs2, 0b1000101#7⟩ = _
  simp [custom3Of, sfxOf_code, vregOf_vregF]
theorem vstc (vs3 : VReg) (rs1 rs2 : Reg) : Statement (.vstc vs3 rs1 rs2) := word _ rfl fun _ => by
  show custom3Of ⟨0b1111011#7, vregF vs3, 0b000#3, rs1, rs2, 0b1000110#7⟩ = _
  simp [custom3Of, vregOf_vregF, req]
theorem issueSelect (tile : Nat) : Statement (.issueSelect tile) := noWord rfl
theorem firmwareThreadFill (tile : Nat) : Statement (.firmwareThreadFill tile) := noWord rfl
theorem divideComplete (tile : Nat) : Statement (.divideComplete tile) := noWord rfl
theorem lrHoldExpiry (tile slot : Nat) : Statement (.lrHoldExpiry tile slot) := noWord rfl
theorem spawnRequestArrival (pkt : Nat) : Statement (.spawnRequestArrival pkt) := noWord rfl
theorem spawnIntakeDrain (tile : Nat) : Statement (.spawnIntakeDrain tile) := noWord rfl
theorem spawnRefusalReturn (pkt : Nat) : Statement (.spawnRefusalReturn pkt) := noWord rfl
theorem spawnResend (entry : Nat) : Statement (.spawnResend entry) := noWord rfl
theorem spawnStatusReturn (pkt : Nat) : Statement (.spawnStatusReturn pkt) := noWord rfl
theorem messageArrival (pkt : Nat) : Statement (.messageArrival pkt) := noWord rfl
theorem handlerDispatch (tile : Nat) : Statement (.handlerDispatch tile) := noWord rfl
theorem routedLoadArrival (pkt : Nat) : Statement (.routedLoadArrival pkt) := noWord rfl
theorem routedStoreArrival (pkt : Nat) : Statement (.routedStoreArrival pkt) := noWord rfl
theorem routedAmoArrival (pkt : Nat) : Statement (.routedAmoArrival pkt) := noWord rfl
theorem riserStepArrival (pkt : Nat) : Statement (.riserStepArrival pkt) := noWord rfl
theorem countedStoreArrival (pkt : Nat) : Statement (.countedStoreArrival pkt) := noWord rfl
theorem barrierStepArrival (pkt : Nat) : Statement (.barrierStepArrival pkt) := noWord rfl
theorem transferCompletionStep (pkt : Nat) : Statement (.transferCompletionStep pkt) := noWord rfl
theorem releaseSignalArrival (pkt : Nat) : Statement (.releaseSignalArrival pkt) := noWord rfl
theorem capqArrival (pkt : Nat) : Statement (.capqArrival pkt) := noWord rfl
theorem responseReturn (pkt : Nat) : Statement (.responseReturn pkt) := noWord rfl
theorem storeCompletionReturn (pkt : Nat) : Statement (.storeCompletionReturn pkt) := noWord rfl
theorem impreciseFaultArrival (pkt : Nat) : Statement (.impreciseFaultArrival pkt) := noWord rfl
theorem rwaitWake (tile slot : Nat) : Statement (.rwaitWake tile slot) := noWord rfl
theorem rwaittTimeout (tile slot : Nat) : Statement (.rwaittTimeout tile slot) := noWord rfl
theorem jcloadRefresh (tile : Nat) : Statement (.jcloadRefresh tile) := noWord rfl
theorem intervalCheckArrival (pkt : Nat) : Statement (.intervalCheckArrival pkt) := noWord rfl
theorem intervalCheckAnswer (pkt : Nat) : Statement (.intervalCheckAnswer pkt) := noWord rfl
theorem fabricStoreReceive (pkt : Nat) (bad : Bool) : Statement (.fabricStoreReceive pkt bad) := noWord rfl
theorem pageWalkComplete (walk : Nat) : Statement (.pageWalkComplete walk) := noWord rfl
theorem copyCommandStart (tile : Nat) (ch : Ch) : Statement (.copyCommandStart tile ch) := noWord rfl
theorem copyEngineStep (tile : Nat) (ch : Ch) (serial : Nat) (write : Bool) (byte : Nat) : Statement (.copyEngineStep tile ch serial write byte) := noWord rfl
theorem copyDestinationRiserStep (tile : Nat) (ch : Ch) (serial dst : Nat) : Statement (.copyDestinationRiserStep tile ch serial dst) := noWord rfl
theorem copyCompletionStep (tile : Nat) (ch : Ch) (serial : Nat) : Statement (.copyCompletionStep tile ch serial) := noWord rfl
theorem mcastFlitForward (tile serial byte node : Nat) : Statement (.mcastFlitForward tile serial byte node) := noWord rfl
theorem mcastAckCombine (tile serial node : Nat) : Statement (.mcastAckCombine tile serial node) := noWord rfl
theorem pftimeout (tile : Nat) : Statement (.pftimeout tile) := noWord rfl
theorem uioCompletion (pkt : Nat) (poisoned : Bool) : Statement (.uioCompletion pkt poisoned) := noWord rfl
theorem ladleCommandStart (tile : Nat) : Statement (.ladleCommandStart tile) := noWord rfl
theorem planScanComplete (tile : Nat) : Statement (.planScanComplete tile) := noWord rfl
theorem ladleEngineStep (tile : Nat) (turn : LadleTurn) : Statement (.ladleEngineStep tile turn) := noWord rfl
theorem ladleCompletionStep (tile : Nat) : Statement (.ladleCompletionStep tile) := noWord rfl
theorem ladleReset (tile serial : Nat) : Statement (.ladleReset tile serial) := noWord rfl
theorem matrixGateEvaluate (tile : Nat) : Statement (.matrixGateEvaluate tile) := noWord rfl
theorem matrixFetch (tile blk : Nat) : Statement (.matrixFetch tile blk) := noWord rfl
theorem mmaCompute (tile : Nat) : Statement (.mmaCompute tile) := noWord rfl
theorem mzeroCompute (tile : Nat) : Statement (.mzeroCompute tile) := noWord rfl
theorem mldCompute (tile : Nat) : Statement (.mldCompute tile) := noWord rfl
theorem mstCompute (tile serial : Nat) : Statement (.mstCompute tile serial) := noWord rfl
theorem matrixRampUpDone (tile : Nat) : Statement (.matrixRampUpDone tile) := noWord rfl
theorem matrixRampDownDone (tile : Nat) : Statement (.matrixRampDownDone tile) := noWord rfl
theorem burstGapExpiry (tile : Nat) : Statement (.burstGapExpiry tile) := noWord rfl
theorem nbsendReceive (pkt : Nat) : Statement (.nbsendReceive pkt) := noWord rfl
theorem nbsendStatusReturn (pkt : Nat) : Statement (.nbsendStatusReturn pkt) := noWord rfl
theorem rcfgAck (tile slot : Nat) : Statement (.rcfgAck tile slot) := noWord rfl
theorem closeDrainComplete (pid : Nat) : Statement (.closeDrainComplete pid) := noWord rfl
theorem suspendSave (pid : Nat) : Statement (.suspendSave pid) := noWord rfl
theorem invalComplete (pkg : Nat) : Statement (.invalComplete pkg) := noWord rfl
theorem latticeResponder (tile : Nat) : Statement (.latticeResponder tile) := noWord rfl
theorem patrolScrubStep (chan addr : Nat) (error : BitVec 2) : Statement (.patrolScrubStep chan addr error) := noWord rfl
theorem islandPowerDown (island : Nat) : Statement (.islandPowerDown island) := noWord rfl
theorem islandWake (island : Nat) : Statement (.islandWake island) := noWord rfl
theorem fenceI : Statement (.fenceI) := word _ rfl fun _ => by with_unfolding_all rfl
theorem ecall : Statement (.ecall) := word _ rfl fun _ => by with_unfolding_all rfl
theorem ebreak : Statement (.ebreak) := word _ rfl fun _ => by with_unfolding_all rfl
theorem mret : Statement (.mret) := word _ rfl fun _ => by with_unfolding_all rfl
theorem wfi : Statement (.wfi) := word _ rfl fun _ => by with_unfolding_all rfl
theorem quit : Statement (.quit) := word _ rfl fun _ => by with_unfolding_all rfl
theorem yield : Statement (.yield) := word _ rfl fun _ => by with_unfolding_all rfl
theorem hret : Statement (.hret) := word _ rfl fun _ => by with_unfolding_all rfl
theorem mfence : Statement (.mfence) := word _ rfl fun _ => by with_unfolding_all rfl
theorem routerConfigWrite (tile : Nat) (v : Dword) : Statement (.routerConfigWrite tile v) := noWord rfl
theorem evpendWrite (tile : Nat) (v : Dword) : Statement (.evpendWrite tile v) := noWord rfl
theorem jcodewinWrite (tile : Nat) (v : Dword) : Statement (.jcodewinWrite tile v) := noWord rfl
theorem jsrseedWrite (tile slot : Nat) (v : Dword) : Statement (.jsrseedWrite tile slot v) := noWord rfl
theorem jrmarkWrite (tile slot : Nat) (v : Dword) : Statement (.jrmarkWrite tile slot v) := noWord rfl
theorem jmgateWrite (tile slot : Nat) (csr : BitVec 12) (v : Dword) : Statement (.jmgateWrite tile slot csr v) := noWord rfl
theorem jutcauseWrite (tile slot : Nat) (v : Dword) : Statement (.jutcauseWrite tile slot v) := noWord rfl
theorem jmpartWrite (tile : Nat) (csr : BitVec 12) (v : Dword) : Statement (.jmpartWrite tile csr v) := noWord rfl
theorem registerWrite (home : Home) (off size : Nat) (v : Dword) : Statement (.registerWrite home off size v) := noWord rfl
theorem openPart (pkg seq : Nat) : Statement (.openPart pkg seq) := noWord rfl
theorem closePart (pkg seq : Nat) : Statement (.closePart pkg seq) := noWord rfl
theorem suspend (pkg seq : Nat) : Statement (.suspend pkg seq) := noWord rfl
theorem resume (pkg seq : Nat) : Statement (.resume pkg seq) := noWord rfl
theorem inval (pkg seq : Nat) : Statement (.inval pkg seq) := noWord rfl
theorem hriser (pkg seq : Nat) : Statement (.hriser pkg seq) := noWord rfl
theorem cryoCool (pkg seq : Nat) : Statement (.cryoCool pkg seq) := noWord rfl
theorem cryoWarm (pkg seq : Nat) : Statement (.cryoWarm pkg seq) := noWord rfl
theorem cryoRecal (pkg seq : Nat) (c : Calibration) : Statement (.cryoRecal pkg seq c) := noWord rfl
theorem attest (pkg seq : Nat) : Statement (.attest pkg seq) := noWord rfl
theorem svncommit (pkg seq : Nat) : Statement (.svncommit pkg seq) := noWord rfl
theorem imageUpdate (pkg seq : Nat) : Statement (.imageUpdate pkg seq) := noWord rfl
theorem hostMeshRead (pkg off size : Nat) : Statement (.hostMeshRead pkg off size) := noWord rfl
theorem hostMeshWrite (pkg off : Nat) (data : List Byte) : Statement (.hostMeshWrite pkg off data) := noWord rfl
theorem hostSpawnWrite (pkg off : Nat) (data : List Byte) : Statement (.hostSpawnWrite pkg off data) := noWord rfl
theorem hostSignalWrite (pkg off : Nat) (data : List Byte) : Statement (.hostSignalWrite pkg off data) := noWord rfl
theorem hostMemoryAccess (pkg off size : Nat) (data : Option (List Byte)) : Statement (.hostMemoryAccess pkg off size data) := noWord rfl
theorem fabricFlitReceive (port : Nat) (header : FlitHeader) (crcOk : Bool) (payload : List Packet) :
    Statement (.fabricFlitReceive port header crcOk payload) := noWord rfl
theorem atsTranslationResponse (pkg pasid page : Nat) (grant : Option (Nat × Bool)) : Statement (.atsTranslationResponse pkg pasid page grant) := noWord rfl
theorem atsInvalidationRequest (pkg pasid page pages : Nat) : Statement (.atsInvalidationRequest pkg pasid page pages) := noWord rfl
theorem pageRequestResponseFailure (pkg pasid page : Nat) : Statement (.pageRequestResponseFailure pkg pasid page) := noWord rfl
theorem pooledPageResident (tile : Nat) : Statement (.pooledPageResident tile) := noWord rfl
theorem carrierPowerOn (strap : Bool) : Statement (.carrierPowerOn strap) := noWord rfl
theorem carrierPowerOff : Statement (.carrierPowerOff) := noWord rfl
theorem mailboxSubmission (pkg : Nat) (v : Dword) : Statement (.mailboxSubmission pkg v) := noWord rfl
theorem tmaxSample (x : Sensors) : Statement (.tmaxSample x) := noWord rfl
theorem soakTimerExpiry (c : Calibration) : Statement (.soakTimerExpiry c) := noWord rfl
theorem precoolTimeout : Statement (.precoolTimeout) := noWord rfl
theorem guardAdjust (island : Nat) (fails : List (Nat × Nat)) : Statement (.guardAdjust island fails) := noWord rfl
theorem eolFit (island : Nat) : Statement (.eolFit island) := noWord rfl
theorem shareGrant (pkg : Nat) (power : List (Nat × Nat)) : Statement (.shareGrant pkg power) := noWord rfl
theorem envelopeCheck (power : List (Nat × Nat)) : Statement (.envelopeCheck power) := noWord rfl
theorem islandWakeComplete (island : Nat) : Statement (.islandWakeComplete island) := noWord rfl
theorem periodicTest (tile : Nat) (fails : List (Nat × Bool)) : Statement (.periodicTest tile fails) := noWord rfl
theorem linkFailureTimeout (port : Nat) : Statement (.linkFailureTimeout port) := noWord rfl
theorem quiesceBoundExceeded (pid : Nat) : Statement (.quiesceBoundExceeded pid) := noWord rfl
theorem quietSample (pid : Nat) : Statement (.quietSample pid) := noWord rfl

end Sys2Proof.Laws.Encodes
end

