-- ==== Sys2Proof/Numbers.lean ====
section
/-!
DEFINITION. The arithmetic of R70 to R81 as the spec words it, over the rationals: what an encoding stands for, how an
exact value is rounded, and how special operands decide. The claims hold the operations of the model against it.
-/
namespace Sys2Proof.Machine

/-- The fields S, E and F of an encoding (R70). -/
def signField (f : Fmt) (v : Nat) : Bool := v / 2 ^ (f.frac + f.expo) % 2 == 1
def expField (f : Fmt) (v : Nat) : Nat := v / 2 ^ f.frac % 2 ^ f.expo
def fracField (f : Fmt) (v : Nat) : Nat := v % 2 ^ f.frac

/-- The real value of a finite encoding (R71). An infinity reads as the power of two beyond every finite value. -/
def realOf (f : Fmt) (v : Nat) : ℚ :=
  (if signField f v then -1 else 1)
    * (if expField f v = 0 then (fracField f v : ℚ) * 2 ^ (1 - (f.bias : ℤ) - f.frac)
      else (1 + (fracField f v : ℚ) / 2 ^ f.frac) * 2 ^ ((expField f v : ℤ) - f.bias))

/-- An encoding is an infinity, or a NaN (R71): E4M3 has no infinity and one NaN of each sign. -/
def isInfinity (f : Fmt) (v : Nat) : Bool :=
  f != e4m3 && expField f v == 2 ^ f.expo - 1 && fracField f v == 0
def isNaN (f : Fmt) (v : Nat) : Bool :=
  expField f v == 2 ^ f.expo - 1 && (if f = e4m3 then fracField f v == 7 else fracField f v != 0)

/-- The encoding of a sign bit alone. -/
def signBit (f : Fmt) (neg : Prop) [Decidable neg] : Nat := if neg then 2 ^ (f.frac + f.expo) else 0
/-- An infinity of a format that has them: all ones in E and 0 in F (R71). -/
def infinityOf (f : Fmt) (neg : Prop) [Decidable neg] : Nat := signBit f neg + (2 ^ f.expo - 1) * 2 ^ f.frac

/-- n is r rounded to the nearest integer, ties to the even one (R74). -/
def Nearest (r : ℚ) (n : Int) : Prop := |r - n| ≤ 1 / 2 ∧ (|r - n| = 1 / 2 → n % 2 = 0)

/-- r is Encode(RoundRNE(q, F), F, ovf) for q other than 0 (R74). -/
def Rounded (f : Fmt) (ovf : Bool) (q : ℚ) (r : Nat) : Prop :=
  let emin : ℤ := 1 - f.bias
  ∃ (e : ℤ) (n : Nat), emin ≤ e ∧ |q| < 2 ^ (e + 1) ∧ (e = emin ∨ 2 ^ e ≤ |q|) ∧ Nearest (|q| / 2 ^ (e - f.frac)) n
    ∧ let w : ℚ := n * 2 ^ (e - f.frac)
      if w ≤ realOf f f.largest then ∃ m, m ≤ f.largest ∧ realOf f m = w ∧ r = signBit f (q < 0) + m
      else r = if f = fp32 ∨ f = bf16 then infinityOf f (q < 0) else if ovf then f.nan else signBit f (q < 0) + f.largest

/-- A term of a sum: a NaN, an infinity, or a value with the sign that a zero has. -/
structure Term where
  nan : Bool
  inf : Bool
  neg : Bool
  val : ℚ

/-- An operand as a term, a term with its sign changed, and a product of two operands (R74, R75). -/
def termOf (f : Fmt) (v : Nat) : Term := { nan := isNaN f v, inf := isInfinity f v, neg := signField f v, val := realOf f v }
def Term.minus (a : Term) : Term := { a with neg := !a.neg, val := -a.val }
def Term.times (a b : Term) : Term :=
  { nan := a.nan || b.nan || (a.inf && b.val == 0) || (b.inf && a.val == 0)
    inf := a.inf || b.inf
    neg := a.neg != b.neg
    val := a.val * b.val }

/-- r is the sum of the terms rounded to the format, with the special operands of R75 in their order. -/
def SumIs (f : Fmt) (l : List Term) (r : Nat) : Prop :=
  let inf (neg : Bool) : Prop := ∃ x ∈ l, x.inf = true ∧ x.neg = neg
  let nan : Prop := (∃ x ∈ l, x.nan = true) ∨ inf true ∧ inf false
  let q := (l.map (·.val)).sum
  (nan → r = f.nan)
    ∧ (∀ neg, ¬nan → inf neg → r = infinityOf f (neg = true))
    ∧ (¬nan → ¬inf true → ¬inf false →
      (q ≠ 0 → Rounded f false q r)
      ∧ (q = 0 → (∀ x ∈ l, x.val = 0 ∧ x.neg = true) → r = signBit f True)
      ∧ (q = 0 → ¬(∀ x ∈ l, x.val = 0 ∧ x.neg = true) → r = 0))

/-- The order of R81, in which -0 is below +0. -/
def Below (f : Fmt) (x y : Nat) : Prop :=
  realOf f x < realOf f y ∨ realOf f x = realOf f y ∧ (signField f x = true ∨ signField f y = false)

/-- The additions, products, fused products, extremes, sign operations and comparisons of a format are those of R80 and
R81, on all encodings. -/
def Computes (f : Fmt) : Prop :=
  ∀ x y z : Nat, x < 2 ^ (f.frac + f.expo + 1) → y < 2 ^ (f.frac + f.expo + 1) → z < 2 ^ (f.frac + f.expo + 1) →
    let tx := termOf f x
    let ty := termOf f y
    let nan : Prop := isNaN f x = true ∨ isNaN f y = true
    SumIs f [tx, ty] (f.add x y) ∧ SumIs f [tx, ty.minus] (f.sub x y) ∧ SumIs f [tx.times ty] (f.mul x y)
      ∧ SumIs f [tx.times ty, termOf f z] (f.fma x y z)
      ∧ (nan → f.max x y = f.nan ∧ f.min x y = f.nan)
      ∧ (¬nan → Below f x y → f.max x y = y ∧ f.min x y = x) ∧ (¬nan → ¬Below f x y → f.max x y = x ∧ f.min x y = y)
      ∧ (isNaN f x = true → f.flip x = f.nan ∧ f.abs x = f.nan)
      ∧ (isNaN f x = false → f.flip x = x ^^^ 2 ^ (f.frac + f.expo) ∧ f.abs x = x % 2 ^ (f.frac + f.expo))
      ∧ (f.eq x y = true ↔ ¬nan ∧ realOf f x = realOf f y) ∧ (f.lt x y = true ↔ ¬nan ∧ realOf f x < realOf f y)
      ∧ (f.le x y = true ↔ ¬nan ∧ realOf f x ≤ realOf f y)

/-- r is x, of format f, converted to format g (R77). -/
def ConvertsTo (f g : Fmt) (ovf : Bool) (x r : Nat) : Prop :=
  (isNaN f x = true → r = g.nan)
    ∧ (isInfinity f x = true →
      r = if g = e4m3 then (if ovf then g.nan else signBit g (signField f x = true) + g.largest)
      else infinityOf g (signField f x = true))
    ∧ (isNaN f x = false → isInfinity f x = false →
      (realOf f x = 0 → r = signBit g (signField f x = true)) ∧ (realOf f x ≠ 0 → Rounded g ovf (realOf f x) r))

/-- k is x, of format f, converted to an integer of lo … hi (R77). -/
def IntegerOf (f : Fmt) (x : Nat) (lo hi k : Int) : Prop :=
  (isNaN f x = true → k = 0)
    ∧ (isInfinity f x = true → k = if signField f x then lo else hi)
    ∧ (isNaN f x = false → isInfinity f x = false → ∃ n, Nearest (realOf f x) n ∧ k = min hi (max lo n))

/-- The conversions of a format to another, to an integer and from one are those of R77. -/
def Converts (f : Fmt) : Prop :=
  (∀ (g : Fmt) (ovf : Bool) (x : Nat), g ∈ [fp32, bf16, e4m3, e5m2] → x < 2 ^ (f.frac + f.expo + 1) →
    ConvertsTo f g ovf x (g.convert ovf (f.read x)))
  ∧ (∀ (x : Nat) (lo hi : Int), lo ≤ 0 → 0 ≤ hi → x < 2 ^ (f.frac + f.expo + 1) →
    IntegerOf f x lo hi (toInteger (f.read x) lo hi))
  ∧ ∀ i : Int, (i = 0 → ofInteger f i = 0) ∧ (i ≠ 0 → Rounded f false i (ofInteger f i))

end Sys2Proof.Machine
end

