-- ==== Sys2Proof/Safety.lean ====
section
/-!
DEFINITION. The terms of the claims about this machine: when a state is well formed, what it is for an instruction to
retire, to write one register, to trap, to stay where it is, and what such a step leaves as it was.
-/
namespace Sys2Proof.Machine

/-! ### Well-formed states -/

/-- Numbers strictly rise. -/
def ascending : List Nat → Bool
  | [] => true
  | [_] => true
  | a :: b :: r => decide (a < b) && ascending (b :: r)

/-- The memory is in its canonical form, and every tile is listed once, in order. -/
def State.wf (s : State) : Prop := Memory.wf s.mem = true ∧ Assoc.rising s.tiles = true

/-! ### What a step leaves as it was -/

/-- Only tiles may differ. -/
def sameButTiles (s t : State) : Prop := { t with tiles := s.tiles } = s
/-- Only the tile at the cursor differs; its core's registers, queues and engines do not, nor do its other threads. -/
def sameButMe (s t : State) : Prop :=
  sameButTiles s t
    ∧ (∀ u, u ≠ s.cur.tile → t.tile u = s.tile u)
    ∧ { t.here with
        threads := s.here.threads, last0 := s.here.last0, last1 := s.here.last1, last2 := s.here.last2
        last3 := s.here.last3 } = s.here
    ∧ ∀ i, i ≠ s.cur.slot → t.th s.cur.tile i = s.th s.cur.tile i

/-- Two contexts agree in every register but the pc and the count of retired instructions. -/
def sameRegs (h k : Thread) : Prop :=
  k.x = h.x ∧ k.v = h.v ∧ k.mode = h.mode ∧ k.prio = h.prio ∧ k.mstatus = h.mstatus ∧ k.mie = h.mie ∧ k.mtvec = h.mtvec
    ∧ k.mscratch = h.mscratch ∧ k.mepc = h.mepc ∧ k.mcause = h.mcause ∧ k.mtval = h.mtval ∧ k.jsrseed = h.jsrseed
    ∧ k.jmcfg = h.jmcfg ∧ k.jvcfg = h.jvcfg ∧ k.jutvec = h.jutvec ∧ k.jutcause = h.jutcause ∧ k.jutepc = h.jutepc
    ∧ k.jutval = h.jutval ∧ k.uhold = h.uhold ∧ k.jmgate = h.jmgate ∧ k.jmgatev = h.jmgatev ∧ k.jrmark = h.jrmark
    ∧ k.snap = h.snap
/-- From s to t no register of any thread of the tile at the cursor changes, none of its core's, no accumulator, request
entry or packet, and no other tile. -/
def RegistersKept (s t : State) : Prop :=
  (∀ i : Fin 8, sameRegs (s.th s.cur.tile i) (t.th s.cur.tile i)) ∧ t.here.core = s.here.core
    ∧ t.here.matrix.accs = s.here.matrix.accs ∧ t.here.reqs = s.here.reqs ∧ t.net = s.net ∧ t.fabricOut = s.fabricOut
    ∧ ∀ u, u ≠ s.cur.tile → t.tile u = s.tile u

/-! ### Ends of an instruction -/

/-- A thread that has retired an instruction and goes on at pc: READY, its count of retired instructions one higher, its
WAIT cleared, and a handler's budget one lower (R47, R57, R97). -/
def retiredThread (s : State) (h : Thread) (pc : Dword) : Thread :=
  { h with
    pc := pc
    instret := h.instret + 1
    budget := if 6 ≤ s.cur.slot.val then h.budget - 1 else h.budget
    st := .ready
    need := .none
    wait := 0
    lastIssue := s.here.cycle }

/-- From s to t the thread at the cursor retires with its context as h holds it, and goes on at pc; nothing else of the
module differs. -/
def Retired (s t : State) (h : Thread) (pc : Dword) : Prop :=
  t.me = retiredThread s h pc ∧ sameButMe s t

/-- The instruction writes v to x[rd] (nothing where rd is 0) and the thread goes on at the next word. -/
def Writes (i : Instr) (s : State) (rd : Reg) (v : Dword) : Prop :=
  ∃ t, exec i s = .next t ∧ Retired s t (s.me.wx rd v) (s.me.pc + 4)
    ∧ (∀ r, t.rx r = if r = rd ∧ r ≠ 0 then v else s.rx r)

/-- The same, with a result that may be read n cycles later (R121, R127). -/
def LateWrites (i : Instr) (s : State) (rd : Reg) (v : Dword) (n : Nat) : Prop :=
  ∃ t, exec i s = .next t ∧ Retired s t (s.me.wxIn rd v s.here.cycle n) (s.me.pc + 4)
    ∧ (∀ r, t.rx r = if r = rd ∧ r ≠ 0 then v else s.rx r)

/-- The instruction writes v to vd, to be read n cycles later (R251). -/
def LateVec (i : Instr) (s : State) (vd : VReg) (v : Vec) (n : Nat) : Prop :=
  ∃ t, exec i s = .next t ∧ Retired s t (s.me.wvIn vd v s.here.cycle n) (s.me.pc + 4)
    ∧ (∀ r, t.rv r = if r = vd then v else s.rv r)

/-- The instruction leaves its thread's context as it is and goes on at pc. -/
def GoesTo (i : Instr) (s : State) (pc : Dword) : Prop := ∃ t, exec i s = .next t ∧ Retired s t s.me pc

/-- The instruction's effect is that of u, and its thread, with the context it has in u, goes on at the next word. -/
def Effects (i : Instr) (s u : State) : Prop := ∃ t, exec i s = .next t ∧ Retired u t u.me (s.me.pc + 4)

/-- A thread that another thread's hold keeps in UNIT issues again when holds end (R136). -/
def afterHold (h : Thread) : Thread := if h.need = .hold then { h with st := .ready, need := .none } else h

/-- Only the tile at the cursor differs, and there only the thread at the cursor, and threads that waited for a hold. -/
def sameButHeld (s t : State) : Prop :=
  sameButTiles s t
    ∧ (∀ u, u ≠ s.cur.tile → t.tile u = s.tile u)
    ∧ { t.here with
        threads := s.here.threads, last0 := s.here.last0, last1 := s.here.last1, last2 := s.here.last2
        last3 := s.here.last3 } = s.here
    ∧ ∀ i, i ≠ s.cur.slot → t.th s.cur.tile i = afterHold (s.th s.cur.tile i)

/-- The context of a thread that takes a trap without a fault record (R266): to its own handler when the cause is delegated,
else to machine mode; trap entry counts as an issue. -/
def trappedThread (s : State) (cause : Nat) (epc val : Dword) (int : Bool) : Thread :=
  let h := { s.me.clearResv s.here.cycle with
    st := .ready, need := .none, sleep := none, woken := none, awaits := none, vecAt := 0, vec := none, rcfg := none
    walkFault := none, wait := 0, lastIssue := s.here.cycle }
  if s.delegated cause epc int then
    { h with
      jutepc := epc &&& 0xFFFFFFFFFFFFFFFC, jutcause := nd cause, jutval := val, uhold := true
      pc := nd (4 * bits h.jutvec 2 17) }
  else
    { h with
      mepc := epc &&& 0xFFFFFFFFFFFFFFFC, mcause := causeWord cause int, mtval := val
      mstatus := mkStatus h.mode (mieOf h.mstatus) false, mode := .machine, pc := mEntry h.mtvec
      fwTrap := if h.mode = .user then some (cause, b2n int) else h.fwTrap }

/-- The instruction takes a precise trap: its own pc is saved, and no memory, no other register of the core and no other
tile changes. -/
def Traps (i : Instr) (s : State) (cause : Nat) (val : Dword) : Prop :=
  ∃ t, exec i s = .next t ∧ t.me = trappedThread s cause s.me.pc val false ∧ sameButHeld s t

/-- The instruction does not issue: its thread leaves READY at the same pc, and waits for what it needs (R44). -/
def Blocks (i : Instr) (s : State) (st : SlotState) (n : Need) : Prop :=
  ∃ t, exec i s = .next t ∧ t.me = { s.me with st := st, need := n, sleepTs := s.tsc } ∧ sameButMe s t

/-- The thread goes to sleep at the instruction's pc, and the cycle counts as its issue (R154, R209). -/
def Sleeps (i : Instr) (s : State) (w : Wait) : Prop :=
  ∃ t, exec i s = .next t ∧ sameButMe s t
    ∧ t.me = { s.me with st := .sleep, sleep := some w, sleepTs := s.tsc, wait := 0, lastIssue := s.here.cycle }

/-- An instruction of a class the core lacks is fenced: cause 24 with the instruction's bits (R59). -/
def Fenced (i : Instr) (s : State) : Prop := Traps i s 24 (zext s.cur.word)
/-- Illegal instruction: cause 2 with the instruction's bits (R100). -/
def Illegal (i : Instr) (s : State) : Prop := Traps i s 2 (zext s.cur.word)

/-! ### Arrivals, writes and the mailbox -/

/-- The packet p is the one of its number in flight, and may arrive at tile t now (R186, R325). -/
def Arrives (s : State) (p : Packet) (t : Nat) : Prop :=
  s.pkt p.id = some p ∧ p.home = .tile t ∧ s.inTurn p = true ∧ s.awake t = true

/-- From s to t only the network of packets and tile x may differ. -/
def OnlyTileAndNet (s t : State) (x : Nat) : Prop :=
  { t with net := s.net, tiles := s.tiles } = s ∧ ∀ u, u ≠ x → t.tile u = s.tile u

/-- The packets of s without p, and after them the answer op to p's sender on the same module, from p's home (R270). -/
def answered (s : State) (p : Packet) (op : Op) : List Packet :=
  s.net.filter (·.id != p.id) ++ [{ p with op := op, home := .tile p.org.tile, src := homeIndex s p.home }]

/-- The bytes of a tile's storage from off are bs, and every other byte below the management windows is as in s. -/
def Wrote (s u : State) (t off : Nat) (bs : List Byte) : Prop :=
  ∀ k, k < 2 ^ 62 →
    u.byte k = if tileKey t off ≤ k ∧ k < tileKey t off + bs.length then bs.getD (k - tileKey t off) 0 else s.byte k

/-- A package's mailbox is free, and the firmware that serves it runs: the carrier is cold and ready (R291, R322, R333). -/
def MailReady (s : State) (pkg : Nat) : Prop :=
  pkg < s.packages ∧ (s.pack pkg).mail.done = true ∧ s.bootRom = false ∧ s.strap = false ∧ s.cryo.st = .coldReady

/-- The mailbox has answered the request of sequence number seq (R291). -/
def Answered (s : State) (pkg seq result : Nat) (data : Dword) : Prop :=
  let m := (s.pack pkg).mail
  m.done = true ∧ m.seq = seq % 256 ∧ m.result = result ∧ m.data0 = data

/-- The mailbox is still serving a request that names the partition. -/
def Serving (s : State) (pkg pid : Nat) : Prop := (s.pack pkg).mail.done = false ∧ (s.pack pkg).mail.serving = some pid

end Sys2Proof.Machine
end

