-- ==== Sys2Proof/Certificates/Slice0/Obligations.lean ====
section
/-!
DEFINITION. The statements for the provers: what each instruction and event does, what the machine keeps, and how words
decode. Each docstring names the rules of the spec that its statement rests on.
-/
open Sys2Proof Sys2Proof.Machine

/-- R118: the integer instructions: each result goes to x[rd], and every other register and all memory are unchanged;
and the word of each, field by field. -/
def Obligations.IntegerResults : Prop :=
  ∀ (s : State) (rd rs1 rs2 : Reg) (imm : BitVec 12) (up : BitVec 20) (sh : BitVec 6) (sw : BitVec 5),
    let a := s.rx rs1
    let b := s.rx rs2
    let i := imm.signExtend 64
    let upper := (up ++ 0#12).signExtend 64
    let w (v : BitVec 32) : Dword := v.signExtend 64
    let aw := a.extractLsb' 0 32
    let n6 := (b.extractLsb' 0 6).toNat
    let n5 := (b.extractLsb' 0 5).toNat
    Writes (.add rd rs1 rs2) s rd (a + b) ∧ Writes (.sub rd rs1 rs2) s rd (a - b)
      ∧ Writes (.sll rd rs1 rs2) s rd (a <<< n6) ∧ Writes (.srl rd rs1 rs2) s rd (a >>> n6)
      ∧ Writes (.sra rd rs1 rs2) s rd (a.sshiftRight n6)
      ∧ Writes (.slt rd rs1 rs2) s rd (if a.slt b then 1 else 0) ∧ Writes (.sltu rd rs1 rs2) s rd (if a.ult b then 1 else 0)
      ∧ Writes (.xor rd rs1 rs2) s rd (a ^^^ b) ∧ Writes (.or rd rs1 rs2) s rd (a ||| b)
      ∧ Writes (.and rd rs1 rs2) s rd (a &&& b)
      ∧ Writes (.addi rd rs1 imm) s rd (a + i)
      ∧ Writes (.slti rd rs1 imm) s rd (if a.slt i then 1 else 0) ∧ Writes (.sltiu rd rs1 imm) s rd (if a.ult i then 1 else 0)
      ∧ Writes (.xori rd rs1 imm) s rd (a ^^^ i) ∧ Writes (.ori rd rs1 imm) s rd (a ||| i)
      ∧ Writes (.andi rd rs1 imm) s rd (a &&& i)
      ∧ Writes (.slli rd rs1 sh) s rd (a <<< sh.toNat) ∧ Writes (.srli rd rs1 sh) s rd (a >>> sh.toNat)
      ∧ Writes (.srai rd rs1 sh) s rd (a.sshiftRight sh.toNat)
      ∧ Writes (.addw rd rs1 rs2) s rd (w ((a + b).extractLsb' 0 32))
      ∧ Writes (.subw rd rs1 rs2) s rd (w ((a - b).extractLsb' 0 32))
      ∧ Writes (.sllw rd rs1 rs2) s rd (w (aw <<< n5)) ∧ Writes (.srlw rd rs1 rs2) s rd (w (aw >>> n5))
      ∧ Writes (.sraw rd rs1 rs2) s rd (w (aw.sshiftRight n5))
      ∧ Writes (.addiw rd rs1 imm) s rd (w ((a + i).extractLsb' 0 32))
      ∧ Writes (.slliw rd rs1 sw) s rd (w (aw <<< sw.toNat)) ∧ Writes (.srliw rd rs1 sw) s rd (w (aw >>> sw.toNat))
      ∧ Writes (.sraiw rd rs1 sw) s rd (w (aw.sshiftRight sw.toNat))
      ∧ Writes (.lui rd up) s rd upper ∧ Writes (.auipc rd up) s rd (s.me.pc + upper)
      ∧ encodeWord (.add rd rs1 rs2) = some (0x00#7 ++ rs2 ++ rs1 ++ 0b000#3 ++ rd ++ 0b0110011#7)
      ∧ encodeWord (.sub rd rs1 rs2) = some (0x20#7 ++ rs2 ++ rs1 ++ 0b000#3 ++ rd ++ 0b0110011#7)
      ∧ encodeWord (.sll rd rs1 rs2) = some (0x00#7 ++ rs2 ++ rs1 ++ 0b001#3 ++ rd ++ 0b0110011#7)
      ∧ encodeWord (.srl rd rs1 rs2) = some (0x00#7 ++ rs2 ++ rs1 ++ 0b101#3 ++ rd ++ 0b0110011#7)
      ∧ encodeWord (.sra rd rs1 rs2) = some (0x20#7 ++ rs2 ++ rs1 ++ 0b101#3 ++ rd ++ 0b0110011#7)
      ∧ encodeWord (.slt rd rs1 rs2) = some (0x00#7 ++ rs2 ++ rs1 ++ 0b010#3 ++ rd ++ 0b0110011#7)
      ∧ encodeWord (.sltu rd rs1 rs2) = some (0x00#7 ++ rs2 ++ rs1 ++ 0b011#3 ++ rd ++ 0b0110011#7)
      ∧ encodeWord (.xor rd rs1 rs2) = some (0x00#7 ++ rs2 ++ rs1 ++ 0b100#3 ++ rd ++ 0b0110011#7)
      ∧ encodeWord (.or rd rs1 rs2) = some (0x00#7 ++ rs2 ++ rs1 ++ 0b110#3 ++ rd ++ 0b0110011#7)
      ∧ encodeWord (.and rd rs1 rs2) = some (0x00#7 ++ rs2 ++ rs1 ++ 0b111#3 ++ rd ++ 0b0110011#7)
      ∧ encodeWord (.addw rd rs1 rs2) = some (0x00#7 ++ rs2 ++ rs1 ++ 0b000#3 ++ rd ++ 0b0111011#7)
      ∧ encodeWord (.subw rd rs1 rs2) = some (0x20#7 ++ rs2 ++ rs1 ++ 0b000#3 ++ rd ++ 0b0111011#7)
      ∧ encodeWord (.sllw rd rs1 rs2) = some (0x00#7 ++ rs2 ++ rs1 ++ 0b001#3 ++ rd ++ 0b0111011#7)
      ∧ encodeWord (.srlw rd rs1 rs2) = some (0x00#7 ++ rs2 ++ rs1 ++ 0b101#3 ++ rd ++ 0b0111011#7)
      ∧ encodeWord (.sraw rd rs1 rs2) = some (0x20#7 ++ rs2 ++ rs1 ++ 0b101#3 ++ rd ++ 0b0111011#7)
      ∧ encodeWord (.addi rd rs1 imm) = some (imm ++ rs1 ++ 0b000#3 ++ rd ++ 0b0010011#7)
      ∧ encodeWord (.slti rd rs1 imm) = some (imm ++ rs1 ++ 0b010#3 ++ rd ++ 0b0010011#7)
      ∧ encodeWord (.sltiu rd rs1 imm) = some (imm ++ rs1 ++ 0b011#3 ++ rd ++ 0b0010011#7)
      ∧ encodeWord (.xori rd rs1 imm) = some (imm ++ rs1 ++ 0b100#3 ++ rd ++ 0b0010011#7)
      ∧ encodeWord (.ori rd rs1 imm) = some (imm ++ rs1 ++ 0b110#3 ++ rd ++ 0b0010011#7)
      ∧ encodeWord (.andi rd rs1 imm) = some (imm ++ rs1 ++ 0b111#3 ++ rd ++ 0b0010011#7)
      ∧ encodeWord (.addiw rd rs1 imm) = some (imm ++ rs1 ++ 0b000#3 ++ rd ++ 0b0011011#7)
      ∧ encodeWord (.slli rd rs1 sh) = some (0b000000#6 ++ sh ++ rs1 ++ 0b001#3 ++ rd ++ 0b0010011#7)
      ∧ encodeWord (.srli rd rs1 sh) = some (0b000000#6 ++ sh ++ rs1 ++ 0b101#3 ++ rd ++ 0b0010011#7)
      ∧ encodeWord (.srai rd rs1 sh) = some (0b010000#6 ++ sh ++ rs1 ++ 0b101#3 ++ rd ++ 0b0010011#7)
      ∧ encodeWord (.slliw rd rs1 sw) = some (0x00#7 ++ sw ++ rs1 ++ 0b001#3 ++ rd ++ 0b0011011#7)
      ∧ encodeWord (.srliw rd rs1 sw) = some (0x00#7 ++ sw ++ rs1 ++ 0b101#3 ++ rd ++ 0b0011011#7)
      ∧ encodeWord (.sraiw rd rs1 sw) = some (0x20#7 ++ sw ++ rs1 ++ 0b101#3 ++ rd ++ 0b0011011#7)
      ∧ encodeWord (.lui rd up) = some (up ++ rd ++ 0b0110111#7)
      ∧ encodeWord (.auipc rd up) = some (up ++ rd ++ 0b0010111#7)

/-- R120, R121: the multiplies, on a core that has IMULDIV and on one that has not. -/
def Obligations.Multiplies : Prop :=
  ∀ (s : State) (rd rs1 rs2 : Reg),
    let a := s.rx rs1
    let b := s.rx rs2
    (s.cap 0 = true →
      LateWrites (.mul rd rs1 rs2) s rd (a * b) 3
        ∧ LateWrites (.mulh rd rs1 rs2) s rd (BitVec.ofInt 64 (a.toInt * b.toInt / 2 ^ 64)) 3
        ∧ LateWrites (.mulhsu rd rs1 rs2) s rd (BitVec.ofInt 64 (a.toInt * b.toNat / 2 ^ 64)) 3
        ∧ LateWrites (.mulhu rd rs1 rs2) s rd (BitVec.ofNat 64 (a.toNat * b.toNat / 2 ^ 64)) 3
        ∧ LateWrites (.mulw rd rs1 rs2) s rd (((a * b).extractLsb' 0 32).signExtend 64) 3)
    ∧ (s.cap 0 = false →
      Fenced (.mul rd rs1 rs2) s ∧ Fenced (.mulh rd rs1 rs2) s ∧ Fenced (.mulhsu rd rs1 rs2) s
        ∧ Fenced (.mulhu rd rs1 rs2) s ∧ Fenced (.mulw rd rs1 rs2) s)

/-- R120, R121: a division takes the core's divider for 36 or 20 cycles with its result, is held in UNIT while another
has it, and is fenced without IMULDIV; at the end of its cycles DIVIDE_COMPLETE writes x[rd] and frees the divider.
(That what is due at a cycle ends with the cycle before it is the model's choice, log 6.) -/
def Obligations.Divisions : Prop :=
  (∀ (s : State) (rd rs1 rs2 : Reg),
    let a := s.rx rs1
    let b := s.rx rs2
    let aw := a.extractLsb' 0 32
    let bw := b.extractLsb' 0 32
    let all (p : Instr → Nat → Dword → Prop) : Prop :=
      p (.div rd rs1 rs2) 36 (if b = 0 then BitVec.allOnes 64 else a.sdiv b)
        ∧ p (.divu rd rs1 rs2) 36 (if b = 0 then BitVec.allOnes 64 else a / b)
        ∧ p (.rem rd rs1 rs2) 36 (if b = 0 then a else a.srem b)
        ∧ p (.remu rd rs1 rs2) 36 (if b = 0 then a else a % b)
        ∧ p (.divw rd rs1 rs2) 20 ((if bw = 0 then BitVec.allOnes 32 else aw.sdiv bw).signExtend 64)
        ∧ p (.divuw rd rs1 rs2) 20 ((if bw = 0 then BitVec.allOnes 32 else aw / bw).signExtend 64)
        ∧ p (.remw rd rs1 rs2) 20 ((if bw = 0 then aw else aw.srem bw).signExtend 64)
        ∧ p (.remuw rd rs1 rs2) 20 ((if bw = 0 then aw else aw % bw).signExtend 64)
    (s.cap 0 = true → s.here.divider = none →
      all fun i n v => Effects i s (s.modHere fun x =>
        { x with divider := some (x.cycle + n, s.cur.slot.val, s.me.epoch, rd, v) }))
    ∧ (s.cap 0 = true → s.here.divider.isSome = true → all fun i _ _ => Blocks i s .unit .divider)
    ∧ (s.cap 0 = false → all fun i _ _ => Fenced i s))
  ∧ ∀ (s : State) (tile : Nat) (slot : Fin 8) (c : Nat) (rd : Reg) (v : Dword),
    s.inFrame tile = true → (s.tile tile).divider = some (c, slot.val, (s.th tile slot).epoch, rd, v) →
    (s.th tile slot).st ≠ .empty → c ≤ (s.tile tile).cycle + 1 →
    ∃ t, exec (.divideComplete tile) s = .next t ∧ (t.tile tile).divider = none
      ∧ (∀ r, (t.th tile slot).rx r = if r = rd ∧ r ≠ 0 then v else (s.th tile slot).rx r)
      ∧ sameButTiles s t ∧ (∀ u, u ≠ tile → t.tile u = s.tile u)

/-- R122, R123: jumps and branches; a taken one with bit 1 of its target set raises cause 0 and writes no link. -/
def Obligations.JumpsAndBranches : Prop :=
  ∀ (s : State) (rd rs1 rs2 : Reg) (j : BitVec 20) (imm off : BitVec 12),
    let a := s.rx rs1
    let b := s.rx rs2
    let jt := s.me.pc + (j ++ 0#1).signExtend 64
    let rt := (a + imm.signExtend 64) &&& 0xFFFFFFFFFFFFFFFE
    let bt := s.me.pc + (off ++ 0#1).signExtend 64
    let links (i : Instr) (target : Dword) : Prop :=
      (target.getLsbD 1 = false → ∃ t, exec i s = .next t ∧ Retired s t (s.me.wx rd (s.me.pc + 4)) target)
        ∧ (target.getLsbD 1 = true → Traps i s 0 target)
    let branches (i : Instr) (taken : Bool) : Prop :=
      (taken = true → bt.getLsbD 1 = false → GoesTo i s bt) ∧ (taken = true → bt.getLsbD 1 = true → Traps i s 0 bt)
        ∧ (taken = false → GoesTo i s (s.me.pc + 4))
    links (.jal rd j) jt ∧ links (.jalr rd rs1 imm) rt
      ∧ branches (.beq rs1 rs2 off) (a == b) ∧ branches (.bne rs1 rs2 off) (a != b)
      ∧ branches (.blt rs1 rs2 off) (a.slt b) ∧ branches (.bge rs1 rs2 off) (!a.slt b)
      ∧ branches (.bltu rs1 rs2 off) (a.ult b) ∧ branches (.bgeu rs1 rs2 off) (!a.ult b)

/-- R137, R138, R141, R47, R49: the fences wait for the thread's entries in SCORE; FENCE.I then discards the fetch
buffer; WFI and YIELD give up the rest of the turn: the cycle is the thread's issue, LastIssued of its effective level
points at a general thread and at no other, and a handler changes none. -/
def Obligations.FencesAndHints : Prop :=
  ∀ (s : State) (p q : BitVec 4),
    let next := s.me.pc + 4
    let level := min s.me.prio s.here.core.pcap
    let gives (i : Instr) : Prop :=
      ∃ t, exec i s = .next t ∧ Retired s t s.me next
        ∧ ∀ n, n < 4 → t.here.lastOf n = if s.cur.slot.val < 6 ∧ n = level then s.cur.slot.val else s.here.lastOf n
    (s.myEntries = [] →
      GoesTo (.fence p q) s next ∧ GoesTo (.fenceTso p q) s next
        ∧ ∃ t, exec .fenceI s = .next t ∧ Retired s t { s.me with fbuf := [] } next)
    ∧ (s.myEntries ≠ [] →
      Blocks (.fence p q) s .score .entry ∧ Blocks (.fenceTso p q) s .score .entry ∧ Blocks .fenceI s .score .entry)
    ∧ gives .wfi ∧ gives .yield

/-- R139: a system call raises cause 8 from U-mode and 11 from M-mode with trap value 0, and a breakpoint cause 3 with
its pc, precisely. -/
def Obligations.EnvironmentTraps : Prop :=
  ∀ s : State, Traps .ecall s (if s.me.mode = .user then 8 else 11) 0 ∧ Traps .ebreak s 3 s.me.pc

/-- R164: UTRAP raises cause 31 precisely at its own pc with x[rs1] as trap value, in jutval when jmdeleg bit 31 lets
the cause be delegated and in mtval otherwise; the saved pc is the UTRAP itself. -/
def Obligations.UserTrap : Prop := ∀ (s : State) (rs1 : Reg), Traps (.utrap rs1) s 31 (s.rx rs1)

/-- R98, R140, R144, R146, R147: MRET, NBSEND, RCFG and CAPSET are illegal in U-mode; in M-mode MRET restores mode and MIE
from MPP and MPIE, leaves MPP at U-mode and MPIE at 1, clears the reservation and goes on at mepc, and CAPSET writes the
masked bits of jcaps and no other register; what the core's port goes by follows with the cycle after. -/
def Obligations.MachineModeInstructions : Prop :=
  (∀ (s : State) (rd rs1 rs2 : Reg), s.me.mode = .user →
     Illegal .mret s ∧ Illegal (.nbsend rd rs1 rs2) s ∧ Illegal (.rcfg rs1 rs2) s ∧ Illegal (.capset rs1 rs2) s)
  ∧ (∀ s : State, s.me.mode = .machine →
     ∃ t, exec .mret s = .next t ∧ sameButHeld s t
       ∧ t.me = retiredThread s
         { s.me.clearResv s.here.cycle with
           mode := if bits s.me.mstatus 11 2 = 0 then .user else .machine
           mstatus := mkStatus .user true (s.me.mstatus.getLsbD 7) } s.me.mepc)
  ∧ (∀ (s : State) (rs1 rs2 : Reg), s.me.mode = .machine →
     ∃ t, exec (.capset rs1 rs2) s = .next t
       ∧ (∀ n, n < 18 → t.here.core.jcaps.getLsbD n =
           if (s.rx rs2).getLsbD n then (s.rx rs1).getLsbD n else s.here.core.jcaps.getLsbD n)
       ∧ t.here.portCore = s.here.portCore
       ∧ Retired (s.modPortCore s.cur.tile fun c => { c with jcaps := t.here.core.jcaps }) t s.me (s.me.pc + 4))

/-- R96, R142: the CSR instructions read the old value into x[rd] and write the new one where they attempt a write; an
access that R96 forbids is illegal. -/
def Obligations.CsrOperations : Prop :=
  ∀ (s : State) (rd rs1 : Reg) (csr : BitVec 12) (uimm : BitVec 5),
    let src := s.rx rs1
    let imm : Dword := uimm.zeroExtend 64
    let allowed (wr : Bool) : Prop :=
      ¬(s.me.mode = .user ∧ csr.extractLsb' 8 2 = 0b11#2) ∧ ¬(wr = true ∧ csr.extractLsb' 10 2 = 0b11#2)
    let accesses (i : Instr) (new : Dword → Dword) (wr : Bool) : Prop :=
      (∀ old, s.csrRead csr.toNat = some old → allowed wr →
        ∃ t, exec i s = .next t
          ∧ let u := if wr then s.csrWrite csr.toNat (new old) else s
            Retired u t (u.me.wx rd old) (s.me.pc + 4))
      ∧ (s.csrRead csr.toNat = none ∨ ¬allowed wr → Illegal i s)
    accesses (.csrrw rd csr rs1) (fun _ => src) true ∧ accesses (.csrrwi rd csr uimm) (fun _ => imm) true
      ∧ accesses (.csrrs rd csr rs1) (fun old => old ||| src) (rs1 != 0)
      ∧ accesses (.csrrsi rd csr uimm) (fun old => old ||| imm) (uimm != 0)
      ∧ accesses (.csrrc rd csr rs1) (fun old => old &&& ~~~src) (rs1 != 0)
      ∧ accesses (.csrrci rd csr uimm) (fun old => old &&& ~~~imm) (uimm != 0)

/-- R97, R98, R99, R62, R37, R86, R266: what each CSR reads as after a write; the read-only ones keep their values. -/
def Obligations.CsrFields : Prop :=
  ∀ (s : State) (v : Dword),
    let reads (n : Nat) (w : Dword) : Prop := (s.csrWrite n v).csrRead n = some w
    reads 0x300 (mkStatus (if bits v 11 2 = 3 then .machine else .user) (v.getLsbD 7) (v.getLsbD 3))
      ∧ reads 0x304 (v &&& 0x800) ∧ reads 0x305 (v &&& 0xFFFFFFFFFFFFFFFC) ∧ reads 0x340 v
      ∧ reads 0x341 (v &&& 0xFFFFFFFFFFFFFFFC) ∧ reads 0x342 v ∧ reads 0x343 v
      ∧ reads 0x7C0 (v &&& 0x0FFFFF00003FFFFF) ∧ reads 0x7C1 (v &&& 0xFFFFFFFF00007113)
      ∧ reads 0x7C2 (v &&& 0xFFFFFFFFFFFFFF00) ∧ reads 0x7C3 (v &&& 0x80000000FFFFFFFF)
      ∧ reads 0x7C4 (v &&& 0x80000000000F7FF0) ∧ reads 0x7C5 v ∧ reads 0x7C6 (v &&& 0x1B70000FF)
      ∧ reads 0x8C0 (if v &&& 0xFFFFFFFF = 0 then 1 else v &&& 0xFFFFFFFF)
      ∧ reads 0x8C1 (v &&& 3) ∧ reads 0x8C2 (v &&& 3) ∧ reads 0x8C3 (v &&& 0x7FFFC) ∧ reads 0x8C4 (v &&& 0x3F)
      ∧ reads 0x8C5 (v &&& 0xFFFFFFFFFFFFFFFC) ∧ reads 0x8C6 v ∧ reads 0x8C7 (v &&& 0x800000000007FFF8)
      ∧ reads 0x8C8 (v &&& 0xFFFFFFFFFF) ∧ reads 0x8C9 (v &&& 0x8007FFFFFFFFFFFE)
      ∧ reads 0x8CA (codewinValue v)
      ∧ (s.csrWrite 0x8C4 v).me.uhold = false
      ∧ (∀ n, n ∈ [0x301, 0x344, 0x7C7, 0x7C8, 0xC00, 0xC01, 0xC02, 0xCC0, 0xCC1, 0xCC2, 0xCC3, 0xCC4, 0xCC5, 0xCC6, 0xCC7,
          0xCC8, 0xCC9, 0xCCA, 0xCCB, 0xCCC, 0xCCD, 0xCCE, 0xCCF, 0xCD0, 0xCD1, 0xCD2, 0xCD3, 0xCD4, 0xF14] →
        s.csrWrite n v = s ∧ (s.csrRead n).isSome = true)
      ∧ s.csrRead 0x301 = some 0x8000000000801101
      ∧ s.csrRead 0x344 = some (if s.here.evpend = 0 then 0 else 0x800)

/-- R30-R32: the checks on an address, in their order, for each space: its must-be-zero fields and its limits, the
machine-only spaces, the end of the space, and last the alignment; and the place that an address which passes them
names. (Space 0x2, a package's registers and a port's window end where their address fields do.) -/
def Obligations.AddressSpaces : Prop :=
  ∀ (s : State) (m : Mode) (a : Dword) (size align : Nat), 0 < size → 0 < align →
    let sp := bits a 60 4
    let c := s.here.core
    let toff := bits a 0 20
    let rule (place : Prop) (l : Loc) (off len : Nat) : Prop :=
      (¬place → checkAddr s m a size align = .error .access)
      ∧ (place → len < off + size → checkAddr s m a size align = .error .access)
      ∧ (place → off + size ≤ len → a.toNat % align ≠ 0 → checkAddr s m a size align = .error .misaligned)
      ∧ (place → off + size ≤ len → a.toNat % align = 0 → checkAddr s m a size align = .ok l)
    (sp = 0 → rule (bits a 19 41 = 0) (.own (bits a 0 19)) (bits a 0 19) 0x80000)
    ∧ (sp = 1 →
      rule (bits a 40 20 = 0 ∧ bits a 19 1 = 0 ∧ bits a 30 10 < c.height ∧ bits a 20 10 < c.width)
        (.mesh (bits a 30 10) (bits a 20 10) (bits a 0 19)) (bits a 0 19) 0x80000)
    ∧ (sp = 2 → rule (bits a 52 8 = 0) (.global (bits a 0 52)) (bits a 0 52) (2 ^ 52))
    ∧ (sp = 3 → bits a 48 12 = c.jmod →
      rule (bits a 19 9 = 0 ∧ c.jmod ≤ c.jmods ∧ bits a 38 10 < c.height ∧ bits a 28 10 < c.width)
        (.mesh (bits a 38 10) (bits a 28 10) (bits a 0 19)) (bits a 0 19) 0x80000)
    ∧ (sp = 3 → bits a 48 12 ≠ c.jmod →
      rule (bits a 19 9 = 0 ∧ bits a 48 12 ≤ c.jmods)
        (.fabric (bits a 48 12) (bits a 38 10) (bits a 28 10) (bits a 0 19)) (bits a 0 19) 0x80000)
    ∧ (sp = 4 →
      rule (m = .machine ∧ bits a 40 20 = 0 ∧ bits a 30 10 < s.side ∧ bits a 20 10 < s.side)
        (.abs (bits a 30 10) (bits a 20 10) toff) toff
        (if toff < 0x80000 then 0x80000 else if toff < 0x88000 then 0x88000
        else if 0xC0000 ≤ toff ∧ toff < 0xC1000 then 0xC1000 else toff + size))
    ∧ (sp = 5 → rule (m = .machine ∧ bits a 15 45 = 0) (.mram (bits a 0 15)) (bits a 0 15) 0x8000)
    ∧ (sp = 6 → rule (m = .machine ∧ bits a 20 40 = 0 ∧ bits a 16 4 < s.packages) (.mgmt (bits a 16 4) (bits a 0 16))
      (bits a 0 16) (2 ^ 16))
    ∧ (sp = 7 → rule (m = .machine ∧ bits a 56 4 < s.packages) (.host (bits a 56 4) (bits a 0 56)) (bits a 0 56) (2 ^ 56))
    ∧ (8 ≤ sp → checkAddr s m a size align = .error .access)

/-- R32, R125, R126, R131, R133, R135, R150, R167: an access that fails a check of R32 takes the fault of its kind with
the address as trap value, 5 or 4 for loads and LR, 7 or 6 for stores, SC, atomics, riser steps, counted stores and
barrier operations, and that of BARV is its operand with bits 3 to 0 zero; a local load, LR or atomic of a word that is
uncorrectable and that no other thread holds takes cause 32; none of them writes anything. (That a hold is tested before
the mark is the model's choice, log 52.) -/
def Obligations.AccessFaults : Prop :=
  (∀ (s : State) (rd rs1 rs2 rs3 : Reg) (vs : VReg) (imm : BitVec 12) (aq rl : Bool),
     let ea := s.rx rs1 + imm.signExtend 64
     let a := s.rx rs1
     let faults (write : Bool) (i : Instr) (at_ : Dword) (size : Nat) : Prop :=
       (checkAddr s s.me.mode at_ size size = .error .access → Traps i s (if write then 7 else 5) at_)
         ∧ (checkAddr s s.me.mode at_ size size = .error .misaligned → Traps i s (if write then 6 else 4) at_)
     faults false (.lb rd rs1 imm) ea 1 ∧ faults false (.lbu rd rs1 imm) ea 1 ∧ faults false (.lh rd rs1 imm) ea 2
       ∧ faults false (.lhu rd rs1 imm) ea 2 ∧ faults false (.lw rd rs1 imm) ea 4 ∧ faults false (.lwu rd rs1 imm) ea 4
       ∧ faults false (.ld rd rs1 imm) ea 8 ∧ faults true (.sb rs1 rs2 imm) ea 1 ∧ faults true (.sh rs1 rs2 imm) ea 2
       ∧ faults true (.sw rs1 rs2 imm) ea 4 ∧ faults true (.sd rs1 rs2 imm) ea 8
       ∧ faults false (.lrW rd rs1 aq rl) a 4 ∧ faults false (.lrD rd rs1 aq rl) a 8
       ∧ (∀ i ∈ [Instr.scW rd rs1 rs2 aq rl, .amoswapW rd rs1 rs2 aq rl, .amoaddW rd rs1 rs2 aq rl, .amoxorW rd rs1 rs2 aq rl,
           .amoandW rd rs1 rs2 aq rl, .amoorW rd rs1 rs2 aq rl, .amominW rd rs1 rs2 aq rl, .amomaxW rd rs1 rs2 aq rl,
           .amominuW rd rs1 rs2 aq rl, .amomaxuW rd rs1 rs2 aq rl, .amoincbW rd rs1 rs2, .swc rs1 rs2 rs3], faults true i a 4)
       ∧ (∀ i ∈ [Instr.scD rd rs1 rs2 aq rl, .amoswapD rd rs1 rs2 aq rl, .amoaddD rd rs1 rs2 aq rl, .amoxorD rd rs1 rs2 aq rl,
           .amoandD rd rs1 rs2 aq rl, .amoorD rd rs1 rs2 aq rl, .amominD rd rs1 rs2 aq rl, .amomaxD rd rs1 rs2 aq rl,
           .amominuD rd rs1 rs2 aq rl, .amomaxuD rd rs1 rs2 aq rl, .amoincbD rd rs1 rs2, .amocasD rd rs1 rs2, .radd rd rs1 rs2,
           .rsig rs1 rs2, .rpoison rs1 rs2, .sdc rs1 rs2 rs3], faults true i a 8)
       ∧ (∀ i ∈ [Instr.binit rs1 rs2, .bexp rd rs1 rs2, .bpoison rs1 rs2], faults true i a 16)
       ∧ (checkAddr s s.me.mode (a &&& 0xFFFFFFFFFFFFFFF0) 16 16 = .error .access →
         Traps (.barv rd rs1) s 7 (a &&& 0xFFFFFFFFFFFFFFF0))
       ∧ faults true (.vstc vs rs1 rs2) a 32
       ∧ (s.cap 17 = true → ∀ i ∈ [Instr.amofaddS rd rs1 rs2, .amofaddBf rd rs1 rs2, .amofmaxS rd rs1 rs2, .amofminS rd rs1 rs2],
         faults true i a 4))
  ∧ (∀ (s : State) (rd rs1 rs2 : Reg) (imm : BitVec 12) (off : Nat),
     let a := s.rx rs1 + imm.signExtend 64
     let marked (size : Nat) : Prop := s.markedIn (s.myKey off) size = true
     let free (size : Nat) : Prop := s.here.held s.cur.tile (s.localWriter size) off size = false
     let at_ (b : Dword) (size : Nat) : Prop :=
       checkAddr s s.me.mode b size size = .ok (.own off) ∧ off < 0x80000 ∧ marked size
     (at_ a 8 → Traps (.ld rd rs1 imm) s 32 a)
       ∧ (at_ a 4 → Traps (.lw rd rs1 imm) s 32 a ∧ Traps (.lwu rd rs1 imm) s 32 a)
       ∧ (at_ a 2 → Traps (.lh rd rs1 imm) s 32 a ∧ Traps (.lhu rd rs1 imm) s 32 a)
       ∧ (at_ a 1 → Traps (.lb rd rs1 imm) s 32 a ∧ Traps (.lbu rd rs1 imm) s 32 a)
       ∧ (at_ (s.rx rs1) 8 → Traps (.lrD rd rs1 false false) s 32 (s.rx rs1))
       ∧ (at_ (s.rx rs1) 4 → Traps (.lrW rd rs1 false false) s 32 (s.rx rs1))
       ∧ (at_ (s.rx rs1) 8 → free 8 →
         ∀ i ∈ [Instr.amoswapD rd rs1 rs2 false false, .amoaddD rd rs1 rs2 false false, .amoxorD rd rs1 rs2 false false,
           .amoandD rd rs1 rs2 false false, .amoorD rd rs1 rs2 false false, .amominD rd rs1 rs2 false false,
           .amomaxD rd rs1 rs2 false false, .amominuD rd rs1 rs2 false false, .amomaxuD rd rs1 rs2 false false,
           .amoincbD rd rs1 rs2, .amocasD rd rs1 rs2], Traps i s 32 (s.rx rs1))
       ∧ (at_ (s.rx rs1) 4 → free 4 →
         ∀ i ∈ [Instr.amoswapW rd rs1 rs2 false false, .amoaddW rd rs1 rs2 false false, .amoxorW rd rs1 rs2 false false,
           .amoandW rd rs1 rs2 false false, .amoorW rd rs1 rs2 false false, .amominW rd rs1 rs2 false false,
           .amomaxW rd rs1 rs2 false false, .amominuW rd rs1 rs2 false false, .amomaxuW rd rs1 rs2 false false,
           .amoincbW rd rs1 rs2], Traps i s 32 (s.rx rs1)))

/-- R125, R127: a load from the core's own scratchpad or machine RAM: the little-endian bytes, extended, in x[rd]; no memory
and nothing else of the module changes. -/
def Obligations.LocalLoads : Prop :=
  ∀ (s : State) (rd rs1 : Reg) (imm : BitVec 12) (l : Loc) (off : Nat),
    let a := s.rx rs1 + imm.signExtend 64
    let k := s.myKey off
    l.localOff = some off →
    let loads (i : Instr) (size : Nat) (v : Dword) : Prop :=
      checkAddr s s.me.mode a size size = .ok l → s.markedIn k size = false → LateWrites i s rd v 3
    let h : BitVec 16 := s.byte (k + 1) ++ s.byte k
    let w : BitVec 32 := s.byte (k + 3) ++ s.byte (k + 2) ++ h
    let d : BitVec 64 := s.byte (k + 7) ++ s.byte (k + 6) ++ s.byte (k + 5) ++ s.byte (k + 4) ++ w
    loads (.lb rd rs1 imm) 1 ((s.byte k).signExtend 64) ∧ loads (.lbu rd rs1 imm) 1 ((s.byte k).zeroExtend 64)
      ∧ loads (.lh rd rs1 imm) 2 (h.signExtend 64) ∧ loads (.lhu rd rs1 imm) 2 (h.zeroExtend 64)
      ∧ loads (.lw rd rs1 imm) 4 (w.signExtend 64) ∧ loads (.lwu rd rs1 imm) 4 (w.zeroExtend 64)
      ∧ loads (.ld rd rs1 imm) 8 d

/-- R125, R127: a store to the core's own scratchpad or machine RAM is one step of the thread's own, while no other thread
holds the granule; otherwise the thread waits in UNIT (R136). -/
def Obligations.LocalStores : Prop :=
  ∀ (s : State) (rs1 rs2 : Reg) (imm : BitVec 12) (l : Loc) (off : Nat),
    let a := s.rx rs1 + imm.signExtend 64
    l.localOff = some off →
    let stores (i : Instr) (size : Nat) : Prop :=
      checkAddr s s.me.mode a size size = .ok l →
      let held := s.here.held s.cur.tile (s.localWriter size) off size
      (held = false → Effects i s (s.storeLocal off size ((s.rx rs2).toNat % 2 ^ (8 * size))))
        ∧ (held = true → Blocks i s .unit .hold)
    stores (.sb rs1 rs2 imm) 1 ∧ stores (.sh rs1 rs2 imm) 2 ∧ stores (.sw rs1 rs2 imm) 4 ∧ stores (.sd rs1 rs2 imm) 8

/-- R125, R127: what a local store leaves: its bytes, low byte first, at the offset of the own tile, and every other
byte of storage and of memory as it was (the pending bits of masked MSI-X vectors at 2^62 and above may change by R298);
no register of any thread, no register of the core, no accumulator and no packet changes. -/
def Obligations.StoreFrame : Prop :=
  ∀ (s : State) (off size v : Nat),
    let t := s.storeLocal off size v
    (∀ k, k < 2 ^ 62 → t.byte k =
      if s.myKey off ≤ k ∧ k < s.myKey off + size then BitVec.ofNat 8 (v / 256 ^ (k - s.myKey off)) else s.byte k)
    ∧ RegistersKept s t ∧ ∀ i : Fin 8, (t.th s.cur.tile i).pc = (s.th s.cur.tile i).pc

/-- R126, R128, R130, R150, R153, R173, R270, R285, R287: a routed load, atomic, riser step, counted store, barrier
operation or device atomic that can take a request entry sends its request and scoreboards the register it owes, a posted
one none; it goes on at once, and without a free entry the thread waits in QUEUE; a riser, barrier or device atomic in a
space it may not name is cause 7, LR and SC at another home 5 and 7, and so is an access of space 0x6 by anything but LW,
LD, SW and SD; sending makes one entry of the thread, with the register it owes, the pc and the target, and one packet of
the same number to the home, and changes nothing else of the module. An access in space 0x2 whose page the tables of the
core or the die hold is translated, and both then hold its leaf; with neither it waits for the walk; a page fault found, a
leaf that forbids the access or an address beyond the HBM is cause 13 or 15, and a pooled page, a remote one or machine
mode outside a partition cause 5 or 7. (A store to another module: FabricStoresCounted. A fault found is taken when the
access issues again, log 25; an address beyond the HBM is the model's page fault, log 54.) -/
def Obligations.RoutedAccesses : Prop :=
  (∀ (s s1 : State) (rd rs1 rs2 rs3 : Reg) (vs : VReg) (imm : BitVec 12) (aq rl : Bool) (l : Loc) (home : Home) (off cls : Nat),
     let ea := s.rx rs1 + imm.signExtend 64
     let a := s.rx rs1
     let b := s.rx rs2
     let score := if rd = 0 then none else some rd
     let plain : Prop := ∀ p r, l ≠ .mgmt p r
     let inside : Prop := ∀ m y x, home ≠ .module m y x
     let reaches (write : Bool) : Prop :=
       (routeOf s s.cur.tile l = some (home, off, cls) ∧ s1 = s)
       ∨ ∃ va e, l = .global va ∧ tlbFind s.here.tlb s.here.core.asid (va / 4096) = some e
         ∧ ¬(s.me.mode = .machine ∧ s.here.core.width = 0) ∧ ptePool e.leaf = false ∧ pteIlv e.leaf ≠ 3
         ∧ permitted e.leaf (s.me.mode == .user) write = true ∧ leafPa e.leaf va < s.hbmEnd
         ∧ home = .chan (interleave s (pteIlv e.leaf) (leafPa e.leaf va)).1
         ∧ off = (interleave s (pteIlv e.leaf) (leafPa e.leaf va)).2 ∧ cls = 3
         ∧ s1 = (s.fillCore s.cur.tile e).modMe fun h => { h with walkFault := none }
     let asks (i : Instr) (op : Op) (at_ : Dword) (size align : Nat) (signed write keep : Bool) : Prop :=
       checkAddr s s.me.mode at_ align align = .ok l → reaches write →
       (s.entryFree = true → Effects i s
         ((s1.issue op home off cls at_ { rd := score, size := size, signed := signed }).acquireIf keep))
       ∧ (s.entryFree = false → Blocks i s .queue .entry)
     let posts (i : Instr) (op : Op) (at_ : Dword) (align : Nat) : Prop :=
       checkAddr s s.me.mode at_ align align = .ok l → reaches true →
       (s.entryFree = true → inside → Effects i s (s1.issue op home off cls at_ {}))
       ∧ (s.entryFree = false → Blocks i s .queue .entry)
     let load (i : Instr) (size : Nat) (signed : Bool) : Prop := asks i (.load size) ea size size signed false false
     let store (i : Instr) (size : Nat) : Prop := posts i (.store size ((s.rx rs2).toNat % 2 ^ (8 * size))) ea size
     let amos (op : AmoOp) (w d : Instr) : Prop :=
       asks w (.amo op 4 b 0) a 4 4 true true aq ∧ asks d (.amo op 8 b 0) a 8 8 true true aq
     let device (i : Instr) (op : AmoOp) (size : Nat) (cmp : Dword) : Prop := asks i (.amo op size b cmp) a size size true true false
     let count (i : Instr) (size v : Nat) (r : Reg) : Prop :=
       bits (s.rx r) 0 3 = 0 → bits (s.rx r) 19 45 = 0 → posts i (.counted size v (s.rx r).toNat) a size
     let tag := a &&& 0xFFFFFFFFFFFFFFF0
     l.localOff = none →
     (plain → load (.lb rd rs1 imm) 1 true ∧ load (.lbu rd rs1 imm) 1 false ∧ load (.lh rd rs1 imm) 2 true
         ∧ load (.lhu rd rs1 imm) 2 false ∧ load (.lwu rd rs1 imm) 4 false)
       ∧ load (.lw rd rs1 imm) 4 true ∧ load (.ld rd rs1 imm) 8 true
       ∧ (plain → store (.sb rs1 rs2 imm) 1 ∧ store (.sh rs1 rs2 imm) 2)
       ∧ store (.sw rs1 rs2 imm) 4 ∧ store (.sd rs1 rs2 imm) 8
       ∧ (plain → (∀ p h, l ≠ .host p h) → (rl = true → s.myEntries = []) →
         amos .swap (.amoswapW rd rs1 rs2 aq rl) (.amoswapD rd rs1 rs2 aq rl)
           ∧ amos .add (.amoaddW rd rs1 rs2 aq rl) (.amoaddD rd rs1 rs2 aq rl)
           ∧ amos .xor (.amoxorW rd rs1 rs2 aq rl) (.amoxorD rd rs1 rs2 aq rl)
           ∧ amos .and (.amoandW rd rs1 rs2 aq rl) (.amoandD rd rs1 rs2 aq rl)
           ∧ amos .or (.amoorW rd rs1 rs2 aq rl) (.amoorD rd rs1 rs2 aq rl)
           ∧ amos .min (.amominW rd rs1 rs2 aq rl) (.amominD rd rs1 rs2 aq rl)
           ∧ amos .max (.amomaxW rd rs1 rs2 aq rl) (.amomaxD rd rs1 rs2 aq rl)
           ∧ amos .minu (.amominuW rd rs1 rs2 aq rl) (.amominuD rd rs1 rs2 aq rl)
           ∧ amos .maxu (.amomaxuW rd rs1 rs2 aq rl) (.amomaxuD rd rs1 rs2 aq rl))
       ∧ ((∃ p r, l = .mgmt p r) →
         (checkAddr s s.me.mode ea 1 1 = .ok l →
           Traps (.lb rd rs1 imm) s 5 ea ∧ Traps (.lbu rd rs1 imm) s 5 ea ∧ Traps (.sb rs1 rs2 imm) s 7 ea)
         ∧ (checkAddr s s.me.mode ea 2 2 = .ok l →
           Traps (.lh rd rs1 imm) s 5 ea ∧ Traps (.lhu rd rs1 imm) s 5 ea ∧ Traps (.sh rs1 rs2 imm) s 7 ea)
         ∧ (checkAddr s s.me.mode ea 4 4 = .ok l → Traps (.lwu rd rs1 imm) s 5 ea))
       ∧ (checkAddr s s.me.mode a 4 4 = .ok l → Traps (.lrW rd rs1 aq rl) s 5 a ∧ Traps (.scW rd rs1 rs2 aq rl) s 7 a)
       ∧ (checkAddr s s.me.mode a 8 8 = .ok l → Traps (.lrD rd rs1 aq rl) s 5 a ∧ Traps (.scD rd rs1 rs2 aq rl) s 7 a)
       ∧ ((∃ p r, l = .mgmt p r ∨ l = .host p r) →
         (checkAddr s s.me.mode a 4 4 = .ok l → Traps (.amoaddW rd rs1 rs2 aq rl) s 7 a)
           ∧ (checkAddr s s.me.mode a 8 8 = .ok l → Traps (.amoaddD rd rs1 rs2 aq rl) s 7 a))
       ∧ (l.riserSpace = true →
         asks (.radd rd rs1 rs2) (.radd (bits b 0 40)) a 8 8 false true false
           ∧ posts (.rsig rs1 rs2) (.rsig (bits b 0 40)) a 8 ∧ posts (.rpoison rs1 rs2) (.rpoison (bits b 0 3)) a 8
           ∧ count (.sdc rs1 rs2 rs3) 8 b.toNat rs3 ∧ count (.swc rs1 rs2 rs3) 4 (b.toNat % 2 ^ 32) rs3
           ∧ count (.vstc vs rs1 rs2) 32 (s.rv vs).toNat rs2
           ∧ posts (.binit rs1 rs2) (.binit (s.rx rs2) (s.rx (rs2 + 1))) a 16
           ∧ posts (.bpoison rs1 rs2) (.bpoison (bits b 0 3)) a 16
           ∧ asks (.bexp rd rs1 rs2) (.bexp (bits b 0 9) (bits b 16 9)) a 8 16 false true false
           ∧ (s.myEntries = [] → asks (.barv rd rs1) (.barv (bits a 0 4)) tag 8 16 false true false)
           ∧ device (.amoincbW rd rs1 rs2) .incb 4 0 ∧ device (.amoincbD rd rs1 rs2) .incb 8 0
           ∧ device (.amocasD rd rs1 rs2) .cas 8 (s.rx rd)
           ∧ device (.amofaddS rd rs1 rs2) .fadd 4 0 ∧ device (.amofaddBf rd rs1 rs2) .faddBf 4 0
           ∧ device (.amofmaxS rd rs1 rs2) .fmax 4 0 ∧ device (.amofminS rd rs1 rs2) .fmin 4 0)
       ∧ (l.riserSpace = false →
         (checkAddr s s.me.mode a 8 8 = .ok l → ∀ i ∈ [Instr.radd rd rs1 rs2, .rsig rs1 rs2, .rpoison rs1 rs2, .sdc rs1 rs2 rs3,
           .amoincbD rd rs1 rs2, .amocasD rd rs1 rs2], Traps i s 7 a)
         ∧ (checkAddr s s.me.mode a 4 4 = .ok l → Traps (.swc rs1 rs2 rs3) s 7 a ∧ Traps (.amoincbW rd rs1 rs2) s 7 a)
         ∧ (checkAddr s s.me.mode a 16 16 = .ok l → ∀ i ∈ [Instr.binit rs1 rs2, .bexp rd rs1 rs2, .bpoison rs1 rs2], Traps i s 7 a)
         ∧ (checkAddr s s.me.mode tag 16 16 = .ok l → Traps (.barv rd rs1) s 7 tag)
         ∧ (s.cap 17 = true → checkAddr s s.me.mode a 4 4 = .ok l →
           ∀ i ∈ [Instr.amofaddS rd rs1 rs2, .amofaddBf rd rs1 rs2, .amofmaxS rd rs1 rs2, .amofminS rd rs1 rs2], Traps i s 7 a)
         ∧ (checkAddr s s.me.mode a 32 32 = .ok l → Traps (.vstc vs rs1 rs2) s 7 a)))
  ∧ (∀ (s : State) (rd rs1 rs2 : Reg) (imm : BitVec 12) (va : Nat),
     let a := s.rx rs1 + imm.signExtend 64
     let die := globalDie s.cur.tile
     let page := va / 4096
     let asid := s.here.core.asid
     let outside : Prop := s.me.mode = .machine ∧ s.here.core.width = 0
     let both (write : Bool) (p : Instr → Bool → Prop) : Prop := if write then p (.sd rs1 rs2 imm) true else p (.ld rd rs1 imm) false
     let bad (e : TlbEntry) (write : Bool) : Prop :=
       permitted e.leaf (s.me.mode == .user) write = false ∨ s.hbmEnd ≤ leafPa e.leaf va
     checkAddr s s.me.mode a 8 8 = .ok (.global va) → s.entryFree = true → ∀ write,
     (outside → both write fun i w => Traps i s (if w then 7 else 5) a)
     ∧ (¬outside → tlbFind s.here.tlb asid page = none → tlbFind (Assoc.get [] s.dieTlb die) asid page = none →
       (s.me.walkFault ≠ some page → both write fun i _ => ∃ t, exec i s = .next t
         ∧ t.me = { s.me with st := .queue, need := .translation page, sleepTs := s.tsc } ∧ t.mem = s.mem ∧ t.net = s.net
         ∧ ({ t with walks := s.walks, nextId := s.nextId, tiles := s.tiles } = s)
         ∧ (s.walks = [] → ∃ w, t.walks = [w] ∧ w.tile = s.cur.tile ∧ w.page = page ∧ w.asid = asid ∧ w.die = die ∧ w.level = 0
           ∧ w.table = s.here.core.ptroot ∧ w.engines = []))
       ∧ (s.me.walkFault = some page → both write fun i w =>
         ∃ t, exec i s = .next t ∧ t.mem = s.mem ∧ t.me = trappedThread s (if w then 15 else 13) s.me.pc a false))
     ∧ (∀ e, ¬outside → tlbFind s.here.tlb asid page = some e →
       (ptePool e.leaf = true ∨ pteIlv e.leaf = 3 →
         both write fun i w => ∃ t, exec i s = .next t ∧ t.mem = s.mem ∧ t.me = trappedThread s (if w then 7 else 5) s.me.pc a false)
       ∧ (ptePool e.leaf = false → pteIlv e.leaf ≠ 3 → bad e write →
         both write fun i w => ∃ t, exec i s = .next t ∧ t.mem = s.mem
           ∧ t.me = trappedThread s (if w then 15 else 13) s.me.pc a false))
     ∧ (∀ e, ¬outside → tlbFind s.here.tlb asid page = none → tlbFind (Assoc.get [] s.dieTlb die) asid page = some e →
       ptePool e.leaf = false → pteIlv e.leaf ≠ 3 → ¬bad e write →
       both write fun i w => ∃ t p, exec i s = .next t ∧ t.net = s.net ++ [p] ∧ t.me.pc = s.me.pc + 4 ∧ t.mem = s.mem
         ∧ p.home = .chan (interleave s (pteIlv e.leaf) (leafPa e.leaf va)).1
         ∧ p.off = (interleave s (pteIlv e.leaf) (leafPa e.leaf va)).2
         ∧ p.op = (if w then .store 8 (s.rx rs2).toNat else .load 8)
         ∧ t.here.tlb.head? = some e ∧ (Assoc.get [] t.dieTlb die).head? = some e))
  ∧ (∀ (s : State) (op : Op) (home : Home) (off cls : Nat) (a : Dword) (e : ReqEntry),
     let t := s.issue op home off cls a e
     let p : Packet :=
       { id := s.nextId, op := op, org := s.meOrigin, home := home, off := off, addr := a, cls := cls, req := s.nextId
         absolute := cls == 4, opc := s.me.pc, group := e.group }
     let e' : ReqEntry :=
       { e with id := s.nextId, slot := s.cur.slot.val, epoch := s.me.epoch, opc := s.me.pc, target := a
                quiet := s.quietFaults }
     ((∀ m y x, home ≠ .module m y x) → t.net = s.net ++ [p] ∧ t.fabricOut = s.fabricOut)
       ∧ (∀ m y x, home = .module m y x → t.fabricOut = s.fabricOut ++ [p] ∧ t.net = s.net)
       ∧ t.here.reqs = s.here.reqs ++ [e'] ∧ { t.here with reqs := s.here.reqs } = s.here
       ∧ { t with tiles := s.tiles, net := s.net, fabricOut := s.fabricOut, nextId := s.nextId } = s
       ∧ ∀ u, u ≠ s.cur.tile → t.tile u = s.tile u)

/-- R174, R175: a store to another module counts in that module's interval entry, or takes a free one, and its packet
waits to be placed on its link behind those before it (a wait that is the model's choice, log 30); with four entries of
other modules, or SENT at its limit, the oldest entry, or the full one, is freed and checked first, and the thread waits
in QUEUE. -/
def Obligations.FabricStoresCounted : Prop :=
  ∀ (s : State) (rs1 rs2 : Reg) (imm : BitVec 12) (m y x off : Nat),
    let a := s.rx rs1 + imm.signExtend 64
    let v := (s.rx rs2).toNat % 2 ^ 64
    checkAddr s s.me.mode a 8 8 = .ok (.fabric m y x off) → s.entryFree = true → s.me.checks = [] →
    let waits (e : Interval) (left : List Interval) : Prop :=
      ∃ t c, exec (.sd rs1 rs2 imm) s = .next t ∧ t.me.st = .queue ∧ t.me.need = .intervalCheck ∧ t.me.pc = s.me.pc
        ∧ t.me.intervals = left ∧ t.me.checks = [c] ∧ c.module = e.module ∧ c.sent = e.sent ∧ c.explicit = false ∧ c.answer = none
        ∧ t.mem = s.mem ∧ ∃ p, t.fabricOut = s.fabricOut ++ [p] ∧ p.op = .check e.module e.sent
    (∀ n i, s.me.intervals = [{ module := m, sent := n, idx := i }] → n < 2 ^ 24 - 1 →
      ∃ u t, exec (.sd rs1 rs2 imm) s = .next t ∧ Retired u t u.me (s.me.pc + 4)
        ∧ u.me.intervals = [{ module := m, sent := n + 1, idx := i }] ∧ u.mem = s.mem ∧ u.net = s.net
        ∧ ∃ p, u.fabricOut = s.fabricOut ++ [p] ∧ p.op = .store 8 v ∧ p.home = .module m y x ∧ p.off = off)
    ∧ (s.me.intervals = [] →
      ∃ u t, exec (.sd rs1 rs2 imm) s = .next t ∧ Retired u t u.me (s.me.pc + 4)
        ∧ u.me.intervals = [{ module := m, sent := 1, idx := 0 }])
    ∧ (∀ i, s.me.intervals = [{ module := m, sent := 2 ^ 24 - 1, idx := i }] →
      waits { module := m, sent := 2 ^ 24 - 1, idx := i } [])
    ∧ (∀ e rest, s.me.intervals = e :: rest → rest.length = 3 → (∀ i ∈ e :: rest, i.module ≠ m) →
      waits e (rest.filter fun i => i.module ≠ e.module))

/-- R133, R127: a base atomic on the core's own storage is one step: x[rd] gets the old value, sign-extended, and the
word the new one, while no other thread holds the granule; otherwise the thread waits in UNIT (R136). RL waits in SCORE
for the thread's entries; AQ, with entries outstanding, sets the flag under which every later memory instruction of the
thread is held in SCORE (R134). -/
def Obligations.LocalAtomics : Prop :=
  ∀ (s : State) (rd rs1 rs2 : Reg) (aq rl : Bool) (l : Loc) (off : Nat),
    let a := s.rx rs1
    let b := s.rx rs2
    let does (i : Instr) (size : Nat) (new : Nat) (old : Dword) : Prop :=
      checkAddr s s.me.mode a size size = .ok l →
      let held := s.here.held s.cur.tile (s.localWriter size) off size
      let u := (s.storeLocal off size new).wxLate rd old
      (rl = true → s.myEntries ≠ [] → Blocks i s .score .entry)
      ∧ ((rl = true → s.myEntries = []) → held = true → Blocks i s .unit .hold)
      ∧ ((rl = true → s.myEntries = []) → held = false → s.markedIn (s.myKey off) size = false →
        Effects i s (if aq = true ∧ s.myEntries ≠ [] then u.modMe fun h => { h with acquire := true } else u))
    let m4 : BitVec 32 := BitVec.ofNat 32 (s.readN (s.myKey off) 4)
    let m8 : BitVec 64 := BitVec.ofNat 64 (s.readN (s.myKey off) 8)
    let w (i : Instr) (f : BitVec 32 → BitVec 32 → BitVec 32) : Prop :=
      does i 4 (f m4 (b.extractLsb' 0 32)).toNat (m4.signExtend 64)
    let d (i : Instr) (f : BitVec 64 → BitVec 64 → BitVec 64) : Prop := does i 8 (f m8 b).toNat m8
    (l.localOff = some off →
      w (.amoswapW rd rs1 rs2 aq rl) (fun _ s => s) ∧ d (.amoswapD rd rs1 rs2 aq rl) (fun _ s => s)
        ∧ w (.amoaddW rd rs1 rs2 aq rl) (fun m s => m + s) ∧ d (.amoaddD rd rs1 rs2 aq rl) (fun m s => m + s)
        ∧ w (.amoxorW rd rs1 rs2 aq rl) (fun m s => m ^^^ s) ∧ d (.amoxorD rd rs1 rs2 aq rl) (fun m s => m ^^^ s)
        ∧ w (.amoandW rd rs1 rs2 aq rl) (fun m s => m &&& s) ∧ d (.amoandD rd rs1 rs2 aq rl) (fun m s => m &&& s)
        ∧ w (.amoorW rd rs1 rs2 aq rl) (fun m s => m ||| s) ∧ d (.amoorD rd rs1 rs2 aq rl) (fun m s => m ||| s)
        ∧ w (.amominW rd rs1 rs2 aq rl) (fun m s => if m.slt s then m else s)
        ∧ d (.amominD rd rs1 rs2 aq rl) (fun m s => if m.slt s then m else s)
        ∧ w (.amomaxW rd rs1 rs2 aq rl) (fun m s => if m.slt s then s else m)
        ∧ d (.amomaxD rd rs1 rs2 aq rl) (fun m s => if m.slt s then s else m)
        ∧ w (.amominuW rd rs1 rs2 aq rl) (fun m s => if m.ult s then m else s)
        ∧ d (.amominuD rd rs1 rs2 aq rl) (fun m s => if m.ult s then m else s)
        ∧ w (.amomaxuW rd rs1 rs2 aq rl) (fun m s => if m.ult s then s else m)
        ∧ d (.amomaxuD rd rs1 rs2 aq rl) (fun m s => if m.ult s then s else m))
    ∧ ∀ (h : Thread) (throttle : Nat) (i : Instr), h.acquire = true → isMemory i = true →
      holdOf s s.here s.cur.slot h throttle i = some (.score, .none)

/-- R135, R136: LR loads and reserves the granule with its size; SC with the same granule and size reserved stores and
answers 0, and otherwise answers 1 and leaves memory as it is; either way no reservation is left. Another thread's hold
keeps SC waiting in UNIT; RL waits for the thread's entries, and AQ sets the flag of R134 while there are any. -/
def Obligations.LoadReservedStoreConditional : Prop :=
  ∀ (s : State) (rd rs1 rs2 : Reg) (aq rl : Bool) (l : Loc) (off : Nat),
    let a := s.rx rs1
    let b := (s.rx rs2).toNat
    l.localOff = some off →
    let waits (i : Instr) (size : Nat) : Prop :=
      checkAddr s s.me.mode a size size = .ok l → rl = true → s.myEntries ≠ [] → Blocks i s .score .entry
    let acquires (t : State) : Prop := t.me.acquire = (s.me.acquire || (aq && !s.myEntries.isEmpty))
    let lr (i : Instr) (size : Nat) (v : Dword) : Prop :=
      waits i size ∧ (checkAddr s s.me.mode a size size = .ok l → (rl = true → s.myEntries = []) →
        s.markedIn (s.myKey off) size = false →
        ∃ t, exec i s = .next t ∧ (∀ r, t.rx r = if r = rd ∧ r ≠ 0 then v else s.rx r) ∧ acquires t
          ∧ t.me.resv = some { granule := off / 8 * 8, size := size } ∧ t.me.pc = s.me.pc + 4 ∧ t.mem = s.mem)
    let sc (i : Instr) (size : Nat) : Prop :=
      let held := s.here.held s.cur.tile (s.localWriter size) off size
      waits i size ∧ (checkAddr s s.me.mode a size size = .ok l → (rl = true → s.myEntries = []) →
        (held = true → Blocks i s .unit .hold)
        ∧ (held = false → ∃ t, exec i s = .next t ∧ t.me.resv = none ∧ t.me.pc = s.me.pc + 4 ∧ acquires t
          ∧ (s.me.resv = some { granule := off / 8 * 8, size := size } →
            (∀ r, t.rx r = if r = rd ∧ r ≠ 0 then 0 else s.rx r)
            ∧ ∀ k, k < 2 ^ 62 → t.byte k =
              if s.myKey off ≤ k ∧ k < s.myKey off + size then BitVec.ofNat 8 (b / 256 ^ (k - s.myKey off)) else s.byte k)
          ∧ (s.me.resv ≠ some { granule := off / 8 * 8, size := size } →
            (∀ r, t.rx r = if r = rd ∧ r ≠ 0 then 1 else s.rx r) ∧ t.mem = s.mem)))
    lr (.lrW rd rs1 aq rl) 4 ((BitVec.ofNat 32 (s.readN (s.myKey off) 4)).signExtend 64)
      ∧ lr (.lrD rd rs1 aq rl) 8 (BitVec.ofNat 64 (s.readN (s.myKey off) 8))
      ∧ sc (.scW rd rs1 rs2 aq rl) 4 ∧ sc (.scD rd rs1 rs2 aq rl) 8

/-- R46, R57, R121, R162, R165: QUIT ends a general thread and HRET a handler: the slot is EMPTY, for another occupant,
with nothing of the context left; a division of the thread in progress holds it in UNIT; the other of the two is illegal
in the slot. SETPRIO sets a general thread's priority, at most 3; RMARK sets or clears a general U-mode thread's mark; in
a handler neither has an effect. -/
def Obligations.ThreadControl : Prop :=
  (∀ s : State,
     let own := ∃ c rd v, s.here.divider = some (c, s.cur.slot.val, s.me.epoch, rd, v)
     let ends (i : Instr) : Prop :=
       (¬own → ∃ t, exec i s = .next t ∧ t.me = { epoch := s.me.epoch + 1, lastIssue := s.here.cycle }
         ∧ t.mem = s.mem ∧ t.here.core = s.here.core ∧ t.here.reqs = s.here.reqs ∧ t.here.matrix = s.here.matrix
         ∧ (∀ i, i ≠ s.cur.slot → t.th s.cur.tile i = afterHold (s.th s.cur.tile i))
         ∧ ∀ u, u ≠ s.cur.tile → t.tile u = s.tile u)
       ∧ (own → Blocks i s .unit .divider)
     (s.cur.slot.val < 6 → ends .quit ∧ Illegal .hret s) ∧ (6 ≤ s.cur.slot.val → ends .hret ∧ Illegal .quit s))
  ∧ (∀ (s : State) (rs1 : Reg),
     let m := bits (s.rx rs1) 0 32
     (s.cur.slot.val < 6 → ∃ t, exec (.setprio rs1) s = .next t
       ∧ t.me = retiredThread s { s.me with prio := min 3 (s.rx rs1).toNat } (s.me.pc + 4) ∧ sameButMe s t)
     ∧ (6 ≤ s.cur.slot.val → GoesTo (.setprio rs1) s (s.me.pc + 4) ∧ GoesTo (.rmark rs1) s (s.me.pc + 4))
     ∧ (s.me.mode = .machine → GoesTo (.rmark rs1) s (s.me.pc + 4))
     ∧ (s.me.mode = .user → s.cur.slot.val < 6 →
       ∃ t, exec (.rmark rs1) s = .next t ∧ t.me.pc = s.me.pc + 4 ∧ t.me.x = s.me.x ∧ t.mem = s.mem
         ∧ t.me.jrmark.getLsbD 63 = (m != 0)
         ∧ (m ≠ 0 → bits t.me.jrmark 32 19 = (s.me.pc + 4).toNat % 2 ^ 19
           ∧ (∀ n : Fin 32, n.val ≠ 0 → t.me.jrmark.getLsbD n.val = (s.rx rs1).getLsbD n.val)
           ∧ ∀ n : Fin 32, n.val ≠ 0 → t.me.snap[n] = if (s.rx rs1).getLsbD n.val then s.me.x[n] else s.me.snap[n])
         ∧ (m = 0 → t.me.snap = s.me.snap)))

/-- R45, R51, R52, R55, R159: SPAWN and AMSG send a message with the entry, the four arguments, the identity and the
effective priority to the core that the address names, and scoreboard x[rd]; an address that names no core's place in
space 0x0, 0x1 or 0x3, and one that fails the checks of R150, takes cause 5. -/
def Obligations.SpawnAndMessage : Prop :=
  ∀ (s : State) (rd rs1 rs2 rs3 : Reg) (l : Loc) (home : Home) (off cls : Nat),
    let a := s.rx rs2
    let fab := match home with
      | .module .. => true
      | _ => false
    let m : Message :=
      { entry := s.rx rs3, a0 := s.rx rs1, a1 := s.rx (rs1 + 1), a2 := s.rx (rs1 + 2), a3 := s.rx (rs1 + 3)
        ident := s.identity fab, prio := min s.me.prio s.here.core.pcap }
    let sends (i : Instr) (op : Op) : Prop :=
      (s.entryFree = true → ∃ u t p, exec i s = .next t ∧ Retired u t u.me (s.me.pc + 4) ∧ u.me = s.me ∧ u.mem = s.mem
        ∧ u.spawns = s.spawns ++ [{ id := s.nextId, org := s.meOrigin, home := home, op := op, addr := a, req := s.nextId }]
        ∧ u.net = (if fab then s.net else s.net ++ [p]) ∧ u.fabricOut = (if fab then s.fabricOut ++ [p] else s.fabricOut)
        ∧ p.op = op ∧ p.home = home ∧ p.id = s.nextId ∧ p.org = s.meOrigin ∧ p.req = s.nextId
        ∧ ∃ e, u.here.reqs = s.here.reqs ++ [e] ∧ e.id = s.nextId ∧ e.rd = (if rd = 0 then none else some rd)
          ∧ e.slot = s.cur.slot.val)
      ∧ (s.entryFree = false → Blocks i s .queue .entry)
    (locate s s.me.mode a = some l → (l.riserSpace = true ∧ ∀ y x o, l ≠ .abs y x o) →
      routeOf s s.cur.tile l = some (home, off, cls) →
      sends (.spawn rd rs1 rs2 rs3) (.spawn m) ∧ sends (.amsg rd rs1 rs2 rs3) (.message m))
    ∧ ((∀ m, locate s s.me.mode a = some m → m.riserSpace = false ∨ ∃ y x o, m = .abs y x o) → Traps (.spawn rd rs1 rs2 rs3) s 5 a ∧ Traps (.amsg rd rs1 rs2 rs3) s 5 a
      ∧ Traps (.capq rd rs2) s 5 a)

/-- R53, R54, R160, R161: SPAWNA takes a cluster index with the largest COUNT, and among those the one that follows its
own index soonest, and sends the spawn of its entry and quad to that core of its cluster; with every COUNT 0 it returns 1
and sends nothing; without a free entry it waits. SPAWNM sends one spawn of its entry and quad to each core of its
rectangle that lies in the partition, row by row, and owes one result for them all; with none there it returns the size of
the rectangle, and reserved bits take cause 5. (COUNT as it stood at the refresh is the model's choice, log 84.) -/
def Obligations.SpawnSelection : Prop :=
  (∀ (s : State) (rd rs1 rs2 : Reg),
     let c := s.here.core
     let v := c.jcload
     let own := s.here.cluster
     let count (i : Nat) : Nat := bits v (4 * i) 4
     let m : Message :=
       { entry := s.rx rs2, a0 := s.rx rs1, a1 := s.rx (rs1 + 1), a2 := s.rx (rs1 + 2), a3 := s.rx (rs1 + 3)
         ident := s.identity false, prio := min s.me.prio c.pcap }
     ((∀ i, i < 16 → count i = 0) → Writes (.spawna rd rs1 rs2) s rd 1)
     ∧ (∀ i, i < 16 → count i ≠ 0 → own < 16 → (∀ j, j < 16 → count j ≤ count i) →
       (∀ j, j < 16 → count j = count i → (i + 16 - own) % 16 ≤ (j + 16 - own) % 16) →
       (s.entryFree = false → Blocks (.spawna rd rs1 rs2) s .queue .entry)
       ∧ (∀ n, s.entryFree = true → s.core (c.gy / 4 * 4 + i / 4) (c.gx / 4 * 4 + i % 4) = some n →
         ∃ u t p r e, exec (.spawna rd rs1 rs2) s = .next t ∧ Retired u t u.me (s.me.pc + 4) ∧ u.me = s.me ∧ u.mem = s.mem
           ∧ u.net = s.net ++ [p] ∧ p.op = .spawn m ∧ p.home = .tile n ∧ p.org = s.meOrigin ∧ p.req = p.id
           ∧ u.spawns = s.spawns ++ [r] ∧ r.id = p.id ∧ r.op = .spawn m ∧ r.home = .tile n ∧ r.org = s.meOrigin ∧ r.req = e.id
           ∧ u.here.reqs = s.here.reqs ++ [e] ∧ e.tag = i ∧ e.rd = (if rd = 0 then none else some rd))))
  ∧ (∀ (s : State) (rd rs1 rs2 rs3 : Reg),
     let v := s.rx rs2
     let y0 := bits v 30 10
     let x0 := bits v 20 10
     let h := bits v 10 10 + 1
     let w := bits v 0 10 + 1
     let c := s.here.core
     let cols := min w (c.width - x0)
     let n := min h (c.height - y0) * cols
     let m : Message :=
       { entry := s.rx rs3, a0 := s.rx rs1, a1 := s.rx (rs1 + 1), a2 := s.rx (rs1 + 2), a3 := s.rx (rs1 + 3)
         ident := s.identity false, prio := min s.me.prio c.pcap }
     (bits v 40 24 ≠ 0 → Traps (.spawnm rd rs1 rs2 rs3) s 5 v)
     ∧ (bits v 40 24 = 0 → n = 0 → Writes (.spawnm rd rs1 rs2 rs3) s rd (BitVec.ofNat 64 (h * w)))
     ∧ (bits v 40 24 = 0 → n ≠ 0 → s.entryFree = true →
       ∃ u t e ps rs, exec (.spawnm rd rs1 rs2 rs3) s = .next t ∧ Retired u t u.me (s.me.pc + 4) ∧ u.me = s.me ∧ u.mem = s.mem
         ∧ u.net = s.net ++ ps ∧ u.spawns = s.spawns ++ rs ∧ ps.length = n ∧ rs.length = n
         ∧ (∀ (k : Nat) (p : Packet) (r : SpawnRec), ps[k]? = some p → rs[k]? = some r →
           p.op = .spawn m ∧ p.home = .tile (s.meshTile s.cur.tile (y0 + k / cols) (x0 + k % cols)) ∧ p.org = s.meOrigin
             ∧ p.req = p.id ∧ r.id = p.id ∧ r.op = p.op ∧ r.home = p.home ∧ r.org = p.org ∧ r.many = true ∧ r.req = e.id)
         ∧ u.here.reqs = s.here.reqs ++ [e] ∧ e.awaited = n ∧ e.refusals = h * w - n
         ∧ e.rd = (if rd = 0 then none else some rd))
     ∧ (bits v 40 24 = 0 → n ≠ 0 → s.entryFree = false → Blocks (.spawnm rd rs1 rs2 rs3) s .queue .entry))

/-- R163: CAPQ in space 0x0 answers with the core's own capabilities, 3 cycles later; elsewhere it sends its question. -/
def Obligations.CapabilityQuery : Prop :=
  ∀ (s : State) (rd rs1 : Reg) (l : Loc),
    let a := s.rx rs1
    let c := s.here.core
    let fit : Nat := if c.jkcaps.toNat % 2 ^ 18 &&& (c.jcaps.toNat % 2 ^ 18 ^^^ (2 ^ 18 - 1)) = 0 then 1 else 0
    locate s s.me.mode a = some l →
    ((∃ off, l = .own off) → LateWrites (.capq rd rs1) s rd
      (BitVec.ofNat 64 (fit * 2 ^ 48 + s.here.freeSlots % 16 * 2 ^ 32 + c.jcaps.toNat % 2 ^ 18)) 3)
    ∧ (∀ y x off, l = .mesh y x off → s.entryFree = true →
      Effects (.capq rd rs1) s (s.issue (.capq (c.jkcaps.toNat % 2 ^ 18)) (.tile (s.meshTile s.cur.tile y x)) off 1 a
        { rd := if rd = 0 then none else some rd }))

/-- R154, R155: a riser wait returns at once when the word is poisoned or its COUNT has reached the target, or with
timeout 0; otherwise its thread sleeps; handlers may not wait. (That the word is evaluated at issue, after the writes
performed before it, is the model's reading, log 23.) -/
def Obligations.RiserWaits : Prop :=
  ∀ (s : State) (rd rs1 rs2 rs3 : Reg) (o : BitVec 5) (tg : BitVec 7) (off : Nat),
    let waits (i : Instr) (a : Dword) (target : Nat) (timeout : Option Nat) : Prop :=
      (6 ≤ s.cur.slot.val → Illegal i s)
      ∧ (s.cur.slot.val < 6 → checkAddr s s.me.mode a 8 8 = .ok (.own off) →
        let w := s.readD (s.myKey off)
        (w.getLsbD 63 = true → LateWrites i s rd (BitVec.ofNat 64 (bits w 40 20 * 2 ^ 12 + bits w 60 3 * 2 ^ 8 + 1)) 3)
        ∧ (w.getLsbD 63 = false → target ≤ bits w 0 40 → LateWrites i s rd 0 3)
        ∧ (w.getLsbD 63 = false → bits w 0 40 < target → timeout = some 0 → LateWrites i s rd 2 3)
        ∧ (w.getLsbD 63 = false → bits w 0 40 < target → timeout ≠ some 0 →
          Sleeps i s (.riser off target (timeout.map (s.tick + ·)) rd)))
    waits (.rwait rd rs1 rs2) (s.rx rs1) (bits (s.rx rs2) 0 40) none
      ∧ waits (.rwaitImm rd rs1 o tg) (s.rx rs1 + o.zeroExtend 64 * 8) tg.toNat none
      ∧ waits (.rwaitt rd rs1 rs2 rs3) (s.rx rs1) (bits (s.rx rs2) 0 40) (some (s.rx rs3).toNat)

/-- R157: RADD and RSIG on a riser of the own scratchpad advance COUNT modulo 2^40 and change no other field; RADD
returns the whole old word; RPOISON sets POISON, CLASS and POISONER and keeps COUNT. -/
def Obligations.RiserSteps : Prop :=
  ∀ (s : State) (rd rs1 rs2 : Reg) (off : Nat),
    let k := s.myKey off
    let old := s.readD k
    let n := bits (s.rx rs2) 0 40
    checkAddr s s.me.mode (s.rx rs1) 8 8 = .ok (.own off) → k < 2 ^ 61 →
    s.here.held s.cur.tile (s.localWriter 8) off 8 = false →
    (∃ t, exec (.radd rd rs1 rs2) s = .next t ∧ t.me.pc = s.me.pc + 4
        ∧ t.readD k = BitVec.ofNat 64 (old.toNat / 2 ^ 40 * 2 ^ 40 + (old.toNat + n) % 2 ^ 40)
        ∧ (∀ r, t.rx r = if r = rd ∧ r ≠ 0 then old else s.rx r)
        ∧ ∀ j, j < 2 ^ 62 → ¬(k ≤ j ∧ j < k + 8) → t.byte j = s.byte j)
      ∧ (∃ t, exec (.rsig rs1 rs2) s = .next t ∧ t.me.pc = s.me.pc + 4
        ∧ t.readD k = BitVec.ofNat 64 (old.toNat / 2 ^ 40 * 2 ^ 40 + (old.toNat + n) % 2 ^ 40)
        ∧ ∀ j, j < 2 ^ 62 → ¬(k ≤ j ∧ j < k + 8) → t.byte j = s.byte j)
      ∧ (∃ t, exec (.rpoison rs1 rs2) s = .next t ∧ t.me.pc = s.me.pc + 4
        ∧ t.readD k = BitVec.ofNat 64 (2 ^ 63 + bits (s.rx rs2) 0 3 * 2 ^ 60 + s.here.lidx % 2 ^ 20 * 2 ^ 40 + old.toNat % 2 ^ 40)
        ∧ ∀ j, j < 2 ^ 62 → ¬(k ≤ j ∧ j < k + 8) → t.byte j = s.byte j)

/-- R158, R253: a counted store to the own scratchpad writes its data, then advances COUNT of the riser that it names by
1, and nothing else: no other byte, no register of a thread or of the core, no accumulator, no packet. Another thread's
hold of either place keeps it waiting in UNIT, and a riser offset with a reserved bit takes cause 7. -/
def Obligations.CountedStores : Prop :=
  ∀ (s : State) (rs1 rs2 rs3 : Reg) (vs : VReg) (off roff : Nat),
    let stores (i : Instr) (size : Nat) (v : Nat) (riser : Reg) : Prop :=
      checkAddr s s.me.mode (s.rx rs1) size size = .ok (.own off) →
      (bits (s.rx riser) 0 3 ≠ 0 ∨ bits (s.rx riser) 19 45 ≠ 0 → Traps i s 7 (s.rx riser))
      ∧ ((s.rx riser).toNat = roff → roff % 8 = 0 → roff < 2 ^ 19 →
        let hold (o n : Nat) : Bool := s.here.held s.cur.tile (s.localWriter n) o n
        (hold off size = true ∨ hold roff 8 = true → Blocks i s .unit .hold)
        ∧ (hold off size = false → hold roff 8 = false → s.myKey roff < 2 ^ 61 → s.myKey off < 2 ^ 61 →
          ∃ t, exec i s = .next t ∧ t.me.pc = s.me.pc + 4 ∧ RegistersKept s t
            ∧ (∀ j, s.myKey off ≤ j → j < s.myKey off + size → ¬(s.myKey roff ≤ j ∧ j < s.myKey roff + 8) →
              t.byte j = BitVec.ofNat 8 (v / 256 ^ (j - s.myKey off)))
            ∧ (roff + 8 ≤ off ∨ off + size ≤ roff →
              t.readD (s.myKey roff) = BitVec.ofNat 64 ((s.readD (s.myKey roff)).toNat / 2 ^ 40 * 2 ^ 40
                + ((s.readD (s.myKey roff)).toNat + 1) % 2 ^ 40))
            ∧ ∀ j, j < 2 ^ 62 → ¬(s.myKey off ≤ j ∧ j < s.myKey off + size) →
              ¬(s.myKey roff ≤ j ∧ j < s.myKey roff + 8) → t.byte j = s.byte j))
    stores (.sdc rs1 rs2 rs3) 8 (s.rx rs2).toNat rs3 ∧ stores (.swc rs1 rs2 rs3) 4 (s.rx rs2).toNat rs3
      ∧ stores (.vstc vs rs1 rs2) 32 (s.rv vs).toNat rs2

/-- R166, R167, R169-R172: the steps of a barrier. An arrival in its phase counts down PENDING, one out of its phase is an
overrun that changes nothing else; an expectation adds to INBOUND and OUTBOUND, or is an overrun where one would pass 255;
a completed transfer counts its field down, or is an overrun at -256, and a failed one poisons with class 1; each of these
but an overrun completes the phase when nothing more is awaited: the next generation, PENDING again EXPECTED, and a
release of 1. BINIT sets both words, and BPOISON poisons with its class and releases 0. The barrier operations on a
barrier of the own scratchpad are one step each, or wait in UNIT for another thread's hold; BARV first waits for the
thread's requests; BARV and BEXP return the step's result. The step leaves the two words that Step gives, every other byte
as it was, and sends its release, one signal to each core of the rectangle that word 1 names in the partition. -/
def Obligations.Barriers : Prop :=
  (∀ (w0 w1 : Dword),
     let gen := bits w0 0 4
     let pend := bits w0 24 20
     let inb := bits w0 44 9
     let outb := bits w0 53 9
     let st (w : Dword) : Nat := if w.getLsbD 63 then 1 else 0
     let overrun := w0 ||| 0x4000000000000000
     let overran (b : BarOut) : Prop :=
       b.w0 = overrun ∧ b.w1 = w1 ∧ b.release = none ∧ b.result = some (BitVec.ofNat 64 (gen * 16 + 2))
     let signed (n : Nat) : Int := if n < 256 then n else (n : Int) - 512
     let next (m : Dword) (b : BarOut) : Prop :=
       if bits m 24 20 = 0 ∧ bits m 44 18 = 0 then
         b.release = some 1 ∧ bits b.w0 0 4 = (bits m 0 4 + 1) % 16 ∧ bits b.w0 24 20 = bits m 4 20 ∧ bits b.w0 4 20 = bits m 4 20
           ∧ bits b.w0 44 20 = bits m 44 20
       else b.release = none ∧ b.w0 = m
     let poisoned (f : Bool) (b : BarOut) : Prop :=
       b.w1 = if f then w1 &&& 0xF8FFFFFFFFFFFFFF ||| 0x0100000000000000 else w1
     let done (b : BarOut) (f : Bool) (field at_ other otherAt n : Nat) : Prop :=
       poisoned f b ∧ b.result = none ∧ b.held = (if field = 256 then n else 0)
         ∧ ∃ m : Dword, next m b ∧ bits m 0 44 = bits w0 0 44 ∧ bits m otherAt 9 = other
           ∧ bits m at_ 9 = (if field = 256 then 256 else (field + 511) % 512)
           ∧ m.getLsbD 62 = (w0.getLsbD 62 || field == 256) ∧ m.getLsbD 63 = (w0.getLsbD 63 || f)
     (∀ a b : Dword, barStep w0 w1 (.init a b) = { w0 := a, w1 := b &&& 0x0FFFFFFFFFFFFFFF })
     ∧ (∀ g, g ≠ gen ∨ pend = 0 → overran (barStep w0 w1 (.arrive g)))
     ∧ (∀ g, g = gen → pend ≠ 0 →
       let b := barStep w0 w1 (.arrive g)
       b.w1 = w1 ∧ b.result = some (BitVec.ofNat 64 ((if pend = 1 then 256 else 0) + g * 16 + st w0))
         ∧ ∃ m : Dword, next m b ∧ bits m 24 20 = pend - 1 ∧ bits m 0 24 = bits w0 0 24 ∧ bits m 44 20 = bits w0 44 20)
     ∧ (∀ i o, i < 512 → o < 512 →
       let b := barStep w0 w1 (.expect i o)
       (255 < signed inb + i ∨ 255 < signed outb + o → overran b)
       ∧ (signed inb + i ≤ 255 → signed outb + o ≤ 255 → b.w1 = w1 ∧ b.result = some (BitVec.ofNat 64 (gen * 16 + st w0))
         ∧ ∃ m : Dword, next m b ∧ bits m 44 9 = (inb + i) % 512 ∧ bits m 53 9 = (outb + o) % 512
           ∧ bits m 0 44 = bits w0 0 44 ∧ bits m 62 2 = bits w0 62 2))
     ∧ (∀ f, done (barStep w0 w1 (.inDone f)) f inb 44 outb 53 1 ∧ done (barStep w0 w1 (.outDone f)) f outb 53 inb 44 2)
     ∧ ∀ c, c < 8 → barStep w0 w1 (.poison c) =
       { w0 := w0 ||| 0x8000000000000000
         w1 := w1 &&& 0xF8FFFFFFFFFFFFFF ||| BitVec.ofNat 64 (c * 2 ^ 56)
         release := some 0 })
  ∧ (∀ (s : State) (rd rs1 rs2 : Reg) (off : Nat),
     let a := s.rx rs1
     let k := s.myKey off
     let e (ev : BarEvent) := s.barrierStep s.cur.tile off ev (s.localWriter 16)
     let step (i : Instr) (u : State) : Prop :=
       (s.here.held s.cur.tile (s.localWriter 16) off 16 = false → Effects i s u)
       ∧ (s.here.held s.cur.tile (s.localWriter 16) off 16 = true → Blocks i s .unit .hold)
     (checkAddr s s.me.mode a 16 16 = .ok (.own off) →
       step (.binit rs1 rs2) (e (.init (s.rx rs2) (s.rx (rs2 + 1)))).1
         ∧ step (.bpoison rs1 rs2) (e (.poison (bits (s.rx rs2) 0 3))).1
         ∧ step (.bexp rd rs1 rs2) ((e (.expect (bits (s.rx rs2) 0 9) (bits (s.rx rs2) 16 9))).1.wxLate rd
           ((e (.expect (bits (s.rx rs2) 0 9) (bits (s.rx rs2) 16 9))).2.1.getD 0)))
     ∧ (checkAddr s s.me.mode (a &&& 0xFFFFFFFFFFFFFFF0) 16 16 = .ok (.own off) →
       (s.myEntries = [] → step (.barv rd rs1) ((e (.arrive (bits a 0 4))).1.wxLate rd ((e (.arrive (bits a 0 4))).2.1.getD 0)))
       ∧ (s.myEntries ≠ [] → Blocks (.barv rd rs1) s .score .entry))
     ∧ (checkAddr s s.me.mode a 16 16 = .error .misaligned →
       Traps (.binit rs1 rs2) s 6 a ∧ Traps (.bpoison rs1 rs2) s 6 a ∧ Traps (.bexp rd rs1 rs2) s 6 a)
     ∧ ∀ ev : BarEvent,
       let b := barStep (s.readD k) (s.readD (k + 8)) ev
       let u := e ev
       let y0 := bits b.w1 46 10
       let x0 := bits b.w1 36 10
       let c := s.here.core
       let rows := min (if b.w1.getLsbD 59 then 1024 else bits b.w1 26 10) (c.height - y0)
       let cols := min (bits b.w1 16 10) (c.width - x0)
       Wrote s u.1 s.cur.tile off (leBytes 8 b.w0.toNat ++ leBytes 8 b.w1.toNat) ∧ u.2.1 = b.result ∧ u.2.2 = b.held
         ∧ (∀ i : Fin 8, sameRegs (s.th s.cur.tile i) (u.1.th s.cur.tile i)) ∧ u.1.here.core = c
         ∧ (b.release = none → u.1.net = s.net)
         ∧ ∀ n, b.release = some n → ∃ ps, u.1.net = s.net ++ ps ∧ ps.length = rows * cols
           ∧ ∀ (q : Nat) (p : Packet), ps[q]? = some p →
             p.op = .release n (b.w0.getLsbD 63) (bits b.w1 56 3)
               ∧ p.home = .tile (s.meshTile s.cur.tile (y0 + q / cols) (x0 + q % cols)) ∧ p.off = 8 * bits b.w1 0 16)

/-- R173, R91: the device atomics on a word of the own scratchpad are one step; the floating-point ones need FPAMO.
(That the fence of FPAMO comes before the address checks, and a hold before the test for a mark, are the model's
choices, logs 55 and 52.) -/
def Obligations.DeviceAtomics : Prop :=
  ∀ (s : State) (rd rs1 rs2 : Reg) (off : Nat),
    let b := s.rx rs2
    let does (i : Instr) (size : Nat) (new : Nat) (old : Dword) : Prop :=
      checkAddr s s.me.mode (s.rx rs1) size size = .ok (.own off) → s.markedIn (s.myKey off) size = false →
      s.here.held s.cur.tile (s.localWriter size) off size = false → Effects i s ((s.storeLocal off size new).wxLate rd old)
    let m := s.readN (s.myKey off) 4
    let m4 : BitVec 32 := BitVec.ofNat 32 m
    let b4 := b.extractLsb' 0 32
    let m8 := s.readD (s.myKey off)
    (s.cap 17 = true →
      does (.amofaddS rd rs1 rs2) 4 (fp32.add m4.toNat b4.toNat % 2 ^ 32) (m4.signExtend 64)
        ∧ does (.amofmaxS rd rs1 rs2) 4 (fp32.max m4.toNat b4.toNat % 2 ^ 32) (m4.signExtend 64)
        ∧ does (.amofminS rd rs1 rs2) 4 (fp32.min m4.toNat b4.toNat % 2 ^ 32) (m4.signExtend 64)
        ∧ does (.amofaddBf rd rs1 rs2) 4
          ((bf16.add (m4.toNat / 65536) (b4.toNat / 65536) * 65536 + bf16.add (m4.toNat % 65536) (b4.toNat % 65536)) % 2 ^ 32)
          (m4.signExtend 64))
    ∧ does (.amoincbW rd rs1 rs2) 4 (if m4.ult b4 then m4 + 1 else m4).toNat
      ((if m4.ult b4 then m4 else BitVec.allOnes 32).signExtend 64)
    ∧ does (.amoincbD rd rs1 rs2) 8 (if m8.ult b then m8 + 1 else m8).toNat (if m8.ult b then m8 else BitVec.allOnes 64)
    ∧ does (.amocasD rd rs1 rs2) 8 (if m8 = s.rx rd then b else m8).toNat m8
    ∧ (bits (s.rx rs1) 60 4 = 0 → s.cap 17 = false →
      Fenced (.amofaddS rd rs1 rs2) s ∧ Fenced (.amofmaxS rd rs1 rs2) s ∧ Fenced (.amofminS rd rs1 rs2) s
        ∧ Fenced (.amofaddBf rd rs1 rs2) s)

/-- R178, R179: FENCEF with an empty table acts as FENCE and returns 0; with an entry it sends a check and waits for the
answer. The answer gives its result: bit idx for the entry, bit 8 + idx as well for a mismatch and bit 4 + idx for an
unchecked one, and bits 7 to 4 if UNCHK was set; the table and UNCHK are cleared, and a mismatch becomes a pending cause
28. (That an empty table returns 0 whatever UNCHK is, and keeps it, is the model's choice, log 29.) -/
def Obligations.FenceFabric : Prop :=
  ∀ (s : State) (rd : Reg),
    (s.myEntries ≠ [] → Blocks (.fencef rd) s .score .entry)
    ∧ (s.myEntries = [] → s.me.checks = [] → s.me.intervals = [] → ∃ t, exec (.fencef rd) s = .next t
      ∧ t.me.pc = s.me.pc + 4 ∧ ∀ r, t.rx r = if r = rd then 0 else s.rx r)
    ∧ (∀ e, e.idx < 4 → s.myEntries = [] → s.me.checks = [] → s.me.intervals = [e] → ∃ t p, exec (.fencef rd) s = .next t
      ∧ t.me.pc = s.me.pc ∧ t.me.st = .score ∧ t.me.intervals = [] ∧ t.fabricOut = s.fabricOut ++ [p]
      ∧ p.op = .check e.module e.sent ∧ p.home = .module e.module 0 0
      ∧ ∃ c, t.me.checks = [c] ∧ c.id = p.id ∧ c.module = e.module ∧ c.sent = e.sent ∧ c.idx = e.idx ∧ c.explicit = true
        ∧ c.answer = none)
    ∧ (∀ c kind rcvd, s.myEntries = [] → s.me.intervals = [] → s.me.checks = [c] → c.explicit = true →
      c.answer = some (kind, rcvd) → c.idx < 4 → kind < 3 →
      let fault : FaultRec :=
        { cause := 28, opc := c.opc, fab := true, ts := s.tsc
          val := BitVec.ofNat 64 (c.module % 2 ^ 12 * 2 ^ 48 + c.sent % 2 ^ 24 * 2 ^ 24 + rcvd % 2 ^ 24) }
      ∃ t, exec (.fencef rd) s = .next t ∧ t.me.pc = s.me.pc + 4 ∧ t.me.checks = [] ∧ t.me.intervals = [] ∧ t.me.unchk = false
        ∧ (∀ r, t.rx r = if r = rd ∧ r ≠ 0 then
            BitVec.ofNat 64 ((if s.me.unchk then 0xF0 else 0) ||| 2 ^ c.idx
              ||| (if kind = 1 then 2 ^ (8 + c.idx) else if kind = 2 then 2 ^ (4 + c.idx) else 0)) else s.rx r)
        ∧ (kind ≠ 1 → t.me.pend = s.me.pend)
        ∧ (kind = 1 → s.me.mode = .user → s.cur.slot.val < 6 → (∀ f ∈ s.me.pend, f.cause ≠ 28) →
          t.me.pend = s.me.pend ++ [fault]))

/-- R144, R146: NBSEND in M-mode takes a request entry and sends the 64 bytes at its address; RCFG waits in UNIT for its
router, which RCFG_ACK writes (TSTATE 2 here), so that the instruction retires; a locked router answers with cause 7,
and so does a port that leads to no tile (R333; that it answers at once is the model's choice, log 27). -/
def Obligations.TileLinks : Prop :=
  ∀ (s : State) (rd rs1 rs2 : Reg) (off : Nat),
    let a := s.rx rs1
    let d := s.rx rs2
    s.me.mode = .machine →
    (checkAddr s .machine a 64 64 = .ok (.mram off) → d.toNat < 4 → s.entryFree = true →
      s.markedIn (s.myKey (mramBase + off)) 64 = false →
      Effects (.nbsend rd rs1 rs2) s (s.issue (.nb (Memory.read s.mem (s.myKey (mramBase + off)) 64) d.toNat 0)
        (.tile s.cur.tile) 0 0 a { rd := if rd = 0 then none else some rd }))
    ∧ (4 < d.toNat → Traps (.rcfg rs1 rs2) s 7 d)
    ∧ (d = 0 → ∃ t, exec (.rcfg rs1 rs2) s = .next t ∧ sameButMe s t ∧ t.me.st = .unit ∧ t.me.need = .acknowledge
      ∧ t.me.pc = s.me.pc ∧ t.me.rcfg = some (s.cur.tile, a, d) ∧ t.me.x = s.me.x)
    ∧ (s.inFrame s.cur.tile = true → s.me.rcfg = some (s.cur.tile, a, d) → s.here.router.getLsbD 63 = false →
      bits a 0 2 = 2 → s.here.fused = false →
      ∃ t, exec (.rcfgAck s.cur.tile s.cur.slot.val) s = .next t ∧ t.here.tstate = 2 ∧ t.me.rcfg = none
        ∧ t.me.pc = s.me.pc + 4 ∧ t.me.st = .ready ∧ t.me.x = s.me.x)
    ∧ (s.inFrame s.cur.tile = true → s.me.rcfg = some (s.cur.tile, a, d) → s.here.router.getLsbD 63 = true →
      ∃ t, exec (.rcfgAck s.cur.tile s.cur.slot.val) s = .next t ∧ t.here.router = s.here.router
        ∧ t.me = trappedThread s 7 s.me.pc d false)
    ∧ (∀ n, s.inFrame s.cur.tile = true → s.inFrame n = false → s.me.rcfg = some (n, a, d) →
      ∃ t, exec (.rcfgAck s.cur.tile s.cur.slot.val) s = .next t ∧ t.mem = s.mem ∧ t.me = trappedThread s 7 s.me.pc d false)

/-- R57, R59, R204, R207-R209, R223: CPQ and CPQN append a command to the channel's FIFO and return its identifier; with
the FIFO full CPQ waits and CPQN returns all ones; the first failed check of R208 is cause 7 with the word that failed;
CPWAIT goes on at a reached watermark and sleeps otherwise. (The word named where only the channel's condition fails, and
the check that a multicast on channel 0 fails whose source lies elsewhere than in the own tile, are the model's choices,
logs 22 and 72; that the list of a gather or scatter is all that is checked of its rows, log 50.) LDLQ queues a ladle
command and returns 0, or returns 1 with four queued; a command whose words fail a check is cause 7. -/
def Obligations.EngineQueues : Prop :=
  (∀ (s : State) (rd rs1 : Reg) (ch : Ch),
     let c := s.here.chans[ch.toFin]
     let w (k : Nat) : Dword := s.rx (rs1 + BitVec.ofNat 5 k)
     let m : Prop := s.me.mode = .machine
     let op := bits (w 0) 60 4
     let sp (a : Dword) : Nat := bits a 60 4
     let reaches (a : Dword) (n : Nat) : Prop := ∃ l, checkAddr s s.me.mode a n 1 = .ok l
     let takes (p : Nat) : Prop :=
       match ch.toNat with
       | 0 => p ≤ 1 ∨ m ∧ (p = 4 ∨ p = 5)
       | 2 => p ≤ 3
       | _ => p ≤ 2
     let takesSrc (p : Nat) : Prop := if op = 5 ∧ ch = 0 then p = 0 ∨ m ∧ p = 5 else takes p
     let takesDst (p : Nat) : Prop :=
       if op = 5 ∧ ch = 0 then p = 1 ∨ m ∧ p = 4
       else if op = 6 ∨ op = 7 then takes p ∧ (p = 0 ∨ p = 1 ∨ p = 3) else takes p
     let suits : Prop :=
       match ch.toNat with
       | 0 => True
       | 1 => sp (w 2) = 2 ∨ op ≠ 8 ∧ sp (w 1) = 2
       | 2 => sp (w 2) = 2 ∨ sp (w 2) = 3 ∨ op ≠ 8 ∧ (sp (w 1) = 2 ∨ sp (w 1) = 3)
       | _ => if op = 8 then sp (w 2) = 2 else ¬(sp (w 1) = 2 ↔ sp (w 2) = 2)
     let len := bits (w 3) 0 32
     let rows := bits (w 3) 16 12
     let across := bits (w 3) 0 16 + 1
     let span (pitch : Nat) : Nat := if op = 1 then rows * (16 * pitch) + across else if op = 3 ∨ op = 4 then 0 else len
     let high := bits (w 3) 54 10 + 1
     let wide := bits (w 3) 44 10 + 1
     let inRect : Prop :=
       (sp (w 2) = 1 → bits (w 2) 30 10 + high ≤ s.here.core.height ∧ bits (w 2) 20 10 + wide ≤ s.here.core.width
         ∧ bits (w 2) 0 19 + len ≤ 0x80000)
       ∧ (sp (w 2) = 4 → bits (w 2) 30 10 + high ≤ s.side ∧ bits (w 2) 20 10 + wide ≤ s.side
         ∧ (bits (w 2) 0 20 + len ≤ 0x80000 ∨ 0x80000 ≤ bits (w 2) 0 20 ∧ bits (w 2) 0 20 + len ≤ 0x88000))
     let index := bits (w 3) 45 19
     let riser := bits (w 0) 0 16
     let place : Prop := sp (w 2) = 0 ∨ sp (w 2) = 1 ∨ sp (w 2) = 3 ∨ sp (w 2) = 4 ∧ bits (w 2) 0 20 < 0x80000
     let checks : List (Prop × Dword) := [
       (8 < op, w 0), (op = 2 ∧ w 1 ≠ 0, w 1),
       ((op = 0 ∨ op = 6 ∨ op = 7 ∨ op = 8) ∧ bits (w 3) 32 32 ≠ 0, w 3), ((op = 3 ∨ op = 4) ∧ bits (w 3) 0 16 ≠ 0, w 3),
       (op = 5 ∧ bits (w 3) 32 12 ≠ 0, w 3),
       (op ≠ 2 ∧ op ≠ 8 ∧ ¬(takesSrc (sp (w 1)) ∧ reaches (w 1) (span (bits (w 3) 28 18))), w 1),
       (¬(takesDst (sp (w 2)) ∧ reaches (w 2) (if op = 2 then 0 else span (bits (w 3) 46 18))), w 2),
       (op = 2 ∧ ¬((sp (w 3) = 0 ∨ sp (w 3) = 2) ∧ takes (sp (w 3)) ∧ reaches (w 3) 64), w 3),
       (op = 5 ∧ ¬inRect, w 2), (op ≠ 2 ∧ ¬suits, w 2),
       ((op = 3 ∨ op = 4) ∧ 0x80000 < index + 4 * (bits (w 3) 29 16 + 1), w 3),
       (op = 2 ∧ (w 3).toNat % 64 ≠ 0, w 3), ((op = 3 ∨ op = 4) ∧ index % 4 ≠ 0, w 3),
       (op = 6 ∧ (w 1).toNat % 4 ≠ 0 ∨ op = 7 ∧ (w 1).toNat % 2 ≠ 0, w 1),
       (op = 6 ∧ (w 2).toNat % 4 ≠ 0 ∨ op = 7 ∧ (w 2).toNat % 2 ≠ 0, w 2),
       (op = 6 ∧ len % 4 ≠ 0 ∨ op = 7 ∧ len % 2 ≠ 0, w 3),
       ((riser ≠ 0 ∨ (w 0).getLsbD 59 = true) ∧ ¬place, w 0), ((w 0).getLsbD 59 = true ∧ (riser = 0 ∨ riser % 2 = 1), w 0),
       ((w 0).getLsbD 58 = true ∧ bits (w 0) 16 13 = 0, w 0), (op = 5 ∧ ch ≠ 0, w 0), (op = 2 ∧ 2 ≤ ch.toNat, w 0)]
     let fails (x : Dword) : Prop :=
       ∃ (k : Nat) (p : Prop), checks[k]? = some (p, x) ∧ p
         ∧ ∀ (j : Nat) (q : Prop) (y : Dword), j < k → checks[j]? = some (q, y) → ¬q
     let passes : Prop := ∀ c ∈ checks, ¬c.1
     let mark := (s.rx rs1).extractLsb' 0 32
     let appends (i : Instr) : Prop :=
       ∃ u t, exec i s = .next t ∧ Retired u t (u.me.wx rd (c.jcpnext.zeroExtend 64)) (s.me.pc + 4) ∧ u.me = s.me
         ∧ u.mem = s.mem ∧ u.here.core = s.here.core ∧ u.here.chans[ch.toFin].jcpnext = c.jcpnext + 1
         ∧ u.here.chans[ch.toFin].jcpdone = c.jcpdone
         ∧ ∃ q : CopyCmd, u.here.chans[ch.toFin].fifo = c.fifo ++ [q] ∧ q.id = c.jcpnext.toNat ∧ q.w0 = w 0 ∧ q.w1 = w 1
           ∧ q.w2 = w 2 ∧ q.w3 = w 3 ∧ q.slot = s.cur.slot.val ∧ q.opc = s.me.pc
     (s.cap (12 + ch.toNat) = false → Fenced (.cpq rd rs1 ch) s ∧ Fenced (.cpqn rd rs1 ch) s)
     ∧ (s.cap (12 + ch.toNat) = true →
       (∀ x, fails x → Traps (.cpq rd rs1 ch) s 7 x ∧ Traps (.cpqn rd rs1 ch) s 7 x)
       ∧ (passes → 16 ≤ c.fifo.length →
         Blocks (.cpq rd rs1 ch) s .queue (.channel ch.toNat) ∧ Writes (.cpqn rd rs1 ch) s rd 0xFFFFFFFFFFFFFFFF)
       ∧ (passes → c.fifo.length < 16 → appends (.cpq rd rs1 ch) ∧ appends (.cpqn rd rs1 ch)))
     ∧ (6 ≤ s.cur.slot.val → Illegal (.cpwait rs1 ch) s)
     ∧ (s.cur.slot.val < 6 → (c.jcpdone - mark).toNat < 2 ^ 31 → GoesTo (.cpwait rs1 ch) s (s.me.pc + 4))
     ∧ (s.cur.slot.val < 6 → 2 ^ 31 ≤ (c.jcpdone - mark).toNat → Sleeps (.cpwait rs1 ch) s (.copy ch.toNat mark)))
  ∧ (∀ (s : State) (rd rs1 : Reg),
     let w (k : Nat) : Dword := s.rx (rs1 + BitVec.ofNat 5 k)
     let q := s.here.ladle.queue
     let refusal : Option Dword :=
       if 3 < bits (w 0) 60 4 ∨ bits (w 0) 58 2 ≠ 0 ∨ bits (w 0) 0 16 ≠ 0 then some (w 0)
       else if 2 ^ 19 ≤ (w 1).toNat ∨ (w 1).toNat % 128 ≠ 0 then some (w 1)
       else if w 2 ≠ 0 then some (w 2) else if w 3 ≠ 0 then some (w 3) else none
     (s.cap 16 = false → Fenced (.ldlq rd rs1) s)
     ∧ (s.cap 16 = true → ∀ x, refusal = some x → Traps (.ldlq rd rs1) s 7 x)
     ∧ (s.cap 16 = true → refusal = none → 4 ≤ q.length → Writes (.ldlq rd rs1) s rd 1)
     ∧ (s.cap 16 = true → refusal = none → q.length < 4 →
       ∃ u t, exec (.ldlq rd rs1) s = .next t ∧ Retired u t (u.me.wx rd 0) (s.me.pc + 4) ∧ u.me = s.me ∧ u.mem = s.mem
         ∧ u.here.core = s.here.core ∧ ∃ c : LadleCmd, u.here.ladle.queue = q ++ [c] ∧ c.w0 = w 0 ∧ c.w1 = w 1
           ∧ c.slot = s.cur.slot.val ∧ c.opc = s.me.pc ∧ c.started = false))

/-- R231-R241: a matrix operation whose descriptors pass their checks enters the queue of eight with its accumulator,
its descriptors and what the thread's registers hold; with eight queued the thread waits; a failed check is cause 5, of
MST cause 7. -/
def Obligations.MatrixIssue : Prop :=
  ∀ (s : State) (acc : Acc) (p a b : Pair),
    let d (p : Pair) : Dword × Dword := (s.rx (p ++ 0#1), s.rx (p ++ 1#1))
    let q := s.here.matrix.queue
    let bad (e : Dword × Dword) (len align : Nat) (scales : Bool) : Option Dword :=
      let base := bits e.1 0 19
      let last := base + 112 * bits e.2 0 16
      if bits e.2 35 29 ≠ 0 ∨ 3 < bits e.2 32 3 then some e.2
      else if bits e.1 19 45 ≠ 0 ∨ base % align ≠ 0 ∨ 0x7FFFF < last + len - 1
        ∨ (scales = true ∧ 0x7FFFF < last + bits e.2 16 16) then some e.1
      else none
    let enters (i : Instr) (op : MOp) (x y : Dword × Dword) (seed : Dword) : Prop :=
      (8 ≤ q.length → Blocks i s .queue .matrix)
      ∧ (q.length < 8 → ∃ t, exec i s = .next t ∧ t.me = retiredThread s { s.me with jsrseed := seed } (s.me.pc + 4)
        ∧ t.mem = s.mem ∧ t.here.core = s.here.core ∧ t.here.matrix.accs = s.here.matrix.accs
        ∧ t.here.matrix.queue.length = q.length + 1
        ∧ ∃ e : MEntry, t.here.matrix.queue.getLast? = some e ∧ e.op = op ∧ e.acc = acc.toNat ∧ e.d0 = x.1 ∧ e.d1 = x.2
          ∧ e.e0 = y.1 ∧ e.e1 = y.2 ∧ e.jmcfg = s.me.jmcfg ∧ e.seed = s.me.jsrseed ∧ e.gated = s.me.jmgate.getLsbD 63)
    let mma (i : Instr) (cap : Nat) (op : MOp) (scales : Bool) : Prop :=
      (s.cap cap = false → Fenced i s)
      ∧ (s.cap cap = true → ∀ w, bad (d a) 32 16 scales = some w → Traps i s 5 w)
      ∧ (s.cap cap = true → bad (d a) 32 16 scales = none →
        ∀ w, bad (d b) 32 16 scales = some w → Traps i s 5 w)
      ∧ (s.cap cap = true → bad (d a) 32 16 scales = none → bad (d b) 32 16 scales = none →
        enters i op (d a) (d b) s.me.jsrseed)
    let one (i : Instr) (op : MOp) (cause len align : Nat) (scales : Bool) (seed : Dword) : Prop :=
      (∀ w, bad (d p) len align scales = some w → Traps i s cause w)
      ∧ (bad (d p) len align scales = none → enters i op (d p) (0, 0) seed)
    mma (.mmaE4e4 acc a b) 5 (.mma .e4m3 .e4m3) true ∧ mma (.mmaE4e5 acc a b) 6 (.mma .e4m3 .e5m2) true
      ∧ mma (.mmaE5e4 acc a b) 7 (.mma .e5m2 .e4m3) true ∧ mma (.mmaE5e5 acc a b) 8 (.mma .e5m2 .e5m2) true
      ∧ mma (.mmaBf acc a b) 9 .mmaBf false
      ∧ enters (.mzero acc) .mzero (0, 0) (0, 0) s.me.jsrseed
      ∧ one (.mld acc p) .mld 5 32 16 false s.me.jsrseed ∧ one (.mstF32 acc p) .mstF32 7 32 16 false s.me.jsrseed
      ∧ (s.me.jmcfg.getLsbD 1 = false → one (.mstBf acc p) .mstBf 7 16 16 false s.me.jsrseed)
      ∧ (s.me.jmcfg.getLsbD 1 = true → s.cap 11 = true → one (.mstBf acc p) .mstBf 7 16 16 false (seedSteps 64 s.me.jsrseed))
      ∧ (s.me.jmcfg.getLsbD 1 = true → s.cap 11 = false → Fenced (.mstBf acc p) s)
      ∧ (s.cap 10 = true → one (.mstE4m3 acc p) (.mstFp8 .e4m3) 7 8 8 true s.me.jsrseed
        ∧ one (.mstE5m2 acc p) (.mstFp8 .e5m2) 7 8 8 true s.me.jsrseed)
      ∧ (s.cap 10 = false → Fenced (.mstE4m3 acc p) s ∧ Fenced (.mstE5m2 acc p) s)

/-- R242, R244-R246: MGATE sets or clears the thread's gate; MBURST sets the burst and starts the ramp of an idle array;
MFENCE and MROWV hold their thread in UNIT until the entries that were queued when they first issued, MROWV those of its
accumulator, have left the queue; MROWV then reads a row, or takes cause 26 for a poisoned accumulator. -/
def Obligations.MatrixControl : Prop :=
  ∀ (s : State) (rs1 rs2 : Reg) (vd : VReg) (acc : Acc) (row : BitVec 3),
    let a := s.rx rs1
    let m := s.here.matrix
    let n := bits a 0 16
    let x := s.here.matrix.accs[acc.toFin]
    let mine (e : MEntry) : Bool := e.acc == acc.toNat
    let want (p : MEntry → Bool) : List Nat := s.me.awaits.getD ((m.queue.filter p).map (·.serial))
    let clear (p : MEntry → Bool) : Prop := ∀ e ∈ m.queue, e.serial ∉ want p
    let holds (i : Instr) (p : MEntry → Bool) : Prop :=
      ∃ t, exec i s = .next t ∧ sameButMe s t
        ∧ t.me = { s.me with awaits := some (want p), st := .unit, need := .matrix, sleepTs := s.tsc }
    (rs1 = 0 → ∃ t, exec (.mgate rs1 rs2) s = .next t ∧ sameButMe s t
      ∧ (t.me.jmgate.getLsbD 63 = false ∧ ∀ k, k < 63 → t.me.jmgate.getLsbD k = s.me.jmgate.getLsbD k)
      ∧ t.me = retiredThread s { s.me with jmgate := t.me.jmgate } (s.me.pc + 4))
    ∧ (∀ off, rs1 ≠ 0 → locate s s.me.mode a = some (.own off) →
      (off % 8 ≠ 0 → Traps (.mgate rs1 rs2) s 4 a)
      ∧ (off % 8 = 0 → ∃ t, exec (.mgate rs1 rs2) s = .next t ∧ Retired s t
        { s.me with jmgate := BitVec.ofNat 64 (2 ^ 63 + off), jmgatev := BitVec.ofNat 64 (bits (s.rx rs2) 0 40) }
        (s.me.pc + 4)))
    ∧ (rs1 ≠ 0 → (∀ off, locate s s.me.mode a ≠ some (.own off)) → Traps (.mgate rs1 rs2) s 5 a)
    ∧ (∃ u t, exec (.mburst rs1) s = .next t ∧ Retired u t s.me (s.me.pc + 4)
      ∧ { u.here with matrix := m } = s.here ∧ u.here.matrix.burst = n ∧ u.here.matrix.queue = m.queue
      ∧ u.here.matrix.accs = m.accs ∧ u.here.matrix.power = (if n ≠ 0 ∧ m.power = .idle then .rampUp else m.power))
    ∧ (clear (fun _ => true) → ∃ t, exec .mfence s = .next t ∧ Retired s t { s.me with awaits := none } (s.me.pc + 4))
    ∧ (¬clear (fun _ => true) → holds .mfence fun _ => true)
    ∧ (¬clear mine → holds (.mrowv vd acc row) mine)
    ∧ (clear mine →
      (x.mark.getLsbD 23 = false → ∃ t, exec (.mrowv vd acc row) s = .next t ∧ t.me.pc = s.me.pc + 4
        ∧ sameButMe s t ∧ t.me.x = s.me.x
        ∧ (∀ r, r ≠ vd → t.rv r = s.rv r)
        ∧ ∀ j : Fin 8, bits (t.rv vd) (32 * j.val) 32 = (x.el[8 * row.toNat + j.val]'(by omega)).toNat)
      ∧ (x.mark.getLsbD 23 = true → ∃ t, exec (.mrowv vd acc row) s = .next t ∧ t.mem = s.mem
        ∧ t.me = trappedThread s 26 s.me.pc
          (BitVec.ofNat 64 (bits x.mark 0 20 * 2 ^ 12 + bits x.mark 20 3 * 2 ^ 8 + acc.toNat)) false))

/-- R248, R250, R251, R256-R258, R72-R75, R80, R81: the lane operations compute each element of vd from the elements of the
same place: integers wrap; floating-point sums, products and fused products are the exact value rounded once to nearest
even, with their special operands and zeros, and the extremes, sign operations and comparisons are those of R80 and R81; a
core without the suffix's class fences them. -/
def Obligations.VectorLanes : Prop :=
  Computes fp32 ∧ Computes bf16 ∧
  ∀ (s : State) (f : Sfx) (vd a b : VReg),
    let w := wBits f
    let va := s.rv a
    let vb := s.rv b
    let vo := s.rv vd
    let e (v : Vec) (n : Nat) : Nat := bits v (w * n) w
    let sg (x : Nat) : Int := if isSigned f ∧ 2 ^ (w - 1) ≤ x then (x : Int) - 2 ^ w else x
    let wr (i : Int) : Nat := (i % 2 ^ w).toNat
    let lanes (i : Instr) (cap : Option Nat) (lat : Nat) (g : Nat → Nat) : Prop :=
      ((∀ c, cap = some c → s.cap c = true) → ∃ v : Vec, LateVec i s vd v lat ∧ ∀ n, n < 256 / w → e v n = g n)
        ∧ (∀ c, cap = some c → s.cap c = false → Fenced i s)
    let mask (p : Prop) [Decidable p] : Nat := if p then 2 ^ w - 1 else 0
    (fmtOf f = none →
      lanes (.vadd f vd a b) (some 1) 2 (fun n => (e va n + e vb n) % 2 ^ w)
        ∧ lanes (.vsub f vd a b) (some 1) 2 (fun n => wr ((e va n : Int) - e vb n))
        ∧ lanes (.vmul f vd a b) (some 1) 4 (fun n => e va n * e vb n % 2 ^ w)
        ∧ lanes (.vmax f vd a b) (some 1) 2 (fun n => if sg (e va n) < sg (e vb n) then e vb n else e va n)
        ∧ lanes (.vmin f vd a b) (some 1) 2 (fun n => if sg (e va n) < sg (e vb n) then e va n else e vb n)
        ∧ lanes (.vabs f vd a) (some 1) 2 (fun n => wr (if sg (e va n) < 0 then -sg (e va n) else sg (e va n)))
        ∧ lanes (.vneg f vd a) (some 1) 2 (fun n => wr (-sg (e va n)))
        ∧ lanes (.vsll f vd a b) (some 1) 2 (fun n => e va n * 2 ^ (e vb n % w) % 2 ^ w)
        ∧ lanes (.vsrl f vd a b) (some 1) 2 (fun n => e va n / 2 ^ (e vb n % w))
        ∧ lanes (.vsra f vd a b) (some 1) 2 (fun n => wr (sg (e va n) / 2 ^ (e vb n % w)))
        ∧ lanes (.vcmpeq f vd a b) (some 1) 2 (fun n => mask (e va n = e vb n))
        ∧ lanes (.vcmplt f vd a b) (some 1) 2 (fun n => mask (sg (e va n) < sg (e vb n)))
        ∧ lanes (.vcmple f vd a b) (some 1) 2 (fun n => mask (sg (e va n) ≤ sg (e vb n))))
    ∧ (∀ t c, fmtOf f = some t → c = (if f = .f32 then 2 else 3) →
      lanes (.vadd f vd a b) (some c) 4 (fun n => t.add (e va n) (e vb n) % 2 ^ w)
        ∧ lanes (.vsub f vd a b) (some c) 4 (fun n => t.sub (e va n) (e vb n) % 2 ^ w)
        ∧ lanes (.vmul f vd a b) (some c) 4 (fun n => t.mul (e va n) (e vb n) % 2 ^ w)
        ∧ lanes (.vfma f vd a b) (some c) 4 (fun n => t.fma (e va n) (e vb n) (e vo n) % 2 ^ w)
        ∧ lanes (.vmax f vd a b) (some c) 4 (fun n => t.max (e va n) (e vb n) % 2 ^ w)
        ∧ lanes (.vmin f vd a b) (some c) 4 (fun n => t.min (e va n) (e vb n) % 2 ^ w)
        ∧ lanes (.vabs f vd a) (some c) 4 (fun n => t.abs (e va n) % 2 ^ w)
        ∧ lanes (.vneg f vd a) (some c) 4 (fun n => t.flip (e va n) % 2 ^ w)
        ∧ lanes (.vcmpeq f vd a b) (some c) 4 (fun n => mask (t.eq (e va n) (e vb n) = true))
        ∧ lanes (.vcmplt f vd a b) (some c) 4 (fun n => mask (t.lt (e va n) (e vb n) = true))
        ∧ lanes (.vcmple f vd a b) (some c) 4 (fun n => mask (t.le (e va n) (e vb n) = true)))
    ∧ LateVec (.vand vd a b) s vd (va &&& vb) 2 ∧ LateVec (.vor vd a b) s vd (va ||| vb) 2
      ∧ LateVec (.vxor vd a b) s vd (va ^^^ vb) 2
    ∧ lanes (.vsel f vd a b) none 2 (fun n => if 2 ^ (w - 1) ≤ e vo n then e va n else e vb n)

/-- R76, R77, R84, R85, R87-R90, R260-R263: special functions, conversions, packing, reductions, scans and moves; a
conversion rounds once to nearest even, clamps to an integer's range and carries special values as R77 states; a scan
writes a first element that is a NaN as the canonical one. -/
def Obligations.VectorWhole : Prop :=
  Converts fp32 ∧ Converts bf16 ∧
  ∀ (s : State) (f : Sfx) (vd a b : VReg) (r rd : Reg),
    let w := wBits f
    let e (w : Nat) (v : Vec) (n : Nat) : Nat := bits v (w * n) w
    let l := (List.range (256 / w)).map (e w (s.rv a))
    let sum (l : List Nat) : Nat := l.foldl (· + ·) 0 % 2 ^ w
    let gives (i : Instr) (lat : Nat) (w : Nat) (g : Nat → Nat) : Prop :=
      ∃ v : Vec, LateVec i s vd v lat ∧ ∀ n, n < 256 / w → e w v n = g n
    let special (i : Instr) (g : FVal → Nat) : Prop :=
      (s.cap 4 = false → Fenced i s)
      ∧ (s.cap 4 = true → s.here.cycle < s.here.sfuFree → Blocks i s .unit (.result s.here.sfuFree))
      ∧ (s.cap 4 = true → s.here.sfuFree ≤ s.here.cycle → ∃ v : Vec,
        Effects i s ((s.modHere fun x => { x with sfuFree := x.cycle + 4 }).wvLate vd v 12)
          ∧ ∀ n, n < 8 → e 32 v n = g (fp32.read (e 32 (s.rv a) n)) % 2 ^ 32)
    special (.vrcp vd a) rcp ∧ special (.vrsq vd a) rsqrt ∧ special (.vexp2 vd a) exp2
      ∧ special (.vlog2 vd a) Sys2Proof.Machine.log2
    ∧ (∀ dst, (∀ c ∈ convertCaps s dst f, s.cap c = true) → s.stochastic dst f = false →
      gives (.vcvt dst f vd a) 4 (wBits dst) fun n =>
        if n < 256 / max (wBits dst) w then convertElem dst f (e w (s.rv a) n) % 2 ^ wBits dst else 0)
    ∧ (s.cap 2 = true → s.cap 3 = true → s.cap 11 = true → s.me.jvcfg.getLsbD 1 = true →
      ∃ t, exec (.vcvt .bf .f32 vd a) s = .next t ∧ t.me.pc = s.me.pc + 4 ∧ t.me.x = s.me.x ∧ sameButMe s t
        ∧ t.me.jsrseed = (roundSRs ((List.range 8).map (e 32 (s.rv a))) (s.me.jsrseed.extractLsb' 0 32)).2.zeroExtend 64
        ∧ ∀ n, n < 16 → e 16 (t.rv vd) n =
          (roundSRs ((List.range 8).map (e 32 (s.rv a))) (s.me.jsrseed.extractLsb' 0 32)).1.getD n 0)
    ∧ (∀ m, s.cap 10 = false → Fenced (.vpack f m vd a) s ∧ Fenced (.vunpack f m vd a) s)
    ∧ (∀ m, s.cap 10 = true →
      let p := packMX (packSource s f a) m (s.me.jvcfg.getLsbD 0)
      ∃ v : Vec, Effects (.vpack f m vd a) s ((s.wvLate vd v 6).wvLate (vd + 1) (BitVec.ofNat 256 p.1) 6)
        ∧ ∀ n, n < 32 → e 8 v n = p.2.getD n 0 % 256)
    ∧ (∀ m, s.cap 10 = true → f = .bf →
      let x := bits (s.rv (a + 1)) 0 8
      ∃ v v' : Vec, Effects (.vunpack f m vd a) s ((s.wvLate vd v 4).wvLate (vd + 1) v' 4)
        ∧ ∀ n, n < 16 → e 16 v n = unpackMX m x (e 8 (s.rv a) n) bf16 % 2 ^ 16
          ∧ e 16 v' n = unpackMX m x (e 8 (s.rv a) (16 + n)) bf16 % 2 ^ 16)
    ∧ (∀ m, s.cap 10 = true → f = .f32 →
      let x := bits (s.rv (a + 1)) 0 8
      ∃ v0 v1 v2 v3 : Vec, Effects (.vunpack f m vd a) s
          ((((s.wvLate vd v0 4).wvLate (vd + 1) v1 4).wvLate (vd + 2) v2 4).wvLate (vd + 3) v3 4)
        ∧ ∀ n, n < 8 → e 32 v0 n = unpackMX m x (e 8 (s.rv a) n) fp32 % 2 ^ 32
          ∧ e 32 v1 n = unpackMX m x (e 8 (s.rv a) (8 + n)) fp32 % 2 ^ 32
          ∧ e 32 v2 n = unpackMX m x (e 8 (s.rv a) (16 + n)) fp32 % 2 ^ 32
          ∧ e 32 v3 n = unpackMX m x (e 8 (s.rv a) (24 + n)) fp32 % 2 ^ 32)
    ∧ (s.cap (sfxCap f) = false → Fenced (.vredsum f vd a) s ∧ Fenced (.vredmax f vd a) s
      ∧ ∀ x, Fenced (.vscan f x vd a) s)
    ∧ (s.cap (sfxCap f) = true →
      (fmtOf f = none → gives (.vredsum f vd a) 8 w (fun n => if n = 0 then sum l else 0)
        ∧ gives (.vscan f false vd a) 8 w (fun n => sum (l.take (n + 1)))
        ∧ gives (.vscan f true vd a) 8 w (fun n => sum (l.take n)))
      ∧ (∀ t, fmtOf f = some t → gives (.vredsum f vd a) 8 w (fun n => if n = 0 then tree t.add 5 l % 2 ^ w else 0)
        ∧ gives (.vscan f false vd a) 8 w (fun n => (scan t.add (l.map t.canonical)).getD n 0 % 2 ^ w)
        ∧ gives (.vscan f true vd a) 8 w
          (fun n => if n = 0 then 0 else (scan t.add (l.map t.canonical)).getD (n - 1) 0 % 2 ^ w)
        ∧ gives (.vredmax f vd a) 8 w (fun n => if n = 0 then tree t.max 5 l % 2 ^ w else 0))
      ∧ (fmtOf f = none → isSigned f = false → gives (.vredmax f vd a) 8 w (fun n => if n = 0 then l.foldl max 0 else 0))
      ∧ (isSigned f = true → gives (.vredmax f vd a) 8 w (fun n =>
          if n = 0 then (l.foldl (fun m x => max m (BitVec.ofNat w x).toInt) (-(2 ^ (w - 1) : Int)) % 2 ^ w).toNat else 0)))
    ∧ gives (.vperm f vd a b) 2 w (fun n => l.getD (e w (s.rv b) n % (256 / w)) 0)
    ∧ gives (.vslide f vd a r) 2 w (fun n =>
        if 0 ≤ (n : Int) - (s.rx r).toInt ∧ (n : Int) - (s.rx r).toInt < (256 / w : Nat) then
          l.getD ((n : Int) - (s.rx r).toInt).toNat 0 else 0)
    ∧ gives (.vbcast f vd r) 2 w (fun _ => (s.rx r).toNat % 2 ^ w)
    ∧ LateWrites (.vmvx f rd a r) s rd
        (if (s.rx r).toNat < 256 / w then
          (if isSigned f then (BitVec.ofNat w (l.getD (s.rx r).toNat 0)).signExtend 64
          else (BitVec.ofNat w (l.getD (s.rx r).toNat 0)).zeroExtend 64)
        else 0) 2

/-- R252, R254, R255: the vector loads and stores on the own scratchpad. VLD and VST move their 32 bytes in one step.
A strided or indexed form performs its first element and stays in UNIT; each cycle of its core performs the next one,
the last of which lets it retire, a load writing vd as a whole; none is performed before a routed element of a lower
number; a load that meets a marked word traps with vd unchanged, and a store waits for a hold. A routed VLD takes one
request, a routed VST posts one, and the routed elements of a strided or indexed form are sent in their order, each with an
entry of the access, or none while there is no room for all; the first element that fails its check, one in space 0x6
among them, traps before anything is performed. (The order of sending and of the local
elements, one in each cycle, is the model's reading, log 17.) -/
def Obligations.VectorMemory : Prop :=
  ∀ (s : State) (f : Sfx) (v b : VReg) (r1 r2 : Reg),
    let w := wBits f
    let z := w / 8
    let at0 := s.rx r1
    let strided (n : Nat) : Dword := at0 + BitVec.ofNat 64 n * s.rx r2
    let indexed (n : Nat) : Dword := at0 + BitVec.ofNat 64 (bits (s.rv b) (w * n) w * z)
    let marked (off size : Nat) : Bool := s.markedIn (s.myKey off) size
    let held (off size : Nat) : Bool := s.here.held s.cur.tile (s.localWriter size) off size
    let part (n : Nat) : Nat := bits (s.rv v) (8 * z * n) (8 * z)
    let stays (t : State) (r : VecRun) : Prop :=
      t.me.st = .unit ∧ t.me.need = .element ∧ t.me.vec = some r ∧ t.me.pc = s.me.pc ∧ t.me.x = s.me.x ∧ t.me.v = s.me.v
    let goesOn (t : State) : Prop :=
      t.me.st = .ready ∧ t.me.vec = none ∧ t.me.pc = s.me.pc + 4 ∧ t.me.x = s.me.x
    let stored (t : State) (off size e : Nat) : Prop :=
      t.readN (s.myKey off) size = e
        ∧ ∀ k, k < 2 ^ 62 → ¬(s.myKey off ≤ k ∧ k < s.myKey off + size) → t.byte k = s.byte k
    let begins (ld st : Instr) (addr : Nat → Dword) : Prop :=
      ∀ off : Nat → Nat, s.me.vecAt = 0 → s.cur.tile < 2 ^ 40 →
        (∀ n, n < 32 / z → checkAddr s s.me.mode (addr n) z z = .ok (.own (off n))) →
        let rest (g : Nat → Nat) := (List.range' 1 (32 / z - 1)).map fun n => (n, addr n, off n, g n)
        (marked (off 0) z = false → ∃ t, exec ld s = .next t ∧ t.mem = s.mem
          ∧ stays t { size := z, vd := v, rest := rest (fun _ => 0), buf := s.readN (s.myKey (off 0)) z })
        ∧ (held (off 0) z = false → ∃ t, exec st s = .next t ∧ stored t (off 0) z (part 0)
          ∧ stays t { write := true, size := z, rest := rest part })
    let routed (ld st : Instr) (addr : Nat → Dword) : Prop :=
      ∀ y x off : Nat → Nat, s.me.vecAt = 0 → s.me.vec = none →
        (∀ n, n < 32 / z → checkAddr s s.me.mode (addr n) z z = .ok (.mesh (y n) (x n) (off n))) →
        let room : Prop := s.here.reqs.length + 32 / z ≤ 256 ∧ s.myEntries.length + 32 / z ≤ 64
        let sent (i : Instr) (op : Nat → Op) (dest : Option VReg) : Prop :=
          ∃ t ps es, exec i s = .next t ∧ goesOn t ∧ t.me.v = s.me.v ∧ t.mem = s.mem ∧ t.net = s.net ++ ps
            ∧ ps.length = 32 / z ∧ t.here.reqs = s.here.reqs ++ es ∧ es.length = 32 / z
            ∧ (∀ (n : Nat) (p : Packet), ps[n]? = some p →
              p.op = op n ∧ p.home = .tile (s.meshTile s.cur.tile (y n) (x n)) ∧ p.off = off n ∧ p.addr = addr n)
            ∧ (∀ (n : Nat) (e : ReqEntry), es[n]? = some e → e.group = some (s.nextId, n) ∧ e.target = addr n)
            ∧ ∃ g ∈ t.here.groups, g.id = s.nextId ∧ g.left = 32 / z ∧ g.vd = dest ∧ g.width = z
        (room → (∀ g ∈ s.here.groups, g.id ≠ s.nextId) →
          sent ld (fun _ => .load z) (some v) ∧ sent st (fun n => .store z (part n)) none)
        ∧ (¬room → Blocks ld s .queue .entry ∧ Blocks st s .queue .entry)
    let fails (ld st : Instr) (addr : Nat → Dword) : Prop :=
      ∀ k, k < 32 / z → (∀ n, n < k → ∃ off, checkAddr s s.me.mode (addr n) z z = .ok (.own off)) →
        (checkAddr s s.me.mode (addr k) z z = .error .access
            ∨ (∃ p r, checkAddr s s.me.mode (addr k) z z = .ok (.mgmt p r)) →
          Traps ld s 5 (addr k) ∧ Traps st s 7 (addr k))
        ∧ (checkAddr s s.me.mode (addr k) z z = .error .misaligned → Traps ld s 4 (addr k) ∧ Traps st s 6 (addr k))
    (∀ off, checkAddr s s.me.mode at0 32 32 = .ok (.own off) →
      (marked off 32 = false → s.me.vecAt = 0 → s.me.vec = none → LateVec (.vld v r1) s v (BitVec.ofNat 256 (s.readN (s.myKey off) 32)) 3)
      ∧ (marked off 32 = true → Traps (.vld v r1) s 32 at0)
      ∧ (held off 32 = false → s.me.vecAt = 0 → s.cur.tile < 2 ^ 40 → ∃ t, exec (.vst v r1) s = .next t ∧ goesOn t
        ∧ t.me.v = s.me.v ∧ stored t off 32 (s.rv v).toNat)
      ∧ (held off 32 = true → s.me.vecAt = 0 → Blocks (.vst v r1) s .unit .hold))
    ∧ begins (.vlds f v r1 r2) (.vsts f v r1 r2) strided ∧ begins (.vldx f v r1 b) (.vstx f v r1 b) indexed
    ∧ routed (.vlds f v r1 r2) (.vsts f v r1 r2) strided ∧ routed (.vldx f v r1 b) (.vstx f v r1 b) indexed
    ∧ fails (.vlds f v r1 r2) (.vsts f v r1 r2) strided ∧ fails (.vldx f v r1 b) (.vstx f v r1 b) indexed
    ∧ (∀ r n a off e rest, s.me.vec = some r → r.rest = (n, a, off, e) :: rest → s.cur.tile < 2 ^ 40 → off + r.size ≤ 2 ^ 20 →
      let buf := r.buf + s.readN (s.myKey off) r.size * 2 ^ (8 * r.size * n)
      let ahead := match r.group with
        | none => false
        | some g => s.net.any (beforeInGroup g n)
          || s.here.reqs.any fun e => e.group.any (fun q => q.1 == g && decide (q.2 < n))
            && bits e.target 60 4 == 3 && bits e.target 48 12 != s.here.core.jmod
      (ahead = true → vecStep false r s = .next s)
      ∧ (ahead = false → r.write = false → marked off r.size = false →
        (rest ≠ [] → ∃ t, vecStep false r s = .next t ∧ t.mem = s.mem ∧ stays t { r with rest := rest, buf := buf })
        ∧ (rest = [] → r.group = none → ∃ t, vecStep false r s = .next t ∧ t.mem = s.mem ∧ goesOn t
          ∧ ∀ q, t.rv q = if q = r.vd then BitVec.ofNat 256 buf else s.rv q))
      ∧ (ahead = false → r.write = false → marked off r.size = true → off < mramBase →
        vecStep false r s = .next ((match r.group with
          | none => s
          | some g => s.modHere (·.dropGroup g)).trap 32 a))
      ∧ (ahead = false → r.write = true → held off r.size = true → vecStep false r s = .next s)
      ∧ (ahead = false → r.write = true → held off r.size = false → e < 2 ^ (8 * r.size) → ∃ t, vecStep false r s = .next t
        ∧ stored t off r.size e
        ∧ (rest ≠ [] → stays t { r with rest := rest }) ∧ (rest = [] → goesOn t ∧ t.me.v = s.me.v)))
    ∧ (∀ t i r, s.inFrame t = true → s.awake t = true → (s.tile t).tstate = 1 → (s.th t i).st = .unit →
      (s.th t i).vec = some r → (s.th t i).need = .element →
      (s.th t i).pend = [] → (∀ j, j ≠ i → (s.th t j).st = .empty) →
      ∃ m u, exec (.issueSelect t) s = .next { u with cur := s.cur }
        ∧ vecStep false r ((s.modTile t fun x => { x with cycle := x.cycle + 1, was := none, matrix := m }).asThread t i) = .next u)
    ∧ (checkAddr s s.me.mode at0 32 32 = .error .access → Traps (.vld v r1) s 5 at0 ∧ Traps (.vst v r1) s 7 at0)
    ∧ (checkAddr s s.me.mode at0 32 32 = .error .misaligned → Traps (.vld v r1) s 4 at0 ∧ Traps (.vst v r1) s 6 at0)
    ∧ ((∃ p r, checkAddr s s.me.mode at0 32 32 = .ok (.mgmt p r)) → Traps (.vld v r1) s 5 at0 ∧ Traps (.vst v r1) s 7 at0)
    ∧ (checkAddr s s.me.mode at0 z z = .error .access → Traps (.vlds f v r1 r2) s 5 at0 ∧ Traps (.vsts f v r1 r2) s 7 at0)
    ∧ (∀ y x off, checkAddr s s.me.mode at0 32 32 = .ok (.mesh y x off) → s.entryFree = false →
      Blocks (.vld v r1) s .queue .entry ∧ (s.me.vecAt = 0 → Blocks (.vst v r1) s .queue .entry))
    ∧ (∀ y x off, checkAddr s s.me.mode at0 32 32 = .ok (.mesh y x off) → s.entryFree = true → s.me.vecAt = 0 →
      ∃ t p e, exec (.vst v r1) s = .next t ∧ goesOn t ∧ t.me.v = s.me.v ∧ t.mem = s.mem ∧ t.net = s.net ++ [p]
        ∧ p.op = .store 32 (s.rv v).toNat ∧ p.home = .tile (s.meshTile s.cur.tile y x) ∧ p.off = off
        ∧ t.here.reqs = s.here.reqs ++ [e] ∧ e.group = some (s.nextId, 0) ∧ e.target = at0)
    ∧ (∀ y x off, checkAddr s s.me.mode at0 32 32 = .ok (.mesh y x off) → s.entryFree = true →
      ∃ u t, exec (.vld v r1) s = .next t ∧ Retired u t u.me (s.me.pc + 4) ∧ u.mem = s.mem ∧ u.me = s.me
        ∧ (∃ p, u.net = s.net ++ [p] ∧ p.op = .load 32 ∧ p.home = .tile (s.meshTile s.cur.tile y x) ∧ p.off = off)
        ∧ ∃ e g, u.here.reqs = s.here.reqs ++ [e] ∧ u.here.groups = s.here.groups ++ [g] ∧ g.vd = some v ∧ g.left = 1)

/-- R45, R50-R52, R54-R56: a spawn or message that is admitted enters the intake or the inbox, and is refused when
that is full; one that is not admitted returns status 3; a refused attempt is sent again after its back-off, the
eighth refusal being status 4; the intake's oldest request fills the lowest EMPTY general slot, the inbox's a handler
slot; a status returns to its register. (What a refused attempt and its record keep is the model's, log 30.) -/
def Obligations.SpawnTraffic : Prop :=
  ∀ (s : State) (p : Packet) (m : Message) (t : Nat) (i : Fin 8),
    let x := s.tile t
    let filled (h : Thread) (prio : Nat) : Prop :=
      h.st = .ready ∧ h.mode = .user ∧ h.pc = m.entry ∧ h.prio = prio ∧ h.budget = 4096 ∧ h.rx 10 = m.a0 ∧ h.rx 11 = m.a1
        ∧ h.rx 12 = m.a2 ∧ h.rx 13 = m.a3 ∧ h.rx 14 = m.ident
        ∧ ∀ r : Reg, r.toNat ≤ 9 ∨ 15 ≤ r.toNat → h.rx r = 0
    (Arrives s p t → p.op = .spawn m → p.org.fab = false →
      (admits s p t = true → x.intake.length < 4 → ∃ u, exec (.spawnRequestArrival p.id) s = .next u ∧ OnlyTileAndNet s u t
        ∧ u.net = s.net.filter (·.id != p.id)
        ∧ u.tile t = { x with intake := x.intake ++ [{ recId := p.req, msg := m, org := p.org, req := p.req }] })
      ∧ (admits s p t = true → 4 ≤ x.intake.length → ∃ u, exec (.spawnRequestArrival p.id) s = .next u
        ∧ OnlyTileAndNet s u t ∧ u.tile t = x ∧ u.net = answered s p .refused)
      ∧ (admits s p t = false → ∃ u, exec (.spawnRequestArrival p.id) s = .next u ∧ OnlyTileAndNet s u t ∧ u.tile t = x
        ∧ u.net = answered s p (.status 3)))
    ∧ (Arrives s p t → p.op = .message m → p.org.fab = false →
      (admits s p t = true → x.inbox.length < 32 → ∃ u, exec (.messageArrival p.id) s = .next u ∧ OnlyTileAndNet s u t
        ∧ u.net = answered s p (.status 0) ∧ u.tile t = { x with inbox := x.inbox ++ [m] })
      ∧ (admits s p t = true → 32 ≤ x.inbox.length → ∃ u, exec (.messageArrival p.id) s = .next u ∧ OnlyTileAndNet s u t
        ∧ u.tile t = x ∧ u.net = answered s p .refused)
      ∧ (admits s p t = false → ∃ u, exec (.messageArrival p.id) s = .next u ∧ OnlyTileAndNet s u t ∧ u.tile t = x
        ∧ u.net = answered s p (.status 3)))
    ∧ (∀ q rest, s.inFrame t = true → x.intake = q :: rest → q.msg = m → q.org.fab = false →
      let drains (n : Nat) (p : Tile → Prop) : Prop :=
        ∃ u, exec (.spawnIntakeDrain t) s = .next u ∧ OnlyTileAndNet s u t ∧ (u.tile t).intake = rest ∧ p (u.tile t)
          ∧ ∃ a, u.net = s.net ++ [a] ∧ a.op = .status n ∧ a.home = .tile q.org.tile ∧ a.req = q.req
      (x.portCore.hold = true → drains 3 fun y => y.threads = x.threads)
      ∧ (x.portCore.hold = false → x.portCore.jkcaps &&& ~~~x.portCore.jcaps ≠ 0 → drains 2 fun y => y.threads = x.threads)
      ∧ (x.portCore.hold = false → x.portCore.jkcaps &&& ~~~x.portCore.jcaps = 0 → x.core.gslots ≤ x.occupied →
        drains 1 fun y => y.threads = x.threads)
      ∧ (x.portCore.hold = false → x.portCore.jkcaps &&& ~~~x.portCore.jcaps = 0 → x.occupied < x.core.gslots →
        i.val < x.core.gslots → i.val < 6 → (x.th i).st = .empty → (∀ j, j < i → (x.th j).st ≠ .empty) →
        drains 0 fun y => filled (y.th i) (min m.prio x.core.pcap) ∧ ∀ j, j ≠ i → y.th j = x.th j))
    ∧ (∀ rest, s.inFrame t = true → x.inbox = m :: rest → x.halted = false → x.needsFirmware = false → 6 ≤ i.val →
      (x.th i).st = .empty → (∀ j, 6 ≤ j.val → j < i → (x.th j).st ≠ .empty) →
      ∃ u, exec (.handlerDispatch t) s = .next u ∧ OnlyTileAndNet s u t ∧ u.net = s.net ∧ (u.tile t).inbox = rest
        ∧ filled ((u.tile t).th i) 0 ∧ ∀ j, j ≠ i → (u.tile t).th j = x.th j)
    ∧ (∀ r, s.pkt p.id = some p → p.op = .refused → s.spawns.find? (·.id == p.req) = some r →
      (r.refusals < 7 → ∃ u, exec (.spawnRefusalReturn p.id) s = .next u ∧ u.net = s.net.filter (·.id != p.id)
        ∧ u.spawns.find? (·.id == p.req) =
          some { r with refusals := r.refusals + 1, due := some (s.tick + 32 * 2 ^ min r.refusals 5) })
      ∧ (7 ≤ r.refusals → ∃ u, exec (.spawnRefusalReturn p.id) s = .next u
        ∧ u.net = s.net.filter (·.id != p.id) ++ [{ p with op := .status 4 }]))
    ∧ (∀ r d home, s.spawns.find? (·.id == r.id) = some r → r.due = some d → d ≤ s.tick → r.home = .tile home →
      ∃ u, exec (.spawnResend r.id) s = .next u
        ∧ (∃ a, u.net = s.net ++ [a] ∧ a.op = r.op ∧ a.home = r.home ∧ a.org = r.org ∧ a.req = r.id)
        ∧ u.spawns.find? (·.id == r.id) = some { r with due := none })
    ∧ (∀ r e rd v, s.pkt p.id = some p → p.op = .status v → s.spawns.find? (·.id == p.req) = some r → r.host = none →
      r.many = false → r.org.tile = t → x.reqs.find? (·.id == r.req) = some e → e.slot = i.val → e.rd = some rd →
      e.discard = false → e.epoch = (x.th i).epoch → rd ≠ 0 → e.tag < 16 →
      ∃ u, exec (.spawnStatusReturn p.id) s = .next u
        ∧ ((u.tile t).th i).rx rd = BitVec.ofNat 64 (e.tag * 2 ^ 8 + v)
        ∧ (∀ r', r' ≠ rd → ((u.tile t).th i).rx r' = (x.th i).rx r') ∧ ((u.tile t).th i).pc = (x.th i).pc
        ∧ (u.tile t).reqs = x.reqs.filter (·.id != e.id) ∧ u.spawns = s.spawns.filter (·.id != r.id))

/-- R44, R47, R53, R136, R154, R155, R267: a core that may issue fetches the next word of the thread selected, its one
READY thread here; waits return in the second cycle after the write that ended them, a timeout ends a wait, a hold
expires; firmware that is owed starts in a handler slot; COUNTi of the cluster is refreshed. (That an event due at a
cycle ends the cycle before, that a blocked thread issues again when what it needs is free, and how firmware is
dispatched, are the model's choices, logs 6, 16, 36, 39; COUNTi as it stood at the refresh, log 84.) -/
def Obligations.ThreadsWake : Prop :=
  ∀ (s : State) (t : Nat) (i : Fin 8),
    let x := s.tile t
    let h := x.th i
    let only (u : State) (f : Thread → Prop) : Prop :=
      { u with tiles := s.tiles } = s ∧ (∀ v, v ≠ t → u.tile v = s.tile v) ∧ f ((u.tile t).th i)
        ∧ (u.tile t).core = x.core ∧ (u.tile t).reqs = x.reqs
    s.inFrame t = true →
    (∀ off ins, s.awake t = true → x.tstate = 1 → (s.island (islandOf t)).throttle = 16 → x.halted = false → x.lattice = none →
      x.evpend = 0 → x.reqs = [] → x.groups = [] → x.divider = none → (∀ j, j ≠ i → (x.th j).st = .empty) →
      h.st = .ready → h.need = .none → h.pend = [] → h.fwTrap = none → h.firmware = false → 0 < h.budget → h.wait = 0 →
      h.lat = [] → h.vlat = [] → h.acquire = false → h.fbuf = [] →
      fetchPlace x.core h = .ok off → s.markedIn (tileKey t off) 4 = false →
      let w : Word := BitVec.ofNat 32 (s.readN (tileKey t off) 4)
      decodeWord w = .ok ins →
      ∃ u, exec (.issueSelect t) s = .next u ∧ u.latch = true ∧ u.cur = { tile := t, slot := i, word := w }
        ∧ u.me = h ∧ u.mem = s.mem ∧ u.here.core = x.core ∧ u.here.cycle = x.cycle + 1)
    ∧ (∀ w v c, h.sleep = some w → h.woken = some (v, c) → c ≤ x.cycle + 1 → x.halted = false →
      ∃ u, exec (.rwaitWake t i.val) s = .next u ∧ only u fun k => k.pc = h.pc + 4 ∧ k.st = .ready ∧ k.sleep = none
        ∧ k.woken = none ∧ (∀ r, k.rx r = if r = w.dest ∧ r ≠ 0 then v else h.rx r))
    ∧ (∀ off tgt e rd, h.sleep = some (.riser off tgt (some e) rd) → h.woken = none → e ≤ s.tick → x.halted = false →
      ∃ v u, exec (.rwaittTimeout t i.val) s = .next u ∧ only u (fun k => k = { h with woken := some (v, x.cycle + 2) })
        ∧ waitResult (s.readD (tileKey t off)) tgt true = some v
        ∧ ((s.readD (tileKey t off)).getLsbD 63 = false → bits (s.readD (tileKey t off)) 0 40 < tgt → v = 2))
    ∧ (∀ e, h.holdEnd = some e → e ≤ x.cycle + 1 →
      ∃ u, exec (.lrHoldExpiry t i.val) s = .next u
        ∧ only u fun k => k.holdEnd = none ∧ k.lastHold = some e ∧ k.resv = h.resv ∧ k.x = h.x ∧ k.pc = h.pc)
    ∧ (x.needsFirmware = true → 6 ≤ i.val → h.st = .empty → (∀ j, 6 ≤ j.val → j < i → (x.th j).st ≠ .empty) →
      ∃ u, exec (.firmwareThreadFill t) s = .next u ∧ only u fun k => k.st = .ready ∧ k.mode = .machine
        ∧ k.firmware = true ∧ k.pc = 0x5000000000000040)
    ∧ ∃ u, exec (.jcloadRefresh t) s = .next u ∧ { u with tiles := s.tiles } = s
      ∧ (∀ v, v ≠ t → u.tile v = s.tile v) ∧ (u.tile t).threads = x.threads
      ∧ ∀ n, n < 16 →
        bits (u.tile t).core.jcload (4 * n) 4 =
          (let y := s.tile (s.clusterTile t n)
           if s.inFrame (s.clusterTile t n) ∧ y.enabled ∧ y.portCore.pid = x.core.pid ∧ y.core.jkcaps &&& ~~~y.core.jcaps = 0 then
             y.freeSlots else 0)

/-- R129, R131-R133, R157, R158, R167, R168, R173, R182, R183: a request that its home admits is performed there as
one step and answered, loads with the bytes, atomics with the old value, a posted write with its completion; a request
that is rejected, of whatever kind, changes nothing at its home but the log, and returns its reason, of a release signal
to nobody; one whose bytes an LR holds joins
the writes delayed at the port (R136). (The write trace is off.) (The order in which a port finds its reasons is the
model's choice, logs 34 and 35; marked words of machine RAM, log 52.) -/
def Obligations.RequestsPerformed : Prop :=
  ∀ (s : State) (p : Packet) (t : Nat),
    let key := tileKey t p.off
    let word := s.readD key
    let free (kind lsize : Nat) (spans : List (Nat × Nat)) : Prop :=
      (∀ b ∈ spans, (s.tile t).held t (writerOf p kind lsize) b.1 b.2 = false)
        ∧ ∀ d ∈ (s.tile t).delayed.takeWhile (·.1 != .packet p.id), s.waiterLive d.1 = true → spansMeet d.2 spans = false
    let admitted (write : Bool) (spans : List (Nat × Nat)) (fp : Bool) : Prop := rejection s p t write spans fp = none
    let runs (i : Instr) (ans : Option Op) (q : State → Prop) : Prop :=
      ∃ u, exec i s = .next u ∧ q u ∧ u.net = (match ans with
        | some a => answered s p a
        | none => s.net.filter (·.id != p.id))
        ∧ (u.tile t).core = (s.tile t).core ∧ ∀ v, v ≠ t → u.tile v = s.tile v
    let refuses (i : Instr) (answers write : Bool) (spans : List (Nat × Nat)) (fp : Bool) : Prop :=
      ∀ r, rejection s p t write spans fp = some r → s.inFrame t = true →
        runs i (if answers then some (.reject r (s.tile t).lidx false) else none) fun u => u.mem = s.mem
          ∧ (u.tile t).threads = (s.tile t).threads ∧ (u.tile t).elhead = ((s.tile t).elhead + 1) % 2 ^ 64
    Arrives s p t → p.org.fab = false → p.org.party ≠ .host → (s.tile t).core.jmtrace.getLsbD 63 = false → p.off < 0x80000 →
    (∀ size, p.op = .load size → admitted false [(p.off, size)] false → s.markedIn key size = false →
      runs (.routedLoadArrival p.id) (some (.result (s.readN key size) 0)) fun u => u.mem = s.mem ∧ u.tiles = s.tiles)
    ∧ (∀ size, p.op = .load size → admitted false [(p.off, size)] false → s.markedIn key size = true →
      runs (.routedLoadArrival p.id) (some (.result (s.readN key size) 2)) fun u => u.mem = s.mem ∧ u.tiles = s.tiles)
    ∧ (∀ size r, p.op = .load size → rejection s p t false [(p.off, size)] false = some r → s.inFrame t = true →
      runs (.routedLoadArrival p.id) (some (.reject r (s.tile t).lidx false)) fun u => u.mem = s.mem
        ∧ (u.tile t).threads = (s.tile t).threads ∧ (u.tile t).elhead = ((s.tile t).elhead + 1) % 2 ^ 64)
    ∧ (∀ size data, p.op = .store size data → admitted true [(p.off, size)] false → free 0 (Nat.log2 size) [(p.off, size)] →
      runs (.routedStoreArrival p.id) (some .complete) fun u => Wrote s u t p.off (leBytes size data))
    ∧ (∀ size data r, p.op = .store size data → rejection s p t true [(p.off, size)] false = some r → s.inFrame t = true →
      runs (.routedStoreArrival p.id) (some (.reject r (s.tile t).lidx false)) fun u => u.mem = s.mem
        ∧ (u.tile t).threads = (s.tile t).threads)
    ∧ (∀ size data, p.op = .store size data → admitted true [(p.off, size)] false →
      (s.tile t).held t (writerOf p 0 (Nat.log2 size)) p.off size = true →
      ∃ u, exec (.routedStoreArrival p.id) s = .next u ∧ u.mem = s.mem ∧ u.net = s.net ∧ (u.tile t).threads = (s.tile t).threads
        ∧ (∃ d ∈ (u.tile t).delayed, d.1 = .packet p.id) ∧ ∀ v, v ≠ t → u.tile v = s.tile v)
    ∧ (∀ op size src cmp, p.op = .amo op size src cmp → admitted true [(p.off, size)] (amoIsFp op) →
      free 3 (Nat.log2 size) [(p.off, size)] → s.markedIn key size = false →
      let r := amoCalc op size (s.readN key size) src cmp
      runs (.routedAmoArrival p.id) (some (.result r.2.toNat 0)) fun u => Wrote s u t p.off (leBytes size r.1))
    ∧ (∀ op size src cmp, p.op = .amo op size src cmp → admitted true [(p.off, size)] (amoIsFp op) →
      free 3 (Nat.log2 size) [(p.off, size)] → s.markedIn key size = true →
      runs (.routedAmoArrival p.id) (some (.result (s.readN key size) 2)) fun u => u.mem = s.mem)
    ∧ (∀ op size src cmp, p.op = .amo op size src cmp → refuses (.routedAmoArrival p.id) true true [(p.off, size)] (amoIsFp op))
    ∧ ((∃ n, p.op = .radd n ∨ p.op = .rsig n ∨ p.op = .rpoison n) → refuses (.riserStepArrival p.id) true true [(p.off, 8)] false)
    ∧ (∀ size data roff, p.op = .counted size data roff →
      refuses (.countedStoreArrival p.id) true true [(p.off, size), (roff, 8)] false)
    ∧ ((∃ a b n k, p.op = .binit a b ∨ p.op = .barv n ∨ p.op = .bexp n k ∨ p.op = .bpoison n) →
      refuses (.barrierStepArrival p.id) true true [(p.off, 16)] false)
    ∧ (∀ i f, p.op = .done i f → refuses (.transferCompletionStep p.id) true true [(p.off, 16)] false)
    ∧ (∀ n b c, p.op = .release n b c → refuses (.releaseSignalArrival p.id) false true [(p.off, 8)] false)
    ∧ (∀ k, p.op = .capq k → refuses (.capqArrival p.id) true false [] false)
    ∧ (∀ n, p.op = .radd n → admitted true [(p.off, 8)] false → free 2 3 [(p.off, 8)] →
      runs (.riserStepArrival p.id) (some (.result word.toNat 0)) fun u => Wrote s u t p.off (leBytes 5 (bits word 0 40 + n)))
    ∧ (∀ n, p.op = .rsig n → admitted true [(p.off, 8)] false → free 2 3 [(p.off, 8)] →
      runs (.riserStepArrival p.id) (some .complete) fun u => Wrote s u t p.off (leBytes 5 (bits word 0 40 + n)))
    ∧ (∀ c, p.op = .rpoison c → admitted true [(p.off, 8)] false → free 2 3 [(p.off, 8)] →
      runs (.riserStepArrival p.id) (some .complete) fun u =>
        Wrote s u t (p.off + 5) (leBytes 3 (2 ^ 23 + c % 8 * 2 ^ 20 + p.org.lidx % 2 ^ 20)))
    ∧ (∀ size data roff, p.op = .counted size data roff → admitted true [(p.off, size), (roff, 8)] false →
      free 1 (Nat.log2 size) [(p.off, size), (roff, 8)] → roff + 8 ≤ p.off →
      runs (.countedStoreArrival p.id) (some .complete) fun u =>
        (∀ k, key ≤ k → k < key + size → u.byte k = (leBytes size data).getD (k - key) 0)
          ∧ u.readD (tileKey t roff) = BitVec.ofNat 64
            ((s.readD (tileKey t roff)).toNat / 2 ^ 40 * 2 ^ 40 + ((s.readD (tileKey t roff)).toNat + 1) % 2 ^ 40))
    ∧ (∀ e, barEvent p.op = some e → (match p.op with | .done .. => false | _ => true) = true →
      admitted true [(p.off, 16)] false → free 7 4 [(p.off, 16)] →
      let b := barStep word (s.readD (key + 8)) e
      (b.release = none →
        runs (.barrierStepArrival p.id) (some (match b.result with | some v => .result v.toNat 0 | none => .complete)) fun u =>
          Wrote s u t p.off (leBytes 8 b.w0.toNat ++ leBytes 8 b.w1.toNat))
      ∧ ∃ u, exec (.barrierStepArrival p.id) s = .next u ∧ Wrote s u t p.off (leBytes 8 b.w0.toNat ++ leBytes 8 b.w1.toNat))
    ∧ (∀ i f e, p.op = .done i f → barEvent p.op = some e → admitted true [(p.off, 16)] false → free 7 4 [(p.off, 16)] →
      let b := barStep word (s.readD (key + 8)) e
      b.release = none → b.held = 0 →
      runs (.transferCompletionStep p.id) (some .complete) fun u =>
        Wrote s u t p.off (leBytes 8 b.w0.toNat ++ leBytes 8 b.w1.toNat))
    ∧ (∀ n c, p.op = .release n false c → admitted true [(p.off, 8)] false → free 8 3 [(p.off, 8)] →
      runs (.releaseSignalArrival p.id) none fun u => Wrote s u t p.off (leBytes 5 (bits word 0 40 + n)))
    ∧ (∀ n c, p.op = .release n true c → admitted true [(p.off, 8)] false → free 8 3 [(p.off, 8)] →
      runs (.releaseSignalArrival p.id) none fun u => Wrote s u t p.off
        (leBytes 5 (bits word 0 40 + n) ++ leBytes 3 (2 ^ 23 + c % 8 * 2 ^ 20 + p.org.lidx % 2 ^ 20)))
    ∧ (∀ k, p.op = .capq k → admitted false [] false →
      runs (.capqArrival p.id) (some (.result ((s.tile t).capAnswer k).toNat 0)) fun u => u.mem = s.mem ∧ u.tiles = s.tiles)

/-- R40, R131-R133, R271: the same at an HBM pseudo-channel: the bytes of a load, a store's bytes, an atomic's result. A
request that does not reach it is rejected with REASON 3, and so is one to HBM without power, which is the model's
choice (log 34). -/
def Obligations.MemoryPerformed : Prop :=
  ∀ (s : State) (p : Packet) (g : Nat),
    let key := hbmKey g p.off
    s.pkt p.id = some p → p.home = .chan g → s.inTurn p = true → p.org.fab = false → p.org.party ≠ .host →
    (reached s p (chanTile g) = true → (s.tile (chanTile g)).pcPowered = true →
      (∀ size, p.op = .load size → s.markedIn key size = false →
        exec (.routedLoadArrival p.id) s = .next { s with net := answered s p (.result (s.readN key size) 0) })
      ∧ (∀ size, p.op = .load size → s.markedIn key size = true →
        exec (.routedLoadArrival p.id) s = .next { s with net := answered s p (.result (s.readN key size) 1) })
      ∧ (∀ size data, p.op = .store size data → exec (.routedStoreArrival p.id) s =
        .next { s.writeN key size data with net := answered s p .complete })
      ∧ (∀ op size src cmp, p.op = .amo op size src cmp → s.markedIn key size = false →
        let r := amoCalc op size (s.readN key size) src cmp
        exec (.routedAmoArrival p.id) s =
          .next { s.writeN key size r.1 with net := answered s p (.result r.2.toNat 0) })
      ∧ (∀ op size src cmp, p.op = .amo op size src cmp → s.markedIn key size = true →
        exec (.routedAmoArrival p.id) s = .next { s with net := answered s p (.result (s.readN key size) 1) }))
    ∧ (¬(reached s p (chanTile g) = true ∧ (s.tile (chanTile g)).pcPowered = true) →
      let rejected : Outcome := .next { s with net := answered s p (.reject 3 (s.tile (chanTile g)).lidx false) }
      (∀ size, p.op = .load size → exec (.routedLoadArrival p.id) s = rejected)
      ∧ (∀ size data, p.op = .store size data → exec (.routedStoreArrival p.id) s = rejected)
      ∧ (∀ op size src cmp, p.op = .amo op size src cmp → exec (.routedAmoArrival p.id) s = rejected))

/-- R128, R129, R131, R268, R269: a result is written to the register that its entry owes and frees the entry; a
completion frees it; a rejection raises cause 25 and poisoned data cause 26, pending at a U-mode thread after the
faults that arrived before, and of those that arrive in one cycle by the age of their requests; a fabric store, which
holds no entry any more, is reported too; status and answers return likewise. (What REMOTE names, and how a refused
fabric store is told to its source, are the model's choices, logs 30 and 33.) -/
def Obligations.AnswersReturn : Prop :=
  ∀ (s : State) (p : Packet) (t : Nat) (i : Fin 8) (e : ReqEntry),
    let x := s.tile t
    let h := x.th i
    let pends (cause reason remote : Nat) : FaultRec :=
      { cause := cause, val := e.target, opc := e.opc, target := e.target, reason := reason, fab := false, remote := remote
        ts := s.tsc, cycle := x.cycle, age := e.id }
    let joins (f : FaultRec) (l : List FaultRec) : Prop :=
      ((∀ g ∈ h.pend, g.cycle = f.cycle → g.age ≤ f.age) → l = h.pend ++ [f])
        ∧ ∀ a g, h.pend = a ++ [g] → (∀ k ∈ a, k.cycle = f.cycle → k.age ≤ f.age) → g.cycle = f.cycle → f.age < g.age →
          l = a ++ [f, g]
    s.pkt p.id = some p → p.org.party = .thread → p.org.tile = t → p.org.fab = false →
    (x.reqs.find? (·.id == p.req) = some e → e.slot = i.val → e.epoch = h.epoch → h.st ≠ .empty → e.discard = false →
      e.group = none →
      let frees (ev : Instr) (q : Thread → Prop) : Prop :=
        ∃ u, exec ev s = .next u ∧ u.net = s.net.filter (·.id != p.id) ∧ (u.tile t).reqs = x.reqs.filter (·.id != e.id)
          ∧ q ((u.tile t).th i) ∧ ((u.tile t).th i).pc = h.pc ∧ u.mem = s.mem ∧ (u.tile t).core = x.core
          ∧ ∀ v, v ≠ t → u.tile v = s.tile v
      let keeps (k : Thread) : Prop := ∀ r, k.rx r = h.rx r
      (∀ d rd, p.op = .result d 0 → e.rd = some rd → rd ≠ 0 →
        frees (.responseReturn p.id) fun k => k.rx rd = loadExt e.size e.signed d ∧ (∀ r, r ≠ rd → k.rx r = h.rx r)
          ∧ k.pend = h.pend)
      ∧ (p.op = .complete → frees (.storeCompletionReturn p.id) fun k => keeps k ∧ k.pend = h.pend)
      ∧ (∀ r remote, p.op = .reject r remote false → e.quiet = false →
        frees (.impreciseFaultArrival p.id) fun k => keeps k ∧ joins (pends 25 r remote) k.pend)
      ∧ (∀ d n rd, p.op = .result d n → n ≠ 0 → e.quiet = false → e.rd = some rd → rd ≠ 0 →
        frees (.impreciseFaultArrival p.id) fun k => k.rx rd = loadExt e.size e.signed d
          ∧ joins { pends 26 n p.src with fab := otherModule x e.target } k.pend)
      ∧ (∀ v rd, p.op = .status v → e.rd = some rd → rd ≠ 0 → s.spawns.any (·.id == p.req) = false →
        frees (.nbsendStatusReturn p.id) fun k => k.rx rd = BitVec.ofNat 64 v ∧ ∀ r, r ≠ rd → k.rx r = h.rx r))
    ∧ (∀ r remote fab, x.reqs.find? (·.id == p.req) = none → p.op = .reject r remote fab → p.group = none →
      p.org.machine = false → p.org.slot = i.val → i.val < 6 → p.org.epoch = h.epoch → h.st ≠ .empty →
      ∃ u, exec (.impreciseFaultArrival p.id) s = .next u ∧ u.net = s.net.filter (·.id != p.id) ∧ u.mem = s.mem
        ∧ (∀ k, ((u.tile t).th i).rx k = h.rx k)
        ∧ joins { cause := 25, val := p.addr, opc := p.opc, target := p.addr, reason := r, fab := fab, remote := remote, ts := s.tsc
                  cycle := x.cycle, age := p.req } ((u.tile t).th i).pend)

/-- R144, R145, R174-R180, R285, R287: a tile-to-tile packet reaches its neighbour's buffer; a fabric store is counted
at the gateway and enters the mesh; a check is answered with what was counted, and its answer wakes the thread; a
walk's leaf fills both TLBs. (One table entry for each event of a walk, and when a check is answered as unchecked, are
the model's choices, logs 25 and 57; SKIP counts modulo 256, log 86.) -/
def Obligations.CountsAndWalks : Prop :=
  ∀ (s : State) (p : Packet) (t : Nat),
    (∀ bytes dir u skip n, s.pkt p.id = some p → p.op = .nb bytes dir 0 → p.org.fab = false → p.org.party ≠ .host →
      receiver s s.side p.org.tile dir 0 = some (u, skip) → s.awake u = true → bytes.length = 64 →
      (freePacket s u = none → ∃ v, exec (.nbsendReceive p.id) s = .next v ∧ v.net = answered s p (.status 1) ∧ v.mem = s.mem)
      ∧ (freePacket s u = some n → u < 2 ^ 40 → (s.tile u).delayed = [] → (∀ i, ((s.tile u).th i).holdEnd = none) → ∃ v, exec (.nbsendReceive p.id) s = .next v
        ∧ v.net = answered s p (.status 0)
        ∧ Memory.read v.mem (tileKey u (0x87E00 + 64 * n)) 64 = bytes
        ∧ v.readD (tileKey u (0x87F00 + 8 * n)) = BitVec.ofNat 64 (2 ^ 63 + skip % 2 ^ 8 * 2 ^ 16 + dir % 4 * 2 ^ 8)
        ∧ (v.tile u).evpend.getLsbD 0 = true))
    ∧ (∀ dir, s.pkt p.id = some p → (∃ bytes, p.op = .nb bytes dir 0) → p.org.fab = false → p.org.party ≠ .host →
      receiver s s.side p.org.tile dir 0 = none →
      exec (.nbsendReceive p.id) s = .next { s with net := answered s p (.status 2) })
    ∧ (∀ q m y x e, s.pkt p.id = some p → p.home = .module m y x → fabricStore p = true → routedIn s p = some q →
      s.receive = [e] → sameSource p e = true → e.gateway = p.port →
      ∃ v, exec (.fabricStoreReceive p.id false) s = .next v ∧ v.net = s.net.map (fun k => if k.id = p.id then q else k)
        ∧ v.receive = [{ e with count := e.count + 1 }] ∧ v.mem = s.mem ∧ v.tiles = s.tiles)
    ∧ (∀ m sent e, s.pkt p.id = some p → p.op = .check m sent → p.org.fab = true → storesPending s p = false →
      s.uncounted = [] → s.receive = [e] → sameSource p e = true → e.gateway = p.port →
      ∃ v, exec (.intervalCheckArrival p.id) s = .next v ∧ v.net = s.net.filter (·.id != p.id) ∧ v.receive = []
        ∧ v.fabricOut = s.fabricOut ++
          [{ p with op := .answer (if e.count = sent then 0 else 1) e.count, home := .module p.org.omod 0 0, id := p.extId }])
    ∧ (∀ (i : Fin 8) kind rcvd c, s.pkt p.id = some p → p.op = .answer kind rcvd → p.org.party = .thread →
      p.org.tile = t → (s.th t i).checks = [c] → c.id = p.req → (s.th t i).need = .intervalCheck →
      (s.tile t).lateChecks = [] →
      ∃ v, exec (.intervalCheckAnswer p.id) s = .next v ∧ v.net = s.net.filter (·.id != p.id)
        ∧ (v.th t i).checks = [{ c with answer := some (kind, rcvd) }] ∧ (v.th t i).st = .ready
        ∧ (v.th t i).x = (s.th t i).x ∧ (v.th t i).pc = (s.th t i).pc)
    ∧ (∀ w e, s.walks = [w] → walkLevel s w = .leaf e →
      ∃ v, exec (.pageWalkComplete w.id) s = .next v ∧ v.walks = [] ∧ v.mem = s.mem
        ∧ (v.tile w.tile).tlb.head? = some (tlbOf w e)
        ∧ (Assoc.get [] v.dieTlb w.die).head? = some (tlbOf w e)
        ∧ ∀ i : Fin 8, (s.th w.tile i).st = .queue → (s.th w.tile i).need = .translation w.page → (v.th w.tile i).st = .ready)
    ∧ (∀ w a, s.walks = [w] → walkLevel s w = .down a →
      exec (.pageWalkComplete w.id) s = .next { s with walks := [{ w with level := w.level + 1, table := a }] })
    ∧ (∀ w, s.walks = [w] → walkLevel s w = .fault →
      ∃ v, exec (.pageWalkComplete w.id) s = .next v ∧ v.walks = [] ∧ v.mem = s.mem ∧ (v.tile w.tile).tlb = (s.tile w.tile).tlb
        ∧ (v.tile w.tile).engineFaults = w.engines.map (·, w.page) ++ (s.tile w.tile).engineFaults
        ∧ ∀ i : Fin 8, (s.th w.tile i).st = .queue →
          ((s.th w.tile i).need = .translation w.page → (v.th w.tile i).st = .ready ∧ (v.th w.tile i).walkFault = some w.page)
          ∧ (∀ page, (s.th w.tile i).need = .translation page → page ≠ w.page → v.th w.tile i = s.th w.tile i))

/-- R193, R205, R211-R214, R217, R218, R220, R221, R289, R301: a command whose gate is reached starts; its read and write
steps move the bytes of one piece; its destination riser and then its completion riser are stepped, and the watermark
follows; a poisoned gate or a failure poisons instead and sets jcperr; multicast flits move down the tree and
acknowledgements up; pooled accesses complete, and a command whose first page fault lies 2^21 ticks back fails. Where the
rows of each operation lie; a read step takes the bytes of its piece from a tile, from HBM through the TLB or from another
module, an index and a tensor map from the own scratchpad; a write step puts them there, a FILL its pattern, and an
element of a reduce is added at its port; a gate is compared at each write of its word; a destination on another module
gets its step, and that of a failed command its poison. (The write trace is off. The pieces, a gate's last evaluation, the
drain of a failed command and LSIZE rounded down are the model's choices, logs 20, 47, 48, 73.) -/
def Obligations.CopySteps : Prop :=
  (∀ (s : State) (t : Nat) (ch : Ch) (serial : Nat),
     let x := s.tile t
     let c := x.chans[ch.toFin]
     let chan (u : State) : Channel := (u.tile t).chans[ch.toFin]
     let traceOff (u : Nat) : Prop := (s.tile u).core.jmtrace.getLsbD 63 = false
     let leaves (u : State) (k : CopyCmd) : Prop :=
       (chan u).started = c.started.filter (·.cmd.serial != k.serial) ∧ (chan u).fifo = c.fifo.filter (·.serial != k.serial)
         ∧ (chan u).jcpnext = c.jcpnext
         ∧ (c.fifo = [] → c.started.length = 1 → (∀ r ∈ c.started, r.cmd.serial = k.serial) → (chan u).jcpdone = c.jcpnext)
     s.inFrame t = true →
     (∀ h rest, c.fifo = h :: rest → c.gate = 1 → c.started.length < 4 → x.sealed = false → c.ask = none →
       c.stall = none → (CopyCmd.op h = 5 → ∀ r ∈ c.started, CopyCmd.op r.cmd ≠ 5) →
       ∃ u, exec (.copyCommandStart t ch) s = .next u ∧ (chan u).fifo = rest ∧ (chan u).started = c.started ++ [{ cmd := h }]
         ∧ u.mem = s.mem ∧ (chan u).jcpnext = c.jcpnext ∧ (chan u).jcpdone = c.jcpdone
         ∧ ∀ i, (x.th i).need ≠ .channel ch.toNat → (u.tile t).th i = x.th i)
     ∧ (∀ h rest, c.fifo = h :: rest → c.gate = 2 → x.sealed = false → wDriser h.w0 = 0 → wCriser h.w0 = 0 →
       ∃ u, exec (.copyCommandStart t ch) s = .next u ∧ leaves u h ∧ u.mem = s.mem
         ∧ (chan u).jcperr = BitVec.ofNat 64 (2 ^ 63 + 5 * 2 ^ 32 + h.id % 2 ^ 32))
     ∧ (∀ r b n off, activeRun s t ch serial = some r → CopyCmd.op r.cmd = 0 →
       let a := r.cmd.w1 + BitVec.ofNat 64 b
       CopyRun.piece r b 0 a = some n → memNat b r.reads = false →
       checkAddr (s.viewFrom t) (modeOf r.cmd) a n 1 = .ok (.own off) → s.awake t = true →
       rejection s (copyPacket s t ch.toNat r.cmd (.load n) (.tile t) off a true) t false [(off, n)] false = none →
       s.markedIn (tileKey t off) n = false →
       ∃ u, exec (.copyEngineStep t ch serial false b) s = .next u ∧ u.mem = s.mem
         ∧ activeRun u t ch serial = some { r with
             reads := b :: r.reads, buf := r.buf ++ numbered b (Memory.read s.mem (tileKey t off) n) })
     ∧ (∀ r b n bs off, activeRun s t ch serial = some r → CopyCmd.op r.cmd = 0 →
       let a := r.cmd.w2 + BitVec.ofNat 64 b
       CopyRun.piece r b 0 a = some n → memNat b r.writes = false → CopyRun.have r b n = some bs →
       checkAddr (s.viewFrom t) (modeOf r.cmd) a n 1 = .ok (.own off) → s.awake t = true →
       let p := { copyPacket s t ch.toNat r.cmd (.store n (leVal bs)) (.tile t) off a true with xn := CopyRun.marked r b n }
       rejection s p t true [(off, n)] false = none → x.held t (writerOf p 0 (Nat.log2 n)) off n = false → x.delayed = [] →
       traceOff t →
       ∃ u, exec (.copyEngineStep t ch serial true b) s = .next u ∧ Wrote s u t off bs
         ∧ activeRun u t ch serial = some (CopyRun.wrote r b n))
     ∧ (∀ r u a, activeRun s t ch serial = some r → CopyCmd.op r.cmd ≠ 5 → CopyRun.landedAll r = true →
       hasDest r.cmd = true → wDbar r.cmd.w0 = false → memNat 0 r.stepped = false →
       destHome s t r.cmd 0 = some (.tile u, a) → s.awake u = true → wDriser r.cmd.w0 < 0x80000 → traceOff u →
       let off := wDriser r.cmd.w0
       let p := copyPacket s t ch.toNat r.cmd (.rsig 1) (.tile u) off (nd (r.cmd.w2.toNat / 2 ^ 20 * 2 ^ 20 + off)) a
       rejection s p u true [(off, 8)] false = none → (s.tile u).held u (writerOf p 2 3) off 8 = false →
       (s.tile u).delayed = [] →
       ∃ v, exec (.copyDestinationRiserStep t ch serial 0) s = .next v
         ∧ Wrote s v u off (leBytes 5 (bits (s.readD (tileKey u off)) 0 40 + 1))
         ∧ activeRun v t ch serial = some { r with stepped := 0 :: r.stepped })
     ∧ (∀ r, c.started.find? (·.cmd.serial == serial) = some r → r.bad = none → CopyRun.ready r t = true →
       (ch = 3 → poolBlocked s t c = false) → wCriser r.cmd.w0 = 0 →
       ∃ u, exec (.copyCompletionStep t ch serial) s = .next u ∧ leaves u r.cmd ∧ u.mem = s.mem ∧ (chan u).jcperr = c.jcperr)
     ∧ (∀ r, c.started.find? (·.cmd.serial == serial) = some r → r.bad = none → CopyRun.ready r t = true → r.final = false →
       (ch = 3 → poolBlocked s t c = false) → wCriser r.cmd.w0 ≠ 0 → wCbar r.cmd.w0 = false → traceOff t →
       let off := wCriser r.cmd.w0
       let p := copyPacket s t ch.toNat r.cmd (.rsig 1) (.tile t) off (nd off) true
       rejection s p t true [(off, 8)] false = none → x.held t (writerOf p 2 3) off 8 = false →
       x.delayed = [] →
       ∃ u, exec (.copyCompletionStep t ch serial) s = .next u ∧ leaves u r.cmd
         ∧ Wrote s u t off (leBytes 5 (bits (s.readD (tileKey t off)) 0 40 + 1)))
     ∧ (∀ r reason cls, c.started.find? (·.cmd.serial == serial) = some r → r.bad = some (reason, cls) → r.outstanding = [] →
       r.owed = 0 → (ch = 3 → poolBlocked s t c = false) → wDriser r.cmd.w0 = 0 → wCriser r.cmd.w0 = 0 →
       ∃ u, exec (.copyCompletionStep t ch serial) s = .next u ∧ leaves u r.cmd ∧ u.mem = s.mem
         ∧ (chan u).jcperr = BitVec.ofNat 64 (2 ^ 63 + reason % 2 ^ 8 * 2 ^ 32 + r.cmd.id % 2 ^ 32))
     ∧ (∀ r b node, activeRun s t 0 serial = some r → r.flits.any (· == (b, node)) = true →
       let d := mcastDests s t r.cmd
       let next := mcastChildren d.1 t node
       next.all (fun u => mcastFree s t u) = true → memNat node d.1 = false →
       ∃ u, exec (.mcastFlitForward t serial b node) s = .next u ∧ u.mem = s.mem
         ∧ activeRun u t 0 serial = some { r with flits := r.flits.filter (· != (b, node)) ++ next.map fun v => (b, v) })
     ∧ (∀ r node, activeRun s t 0 serial = some r → CopyCmd.op r.cmd = 5 → CopyRun.landedAll r = true → r.owed = 0 →
       let d := (mcastDests s t r.cmd).1
       (node = t ∨ ∃ u ∈ d, memNat node (route t u) = true) → memNat node r.acks = false →
       r.flits.any (·.2 == node) = false → (memNat node d = true → CopyRun.acked r node = true) →
       (mcastChildren d t node).all (fun u => memNat u r.acks) = true → r.failed = [] →
       ∃ u, exec (.mcastAckCombine t serial node) s = .next u ∧ u.mem = s.mem
         ∧ activeRun u t 0 serial = some { r with acks := node :: r.acks })
     ∧ (∀ k page r n, (x.chans[3]).stall = some (k, page) → (x.chans[3]).ask = some (k, page) → r ∈ (x.chans[3]).started →
       r.cmd.serial = k → r.faulted = some n → n + 2 ^ 21 ≤ s.tick →
       ∃ u, exec (.pftimeout t) s = .next u ∧ ((u.tile t).chans[3]).stall = none ∧ ((u.tile t).chans[3]).ask = none
         ∧ u.mem = s.mem ∧ ((u.tile t).chans[3]).started = (x.chans[3]).started.map fun r =>
             if r.cmd.serial = k then CopyRun.fails r 4 3 else r)
     ∧ (∀ (p : Packet) pkg n v, s.uio.find? (·.id == p.id) = some p → p.home = .host pkg → p.op = .store n v → p.org.tile = t →
       (s.pack pkg).purges = [] →
       ∃ u, exec (.uioCompletion p.id false) s = .next u ∧ u.uio = s.uio.filter (·.id != p.id)
         ∧ u.mem = Memory.write s.mem (pooledKey p.off) (leBytes n v)
         ∧ (chan u).started = c.started.map fun r => if r.cmd.serial = p.req then CopyRun.returned r p.id else r))
  ∧ (∀ (s : State) (t : Nat) (ch : Ch) (serial : Nat) (r : CopyRun) (b n : Nat),
     let x := s.tile t
     let chan (u : State) : Channel := (u.tile t).chans[ch.toFin]
     let c := r.cmd
     let op := bits c.w0 60 4
     let unit := CopyRun.unit r
     let i := b / unit
     let j : Dword := BitVec.ofNat 64 (b - i * unit)
     let place := CopyRun.places r i
     let via := s.viewFrom t
     let mode : Mode := if c.machine then .machine else .user
     let quiet (u : Nat) : Prop :=
       (s.tile u).delayed = [] ∧ (∀ k, ((s.tile u).th k).holdEnd = none) ∧ (s.tile u).core.jmtrace.getLsbD 63 = false
     let becomes (ev : Instr) (q : State → Prop) (k : CopyRun) : Prop :=
       ∃ u, exec ev s = .next u ∧ q u ∧ activeRun u t ch serial = some k
     let step (write : Bool) : Instr := .copyEngineStep t ch serial write b
     let reads (u : State) : Prop := u.mem = s.mem
     let atTile (a : Dword) (len u o : Nat) (own : Bool) : Prop :=
       s.awake u = true
         ∧ (checkAddr via mode a len 1 = .ok (.own o) ∧ u = t ∧ own = true
           ∨ ∃ y z, checkAddr via mode a len 1 = .ok (.mesh y z o) ∧ u = via.meshTile t y z ∧ own = false)
     let inPage (va : Nat) (e : TlbEntry) (write : Bool) : Prop :=
       ch = 1 ∧ ¬(c.machine = true ∧ x.core.width = 0) ∧ tlbFind x.tlb x.core.asid (va / 4096) = some e
         ∧ permitted e.leaf (!c.machine) write = true ∧ ptePool e.leaf = false ∧ pteIlv e.leaf ≠ 3 ∧ leafPa e.leaf va < s.hbmEnd
     let sends (u : State) (o : Op) (home : Home) (off : Nat) : Prop :=
       u.mem = s.mem ∧ ∃ p, u.fabricOut = s.fabricOut ++ [p] ∧ p.op = o ∧ p.home = home ∧ p.off = off ∧ p.id = s.nextId
         ∧ p.req = c.serial
     let idx (v : Nat) : Prop := r.idx.find? (·.1 == i) = some (i, v) ∧ v ≠ 0xFFFFFFFF
     let mapped (q : State → Prop) : Prop := ∃ u, exec (.copyCompletionStep t ch serial) s = .next u ∧ q u
     s.inFrame t = true →
     (op = 0 ∨ op = 6 ∨ op = 7 → place = (.at c.w1, c.w2) ∧ CopyRun.total r = bits c.w3 0 32)
     ∧ (op = 8 → place = (.pattern c.w1, c.w2) ∧ CopyRun.total r = bits c.w3 0 32)
     ∧ (op = 1 → unit = bits c.w3 0 16 + 1 ∧ CopyRun.total r = unit * (bits c.w3 16 12 + 1)
       ∧ place = (.at (c.w1 + BitVec.ofNat 64 (i * (16 * bits c.w3 28 18))), c.w2 + BitVec.ofNat 64 (i * (16 * bits c.w3 46 18))))
     ∧ (op = 3 ∨ op = 4 → unit = 8 * (bits c.w3 16 13 + 1) ∧ CopyRun.total r = unit * (bits c.w3 29 16 + 1))
     ∧ (∀ v, op = 3 → idx v → place = (.at (c.w1 + BitVec.ofNat 64 (v * unit)), c.w2 + BitVec.ofNat 64 (i * unit)))
     ∧ (∀ v, op = 4 → idx v → place = (.at (c.w1 + BitVec.ofNat 64 (i * unit)), c.w2 + BitVec.ofNat 64 (v * unit)))
     ∧ (op = 2 →
       let f (w lo len : Nat) : Nat := bits (r.map.getD w 0) lo len
       let taps := f 3 56 8 * f 3 48 8
       let o := i / taps
       let tap := i % taps
       let y : Int := ((f 5 16 16 + o / f 4 32 16) * f 3 40 8 : Nat) - (f 3 8 8 : Nat) + (tap / f 3 48 8 * f 3 24 8 : Nat)
       let z : Int := ((f 5 0 16 + o % f 4 32 16) * f 3 32 8 : Nat) - (f 3 0 8 : Nat) + (tap % f 3 48 8 * f 3 16 8 : Nat)
       let inside : Prop := o < f 4 48 16 * f 4 32 16 ∧ 0 ≤ y ∧ y < f 2 48 16 ∧ 0 ≤ z ∧ z < f 2 32 16
       unit = f 2 16 16 ∧ place.2 = c.w2 + BitVec.ofNat 64 (o * f 5 32 32 + tap * f 2 16 16)
         ∧ (inside → place.1 = .at (r.map.getD 0 0 + BitVec.ofNat 64 (y.toNat * f 1 32 32 + z.toNat * f 1 0 32)))
         ∧ (¬inside → place.1 = .byte (BitVec.ofNat 8 (f 6 0 8))))
     ∧ (activeRun s t ch serial = some r →
       (∀ base, (op = 2 → r.map ≠ []) → place.1 = .at base →
         let a := base + j
         CopyRun.piece r b i a = some n → b ∉ r.reads →
         let got (bs : List Byte) (xn : Bool) : CopyRun :=
           { r with reads := b :: r.reads, buf := r.buf ++ numbered b bs, xn := if xn then (b, n) :: r.xn else r.xn }
         (∀ u o own, atTile a n u o own → s.markedIn (tileKey u o) n = false →
           rejection s (copyPacket s t ch.toNat c (.load n) (.tile u) o a own) u false [(o, n)] false = none →
           becomes (step false) reads (got (Memory.read s.mem (tileKey u o) n) false))
         ∧ (∀ va e, checkAddr via mode a n 1 = .ok (.global va) → inPage va e false →
           let h := interleave s (pteIlv e.leaf) (leafPa e.leaf va)
           configured s (route t (chanTile h.1)) = true → s.markedIn (hbmKey h.1 h.2) n = false →
           becomes (step false) reads (got (Memory.read s.mem (hbmKey h.1 h.2) n) (e.leaf.getLsbD 5)))
         ∧ (∀ m y z o, checkAddr via mode a n 1 = .ok (.fabric m y z o) →
           becomes (step false) (sends · (.load n) (.module m y z) o)
             { r with reads := b :: r.reads, outstanding := r.outstanding ++ [(s.nextId, b, n)] }))
       ∧ (op = 3 ∨ op = 4 → r.idx.find? (·.1 == i) = none → i < bits c.w3 29 16 + 1 →
         let k := tileKey t (bits c.w3 45 19 + 4 * i)
         s.markedIn k 4 = false →
         becomes (step false) reads { r with
           idx := (i, s.readN k 4) :: r.idx, done := if s.readN k 4 = 0xFFFFFFFF then r.done + unit else r.done })
       ∧ (∀ u o own, op = 2 → r.map = [] → atTile c.w3 64 u o own → s.markedIn (tileKey u o) 64 = false →
         rejection s (copyPacket s t ch.toNat c (.load 64) (.tile u) o c.w3 own) u false [(o, 64)] false = none →
         let map := (List.range 8).map fun k => s.readD (tileKey u o + 8 * k)
         mapValid ch.toNat c.machine c.w2 map = true → becomes (step false) reads { r with map := map })
       ∧ (∀ bs, op ≠ 5 → op ≠ 6 → op ≠ 7 →
         let a := place.2 + j
         CopyRun.piece r b i a = some n → b ∉ r.writes → CopyRun.data r place.1 a b n = some bs →
         (∀ u o own, atTile a n u o own → quiet u →
           rejection s { copyPacket s t ch.toNat c (.store n (leVal bs)) (.tile u) o a own with xn := CopyRun.marked r b n } u true
             [(o, n)] false = none →
           becomes (step true) (Wrote s · u o bs) (CopyRun.wrote r b n))
         ∧ (∀ va e, checkAddr via mode a n 1 = .ok (.global va) → inPage va e true →
           let h := interleave s (pteIlv e.leaf) (leafPa e.leaf va)
           configured s (route t (chanTile h.1)) = true →
           becomes (step true) (fun u => u.mem = Memory.write s.mem (hbmKey h.1 h.2) bs) (CopyRun.wrote r b n))
         ∧ (∀ m y z o, checkAddr via mode a n 1 = .ok (.fabric m y z o) →
           becomes (step true) (sends · (.store n (leVal bs)) (.module m y z) o)
             { CopyRun.wrote r b n with outstanding := r.outstanding ++ [(s.nextId, b, n)] })
         ∧ (op = 8 → bs.length = n ∧ ∀ k, k < n → bs.getD k 0 = BitVec.ofNat 8 (bits c.w1 (8 * ((a.toNat + k) % 8)) 8))
         ∧ (∀ v, place.1 = .byte v → bs = List.replicate n v)
         ∧ ∀ base, place.1 = .at base → CopyRun.have r b n = some bs)
       ∧ (∀ u o own bs,
         let size := if op = 6 then 4 else 2
         let a := c.w2 + BitVec.ofNat 64 b
         op = 6 ∨ op = 7 → b % size = 0 → b < bits c.w3 0 32 → b ∉ r.writes → CopyRun.have r b size = some bs →
         atTile a size u o own → quiet u → s.markedIn (tileKey u o) size = false →
         rejection s { copyPacket s t ch.toNat c (.amo (if op = 6 then .fadd else .faddBf) size (BitVec.ofNat 64 (leVal bs)) 0)
           (.tile u) o a own with xn := CopyRun.marked r b size } u true [(o, size)] true = none →
         let old := s.readN (tileKey u o) size
         becomes (step true)
           (Wrote s · u o (leBytes size (if op = 6 then fp32.add old (leVal bs) else bf16.add old (leVal bs))))
           (CopyRun.wrote r b size))
       ∧ (∀ a m y z, op ≠ 5 → CopyRun.landedAll r = true → wDriser c.w0 ≠ 0 → 0 ∉ r.stepped →
         destHome s t c 0 = some (.module m y z, a) →
         becomes (.copyDestinationRiserStep t ch serial 0)
           (sends · (if wDbar c.w0 then .done true false else .rsig 1) (.module m y z) (wDriser c.w0))
           { r with stepped := 0 :: r.stepped, owed := r.owed + 1, sent := (s.nextId, 0) :: r.sent }))
     ∧ (∀ (w : Dword) (tgt : Nat), tgt < 2 ^ 16 →
       gateTest w tgt = if w.getLsbD 63 then 2 else if ((bits w 0 16 : Int) - tgt) % 2 ^ 16 < 2 ^ 15 then 1 else 0)
     ∧ (∀ h rest k w, (chan s).fifo = h :: rest → (chan s).gate = 0 → bits h.w0 45 13 ≠ 0 →
       x.core.jmtrace.getLsbD 63 = false →
       let off := 64 * bits h.w0 45 13
       let u := s.riserAdvance t off k w
       (chan u).gate = gateTest (u.readD (tileKey t off)) (bits h.w0 29 16))
     ∧ (∀ reason cls, (chan s).started.find? (·.cmd.serial == serial) = some r → r.bad = some (reason, cls) → r.outstanding = [] →
       (ch = 3 → poolBlocked s t (chan s) = false) → op ≠ 5 →
       let poison := leBytes 3 (2 ^ 23 + cls % 8 * 2 ^ 20 + x.lidx % 2 ^ 20)
       (∀ u a, wDriser c.w0 ≠ 0 → 0 ∉ r.stepped → wDbar c.w0 = false → destHome s t c 0 = some (.tile u, a) →
         s.awake u = true → quiet u → wDriser c.w0 < 0x80000 →
         rejection s (copyPacket s t ch.toNat c (.rpoison cls) (.tile u) (wDriser c.w0)
           (BitVec.ofNat 64 (c.w2.toNat / 2 ^ 20 * 2 ^ 20 + wDriser c.w0)) a) u true [(wDriser c.w0, 8)] false = none →
         mapped fun v => Wrote s v u (wDriser c.w0 + 5) poison
           ∧ (chan v).started.find? (·.cmd.serial == serial) = some { r with stepped := 0 :: r.stepped })
       ∧ (wDriser c.w0 = 0 ∨ 0 ∈ r.stepped → r.owed = 0 → wCriser c.w0 ≠ 0 → r.final = false → wCbar c.w0 = false → quiet t →
         rejection s (copyPacket s t ch.toNat c (.rpoison cls) (.tile t) (wCriser c.w0) (BitVec.ofNat 64 (wCriser c.w0)) true) t
           true [(wCriser c.w0, 8)] false = none →
         mapped fun v => Wrote s v t (wCriser c.w0 + 5) poison
           ∧ (chan v).started = (chan s).started.filter (·.cmd.serial != c.serial)
           ∧ (chan v).jcperr = BitVec.ofNat 64 (2 ^ 63 + reason % 2 ^ 8 * 2 ^ 32 + c.id % 2 ^ 32))))

/-- R184, R195, R219, R222-R230: a ladle command whose gate is reached starts and reads its descriptor and its table block
by block; a PLAN joins its round, and with the round complete writes its records; a SCATTER row and a COMBINE row move in
steps of a block, a SCATTER's riser step after its row; a command ends with its completion riser, or with LREASON and the
risers it owes poisoned; RESET ends its rounds. A failed command writes LFAIL, LREASON and LLOP, and then, a step at a
time, poisons the risers it owes a row and its completion riser. (The write trace is off. That a write step's LSIZE rounds
down, what SPRCORE's other bits do, and that a descriptor that cannot be read fails its command alone are the model's
choices, logs 73-75.) -/
def Obligations.LadleSteps : Prop :=
  (∀ (s : State) (t : Nat) (c : LadleCmd) (rest : List LadleCmd),
     let x := s.tile t
     let d := c.desc
     let op := bits c.w0 60 4
     let size := if op = 0 then 2 else 4
     let len := if op = 1 then dscRowb d else dscNel d * fmtSize (dscRfmt d)
     let head (u : State) : Option LadleCmd := (u.tile t).ladle.queue.head?
     let becomes (ev : Instr) (k : LadleCmd) : Prop := ∃ u, exec ev s = .next u ∧ u.mem = s.mem ∧ head u = some k
     let step (e : LadleStep) : Instr := .ladleEngineStep t ⟨c.serial, e⟩
     let fails (e : LadleStep) (reason : Nat) : Prop := becomes (step e) { c with bad := some reason }
     let others (j : Nat) : List LadleRow := c.rows.filter (·.row != j)
     let writable (u : Nat) : Prop :=
       (s.tile u).delayed = [] ∧ (∀ i, ((s.tile u).th i).holdEnd = none) ∧ (s.tile u).core.jmtrace.getLsbD 63 = false
     let left (u : State) : Prop :=
       (u.tile t).ladle.queue.map (·.serial) = (rest.filter (·.serial != c.serial)).map (·.serial)
     s.inFrame t = true → x.ladle.queue = c :: rest → c.bad = none →
     (c.started = false → op ≠ 3 → x.sealed = false →
       (c.gate = 2 → becomes (.ladleCommandStart t) { c with started := true, bad := some 8 })
       ∧ (c.gate = 1 → op = 0 → x.ladle.abortNext = true →
         ∃ u, exec (.ladleCommandStart t) s = .next u ∧ u.mem = s.mem ∧ head u = some { c with started := true, bad := some 6 }
           ∧ (u.tile t).ladle.abortNext = false ∧ (u.tile t).ladle.rounds = x.ladle.rounds)
       ∧ (c.gate = 1 → ¬(op = 0 ∧ x.ladle.abortNext = true) → becomes (.ladleCommandStart t) { c with started := true }))
     ∧ (c.started = true →
       (∀ b0 b1, d = [] → wDesc c.w1 % 128 = 0 → ownRead s t (wDesc c.w1) 64 = .ok b0 → ownRead s t (wDesc c.w1 + 64) 64 = .ok b1 →
         let e := descWords (b0 ++ b1)
         (c.parts = [] → becomes (step (.desc 0)) { c with parts := [(0, b0)] })
         ∧ (c.parts = [(0, b0)] → dscValid s t e = true → dscNtok e ≠ 0 → becomes (step (.desc 1)) { c with parts := [], desc := e })
         ∧ (c.parts = [(0, b0)] → dscValid s t e = false → (op ≠ 0 ∨ isMember s t e = false) →
           becomes (step (.desc 1)) { c with parts := [], desc := e, bad := some 4 })
         ∧ (c.parts = [(0, b0)] → dscValid s t e = false → op = 0 → rectInside s t e = true → isMember s t e = true → s.rounds = [] →
           ∃ u r m, exec (step (.desc 1)) s = .next u ∧ u.mem = s.mem ∧ u.rounds = [r] ∧ r.members = [m] ∧ m.tile = t ∧ m.bad = true
             ∧ head u = some { c with parts := [], desc := e, bad := some 4 }))
       ∧ (∀ b o k bs, d ≠ [] → c.table = none → op ≤ 1 →
         let at0 := if op = 0 then dscLo d 3 else dscLo d 4
         let n := size * dscNtok d * dscK d
         (blocksOf at0 n)[b]? = some (o, k) → (∀ q ∈ c.parts, q.1 ≠ o) → ownRead s t (at0 + o) k = .ok bs →
         let k' := { c with parts := c.parts ++ [(o, bs)] }
         (LadleCmd.whole k' at0 n = none → becomes (step (.table b)) k')
         ∧ ∀ all, LadleCmd.whole k' at0 n = some all →
           let l := tableOf size (dscNtok d * dscK d) all
           (op = 1 → becomes (step (.table b)) { c with parts := [], table := some l })
           ∧ (op = 0 → s.rounds = [] →
             ∃ u r m, exec (step (.table b)) s = .next u ∧ u.mem = s.mem ∧ u.rounds = [r] ∧ r.pid = x.core.pid
               ∧ r.members = [m] ∧ m.tile = t ∧ m.bad = false ∧ m.counts = countChoices d l
               ∧ (u.tile t).ladle.rounds = x.ladle.rounds + 1
               ∧ head u = some { c with joined := true, parts := [], table := some l }))
       ∧ (∀ w, c.todo.find? (·.1 == w.1) = some w → writable t →
         ∃ u, exec (step (.result w.1)) s = .next u ∧ Wrote s u t w.1 w.2 ∧ head u = some { c with todo := c.todo.filter (· != w) })
       ∧ (op = 1 → ∀ j l rc, c.table = some l → l[j]? = some rc → rc / 2 ^ 31 % 2 = 1 → j ∉ c.stepped → (∀ r ∈ c.rows, r.row ≠ j) →
         (dscE d ≤ rc % 256 → fails (.entry j 0) 7)
         ∧ ∀ buf off core, rc % 256 < dscE d → rowTarget s t d rc = .ok (buf, off, core) →
           let a := if bits buf 60 4 = 2 then core else buf
           (bufferSpace buf = true → (off = 0 ∨ (riserHome s t a).isSome = true) →
             becomes (step (.entry j 0)) { c with
               rows := { row := j, places := [(0, buf + BitVec.ofNat 64 (rc / 2 ^ 8 % 2 ^ 20 * dscRowb d))], riser := off, core := a }
                 :: others j })
           ∧ (off ≠ 0 → riserHome s t a = none → fails (.entry j 0) 1)
           ∧ (bufferSpace buf = false → fails (.entry j 0) 1))
       ∧ (op = 1 → ∀ r b n bs, c.rows.find? (·.row == r.row) = some r →
         let off := dscLo d 5 + r.row / dscK d * dscRowb d + b
         pieceLen off b (dscRowb d) = some n → b ∉ r.reads → ownRead s t off n = .ok bs →
         becomes (step (.read r.row b)) { c with
           rows := { r with reads := b :: r.reads, buf := r.buf ++ numbered b bs } :: others r.row })
       ∧ (op = 1 → ∀ r base b n bs y z o, c.rows.find? (·.row == r.row) = some r → r.places = [(0, base)] →
         let a := base + BitVec.ofNat 64 b
         pieceLen a.toNat b (dscRowb d) = some n → b ∉ r.writes → LadleRow.have r b n = some bs →
         checkAddr (s.viewFrom t) (if c.machine then .machine else .user) a n 1 = .ok (.mesh y z o) →
         let u := (s.viewFrom t).meshTile t y z
         s.awake u = true → writable u →
         rejection s (ladlePacket s t c (.store n (leVal bs)) (.tile u) o a) u true [(o, n)] false = none →
         ∃ v, exec (step (.write r.row b)) s = .next v ∧ Wrote s v u o bs
           ∧ head v = some { c with rows := { r with writes := b :: r.writes, done := r.done + n } :: others r.row })
       ∧ (op = 1 → ∀ r, c.rows.find? (·.row == r.row) = some r → dscRowb d ≤ r.done → r.outstanding = [] →
         let taken := { c with stepped := r.row :: c.stepped, rows := others r.row }
         (r.riser = 0 → becomes (step (.riser r.row)) taken)
         ∧ ∀ u, r.riser ≠ 0 → riserHome s t r.core = some (.tile u) → s.awake u = true → writable u → r.riser < 0x80000 →
           rejection s (ladlePacket s t c (.rsig 1) (.tile u) r.riser
             (BitVec.ofNat 64 (r.core.toNat / 2 ^ 20 * 2 ^ 20 + r.riser))) u true [(r.riser, 8)] false = none →
           ∃ v, exec (step (.riser r.row)) s = .next v ∧ head v = some taken
             ∧ Wrote s v u r.riser (leBytes 5 (bits (s.readD (tileKey u r.riser)) 0 40 + 1)))
       ∧ (op = 2 → d ≠ [] → ∀ row k bs, row < dscNtok d → k < dscK d → row ∉ c.moved →
         let r := (c.rows.find? (·.row == row)).getD { row := row }
         (∀ q ∈ r.recs, q.1 ≠ k) → ownRead s t (dscLo d 4 + 4 * (row * dscK d + k)) 4 = .ok bs →
         (leVal bs / 2 ^ 31 % 2 = 1 → dscE d ≤ leVal bs % 256 → fails (.record row k) 7)
         ∧ (¬(leVal bs / 2 ^ 31 % 2 = 1 ∧ dscE d ≤ leVal bs % 256) →
           becomes (step (.record row k)) { c with rows := { r with recs := (k, leVal bs) :: r.recs } :: others r.row }))
       ∧ (op = 2 → ∀ r k rc, c.rows.find? (·.row == r.row) = some r → LadleRow.valid r k = some rc →
         (∀ bs, (∀ q ∈ r.gates, q.1 ≠ k) → ownRead s t (dscHi d 3 + 4 * (r.row * dscK d + k)) 4 = .ok bs →
           becomes (step (.gate r.row k)) { c with rows := { r with gates := (k, leVal bs) :: r.gates } :: others r.row })
         ∧ ∀ a, (∀ q ∈ r.places, q.1 ≠ k) → outputRow s t d rc = .ok a →
           becomes (step (.entry r.row k)) { c with rows := { r with places := (k, a) :: r.places } :: others r.row })
       ∧ (op = 2 → ∀ r b base n y z o, c.rows.find? (·.row == r.row) = some r → r.places.find? (·.1 == b / len) = some (b / len, base) →
         let a := base + BitVec.ofNat 64 (b % len)
         pieceLen a.toNat (b % len) len = some n → b ∉ r.reads →
         checkAddr (s.viewFrom t) (if c.machine then .machine else .user) a n 1 = .ok (.mesh y z o) →
         let u := (s.viewFrom t).meshTile t y z
         s.awake u = true → s.markedIn (tileKey u o) n = false →
         rejection s (ladlePacket s t c (.load n) (.tile u) o a) u false [(o, n)] false = none →
         becomes (step (.read r.row b)) { c with
           rows := { r with reads := b :: r.reads, buf := r.buf ++ numbered b (Memory.read s.mem (tileKey u o) n) } :: others r.row })
       ∧ (op = 2 → ∀ r b n rows, c.rows.find? (·.row == r.row) = some r → combineSources c r = some rows →
         let all := combined d rows
         let off := dscHi d 5 + r.row * outBytes d + b
         pieceLen off b (outBytes d) = some n → b ∉ r.writes → off + n ≤ 0x80000 → writable t →
         rejection s { ladlePacket s t c (.store n 0) (.tile t) off (BitVec.ofNat 64 off) with absolute := true, xn := LadleRow.marked c r b n } t true
           [(off, n)] false = none →
         ∃ u, exec (step (.write r.row b)) s = .next u ∧ Wrote s u t off ((all.drop b).take n)
           ∧ (r.done + n = outBytes d → head u = some { c with moved := r.row :: c.moved, rows := others r.row })
           ∧ (r.done + n ≠ outBytes d →
             head u = some { c with rows := { r with writes := b :: r.writes, done := r.done + n } :: others r.row })))
     ∧ (∀ r, roundOf s t c = some r → c.joined = true → c.finished = false →
       let order := dscMembers s t d
       let members := order.filterMap fun u => r.members.find? (·.tile == u)
       let n := dscK d * dscE d
       let p := addLists n ((members.takeWhile (·.tile != t)).map (·.counts))
       let dd := addLists n (members.map (·.counts))
       order.length ≤ r.members.length →
       (r.members.any (·.bad) = true → becomes (.planScanComplete t) { c with bad := some 5 })
       ∧ ((∃ m ∈ members, m.same ≠ (members.head?.map (·.same)).getD []) → becomes (.planScanComplete t) { c with bad := some 5 })
       ∧ (r.members.any (·.bad) = false → (∀ m ∈ members, m.same = (members.head?.map (·.same)).getD []) →
         let a := ((c.table.getD []).zipIdx).foldl (fun a e => planStep d p dd a e.2 e.1) { seen := List.replicate n 0 }
         let ws := planWrites d a dd
         (∀ w ∈ ws, w.1 + w.2.length ≤ 0x80000) →
         becomes (.planScanComplete t) { c with finished := true, todo := ws.flatMap fun w => cutBlocks w.1 w.2 }))
     ∧ (c.started = true → LadleCmd.allBack c = true → LadleCmd.moved_all c = true →
       (wCriser c.w0 = 0 → ∃ u, exec (.ladleCompletionStep t) s = .next u ∧ u.mem = s.mem ∧ left u)
       ∧ (wCriser c.w0 ≠ 0 → writable t → ∃ u, exec (.ladleCompletionStep t) s = .next u ∧ left u
         ∧ Wrote s u t (wCriser c.w0) (leBytes 5 (bits (s.readD (tileKey t (wCriser c.w0))) 0 40 + 1))))
     ∧ (op = 3 → c.gate = 1 →
       (c.started = false → x.sealed = false → becomes (.ladleReset t c.serial) { c with started := true })
       ∧ (c.started = true → d ≠ [] → wCriser c.w0 = 0 →
         (dscMembers s t d = [t] → s.rounds = [] → ∃ u, exec (.ladleReset t c.serial) s = .next u ∧ u.mem = s.mem ∧ left u
           ∧ u.rounds = [] ∧ (u.tile t).ladle.rounds = 0 ∧ (u.tile t).ladle.abortNext = x.ladle.abortNext)
         ∧ ∀ v r, dscMembers s t d = [t, v] → v ≠ t → s.inFrame v = true → s.rounds = [r] → r.pid = x.core.pid → r.rect = dscRect d →
           ∃ u, exec (.ladleReset t c.serial) s = .next u ∧ u.mem = s.mem ∧ left u ∧ u.rounds = [] ∧ (u.tile v).ladle.rounds = 0
             ∧ (∀ k l, r.members.any (·.tile == v) = true → v ∉ r.taken → (s.tile v).ladle.queue = k :: l → k.joined = true →
               k.finished = false → k.bad = none → (u.tile v).ladle.queue = { k with bad := some 6 } :: l)
             ∧ (r.members.any (·.tile == v) = false → planBegun s d v = false →
               (u.tile v).ladle.abortNext = true ∧ (u.tile v).ladle.queue = (s.tile v).ladle.queue))))
  ∧ (∀ (s : State) (t : Nat) (c : LadleCmd) (rest : List LadleCmd) (reason : Nat),
     let x := s.tile t
     let op := bits c.w0 60 4
     let cls := if reason = 2 then 4 else if reason = 3 then 2 else if reason = 9 then 6 else 1
     let writable (u : Nat) : Prop :=
       (s.tile u).delayed = [] ∧ (∀ i, ((s.tile u).th i).holdEnd = none) ∧ (s.tile u).core.jmtrace.getLsbD 63 = false
     let word := leBytes 8 (2 ^ 63 + reason % 2 ^ 8 * 2 ^ 32 + op)
     let poison := leBytes 3 (2 ^ 23 + cls * 2 ^ 20 + x.lidx % 2 ^ 20)
     let steps (q : State → Prop) : Prop := ∃ u, exec (.ladleCompletionStep t) s = .next u ∧ q u
     let head (u : State) : Option LadleCmd := (u.tile t).ladle.queue.head?
     let left (u : State) : Prop :=
       (u.tile t).ladle.queue.map (·.serial) = (rest.filter (·.serial != c.serial)).map (·.serial)
     s.inFrame t = true → x.ladle.queue = c :: rest → c.started = true → LadleCmd.allBack c = true → c.bad = some reason →
     wDesc c.w1 % 128 = 0 → writable t →
     (c.lfail = false → steps fun u =>
       Wrote s u t (wDesc c.w1 + 0x78) word ∧ head u = some { LadleCmd.filled c s t with lfail := true })
     ∧ (c.lfail = true → (op = 1 → ∀ l, c.table = some l → ∀ j, j < l.length → j ∈ c.stepped) →
       (wCriser c.w0 = 0 → steps fun u => u.mem = s.mem ∧ left u)
       ∧ (wCriser c.w0 ≠ 0 → steps fun u => Wrote s u t (wCriser c.w0 + 5) poison ∧ left u))
     ∧ (∀ rc buf off core v, c.lfail = true → op = 1 → c.table = some [rc] → rc / 2 ^ 31 % 2 = 1 →
       rc % 256 < dscE c.desc → 0 ∉ c.stepped → rowTarget s t c.desc rc = .ok (buf, off, core) → off ≠ 0 → off < 0x80000 →
       let a := if bits buf 60 4 = 2 then core else buf
       riserHome s t a = some (.tile v) → s.awake v = true → writable v →
       rejection s (ladlePacket s t c (.rpoison cls) (.tile v) off
         (BitVec.ofNat 64 (a.toNat / 2 ^ 20 * 2 ^ 20 + off))) v true [(off, 8)] false = none →
       steps fun u => Wrote s u v (off + 5) poison ∧ head u = some { c with stepped := 0 :: c.stepped }))

/-- R196, R236-R246: an entry whose gate word has reached its target goes on to fetch, and a poisoned word marks the
accumulator instead; blocks are fetched one at a time; the computed operation writes its accumulator, or takes it once
and stores it block by block in the order of its lines, and leaves the queue, in the cycles that a throttled island
leaves it; the array's power states and bursts follow their cycle counts. (The order of the fetched blocks is the
model's, log 19; the ramp counts from the cycle after MBURST, log 6.) -/
def Obligations.MatrixSteps : Prop :=
  ∀ (s : State) (t : Nat) (e : MEntry),
    let x := s.tile t
    let m := x.matrix
    let acc := m.accs[e.acc % 8]'(by omega)
    let only (u : State) : Prop :=
      { u with tiles := s.tiles } = s ∧ (∀ v, v ≠ t → u.tile v = s.tile v) ∧ (u.tile t).core = x.core
    let done (u : State) (a : AccReg) : Prop :=
      only u ∧ (u.tile t).matrix.queue = [] ∧ (u.tile t).matrix.accs = m.accs.set (e.acc % 8) a (by omega)
    s.inFrame t = true →
    (m.queue = [e] →
      (∀ w rest, e.stage = .gate → e.evals = w :: rest →
        (w.getLsbD 63 = true → ∃ u, exec (.matrixGateEvaluate t) s = .next u
          ∧ done u { acc with mark := BitVec.ofNat 32 (2 ^ 23 + bits w 60 3 * 2 ^ 20 + bits w 40 20) })
        ∧ (w.getLsbD 63 = false → e.gateTgt ≤ bits w 0 40 → ∃ u, exec (.matrixGateEvaluate t) s = .next u ∧ only u
          ∧ (u.tile t).matrix = { m with queue := [{ e with stage := .fetch, evals := [] }] })
        ∧ (w.getLsbD 63 = false → bits w 0 40 < e.gateTgt → ∃ u, exec (.matrixGateEvaluate t) s = .next u ∧ only u
          ∧ (u.tile t).matrix = { m with queue := [{ e with evals := rest }] }))
      ∧ (∀ blk, e.stage = .fetch → MEntry.isMst e = false → memNat blk (MEntry.toFetch e) = true →
        ∃ u, exec (.matrixFetch t blk) s = .next u ∧ only u
          ∧ (u.tile t).matrix = { m with queue := [MEntry.takeBlock e s t blk] })
      ∧ (MEntry.fetchedAll e = true → x.cycle % 16 < (s.island (islandOf t)).throttle →
        (e.op = .mzero → ∃ u, exec (.mzeroCompute t) s = .next u ∧ done u { el := Vector.replicate 64 0, mark := 0 })
        ∧ (e.op = .mld → ∃ u a, exec (.mldCompute t) s = .next u ∧ done u a
          ∧ (∀ i j : Fin 8, a.el[8 * i.val + j.val]'(by omega) =
            BitVec.ofNat 32 ((MEntry.line e false i.val 4).getD j.val 0))
          ∧ a.mark = if e.bad then BitVec.ofNat 32 (2 ^ 23 + 2 * 2 ^ 20 + x.lidx % 2 ^ 20) else 0))
      ∧ (e.out = none → ¬x.cycle % 16 < (s.island (islandOf t)).throttle →
        exec (.mzeroCompute t) s = .next s ∧ exec (.mldCompute t) s = .next s ∧ exec (.mstCompute t e.serial) s = .next s)
      ∧ (∀ c, MEntry.isMma e = true → e.began = some c → c + 16 ≤ x.cycle + 1 →
        ∃ u a, exec (.mmaCompute t) s = .next u ∧ done u a
          ∧ (∀ i j : Fin 8, a.el[8 * i.val + j.val]'(by omega) =
            BitVec.ofNat 32 (MEntry.product e (acc.el[8 * i.val + j.val]'(by omega)).toNat i.val j.val))
          ∧ a.mark = if e.bad ∧ acc.mark.getLsbD 23 = false then
              BitVec.ofNat 32 (2 ^ 23 + 2 * 2 ^ 20 + x.lidx % 2 ^ 20) else acc.mark)
      ∧ (MEntry.isMst e = true → e.stage = .fetch → e.out = none → x.cycle % 16 < (s.island (islandOf t)).throttle →
        ∃ u, exec (.mstCompute t e.serial) s = .next u ∧ only u
          ∧ (u.tile t).matrix = { m with queue := [{ e with out := some (MEntry.steps e acc, acc.mark.getLsbD 23) }] })
      ∧ (∀ l rest mark, e.out = some (l :: rest, mark) → l ≠ [] → x.core.jmtrace.getLsbD 63 = false → x.delayed = [] →
        (∀ i, (x.th i).holdEnd = none) →
        let mine := lastBytes l
        ∃ u, exec (.mstCompute t e.serial) s = .next u ∧ (∀ v, v ≠ t → u.tile v = s.tile v)
          ∧ (∀ p ∈ mine, u.byte (tileKey t p.1) = p.2 ∧ (mark = true → u.marked (tileKey t p.1) = true))
          ∧ (∀ k, k < 2 ^ 62 → (∀ p ∈ mine, k ≠ tileKey t p.1) → u.byte k = s.byte k)
          ∧ (u.tile t).matrix.accs = m.accs
          ∧ (u.tile t).matrix.queue = if rest = [] then [] else [{ e with out := some (rest, mark) }]))
    ∧ (m.power = .rampUp → m.since + 24 ≤ x.cycle + 1 → ∃ u, exec (.matrixRampUpDone t) s = .next u ∧ only u
      ∧ (u.tile t).matrix = { m with power := .active, since := x.cycle, gaps := 0 })
    ∧ (m.power = .rampDown → m.since + 24 ≤ x.cycle + 1 → Matrix.mmaReady m = false →
      ∃ u, exec (.matrixRampDownDone t) s = .next u ∧ only u
        ∧ (u.tile t).matrix = { m with power := .idle, since := x.cycle })
    ∧ (4096 ≤ m.gaps → ∃ u, exec (.burstGapExpiry t) s = .next u ∧ only u
      ∧ (u.tile t).matrix = { m with burst := 0, gaps := 0 })

/-- R9, R34, R37, R62, R86, R146, R165, R242, R266, R267, R291, R307: a write of one of these registers stores the
fields the register has, with its rule for each; a locked router, a read-only register and the register of an empty
slot keep what they hold, and accesses of 2 bytes change nothing. The core's port goes by the registers from before a
write until its cycle ends. (That these writes are events of their own as well as parts of the instructions is the
model's, log 14; GY and GX of a fused tile, log 85.) -/
def Obligations.RegisterWrites : Prop :=
  ∀ (s : State) (t : Nat) (i : Fin 8) (v : Dword),
    let x := s.tile t
    let h := x.th i
    let tileIs (e : Instr) (y : Tile) : Prop :=
      ∃ u, exec e s = .next u ∧ sameButTiles s u ∧ (∀ n, n ≠ t → u.tile n = s.tile n) ∧ u.tile t = y
    let threadIs (e : Instr) (k : Thread) : Prop := tileIs e (x.setTh i k)
    let w := v &&& 0x8FFFFF003FF00003
    let window := BitVec.ofNat 64 (bits v 63 1 * 2 ^ 63 + min (bits v 32 8) (128 - bits v 0 7) * 2 ^ 32 + bits v 0 7)
    s.inFrame t = true →
    (x.router.getLsbD 63 = true → exec (.routerConfigWrite t v) s = .next s)
    ∧ (x.router.getLsbD 63 = false → bits w 0 2 = 1 → x.fused = false →
      tileIs (.routerConfigWrite t v) { x with router := w, core := { x.core with gy := bits w 50 10, gx := bits w 20 10 } })
    ∧ (x.router.getLsbD 63 = false → bits w 0 2 ≠ 1 → (bits w 0 2 = 2 → x.fused = false) →
      tileIs (.routerConfigWrite t v) { x with router := w })
    ∧ (x.router.getLsbD 63 = false → bits w 0 2 = 1 ∨ bits w 0 2 = 2 → x.fused = true →
      tileIs (.routerConfigWrite t v) { x with router := putBits w 0 2 3 })
    ∧ tileIs (.evpendWrite t v) { x with evpend := x.evpend &&& ~~~(v &&& 0x3F) }
    ∧ tileIs (.jcodewinWrite t v) { x with core := { x.core with jcodewin := window }, was := some x.portCore }
    ∧ tileIs (.jmpartWrite t 0x7C0 v) { x with core := { x.core with jmpart0 := v &&& 0x0FFFFF00003FFFFF }, was := some x.portCore }
    ∧ tileIs (.jmpartWrite t 0x7C1 v) { x with core := { x.core with jmpart1 := v &&& 0xFFFFFFFF00007113 }, was := some x.portCore }
    ∧ tileIs (.jmpartWrite t 0x7C2 v) { x with core := { x.core with jmrcb := v &&& 0xFFFFFFFFFFFFFF00 }, was := some x.portCore }
    ∧ (h.st ≠ .empty →
      threadIs (.jsrseedWrite t i.val v)
        { h with jsrseed := if v &&& 0xFFFFFFFF = 0 then 1 else v &&& 0xFFFFFFFF }
      ∧ threadIs (.jmgateWrite t i.val 0x8C7 v) { h with jmgate := v &&& 0x800000000007FFF8 }
      ∧ threadIs (.jmgateWrite t i.val 0x8C8 v) { h with jmgatev := v &&& 0xFFFFFFFFFF }
      ∧ threadIs (.jutcauseWrite t i.val v) { h with jutcause := v &&& 0x3F, uhold := false }
      ∧ ∃ k, threadIs (.jrmarkWrite t i.val v) k ∧ { k with snap := h.snap, jrmark := h.jrmark } = h
        ∧ k.jrmark = v &&& 0x8007FFFFFFFFFFFE
        ∧ ∀ n : Fin 32, k.snap[n] = if v.getLsbD 63 ∧ v.getLsbD n.val ∧ n ≠ 0 then h.x[n] else h.snap[n])
    ∧ (h.st = .empty → ∀ e ∈ [Instr.jsrseedWrite t i.val v, .jmgateWrite t i.val 0x8C7 v, .jmgateWrite t i.val 0x8C8 v,
        .jutcauseWrite t i.val v, .jrmarkWrite t i.val v], exec e s = .next s)
    ∧ tileIs (.registerWrite (.tile t) 0xC0100 8 v) { x with evpend := x.evpend &&& ~~~(v &&& 0x3F) }
    ∧ tileIs (.registerWrite (.tile t) 0xC0200 8 v) x
    ∧ (∀ k : Fin 4, ∃ y, tileIs (.registerWrite (.tile t) (0xC0300 + 8 * k.val) 8 v) y
        ∧ { y with hriser := x.hriser } = x
        ∧ ∀ j : Fin 4, y.hriser[j] = if j = k then v &&& 0x800007FF0000FFFF else x.hriser[j])
    ∧ (∃ u, exec (.registerWrite (.mgmt 0) 0x28 4 v) s = .next u ∧ u = { s with modBudget := bits v 0 32 })
    ∧ (∀ off, exec (.registerWrite (.tile t) off 2 v) s = .next s ∧ ∀ pkg, exec (.registerWrite (.host pkg) off 2 v) s = .next s)
    ∧ (∀ pkg k, pkg < s.packages → s.bootRom = false → k < 8 →
      ∃ u, exec (.registerWrite (.host pkg) (8 + 8 * k) 8 v) s = .next u
        ∧ { u with mem := s.mem, marks := s.marks } = s ∧ u.mem = Memory.write s.mem (windowKey pkg (8 + 8 * k)) (leBytes 8 v.toNat))

/-- R62, R64, R66, R222, R267, R273, R277, R281, R336: OPEN gives the cores of the rectangle the partition's registers;
CLOSE holds its spawns off and ends its general threads at their boundaries, and answers when all has drained; SUSPEND
stops its threads; RESUME gives every core of the new rectangle the registers, and puts each saved core's scratchpad,
slots and accumulators back from its block; OPEN and RESUME wait for islands that sleep; each answers a request it cannot
serve with its result code. That a request raises MAILBOX, and CLOSE, SUSPEND and RESUME also COMMAND, at the corner core of the package is the model's choice (log
39), as are the order of the checks and the PID that follows 65,535 (logs 41 and 42), and what is kept beside the save
area (log 44). -/
def Obligations.PartitionsOpenAndClose : Prop :=
  ∀ (s : State) (pkg seq : Nat) (q : Part),
    let a := s.arg pkg 0
    let answers (e : Instr) (r : Nat) (d : Dword) (k : State → Prop) : Prop :=
      ∃ u, exec e s = .next u ∧ Answered u pkg seq r d ∧ k u
    let asked (n : Dword) (t : Nat) : Tile :=
      if s.fwResident = true ∧ t = cornerTile pkg then { s.tile t with evpend := (s.tile t).evpend ||| n } else s.tile t
    let refuses (e : Instr) (r : Nat) (n : Dword) : Prop :=
      answers e r 0 fun u => u.parts = s.parts ∧ ∀ t, u.tile t = asked n t
    let stopped (u : State) (q : Part) : Prop := ∀ t ∈ s.tilesOf q, (u.tile t).core.hold = true
    let waits (e : Instr) : Prop := ∃ u, exec e s = .next u ∧ (u.pack pkg).mail.done = false ∧ u.parts = s.parts
      ∧ u.mem = s.mem ∧ u.saves = s.saves
    MailReady s pkg →
    (openArgsBad s pkg = true → refuses (.openPart pkg seq) 11 0x10)
    ∧ (∀ r, openArgsBad s pkg = false → openCheck s pkg = .error r → refuses (.openPart pkg seq) r 0x10)
    ∧ (∀ img, openArgsBad s pkg = false → openCheck s pkg = .ok (q, img) →
      let ts := rectTiles s q.orgY q.orgX q.height q.width
      (allAwake s ts = false → waits (.openPart pkg seq))
      ∧ (allAwake s ts = true →
      answers (.openPart pkg seq) 0 (BitVec.ofNat 64 (s.nextPid % 2 ^ 16 * 2 ^ 48 + q.eidx.getD 0)) fun u =>
        u.parts = s.parts ++ [q] ∧ u.nextPid = s.nextPid % 65535 + 1
          ∧ (∀ t, (u.tile t).core = if t ∈ ts then q.registers false (s.tile t).core else (s.tile t).core)
          ∧ ∀ t ∈ ts, s.inFrame t = true → t ≠ s.rootTile q → ∀ off, off < 0x80000 → u.byte (tileKey t off) = 0))
    ∧ (badRcb s a = false → s.partAt a = none →
      refuses (.closePart pkg seq) 7 0x18 ∧ refuses (.suspend pkg seq) 7 0x18)
    ∧ (badRcb s a = false → s.partAt a = some q → q.state = 3 → refuses (.closePart pkg seq) 7 0x18)
    ∧ (badRcb s a = false → s.partAt a = some q → q.state ≠ 3 → ∃ u, exec (.closePart pkg seq) s = .next u
      ∧ Serving u pkg q.pid ∧ stopped u q
      ∧ (∀ t ∈ s.tilesOf q, (u.tile t).inbox = [] ∧ (u.tile t).halted = true
        ∧ ∀ i : Fin 8, i.val < 6 → (s.th t i).st ≠ .empty →
          if (s.th t i).vecAt = 0 ∧ (s.th t i).vec = none then (u.th t i).st = .empty
          else (u.th t i).vec = (s.th t i).vec ∧ (u.th t i).vecAt = (s.th t i).vecAt)
      ∧ ∀ p ∈ u.parts, p.pid = q.pid → p.state = 3)
    ∧ (badRcb s a = false → s.partAt a = some q → q.holds = true → refuses (.suspend pkg seq) 7 0x18)
    ∧ (badRcb s a = false → s.partAt a = some q → q.holds = false → (s.openFamily q.pid).any (·.save == 0) = true →
      refuses (.suspend pkg seq) 8 0x18)
    ∧ (badRcb s a = false → s.partAt a = some q → q.holds = false → (s.openFamily q.pid).any (·.save == 0) = false →
      ∃ u, exec (.suspend pkg seq) s = .next u ∧ Serving u pkg q.pid ∧ stopped u q
        ∧ (∀ t ∈ s.tilesOf q, (u.tile t).halted = true ∧ (u.tile t).threads = (s.tile t).threads)
        ∧ ∀ p ∈ u.parts, p.pid = q.pid → p.state = 1 → p.stopping = some s.tick)
    ∧ (∀ r, badRcb s a = false → bits (s.arg pkg 1) 20 44 = 0 → resumeCheck s pkg = .error r → refuses (.resume pkg seq) r 0x18)
    ∧ (badRcb s a = false → bits (s.arg pkg 1) 20 44 = 0 → resumeCheck s pkg = .ok q →
      allAwake s (rectTiles s q.orgY q.orgX q.height q.width) = false → waits (.resume pkg seq))
    ∧ (badRcb s a = false → bits (s.arg pkg 1) 20 44 = 0 → resumeCheck s pkg = .ok q →
      allAwake s (rectTiles s q.orgY q.orgX q.height q.width) = true →
      answers (.resume pkg seq) 0 (BitVec.ofNat 64 (q.pid % 2 ^ 16 * 2 ^ 48 + q.eidx.getD 0)) fun u =>
        u.parts = s.parts.map (fun p => if p.pid = q.pid then q else p) ∧ (∀ c ∈ u.saves, c.1 ≠ q.pid)
          ∧ (∀ t ∈ rectTiles s q.orgY q.orgX q.height q.width,
            { (u.tile t).core with jcodewin := 0 } = { q.registers false (s.tile t).core with jcodewin := 0 })
          ∧ (s.wf → q.save % 8 = 0 → ((Assoc.get [] s.saves q.pid).map fun c => (c.y, c.x)).Nodup →
            (∀ c ∈ Assoc.get [] s.saves q.pid, ∀ t, s.core (q.orgY + c.y) (q.orgX + c.x) = some t → s.inFrame t = true) →
            ∀ c ∈ Assoc.get [] s.saves q.pid, ∀ t, c.y < q.height → c.x < q.width →
            s.core (q.orgY + c.y) (q.orgX + c.x) = some t →
            let block := blockAt q c.y c.x
            (u.tile t).core.pid = q.pid % 2 ^ 16 ∧ (u.tile t).core.hold = false ∧ (u.tile t).core.jcodewin = c.jcodewin
              ∧ (u.tile t).halted = false
              ∧ (∀ off, off < 0x80000 → u.byte (tileKey t off) = s.byte (s.paKey (block + off)))
              ∧ (∀ (i : Fin 8) (j : Fin 64),
                (u.acc t i.val).el[j].toNat = bits (s.paRead (block + 0x90000 + 0x200 * i.val + 8 * (j.val / 2))) (32 * (j.val % 2)) 32
                ∧ (u.acc t i.val).mark.toNat = bits (s.paRead (block + 0x90100 + 0x200 * i.val)) 0 32)
              ∧ ∀ i : Fin 8,
                let k := u.th t i
                let word (n : Nat) : Dword := s.paRead (block + 0x80000 + 0x2000 * i.val + 8 * n)
                (bits (word 0) 63 1 = 0 → k.st = .empty)
                ∧ (bits (word 0) 63 1 = 1 → k.st = .ready ∧ k.mode = (if bits (word 0) 62 1 = 1 then .machine else .user)
                  ∧ k.uhold = (word 0).getLsbD 61 ∧ k.budget = bits (word 0) 40 16 ∧ k.prio = bits (word 0) 32 2 ∧ k.pc = word 1
                  ∧ (∀ n : Fin 32, n ≠ 0 → k.x[n] = word (2 + n.val) ∧ k.snap[n] = word (115 + n.val))
                  ∧ (∀ (n : Fin 16) (j : Fin 4), BitVec.ofNat 64 (k.v[n].toNat / 2 ^ (64 * j.val)) = word (34 + 4 * n.val + j.val))
                  ∧ [k.mstatus, k.mie, k.mtvec, k.mscratch, k.mepc, k.mcause, k.mtval, k.instret, k.jsrseed, k.jmcfg, k.jvcfg,
                    k.jutvec, k.jutcause, k.jutepc, k.jutval, k.jmgate, k.jmgatev, k.jrmark]
                    = (upTo 18).map fun n => word (98 + n))))

/-- R62, R66, R68, R69, R94, R222, R273, R277-R280: a partition that closes is sealed once its slots are empty, its
commands that have not started fail with DISCARD when the others have completed, and it is gone once it has drained: its
memory and accumulators cleared, and each of its cores handed to the deepest open partition over it, or to none (a
suspended ancestor keeps its cores: log 41). A suspension is saved once its requests are back: the save area holds its
header, and each core's scratchpad, contexts, accumulators and inbox. One that takes more than 62,500 cycles closes the
partitions of its job and fault domain; quiet samples are counted, and a stall declared at the root core, which owes a
notice, with its report where REPORT is not 0. (The answers of a closed or suspended partition, the bound's, how quiet
cycles are noted and when a tile is sealed are the model's choices, logs 35, 43, 44, 68, 101.) -/
def Obligations.PartitionsDrain : Prop :=
  ∀ (s : State) (q : Part),
    let pid := q.pid
    let fam := s.family pid
    let answered (u : State) (r : Nat) : Prop :=
      ∀ p, p < s.packages → (s.pack p).mail.serving = some pid → Answered u p (bits (s.pack p).mail.req 48 8) r 0
    let topmost (f : Part → Bool) : Prop := (s.parts.any fun p => q.parent != 0 && p.rcb == q.parent && f p) = false
    let stopping := fam.filter (·.stopping.isSome)
    let jmstall := match s.partCores q with
      | c :: _ => (s.tile c.2.2).core.jmstall
      | [] => stallWord q.stallto
    let due := jmstall.getLsbD 63 && !q.declared && decide ((bits jmstall 0 32 + 1023) / 1024 ≤ q.quietRun + 1)
    let samples (u : State) (run : Nat) (d owes : Bool) : Prop :=
      u.parts = s.parts.map fun p =>
        if p.pid = pid then { p with quietRun := run, declared := d, owesNotice := owes || p.owesNotice } else p
    let rest := s.parts.filter fun p => !memNat p.pid (fam.map (·.pid))
    let inside (t : Nat) (p : Part) : Prop :=
      p ∈ rest ∧ p.orgY ≤ (s.tile t).core.gy ∧ (s.tile t).core.gy < p.orgY + p.height
        ∧ p.orgX ≤ (s.tile t).core.gx ∧ (s.tile t).core.gx < p.orgX + p.width
    let topmostAt (t : Nat) (p : Part) : Prop := inside t p ∧ p.state ≠ 2
      ∧ ∀ c, inside t c → c.state ≠ 2 → c.parent ≠ 0 → c.parent ≠ p.rcb
    let saved (p : Part) : Nat := saveSize p.height p.width
    let outOf (p : Part) (a n : Nat) : Prop := a + n ≤ p.save ∨ p.save + saved p ≤ a
    let areasApart : Prop := (stopping.map (·.pid)).Nodup ∧ ∀ p ∈ stopping, p.save % 4096 = 0 ∧ p.save + saved p ≤ s.hbmEnd
      ∧ ∀ p' ∈ stopping, p'.rcb % 256 = 0 ∧ p'.rcb + 256 ≤ s.hbmEnd ∧ outOf p p'.rcb 256 ∧ (p' ≠ p → outOf p p'.save (saved p'))
    s.wf → s.parts.find? (·.pid == pid) = some q → (∀ p ∈ s.parts, p.pid = pid → p = q) →
    (let ts := fam.flatMap s.tilesOf;
      q.state = 3 → topmost (·.state == 3) → (ts.all fun t => (upTo 8).all (s.tile t).isEmpty) = true →
      (ts.any fun t => !(s.tile t).sealed) = true →
      ∃ u, exec (.closeDrainComplete pid) s = .next u ∧ sameButTiles s u
        ∧ ∀ t, u.tile t = if t ∈ ts then { s.tile t with sealed := true } else s.tile t)
    ∧ (let ts := fam.flatMap s.tilesOf;
      q.state = 3 → topmost (·.state == 3) →
      (ts.all fun t => (s.tile t).drained && (upTo 8).all (s.tile t).isEmpty && enginesIdle s t && (s.tile t).sealed) = true →
      netDrained s ts = true → noneInward s ts = true → (ts.any fun t => (s.tile t).queued) = true → ts.Nodup →
      ∃ u, exec (.closeDrainComplete pid) s = .next u ∧ u.parts = s.parts
        ∧ ∀ t ∈ ts, (∀ n : Fin 4, (u.tile t).chans[n].fifo = []
            ∧ (u.tile t).chans[n].started =
              (s.tile t).chans[n].fifo.map fun m => ({ cmd := m, bad := some (8, 6) } : CopyRun))
          ∧ ∀ c ∈ (u.tile t).ladle.queue, c.started = true ∧ c.bad.isSome = true)
    ∧ (let ts := fam.flatMap s.tilesOf;
      q.state = 3 → topmost (·.state == 3) →
      (ts.all fun t => (s.tile t).drained && (upTo 8).all (s.tile t).isEmpty && enginesIdle s t && (s.tile t).sealed) = true →
      netDrained s ts = true → noneInward s ts = true → (ts.any fun t => (s.tile t).queued) = false →
      ∃ u, exec (.closeDrainComplete pid) s = .next u ∧ answered u 0
        ∧ u.parts = rest
        ∧ ∀ t ∈ ts, (u.tile t).chans = Vector.replicate 4 {} ∧ (u.tile t).matrix.queue = []
          ∧ (u.tile t).matrix.accs = Vector.replicate 8 {} ∧ (u.tile t).ladle.queue = []
          ∧ (s.inFrame t = true → ∀ off, off < 0x80000 → u.byte (tileKey t off) = 0 ∧ u.marked (tileKey t off) = false)
          ∧ (∀ p, topmostAt t p → (∀ c, topmostAt t c → c = p) → (u.tile t).core = p.registers p.holds (s.tile t).core)
          ∧ ((∀ p, ¬inside t p) → (u.tile t).core = (s.tile t).core.freed))
    ∧ (let ts := stopping.flatMap s.tilesOf;
      q.stopping.isSome = true → topmost (·.stopping.isSome) →
      (ts.all fun t => (s.tile t).drained && (s.tile t).isEmpty 6 && (s.tile t).isEmpty 7 && (s.tile t).atBoundary
        && (s.tile t).threads.toList.all (fun h => h.intervals.isEmpty) && (s.tile t).sealed && ((s.tile t).chans[3]).stall.isNone
        && enginesIdle s t && matrixSettled (s.tile t)) = true →
      threadsDrained s ts = true → netDrained s ts = true →
      ∃ u, exec (.suspendSave pid) s = .next u ∧ answered u 0
        ∧ (∀ p ∈ u.parts, p.pid = pid → p.state = 2 ∧ p.stopping = none)
        ∧ (∀ t ∈ s.tilesOf q, (u.tile t).inbox = [] ∧ (u.tile t).ladle = {} ∧ (u.tile t).matrix.queue = []
          ∧ (u.tile t).core = (s.tile t).core ∧ ∀ i : Fin 8, (s.th t i).st ≠ .empty → (u.th t i).st = .empty)
        ∧ (Assoc.get [] u.saves pid).map (fun c => (c.y, c.x)) = (s.partCores q).map (fun c => (c.1, c.2.1))
        ∧ (areasApart → (∀ t ∈ ts, s.inFrame t = true ∧ (s.tile t).inbox.length ≤ 32) → ∀ p ∈ stopping,
          u.paRead p.save = p.extent ∧ u.paRead (p.save + 8) = BitVec.ofNat 64 (s.gen % 2 ^ 16 * 2 ^ 48 + (if p.rolled then 1 else 0))
          ∧ u.paRead (p.save + 16) = BitVec.ofNat 64 s.tsc
          ∧ ∀ y x t, (y, x, t) ∈ s.partCores p →
            let block := blockAt p y x
            let holds (a : Nat) (l : List Dword) : Prop := ∀ n w, l[n]? = some w → u.paRead (block + a + 8 * n) = w
            (∀ n, n < 0x10000 → u.paRead (block + 8 * n) = s.readD (tileKey t (8 * n)))
            ∧ (∀ i : Fin 8, holds (0x80000 + 0x2000 * i.val) ((s.th t i).settled s.tsc).context
              ∧ holds (0x90000 + 0x200 * i.val) (s.acc t i.val).words)
            ∧ holds 0x93000 ((s.tile t).inbox.flatMap messageWords)))
    ∧ (let ts := stopping.flatMap s.tilesOf;
      q.stopping.isSome = true → topmost (·.stopping.isSome) →
      (ts.all fun t => (s.tile t).drained && (s.tile t).isEmpty 6 && (s.tile t).isEmpty 7 && (s.tile t).atBoundary
        && (s.tile t).threads.toList.all (fun h => h.intervals.isEmpty)) = true →
      threadsDrained s ts = true → (ts.any fun t => !(s.tile t).sealed) = true →
      ∃ u, exec (.suspendSave pid) s = .next u ∧ sameButTiles s u
        ∧ ∀ t, u.tile t = if t ∈ ts then { s.tile t with sealed := true } else s.tile t)
    ∧ (∀ since p, q.stopping = some since → since + 62500 < s.tick → p ∈ s.parts → p.jobid = q.jobid → p.fdom = q.fdom →
      p.state = 1 →
      ∃ u, exec (.quiesceBoundExceeded pid) s = .next u ∧ answered u 7 ∧ ∀ p' ∈ u.parts, p'.pid = p.pid → p'.state = 3)
    ∧ (q.opened < s.tick → (s.tick - q.opened) % 1024 = 0 → q.state = 1 →
      (s.tick < q.busy + 1024 →
        ∃ u, exec (.quietSample pid) s = .next u ∧ { u with parts := s.parts } = s ∧ samples u 0 false false)
      ∧ (q.busy + 1024 ≤ s.tick → due = false →
        ∃ u, exec (.quietSample pid) s = .next u ∧ { u with parts := s.parts } = s ∧ samples u (q.quietRun + 1) q.declared false)
      ∧ (q.busy + 1024 ≤ s.tick → due = true →
        ∃ u, exec (.quietSample pid) s = .next u ∧ samples u (q.quietRun + 1) true true
          ∧ u.tile (s.rootTile q) =
            { s.tile (s.rootTile q) with evpend := (s.tile (s.rootTile q)).evpend ||| 2 }
          ∧ (q.report = 0 → u.mem = s.mem)
          ∧ (q.report ≠ 0 → q.report % 64 = 0 → q.report + 0x1040 ≤ s.hbmEnd →
            let all := (s.partCores q).flatMap fun c => (coreWaits s c.2.2).map fun w => w.words c.1 c.2.1
            let n := min 64 all.length
            let wordsAt (a : Nat) (l : List Dword) : Prop := ∀ k : Fin 8, u.paRead (a + 8 * k.val) = l.getD k.val 0
            wordsAt q.report [BitVec.ofNat 64 s.tsc, BitVec.ofNat 64 (q.pid % 2 ^ 16 * 2 ^ 48 + q.jobid % 2 ^ 32),
              BitVec.ofNat 64 (all.length % 2 ^ 32 * 2 ^ 32 + n), BitVec.ofNat 64 (bits jmstall 0 32)]
            ∧ (∀ k, k < n → wordsAt (q.report + 64 + 64 * k) (all.getD k []))
            ∧ ∀ a, a < q.report ∨ q.report + 64 + 64 * n ≤ a → a < s.hbmEnd → u.byte (s.paKey a) = s.byte (s.paKey a))))

/-- R288, R291, R292, R298, R320, R322, R328, R331, R332: the other requests of the mailbox: INVAL drops the leaves and
answers when no access translated through one is left; HRISER lists a riser of a core; CRYO COOL, WARM and RECAL are
accepted in their states and wait for the next sample, ATTEST writes the report, SVNCOMMIT burns the version, and the
boot ROM takes an image, which the flash keeps but in a lattice boot; a submission is served by its operation. (The
request's MAILBOX event and the open RESULT of an image update are logs 39 and 3; when COOL, WARM and RECAL take effect,
log 58; ranges of INVAL, log 66; entries listed once, log 67.) -/
def Obligations.MailboxServes : Prop :=
  ∀ (s : State) (pkg seq : Nat),
    let a := s.arg pkg
    let kept (u : State) : Prop := ∀ t, u.tile t =
      if s.fwResident = true ∧ t = cornerTile pkg then { s.tile t with evpend := (s.tile t).evpend ||| 0x10 } else s.tile t
    let answers (e : Instr) (r : Nat) (d : Dword) (k : State → Prop) : Prop :=
      ∃ u, exec e s = .next u ∧ Answered u pkg seq r d ∧ k u
    (MailReady s pkg → invalBad s pkg = false →
      let asid := bits (a 0) 0 16
      let r := invalRange (a 1).toNat (a 2).toNat
      ∃ u, exec (.inval pkg seq) s = .next u ∧ u.invals = s.invals ++ [(pkg, asid, r.1, r.2)]
        ∧ (u.pack pkg).mail.done = false
        ∧ (∀ t, ∀ e ∈ (u.tile t).tlb, overlapsPages asid r.1 r.2 e = false)
        ∧ ∀ g, ∀ e ∈ Assoc.get [] u.dieTlb g, overlapsPages asid r.1 r.2 e = false)
    ∧ (∀ i, s.invals.find? (·.1 == pkg) = some i → seq = bits (s.pack pkg).mail.req 48 8 →
      translatedOut s i.2.1 i.2.2.1 i.2.2.2 = false →
      answers (.invalComplete pkg) 0 0 fun u => u.invals = s.invals.filter (·.1 != pkg) ∧ u.tiles = s.tiles)
    ∧ (∀ q t, MailReady s pkg → hriserBad s pkg = false → s.partAt (a 0) = some q → q.state = 1 →
      hriserCore s pkg q = some t →
      let e : Dword := BitVec.ofNat 64 (2 ^ 63 + (a 2).toNat % 2 ^ 11 * 2 ^ 32 + bits (a 1) 3 16)
      let free (d : Dword) : Bool := !d.getLsbD 63
      let y := s.tile t
      (∀ n : Fin 4, (a 3).getLsbD 0 = true → (∀ j : Fin 4, y.hriser[j] ≠ e) → free y.hriser[n] = true →
        (∀ j : Fin 4, j < n → free y.hriser[j] = false) →
        answers (.hriser pkg seq) 0 0 fun u => (u.tile t).hriser[n] = e
          ∧ ∀ j : Fin 4, j ≠ n → (u.tile t).hriser[j] = y.hriser[j])
      ∧ ((a 3).getLsbD 0 = true → (∀ j : Fin 4, y.hriser[j] ≠ e ∧ free y.hriser[j] = false) →
        answers (.hriser pkg seq) 10 0 kept)
      ∧ (∀ n : Fin 4, (a 3).getLsbD 0 = false → y.hriser[n] = e → (∀ j : Fin 4, j < n → y.hriser[j] ≠ e) →
        answers (.hriser pkg seq) 0 0 fun u => (u.tile t).hriser[n] = 0
          ∧ ∀ j : Fin 4, j ≠ n → (u.tile t).hriser[j] = y.hriser[j]))
    ∧ (pkg < s.packages → (s.pack pkg).mail.done = true → s.bootRom = false → s.cryo.st = .warmService → a 0 = 1 →
      answers (.cryoCool pkg seq) 0 0 fun u => u.cryo = { s.cryo with cool := true } ∧ kept u ∧ u.parts = s.parts)
    ∧ (MailReady s pkg → a 0 = 1 → answers (.cryoCool pkg seq) 13 0 fun u => u.cryo = s.cryo)
    ∧ (pkg < s.packages → (s.pack pkg).mail.done = true → s.bootRom = false → s.strap = false →
      s.cryo.st ∈ [.calibrate, .coldReady, .excursion] → a 0 = 2 →
      answers (.cryoWarm pkg seq) 0 0 fun u => u.cryo = { s.cryo with warm := true } ∧ kept u ∧ u.parts = s.parts)
    ∧ (∀ c, MailReady s pkg → a 0 = 3 → (s.parts.all fun q => q.state == 2) = true →
      answers (.cryoRecal pkg seq c) 0 0 fun u => u.cryo = { s.cryo with recal := some c } ∧ kept u ∧ u.parts = s.parts)
    ∧ (∀ c, MailReady s pkg → a 0 = 3 → (s.parts.all fun q => q.state == 2) = false →
      answers (.cryoRecal pkg seq c) 13 0 fun u => u.cryo = s.cryo)
    ∧ (MailReady s pkg → (a 0).toNat % 64 = 0 →
      answers (.attest pkg seq) 0 0 fun u => kept u
        ∧ Memory.read u.mem (hostKey (a 0).toNat) 0x140 = attestBody s pkg
          ++ leBytes 96 (Config.ecdsaSign Config.deviceKey (Config.sha384 (attestBody s pkg))))
    ∧ (MailReady s pkg → answers (.svncommit pkg seq) 0 0 fun u => u.fuseSvn = max s.fuseSvn (fwSvn s.image))
    ∧ (pkg = 0 → s.cryo.st ≠ .warmOff → s.bootRom = true → (s.pack 0).mail.done = true →
      let all := Memory.read s.mem (windowKey 0 0x80000) 0x80000
      let b := all.take (0x200 + fwBodySize all)
      ∃ u, exec (.imageUpdate pkg seq) s = .next u ∧ (u.pack 0).mail.done = true ∧ (u.pack 0).mail.seq = seq % 256
        ∧ (fwAccepted s.fuseSvn b = true → u.flash = (if s.strap then s.flash else b) ∧ u.image = b ∧ u.bootRom = false)
        ∧ (fwAccepted s.fuseSvn b = false → u.flash = s.flash ∧ u.image = s.image ∧ u.bootRom = true))
    ∧ (∀ v : Dword, bits v 48 8 = seq →
      (∀ e : Nat × Instr, e ∈ [(1, Instr.openPart pkg seq), (2, .closePart pkg seq), (3, .suspend pkg seq), (4, .resume pkg seq),
        (5, .inval pkg seq), (6, .hriser pkg seq), (8, .attest pkg seq), (9, .svncommit pkg seq), (10, .imageUpdate pkg seq)] →
        bits v 56 8 = e.1 → exec (.mailboxSubmission pkg v) s = exec e.2 s)
      ∧ (bits v 56 8 = 7 → a 0 = 1 → exec (.mailboxSubmission pkg v) s = exec (.cryoCool pkg seq) s)
      ∧ (bits v 56 8 = 7 → a 0 = 2 → exec (.mailboxSubmission pkg v) s = exec (.cryoWarm pkg seq) s)
      ∧ (bits v 56 8 = 9 → MailReady s pkg →
        answers (.mailboxSubmission pkg v) 0 0 fun u => u.fuseSvn = max s.fuseSvn (fwSvn s.image))
      ∧ (bits v 56 8 = 0 ∨ 10 < bits v 56 8 → MailReady s pkg →
        answers (.mailboxSubmission pkg v) 11 0 fun u => kept u ∧ u.parts = s.parts))

/-- R189, R294-R297, R302, R303, R305: what the host and the fabric bring: mesh-window reads and writes, spawns and
signals, and accesses of the memory window enter the mesh as requests of the port, or are refused; at their homes reads
complete, with Completer Abort when rejected, and writes have no answer; flits are accepted in order and handed on, and
their acknowledgements empty the replay buffer; replays fail a link, and requests that lost their path take cause 25.
(The write trace is off. How many messages a flit holds is log 31, what a window's unaligned access does log 45, where a
host port lies log 81.) -/
def Obligations.HostAndFabric : Prop :=
  ∀ (s : State) (pkg off : Nat),
    let page := off / 2 ^ 19 % 2
    let o := off % 2 ^ 19
    let replies (pkg off status : Nat) (data : List Byte) (poisoned : Bool) : List HostReply :=
      s.hostOut ++ [{ pkg := pkg, off := off, status := status, data := data, poisoned := poisoned }]
    let sends (e : Instr) (op : Op) (home : Home) (a pid : Nat) : Prop :=
      ∃ u p, exec e s = .next u ∧ u.net = s.net ++ [p] ∧ { u with net := s.net, nextId := s.nextId } = s ∧ p.id = s.nextId ∧ p.op = op
        ∧ p.home = home ∧ p.off = a ∧ p.addr = BitVec.ofNat 64 off ∧ p.org.party = .host ∧ p.org.tile = cornerTile pkg
        ∧ p.org.pid = pid ∧ p.org.fab = false
    let drops (e : Instr) : Prop :=
      ∃ u, exec e s = .next u ∧ { u with packs := s.packs } = s ∧ (u.pack pkg).mail.hdrop = (s.pack pkg).mail.hdrop + 1
    (pkg < s.packages → off < 2 ^ 44 →
      (∀ size, page = 1 ∨ wordShape o size = false ∨ meshTarget s off = none →
        exec (.hostMeshRead pkg off size) s = .next { s with hostOut := replies pkg off 1 [] false })
      ∧ (∀ q t size, page = 0 → meshTarget s off = some (q, t) → wordShape o size = true →
        sends (.hostMeshRead pkg off size) (.load size) (.tile t) o q.pid)
      ∧ (∀ data, page = 0 → data ≠ [] → blocksOf off data.length = [(0, data.length)] → o + data.length ≤ 2 ^ 19 →
        meshTarget s off = none → drops (.hostMeshWrite pkg off data))
      ∧ (∀ q t data, page = 0 → data ≠ [] → blocksOf off data.length = [(0, data.length)] → o + data.length ≤ 2 ^ 19 →
        meshTarget s off = some (q, t) →
        sends (.hostMeshWrite pkg off data) (.store data.length (leVal data)) (.tile t) o q.pid)
      ∧ (∀ q t data, page = 1 → o = 0 → data.length = 64 → meshTarget s off = some (q, t) →
        let w (k : Nat) : Dword := BitVec.ofNat 64 (leVal ((data.drop (8 * k)).take 8))
        ∃ u p r, exec (.hostSpawnWrite pkg off data) s = .next u ∧ u.net = s.net ++ [p] ∧ u.mem = s.mem ∧ u.tiles = s.tiles
          ∧ p.op = .spawn { entry := w 0, a0 := w 1, a1 := w 2, a2 := w 3, a3 := w 4, ident := 2 ^ 63, prio := 3 }
          ∧ p.home = .tile t ∧ p.org.pid = q.pid ∧ p.org.party = .host
          ∧ u.spawns = s.spawns ++ [r] ∧ r.op = p.op ∧ r.host = some (pkg, (w 5).toNat, bits (w 6) 0 32))
      ∧ (∀ data, page = 1 → o = 0 → (data.length ≠ 64 ∨ meshTarget s off = none) → drops (.hostSpawnWrite pkg off data))
      ∧ (∀ q t data, page = 1 → o = 0x40 → data.length = 8 → meshTarget s off = some (q, t) →
        let v : Dword := BitVec.ofNat 64 (leVal data)
        sends (.hostSignalWrite pkg off data) (.rsig (bits v 16 40)) (.tile t) (8 * bits v 0 16) q.pid)
      ∧ (∀ data, page = 1 → o = 0x40 → (data.length ≠ 8 ∨ meshTarget s off = none) → drops (.hostSignalWrite pkg off data)))
    ∧ (pkg < s.packages → off / s.hbmEnd < 3 →
      let r := interleave s (off / s.hbmEnd) (off % s.hbmEnd)
      (∀ size, wordShape off size = true →
        sends (.hostMemoryAccess pkg off size none) (.load size) (.chan r.1) r.2 0)
      ∧ (∀ data, blocksOf off data.length = [(0, data.length)] → (off + data.length - 1) / s.hbmEnd = off / s.hbmEnd →
        sends (.hostMemoryAccess pkg off data.length (some data)) (.store data.length (leVal data)) (.chan r.1) r.2 0))
    ∧ (∀ (p : Packet) t, Arrives s p t → p.org.party = .host → p.org.fab = false → p.off < 0x80000 →
      (s.tile t).core.jmtrace.getLsbD 63 = false → (s.tile t).delayed = [] →
      let key := tileKey t p.off
      let port := pkgOf p.org.tile
      let performed (e : Instr) (bs : List Byte) : Prop :=
        ∃ u, exec e s = .next u ∧ Wrote s u t p.off bs ∧ u.net = s.net.filter (·.id != p.id) ∧ u.hostOut = s.hostOut
      (∀ size, p.op = .load size → rejection s p t false [(p.off, size)] false = none →
        exec (.routedLoadArrival p.id) s = .next { s with
          net := s.net.filter (·.id != p.id)
          hostOut := replies port p.addr.toNat 0 (leBytes size (s.readN key size)) (s.markedIn key size) })
      ∧ (∀ size r, p.op = .load size → rejection s p t false [(p.off, size)] false = some r →
        ∃ u, exec (.routedLoadArrival p.id) s = .next u ∧ u.hostOut = replies port p.addr.toNat 2 [] false ∧ u.mem = s.mem)
      ∧ (∀ size data, p.op = .store size data → rejection s p t true [(p.off, size)] false = none →
        (s.tile t).held t (writerOf p 0 (Nat.log2 size)) p.off size = false →
        performed (.routedStoreArrival p.id) (leBytes size data))
      ∧ (∀ n, p.op = .rsig n → rejection s p t true [(p.off, 8)] false = none → (s.tile t).held t (writerOf p 2 3) p.off 8 = false →
        performed (.riserStepArrival p.id) (leBytes 5 (bits (s.readD key) 0 40 + n))))
    ∧ (∀ port seq ack credits payload, port < 4 * s.packages → (s.link port).failed = none → seq = (s.link port).expect →
      let l := s.link port
      let unsent := l.buffer.filter (ack ≤ ·.1.seq)
      let tries := if unsent.length < l.buffer.length then 0 else l.resent
      let received (again : Bool) (b : List Packet) (q : State → Prop) : Prop :=
        ∃ u, exec (.fabricFlitReceive port ⟨seq, ack, again, credits⟩ true b) s = .next u ∧ q u
      let refused (again : Bool) (q : State → Prop) : Prop :=
        ∃ u, exec (.fabricFlitReceive port ⟨seq, ack, again, credits⟩ false payload) s = .next u ∧ q u
      (∀ again, l.replays < 8 → refused again fun u =>
        { u with links := s.links } = s ∧ u.link port = { l with replays := l.replays + 1 })
      ∧ (∀ again, 8 ≤ l.replays → s.parts = [] → refused again fun u =>
        (u.link port).failed = some s.tick ∧ ∀ d, port ∉ Assoc.get [] u.routes d)
      ∧ (∀ again, again = false ∨ unsent = [] → received again [] fun u =>
        u.link port = { l with expect := seq + 1, replays := 0, credits := credits, buffer := unsent, resent := tries })
      ∧ (unsent ≠ [] → tries < 8 → received true [] fun u =>
        u.link port =
          { l with
            expect := seq + 1, replays := 0, credits := credits, buffer := unsent, resent := tries + 1
            wire := l.wire ++ unsent })
      ∧ (unsent ≠ [] → 8 ≤ tries → s.parts = [] → received true [] fun u => (u.link port).failed = some s.tick)
      ∧ (∀ p, isReply p.op = true → received false [p] fun u =>
        u.net = s.net ++ [{ p with org := { p.org with fab := false } }] ∧ u.mem = s.mem ∧ u.tiles = s.tiles)
      ∧ (∀ p, isReply p.op = false →
        let q := { p with id := s.nextId, extId := p.id, port := port, org := { p.org with fab := true } }
        (fabricStore q = true ∨ (∃ a b, q.op = .check a b) → received false [p] fun u =>
          u.net = s.net ++ [q] ∧ u.mem = s.mem ∧ u.tiles = s.tiles)
        ∧ (∀ r, fabricStore q = false → (∀ a b, q.op ≠ .check a b) → routedIn s q = some r → received false [p] fun u =>
          u.net = s.net ++ [r] ∧ u.mem = s.mem ∧ u.tiles = s.tiles)
        ∧ (fabricStore q = false → (∀ a b, q.op ≠ .check a b) → routedIn s q = none → received false [p] fun u =>
          u.fabricOut = s.fabricOut ++ [gatewayRefusal q] ∧ u.net = s.net ∧ u.mem = s.mem ∧ u.tiles = s.tiles)))
    ∧ (∀ port f t id e (i : Fin 8), (s.link port).failed = some f → f + 2 ^ 20 ≤ s.tick → (s.link port).lost = [(t, id)] →
      (s.tiles.all fun p => (fabricWaits s p.1).all fun e => e.2.isSome) = true →
      let x := s.tile t
      let h := x.th i
      x.reqs.find? (·.id == id) = some e → e.slot = i.val → e.epoch = h.epoch → h.st ≠ .empty → e.group = none →
      e.quiet = false → (∀ g ∈ h.pend, g.cycle = x.cycle → g.age ≤ e.id) →
      ∃ u, exec (.linkFailureTimeout port) s = .next u ∧ (u.link port).lost = [] ∧ u.mem = s.mem
        ∧ (u.tile t).reqs = x.reqs.filter (·.id != e.id)
        ∧ (u.th t i).pend = h.pend ++ [{ cause := 25, val := e.target, opc := e.opc, target := e.target, reason := 5
                                         fab := true, remote := 0, ts := s.tsc, cycle := x.cycle, age := e.id }])

/-- R221, R301: a grant is cached and the channel goes on; a refusal becomes a page request and stalls it; Success
asks again, a failure fails the command with ADDR; the command's first fault starts its clock; an invalidation purges
what it names and completes once no step used it. (The messages of the translation service keep what the rules use,
log 70; they come from outside, log 5.) -/
def Obligations.PooledTranslations : Prop :=
  ∀ (s : State) (t serial page : Nat),
    let pkg := pkgOf t
    let x := s.tile t
    let asid := x.core.asid
    let c := x.chans[3]
    let chan (u : State) : Channel := (u.tile t).chans[3]
    s.inFrame t = true → (t, x) ∈ s.tiles →
    (∀ host w, c.ask = some (serial, page) →
      ∃ u, exec (.atsTranslationResponse pkg asid page (some (host, w))) s = .next u ∧ u.mem = s.mem
        ∧ (u.pack pkg).atc.head? = some (asid, page, host, w) ∧ chan u = { c with ask := none })
    ∧ (c.ask = some (serial, page) → c.stall = none →
      ∃ u, exec (.atsTranslationResponse pkg asid page none) s = .next u ∧ u.mem = s.mem
        ∧ (u.pack pkg).atc = (s.pack pkg).atc ∧ (asid, page) ∈ (u.pack pkg).paged
        ∧ chan u = { c with
          ask := none, stall := some (serial, page)
          started := c.started.map fun r =>
            if r.cmd.serial = serial then { r with faulted := r.faulted.or (some s.tick) } else r })
    ∧ (c.stall = some (serial, page) → (s.pack pkg).paged.any (· == (asid, page)) = true →
      (∃ u, exec (.pooledPageResident t) s = .next u ∧ u.mem = s.mem ∧ chan u = { c with ask := some (serial, page) }
        ∧ (u.pack pkg).paged = (s.pack pkg).paged.filter (· != (asid, page)))
      ∧ (asidTiles s pkg asid = [t] →
        ∃ u, exec (.pageRequestResponseFailure pkg asid page) s = .next u ∧ u.mem = s.mem ∧ (chan u).stall = none
          ∧ (chan u).started = c.started.map fun r => if r.cmd.serial = serial then r.fails 1 1 else r))
    ∧ (∀ n, s.uio = [] →
      ∃ u, exec (.atsInvalidationRequest pkg asid page n) s = .next u ∧ u.mem = s.mem ∧ u.tiles = s.tiles
        ∧ (∀ e ∈ (u.pack pkg).atc, ¬(e.1 = asid ∧ page ≤ e.2.1 ∧ e.2.1 < page + n))
        ∧ (u.pack pkg).purges = []
        ∧ u.hostOut = s.hostOut ++ ((s.pack pkg).purges ++ [(asid, page, n)]).map fun q => { pkg := pkg, off := q.2.1 })

/-- R3, R267, R309, R312-R314, R323-R327: guard bands rise and islands wear; the daily history; the patrol scrub; the
power states of an idle island and its wake; shares, throttling and the envelope; a failed known-answer test is counted
and, run again, fences the class. (The model's choices: HEALTH events at the cores of a worn island and of a fenced
class, log 39; the envelope's thresholds of LK64Q-77, log 77; that the islands of the corner cores never reach state 3,
log 80; EOLDAYS and the scale, logs 59 and 64; lists that are full, log 63.) -/
def Obligations.HealthAndPower : Prop :=
  ∀ (s : State) (n : Nat),
    let i := s.island n
    let isles (u : State) (k : Island) : Prop := { u with islands := s.islands } = s ∧ u.island n = k
    (s.cryo.band ≤ 1 → s.tick % 1250000000 = 0 → s.strap = false → s.cryo.st ≠ .warmOff →
      let m := leastOf i.margins
      let g := if m < 40 ∧ i.guard < 80 then min 80 (i.guard + 5) else i.guard
      let wears := m < 20 ∧ g = 80 ∧ i.worn = false
      let k := { i with guard := g, vdd := 380 + g + (if s.cryo.band = 0 then 0 else 20) }
      ∃ u, exec (.guardAdjust n []) s = .next u ∧ { u with islands := s.islands, tiles := s.tiles } = s
        ∧ u.island n = (if wears then { k with worn := true } else k)
        ∧ ∀ t, let x := s.tile t
          u.tile t = if islandOf t = n ∧ x.enabled = true then
            { x with
              unscreened := (x.unscreened || decide wears) && s.inOpen t
              evpend := if wears then x.evpend ||| 0x20 else x.evpend }
          else x)
    ∧ (s.tick % 108000000000000 = 0 → s.strap = false → s.cryo.st ≠ .warmOff →
      ∃ u, exec (.eolFit n) s = .next u ∧ { u with islands := s.islands } = s
      ∧ (u.island n).daily = (i.guard :: i.daily).take 90 ∧ (u.island n).guard = i.guard
      ∧ (i.daily.length < 89 → (u.island n).eolDays = 0xFFFFFFFF))
    ∧ (∀ power, n / 256 < s.packages → s.tick % 12500 = 0 →
      let share := shareOf s n
      let k := if share < power then max 4 (i.throttle - 1)
        else if 10 * power < 9 * share then min 16 (i.throttle + 1) else i.throttle
      ∃ u, exec (.shareGrant (n / 256) [(n, power)]) s = .next u ∧ u.island n = { i with share := share, throttle := k }
        ∧ (∀ j, j < 256 → j ≠ n % 256 →
          u.island (n / 256 * 256 + j) = { s.island (n / 256 * 256 + j) with share := shareOf s (n / 256 * 256 + j) })
        ∧ (u.pack (n / 256)).power = power
        ∧ (u.pack (n / 256)).share = (upTo 256).foldl (fun a j => a + shareOf s (n / 256 * 256 + j)) 0
        ∧ u.tiles = s.tiles ∧ u.mem = s.mem)
    ∧ (∀ power, s.tick % 125000 = 0 → ∃ u, exec (.envelopeCheck power) s = .next u ∧ u.tiles = s.tiles ∧ u.mem = s.mem
      ∧ (∀ p v, power = [(p, v)] → p < s.packages → (u.pack p).power = v)
      ∧ let sum := (upTo s.packages).foldl (fun a p => a + (u.pack p).power) 0
        let scaled (low high : Nat) : Nat := if sum < low then 0 else if s.scale ≠ 0 ∨ high < sum then s.scale + 1 else 0
        (s.code = .lk1024n → u.scale = scaled 16500000 17500000)
          ∧ (s.code = .lk64q → u.scale = if 36 * sum < 33 * 1200000 then 0
            else if s.scale ≠ 0 ∨ 35 * 1200000 < 36 * sum then s.scale + 1 else 0))
    ∧ (let ts := islandCores s n
      let p := deepest s n ts
      i.waking = none → ts ≠ [] → islandIdle s ts = true → i.pstate < p →
      ∃ u, exec (.islandPowerDown n) s = .next u ∧ u.island n = { i with pstate := p }
        ∧ (p ≠ 3 → u.tiles = s.tiles ∧ u.mem = s.mem)
        ∧ (p = 3 → ∀ t ∈ ts, (u.tile t).threads = Vector.replicate 8 {} ∧ (u.tile t).router = (s.tile t).router))
    ∧ (let ts := islandCores s n
      let owners := s.parts.filter fun q => ts.any fun t => (s.tile t).core.pid == q.pid
      let corner := (upTo s.packages).any fun p => islandOf (cornerTile p) == n
      (owners = [] → deepest s n ts = if ts.any fun t => waitsHere (s.tile t) then 1 else if corner then 2 else 3)
      ∧ ((∃ q ∈ owners, q.hostlat < 40) → deepest s n ts = 0)
      ∧ (owners ≠ [] → (∀ q ∈ owners, 4000 ≤ q.hostlat ∧ q.hostlat < 2 ^ 32) → deepest s n ts =
        if ts.any fun t => waitsHere (s.tile t) then 1 else 2))
    ∧ (i.pstate ≠ 0 → i.waking = none → (islandCores s n).any (deliveryWaits s) = true →
      let ticks := if i.pstate = 1 then 50 else if i.pstate = 2 then 5000 else 500000
      ∃ u, exec (.islandWake n) s = .next u ∧ isles u { i with waking := some (s.tick + ticks) })
    ∧ (∀ w, i.waking = some w → w ≤ s.tick → (∀ p, p < s.packages → (s.pack p).mail.done = true) →
      ∃ u, exec (.islandWakeComplete n) s = .next u ∧ isles u { i with pstate := 0, waking := none })
    ∧ (∀ chan addr,
      let t := chanTile chan
      let x := s.tile t
      let y := { x with scrubPtr := (addr + 8) % 2 ^ 30 }
      s.inFrame t = true → x.scrubPtr = addr → x.pcPowered = true →
      (∃ u, exec (.patrolScrubStep chan addr 0) s = .next u ∧ u.tile t = y ∧ u.mem = s.mem ∧ u.marks = s.marks)
      ∧ (n = islandOf t → ∃ u, exec (.patrolScrubStep chan addr 1) s = .next u ∧ u.tile t = y
        ∧ u.island n = { i with ceCount := (i.ceCount + 1) % 2 ^ 32 } ∧ u.marks = s.marks)
      ∧ ∃ u, exec (.patrolScrubStep chan addr 2) s = .next u ∧ u.marked (hbmKey chan addr) = true ∧ u.mem = s.mem
        ∧ (u.tile t).ueCount = (x.ueCount + 1) % 2 ^ 32 ∧ (u.tile t).elhead = (x.elhead + 1) % 2 ^ 64
        ∧ (u.tile t).scrubPtr = y.scrubPtr ∧ (u.tile t).evpend.getLsbD 2 = true)
    ∧ (∀ t cls,
      let x := s.tile t
      s.inFrame t = true → x.enabled = true → s.strap = false → s.inOpen t = false →
      x.partTick + 60 * 1250000000 ≤ s.tick → x.tested + 86400 * 1250000000 < s.tick →
      (∃ u, exec (.periodicTest t []) s = .next u ∧ u.tile t = { x with tested := s.tick })
      ∧ (cls < 18 → x.core.jcaps.getLsbD cls = true → Assoc.get 0 x.transient cls < 2 →
        ∃ u, exec (.periodicTest t [(cls, false)]) s = .next u ∧ (u.tile t).core = x.core ∧ (u.tile t).tested = s.tick
          ∧ Assoc.get 0 (u.tile t).transient cls = Assoc.get 0 x.transient cls + 1)
      ∧ (cls < 18 → x.core.jcaps.getLsbD cls = true → (s.pack (pkgOf t)).deconf.length < 1023 →
        ∃ u, exec (.periodicTest t [(cls, true)]) s = .next u
          ∧ (u.tile t).core = { x.core with jcaps := x.core.jcaps &&& ~~~(BitVec.ofNat 64 (2 ^ cls)) }
          ∧ (u.tile t).evpend = x.evpend ||| 0x20
          ∧ (u.pack (pkgOf t)).deconf = (s.pack (pkgOf t)).deconf ++ [deconfEntry 2 cls t]))

/-- R317, R319, R320, R328, R333-R335: what loss of power keeps, and power-on; each 1 ms sample decides the band and one
transition; SOAK ends in CALIBRATE at a sample, and so does an accepted RECAL; PRECOOL times out; a lattice responder
writes routers, sends, receives, starts its core, and takes cause 7 where its RCFG does. (The model's choices: what is
decided at the sample, log 58; the dwell of each band, log 59; CALIBRATE as one event, logs 60 and 62; the tasks of a
responder, log 61, and the pc that its trap saves, log 3; what outlives the carrier's power, logs 7 and 65.) -/
def Obligations.CryoAndBoot : Prop :=
  ∀ (s : State),
    (s.wf → ∃ u, exec .carrierPowerOff s = .next u ∧ (∀ k, k < 2 ^ 65 → u.byte k = 0) ∧ u.parts = [] ∧ u.net = [] ∧ u.cryo.st = .warmOff
      ∧ u.fuseSvn = s.fuseSvn ∧ u.flash = s.flash ∧ u.gen = s.gen
      ∧ (∀ t, u.tile t = { ({} : Tile) with fused := (s.tile t).fused, unscreened := (s.tile t).unscreened })
      ∧ ∀ p, (u.pack p).deconf = (s.pack p).deconf ∧ (u.pack p).mail = {})
    ∧ (∀ strap, s.cryo.st = .warmOff → ∃ u, exec (.carrierPowerOn strap) s = .next u ∧ u.tick = 0 ∧ u.strap = strap
      ∧ u.cryo.st = .warmService ∧ u.tiles = s.tiles ∧ u.mem = s.mem
      ∧ (if fwAccepted s.fuseSvn s.flash then u.bootRom = false ∧ u.image = s.flash else u.bootRom = true ∧ u.image = []))
    ∧ (∀ y : Sensors, s.cryo.st ≠ .warmOff → s.tick % 1250000 = 0 → s.cryo.recal = none →
      let x := { y with tmax := y.islands.foldl (fun m i => max m i.2.1) (max y.hbm y.carrierMax) }
      let c := s.cryo.sampled x s.tick
      let kept := (x.carrierMax :: s.cryo.carrier).take 60001
      let ramp : Int := (x.carrierMax : Int) - kept.getLastD x.carrierMax
      let next : CryoState :=
        match s.cryo.st with
        | .warmOff => .warmOff
        | .warmService => if s.cryo.cool ∧ x.carrierMax ≤ 300000 then .precool else .warmService
        | .precool => if x.tmax ≤ 280000 then .cooldown
          else if s.cryo.precoolAt + 3600 * 1250000000 ≤ s.tick then .warmService
          else if 2000 < x.carrierMax - x.carrierMin then .warmService else .precool
        | .cooldown => if x.tmax ≤ 80000 then .soak else .cooldown
        | .soak => .soak
        | .calibrate => if 85000 < x.tmax then .soak else if s.cryo.warm then .warmup else .calibrate
        | .coldReady => if c.band ≠ 0 then .excursion else if s.cryo.warm then .warmup else .coldReady
        | .excursion => if c.band = 0 ∧ c.bandASince + 60 * 1250000000 ≤ s.tick then .coldReady
          else if c.band = 3 ∨ s.cryo.warm then .warmup else .excursion
        | .warmup => if 280000 ≤ x.carrierMin then .warmService else .warmup
      ∃ u, exec (.tmaxSample y) s = .next u ∧ u.cryo.st = next ∧ u.cryo.last = x ∧ u.cryo.band = c.band
        ∧ u.cryo.carrier = kept
        ∧ u.cryo.rampViol = (s.cryo.rampViol || decide ((if 150000 < x.carrierMax then 3000 else 6000) < ramp.natAbs))
        ∧ (s.cryo.st = .precool → next = .warmService → (u.pack 0).mail.nhead = (s.pack 0).mail.nhead + 1)
        ∧ (s.cryo.st = .excursion → next = .coldReady → u.cryo.warm = s.cryo.warm)
        ∧ (2 ≤ c.band → ∀ q ∈ u.parts, q.state = 1 → q.stopping.isSome = true)
        ∧ (180000 < x.tmax → u.cryo.band = 3)
        ∧ (x.tmax ≤ 85000 → s.cryo.band = 0 → u.cryo.band = 0)
        ∧ (s.cryo.st = .cooldown ∨ s.cryo.st = .calibrate → next = .soak →
          u.cryo.soakEnd = s.tick + (if u.cryo.rampViol then 2400 else 1200) * 1250000000))
    ∧ (∀ (y : Sensors) c, s.cryo.st = .coldReady → s.tick % 1250000 = 0 → s.cryo.recal = some c → s.cryo.warm = false →
      s.cryo.band = 0 → (∀ i ∈ y.islands, i.2.1 ≤ 85000) → y.hbm ≤ 85000 → y.carrierMax ≤ 85000 →
      ((s.parts.all fun q => q.state == 2) = true → c.failStep = 1 →
        ∃ u, exec (.tmaxSample y) s = .next u ∧ u.cryo.st = .calibrate ∧ u.fwResident = false)
      ∧ ((s.parts.all fun q => q.state == 2) = false →
        ∃ u, exec (.tmaxSample y) s = .next u ∧ u.cryo.st = .coldReady ∧ u.cryo.recal = none))
    ∧ (∀ c, s.tick % 1250000 = 0 → s.cryo.st = .soak → s.cryo.soakEnd ≤ s.tick → c.failStep = 1 →
      ∃ u, exec (.soakTimerExpiry c) s = .next u ∧ u.cryo.st = .calibrate ∧ u.fwResident = false ∧ u.tiles = s.tiles)
    ∧ (∀ c, s.tick % 1250000 = 0 → s.cryo.st = .soak → s.cryo.soakEnd ≤ s.tick → c.failStep = 0 → s.strap = true →
      ∃ u, exec (.soakTimerExpiry c) s = .next u ∧ u.cryo.st = .coldReady ∧ u.cryo.hbmKept = true ∧ u.fwResident = false)
    ∧ (∀ c, s.tick % 1250000 = 0 → s.cryo.st = .soak → s.cryo.soakEnd ≤ s.tick → c.failStep = 0 → s.strap = false →
      let s1 := { State.powerUp { s with fwResident := false, cryo := { s.cryo with st := .calibrate } } c (allTiles s) with bootRom := false }
      let map := s1.newMap
      64 ≤ map.2.foldl (· + ·) 0 →
      ∃ u, exec (.soakTimerExpiry c) s = .next u ∧ u.cryo.st = .coldReady ∧ u.cryo.hbmKept = true ∧ u.fwResident = true
        ∧ u.widths = map.2 ∧ u.lastMap = map ∧ u.gen = if map = s.lastMap then s.gen else (s.gen + 1) % 65536)
    ∧ (s.tick % 1250000 = 0 → s.cryo.st = .precool → s.cryo.precoolAt + 3600 * 1250000000 ≤ s.tick → 280000 < s.cryo.last.tmax →
      ∃ u, exec .precoolTimeout s = .next u ∧ u.cryo = { s.cryo with st := .warmService, cool := false, recal := none, warm := false }
        ∧ (u.pack 0).mail.nhead = (s.pack 0).mail.nhead + 1 ∧ u.tiles = s.tiles)
    ∧ (∀ t r rest, s.inFrame t = true → (s.tile t).lattice = some r →
      let x := s.tile t
      let way (u : Nat) : Dword := if u = t then 0 else if u = t + 1 then 2 else 4
      (∀ u w, r.todo = .cfg u w :: rest → u ≠ t → rcfgReaches s t u (way u) = true → (s.tile u).router.getLsbD 63 = false →
        ∃ v, exec (.latticeResponder t) s = .next v ∧ v.mem = s.mem ∧ v.tile u = writeRouter (s.tile u) w
          ∧ v.tile t = { x with lattice := some { r with todo := rest } })
      ∧ (∀ u w, r.todo = .cfg u w :: rest → rcfgReaches s t u (way u) = false ∨ (s.tile u).router.getLsbD 63 = true →
        (s.th t 0).mode = .machine →
        ∃ v, exec (.latticeResponder t) s = .next v ∧ v.mem = s.mem ∧ (v.tile t).lattice = none ∧ (v.th t 0).mcause = 7
          ∧ (v.th t 0).mtval = way u ∧ (v.th t 0).pc = mEntry (s.th t 0).mtvec)
      ∧ (∀ b, r.todo = .send b 1 :: rest → latWord b 0 = 4 → receiver s s.side t 1 0 = none →
        ∃ v, exec (.latticeResponder t) s = .next v ∧ v.mem = s.mem ∧ (v.tile t).lattice = none
          ∧ (latWord b 3 - 1 < r.w →
            (v.th t 0).pc = BitVec.ofNat 64 (5 * 2 ^ 60 + latWord b 4 % 2 ^ 15) ∧ (v.th t 0).fbuf = [])
          ∧ (r.w ≤ latWord b 3 - 1 → (v.th t 0).st = .empty))
      ∧ (∀ b dir, r.todo = .send b dir :: rest → dir ≠ 1 → receiver s s.side t dir 0 = none →
        ∃ v, exec (.latticeResponder t) s = .next v ∧ v.mem = s.mem
          ∧ v.tile t = { x with lattice := some { r with todo := rest, south := if dir = 2 then 2 else r.south } })
      ∧ (∀ b dir u skip n, r.todo = .send b dir :: rest → dir ≠ 1 → b.length = 64 → receiver s s.side t dir 0 = some (u, skip) →
        freePacket s u = some n → u < 2 ^ 40 →
        (s.awake u = false → exec (.latticeResponder t) s = .next s)
        ∧ (s.awake u = true → (s.tile u).delayed = [] →
          (packetSpans n).all (fun p => !(s.tile u).held u (latWriter s t 6) p.1 p.2) = true →
        ∃ v, exec (.latticeResponder t) s = .next v ∧ Memory.read v.mem (tileKey u (0x87E00 + 64 * n)) 64 = b
          ∧ (v.tile u).evpend.getLsbD 0 = true))
      ∧ (∀ n, r.todo = [] → validPacket s t = some n → t < 2 ^ 40 → x.delayed = [] →
        x.held t (latWriter s t 3) (0x87F00 + 8 * n) 8 = false →
        ∃ v, exec (.latticeResponder t) s = .next v ∧ v.readD (tileKey t (0x87F00 + 8 * n)) = 0
          ∧ (v.tile t).core = x.core ∧ (v.tile t).router = x.router ∧ (v.tile t).evpend = x.evpend
          ∧ (v.tile t).matrix.accs = x.matrix.accs ∧ ∀ i : Fin 8, sameRegs (s.th t i) (v.th t i)))

/-- R100, R101, R109: the word of every well-formed instruction decodes to it, and so do its four bytes in memory, low
byte first: no field of an encoding is dropped. -/
def Obligations.DecodeInvertsEncode : Prop :=
  ∀ i w, wellFormed i = true → encodeWord i = some w →
    decodeWord w = .ok i ∧ ∀ rest, decode (leBytes 4 w.toNat ++ rest) = .ok (i, rest)

/-- R100, R101, R109, R119: every word that decodes is the word of the instruction it decodes to, which is well formed:
no two words stand for one instruction, and a word whose fields break a rule of R101 decodes to none. -/
def Obligations.EncodeInvertsDecode : Prop := ∀ w i, decodeWord w = .ok i → wellFormed i = true ∧ encodeWord i = some w

/-- R100, R118, R119, R133, R140: words written out from the tables of the spec, and what they stand for; a word of 16
bits, one of a longer encoding, an OP word of another funct7, a shift of another imm[11:6] and a 32-bit shift with
imm[5] = 1 stand for nothing. -/
def Obligations.WordsDecode : Prop :=
  decodeWord 0x12345 = .error .compressed ∧ decodeWord 0x1F = .error .longer
    ∧ decodeWord 0b1111111_11111_00001_000_00101_0010011#32 = .ok (.addi 5 1 0xFFF)
    ∧ decodeWord 0b0000000_00011_00010_000_00001_0110011#32 = .ok (.add 1 2 3)
    ∧ decodeWord 0b0000000_00010_00001_000_01000_1100011#32 = .ok (.beq 1 2 4)
    ∧ decodeWord 0b00010010001101000101_00111_0110111#32 = .ok (.lui 7 0x12345)
    ∧ decodeWord 0b000000010000_00100_011_00011_0000011#32 = .ok (.ld 3 4 16)
    ∧ decodeWord 0b0011000_00010_00000_000_00000_1110011#32 = .ok .mret
    ∧ decodeWord 0b00000_11_00011_00010_011_00001_0101111#32 = .ok (.amoaddD 1 2 3 true true)
    ∧ decodeWord 0x13 = .ok (.addi 0 0 0)
    ∧ ∀ w ∈ [0b0000010_00011_00010_000_00001_0110011#32, 0b0100000_00011_00010_111_00001_0110011#32,
        0b000001_000011_00010_001_00001_0010011#32, 0b0000001_00011_00010_001_00001_0011011#32],
      (decodeWord w).toOption = none

/-- The state after reset, where the spec gives the value: the carrier has no power (R320), the mailbox is ready (R291),
MODBUDGET is 14,000 W (R307), EOLDAYS all ones (R312); and a core after core reset has every slot EMPTY with its CSRs at
their reset values (R97-R99). Memory and the list of tiles are in their forms. -/
def Obligations.ResetIsWellFormed : Prop :=
  let s := State.reset
  s.wf ∧ s.cryo.st = .warmOff ∧ s.tick = 0 ∧ s.modBudget = 14000000 ∧ s.parts = [] ∧ s.net = []
    ∧ (∀ p, (s.pack p).mail.done = true ∧ (s.pack p).mail.result = 0 ∧ (s.pack p).mail.hdrop = 0)
    ∧ (∀ i, (s.island i).eolDays = 0xFFFFFFFF ∧ (s.island i).worn = false)
    ∧ ∀ (x : Tile) (t : Nat) (i : Fin 8),
      let y := x.coreReset t
      let h := y.th i
      h.st = .empty ∧ h.mstatus = 0x200000000 ∧ h.mie = 0 ∧ h.mtvec = 0 ∧ h.mscratch = 0 ∧ h.mcause = 0 ∧ h.jutvec = 0
        ∧ h.jutcause = 0 ∧ h.jmgate = 0 ∧ h.jrmark = 0 ∧ h.resv = none ∧ y.cycle = 0 ∧ y.evpend = 0
        ∧ y.core.jmdeleg = 0 ∧ y.core.jmtrace = 0 ∧ y.core.jmtrhead = 0

/-- Every step keeps memory in its canonical form and the tiles listed once, in order. (The form of memory and its
keys are the model's, logs 1 and 71, as is the agenda by which steps follow, log 4.) -/
def Obligations.StepKeepsForm : Prop := ∀ s t : State, s.wf → step s = .next t → t.wf

/-- The model's step (log 4): the next event of the agenda; after an issue has fetched a word, the instruction it
decodes to, or the illegal-instruction trap of R100, and then the local accesses of vector instructions in the slots
above (R182); with the agenda at its end, the next tick. -/
def Obligations.StepRunsDecoded : Prop :=
  (∀ s, s.agenda = [] → step s = .next s.nextTick)
    ∧ (∀ s u e rest, s.agenda = e :: rest → exec e { s with agenda := rest } = .next u →
      (u.latch = false → step s = .next u)
      ∧ (∀ i, u.latch = true → decodeWord u.cur.word = .ok i → step s = thenAbove u.cur (exec i { u with latch := false }))
      ∧ (∀ er, u.latch = true → decodeWord u.cur.word = .error er →
        step s = thenAbove u.cur (.next { u with latch := false }.illegal)))
    ∧ (∀ (c : Cursor) (v : State), thenAbove c (.next v) = .next (v.vecSteps c.tile ((upTo 8).filter (c.slot.val < ·))))
    ∧ (∀ (s : State) t l, (∀ i ∈ l, ((s.th t (slotIx i)).st = .unit → (s.th t (slotIx i)).vec = none)) → s.vecSteps t l = s)
    ∧ ∀ (s : State) (t : Nat) (k : Fin 8) (off : Nat) (i : Instr) (rest : List Instr),
      let x := s.tile t
      let h := x.th k
      s.agenda = .issueSelect t :: rest → s.inFrame t = true → s.awake t = true → x.tstate = 1 →
      (s.island (islandOf t)).throttle = 16 → x.halted = false → x.lattice = none → x.evpend = 0 → x.reqs = [] → x.groups = [] →
      x.divider = none → (∀ j, j ≠ k → (x.th j).st = .empty) →
      h.st = .ready → h.need = .none → h.pend = [] → h.fwTrap = none → h.firmware = false → 0 < h.budget → h.wait = 0 →
      h.lat = [] → h.vlat = [] → h.acquire = false → h.fbuf = [] →
      fetchPlace x.core h = .ok off → s.markedIn (tileKey t off) 4 = false →
      decodeWord (BitVec.ofNat 32 (s.readN (tileKey t off) 4)) = .ok i →
      ∃ u, step s = thenAbove u.cur (exec i u) ∧ u.cur.tile = t ∧ u.cur.slot = k ∧ u.me = h ∧ u.mem = s.mem ∧ u.agenda = rest
        ∧ u.here.core = x.core ∧ u.here.cycle = x.cycle + 1

/-- R266: taking a trap. A delegated cause goes to the thread's own handler with jutepc, jutcause and jutval, holds
UHOLD and stays in U-mode; any other goes to machine mode with mepc, mcause, mtval and the old status saved; the fault
record lands where the rule says, and nothing else of the general registers or of memory changes. -/
def Obligations.TrapEntry : Prop :=
  ∀ (s : State) (cause : Nat) (epc val : Dword) (rec : Option FaultRec) (int : Bool),
    let u := s.takeTrap cause epc val rec int
    let base := 4 * bits s.me.jutvec 2 17
    let own : Bool := !int && s.me.mode == .user && decide (s.cur.slot.val < 6) && s.here.core.jmdeleg.getLsbD cause
      && decide (8 ≤ bits s.me.jutvec 2 17) && !s.me.uhold && epc != BitVec.ofNat 64 base
    u.me.resv = none ∧ (∀ r, u.rx r = s.rx r) ∧ u.me.st = .ready
      ∧ (own = true → u.me.jutepc = epc &&& 0xFFFFFFFFFFFFFFFC ∧ u.me.jutcause = BitVec.ofNat 64 cause ∧ u.me.jutval = val
        ∧ u.me.uhold = true ∧ u.me.pc = BitVec.ofNat 64 base ∧ u.me.mode = .user ∧ u.me.mepc = s.me.mepc
        ∧ u.me.mcause = s.me.mcause ∧ u.me.mtval = s.me.mtval ∧ u.me.mstatus = s.me.mstatus)
      ∧ (own = false → u.me.mepc = epc &&& 0xFFFFFFFFFFFFFFFC
        ∧ u.me.mcause = BitVec.ofNat 64 ((if int then 2 ^ 63 else 0) + cause) ∧ u.me.mtval = val
        ∧ u.me.mstatus = mkStatus s.me.mode (s.me.mstatus.getLsbD 3) false ∧ u.me.mode = .machine
        ∧ u.me.pc = BitVec.ofNat 64 (0x5000000000000000 + 4 * bits s.me.mtvec 2 13) ∧ u.me.jutepc = s.me.jutepc
        ∧ u.me.jutcause = s.me.jutcause ∧ u.me.uhold = s.me.uhold)
      ∧ (rec = none → u.mem = s.mem)
      ∧ (∀ f, rec = some f →
        Wrote s u s.cur.tile (if own then base - 32 else 0x87C00 + 32 * s.cur.slot.val) f.bytes)
end

