-- ==== Sys2Proof/Laws/State.lean ====
section
/-!
SUPPORT. What each update of the state, of a tile and of a thread leaves alone: one lemma per field per update.
-/
namespace Sys2Proof.Machine

@[simp] theorem State.setTile_code (s : State) (t : Nat) (x : Tile) : (s.setTile t x).code = s.code := rfl
@[simp] theorem State.setTile_tick (s : State) (t : Nat) (x : Tile) : (s.setTile t x).tick = s.tick := rfl
@[simp] theorem State.setTile_mem (s : State) (t : Nat) (x : Tile) : (s.setTile t x).mem = s.mem := rfl
@[simp] theorem State.setTile_marks (s : State) (t : Nat) (x : Tile) : (s.setTile t x).marks = s.marks := rfl
@[simp] theorem State.setTile_nextId (s : State) (t : Nat) (x : Tile) : (s.setTile t x).nextId = s.nextId := rfl
@[simp] theorem State.setTile_free (s : State) (t : Nat) (x : Tile) : (s.setTile t x).free = s.free := rfl
@[simp] theorem State.setTile_cur (s : State) (t : Nat) (x : Tile) : (s.setTile t x).cur = s.cur := rfl
@[simp] theorem State.setTile_latch (s : State) (t : Nat) (x : Tile) : (s.setTile t x).latch = s.latch := rfl
@[simp] theorem State.setTile_agenda (s : State) (t : Nat) (x : Tile) : (s.setTile t x).agenda = s.agenda := rfl
@[simp] theorem State.setTile_net (s : State) (t : Nat) (x : Tile) : (s.setTile t x).net = s.net := rfl
@[simp] theorem State.setTile_gen (s : State) (t : Nat) (x : Tile) : (s.setTile t x).gen = s.gen := rfl
@[simp] theorem State.setTile_widths (s : State) (t : Nat) (x : Tile) : (s.setTile t x).widths = s.widths := rfl
@[simp] theorem State.setTile_lastMap (s : State) (t : Nat) (x : Tile) : (s.setTile t x).lastMap = s.lastMap := rfl
@[simp] theorem State.setTile_islands (s : State) (t : Nat) (x : Tile) : (s.setTile t x).islands = s.islands := rfl
@[simp] theorem State.setTile_deadLinks (s : State) (t : Nat) (x : Tile) : (s.setTile t x).deadLinks = s.deadLinks := rfl
@[simp] theorem State.setTile_spawns (s : State) (t : Nat) (x : Tile) : (s.setTile t x).spawns = s.spawns := rfl
@[simp] theorem State.setTile_rounds (s : State) (t : Nat) (x : Tile) : (s.setTile t x).rounds = s.rounds := rfl
@[simp] theorem State.setTile_walks (s : State) (t : Nat) (x : Tile) : (s.setTile t x).walks = s.walks := rfl
@[simp] theorem State.setTile_dieTlb (s : State) (t : Nat) (x : Tile) : (s.setTile t x).dieTlb = s.dieTlb := rfl
@[simp] theorem State.setTile_fabricOut (s : State) (t : Nat) (x : Tile) : (s.setTile t x).fabricOut = s.fabricOut := rfl
@[simp] theorem State.setTile_uio (s : State) (t : Nat) (x : Tile) : (s.setTile t x).uio = s.uio := rfl
@[simp] theorem State.setTile_hostOut (s : State) (t : Nat) (x : Tile) : (s.setTile t x).hostOut = s.hostOut := rfl
@[simp] theorem State.setTile_packs (s : State) (t : Nat) (x : Tile) : (s.setTile t x).packs = s.packs := rfl
@[simp] theorem State.setTile_parts (s : State) (t : Nat) (x : Tile) : (s.setTile t x).parts = s.parts := rfl
@[simp] theorem State.setTile_saves (s : State) (t : Nat) (x : Tile) : (s.setTile t x).saves = s.saves := rfl
@[simp] theorem State.setTile_links (s : State) (t : Nat) (x : Tile) : (s.setTile t x).links = s.links := rfl
@[simp] theorem State.setTile_routes (s : State) (t : Nat) (x : Tile) : (s.setTile t x).routes = s.routes := rfl
@[simp] theorem State.setTile_receive (s : State) (t : Nat) (x : Tile) : (s.setTile t x).receive = s.receive := rfl
@[simp] theorem State.setTile_uncounted (s : State) (t : Nat) (x : Tile) : (s.setTile t x).uncounted = s.uncounted := rfl
@[simp] theorem State.setTile_cryo (s : State) (t : Nat) (x : Tile) : (s.setTile t x).cryo = s.cryo := rfl
@[simp] theorem State.setTile_modBudget (s : State) (t : Nat) (x : Tile) : (s.setTile t x).modBudget = s.modBudget := rfl
@[simp] theorem State.setTile_scale (s : State) (t : Nat) (x : Tile) : (s.setTile t x).scale = s.scale := rfl
@[simp] theorem State.setTile_fuseSvn (s : State) (t : Nat) (x : Tile) : (s.setTile t x).fuseSvn = s.fuseSvn := rfl
@[simp] theorem State.setTile_flash (s : State) (t : Nat) (x : Tile) : (s.setTile t x).flash = s.flash := rfl
@[simp] theorem State.setTile_image (s : State) (t : Nat) (x : Tile) : (s.setTile t x).image = s.image := rfl
@[simp] theorem State.setTile_bootRom (s : State) (t : Nat) (x : Tile) : (s.setTile t x).bootRom = s.bootRom := rfl
@[simp] theorem State.setTile_fwResident (s : State) (t : Nat) (x : Tile) : (s.setTile t x).fwResident = s.fwResident := rfl
@[simp] theorem State.setTile_strap (s : State) (t : Nat) (x : Tile) : (s.setTile t x).strap = s.strap := rfl
@[simp] theorem State.setTile_nextPid (s : State) (t : Nat) (x : Tile) : (s.setTile t x).nextPid = s.nextPid := rfl
@[simp] theorem State.setTile_invals (s : State) (t : Nat) (x : Tile) : (s.setTile t x).invals = s.invals := rfl
@[simp] theorem State.setTile_msix (s : State) (t : Nat) (x : Tile) : (s.setTile t x).msix = s.msix := rfl
@[simp] theorem State.modTile_code (s : State) (t : Nat) (f : Tile → Tile) : (s.modTile t f).code = s.code := rfl
@[simp] theorem State.modTile_tick (s : State) (t : Nat) (f : Tile → Tile) : (s.modTile t f).tick = s.tick := rfl
@[simp] theorem State.modTile_mem (s : State) (t : Nat) (f : Tile → Tile) : (s.modTile t f).mem = s.mem := rfl
@[simp] theorem State.modTile_marks (s : State) (t : Nat) (f : Tile → Tile) : (s.modTile t f).marks = s.marks := rfl
@[simp] theorem State.modTile_nextId (s : State) (t : Nat) (f : Tile → Tile) : (s.modTile t f).nextId = s.nextId := rfl
@[simp] theorem State.modTile_free (s : State) (t : Nat) (f : Tile → Tile) : (s.modTile t f).free = s.free := rfl
@[simp] theorem State.modTile_cur (s : State) (t : Nat) (f : Tile → Tile) : (s.modTile t f).cur = s.cur := rfl
@[simp] theorem State.modTile_latch (s : State) (t : Nat) (f : Tile → Tile) : (s.modTile t f).latch = s.latch := rfl
@[simp] theorem State.modTile_agenda (s : State) (t : Nat) (f : Tile → Tile) : (s.modTile t f).agenda = s.agenda := rfl
@[simp] theorem State.modTile_net (s : State) (t : Nat) (f : Tile → Tile) : (s.modTile t f).net = s.net := rfl
@[simp] theorem State.modTile_gen (s : State) (t : Nat) (f : Tile → Tile) : (s.modTile t f).gen = s.gen := rfl
@[simp] theorem State.modTile_widths (s : State) (t : Nat) (f : Tile → Tile) : (s.modTile t f).widths = s.widths := rfl
@[simp] theorem State.modTile_lastMap (s : State) (t : Nat) (f : Tile → Tile) : (s.modTile t f).lastMap = s.lastMap := rfl
@[simp] theorem State.modTile_islands (s : State) (t : Nat) (f : Tile → Tile) : (s.modTile t f).islands = s.islands := rfl
@[simp] theorem State.modTile_deadLinks (s : State) (t : Nat) (f : Tile → Tile) : (s.modTile t f).deadLinks = s.deadLinks := rfl
@[simp] theorem State.modTile_spawns (s : State) (t : Nat) (f : Tile → Tile) : (s.modTile t f).spawns = s.spawns := rfl
@[simp] theorem State.modTile_rounds (s : State) (t : Nat) (f : Tile → Tile) : (s.modTile t f).rounds = s.rounds := rfl
@[simp] theorem State.modTile_walks (s : State) (t : Nat) (f : Tile → Tile) : (s.modTile t f).walks = s.walks := rfl
@[simp] theorem State.modTile_dieTlb (s : State) (t : Nat) (f : Tile → Tile) : (s.modTile t f).dieTlb = s.dieTlb := rfl
@[simp] theorem State.modTile_fabricOut (s : State) (t : Nat) (f : Tile → Tile) : (s.modTile t f).fabricOut = s.fabricOut := rfl
@[simp] theorem State.modTile_uio (s : State) (t : Nat) (f : Tile → Tile) : (s.modTile t f).uio = s.uio := rfl
@[simp] theorem State.modTile_hostOut (s : State) (t : Nat) (f : Tile → Tile) : (s.modTile t f).hostOut = s.hostOut := rfl
@[simp] theorem State.modTile_packs (s : State) (t : Nat) (f : Tile → Tile) : (s.modTile t f).packs = s.packs := rfl
@[simp] theorem State.modTile_parts (s : State) (t : Nat) (f : Tile → Tile) : (s.modTile t f).parts = s.parts := rfl
@[simp] theorem State.modTile_saves (s : State) (t : Nat) (f : Tile → Tile) : (s.modTile t f).saves = s.saves := rfl
@[simp] theorem State.modTile_links (s : State) (t : Nat) (f : Tile → Tile) : (s.modTile t f).links = s.links := rfl
@[simp] theorem State.modTile_routes (s : State) (t : Nat) (f : Tile → Tile) : (s.modTile t f).routes = s.routes := rfl
@[simp] theorem State.modTile_receive (s : State) (t : Nat) (f : Tile → Tile) : (s.modTile t f).receive = s.receive := rfl
@[simp] theorem State.modTile_uncounted (s : State) (t : Nat) (f : Tile → Tile) : (s.modTile t f).uncounted = s.uncounted := rfl
@[simp] theorem State.modTile_cryo (s : State) (t : Nat) (f : Tile → Tile) : (s.modTile t f).cryo = s.cryo := rfl
@[simp] theorem State.modTile_modBudget (s : State) (t : Nat) (f : Tile → Tile) : (s.modTile t f).modBudget = s.modBudget := rfl
@[simp] theorem State.modTile_scale (s : State) (t : Nat) (f : Tile → Tile) : (s.modTile t f).scale = s.scale := rfl
@[simp] theorem State.modTile_fuseSvn (s : State) (t : Nat) (f : Tile → Tile) : (s.modTile t f).fuseSvn = s.fuseSvn := rfl
@[simp] theorem State.modTile_flash (s : State) (t : Nat) (f : Tile → Tile) : (s.modTile t f).flash = s.flash := rfl
@[simp] theorem State.modTile_image (s : State) (t : Nat) (f : Tile → Tile) : (s.modTile t f).image = s.image := rfl
@[simp] theorem State.modTile_bootRom (s : State) (t : Nat) (f : Tile → Tile) : (s.modTile t f).bootRom = s.bootRom := rfl
@[simp] theorem State.modTile_fwResident (s : State) (t : Nat) (f : Tile → Tile) : (s.modTile t f).fwResident = s.fwResident := rfl
@[simp] theorem State.modTile_strap (s : State) (t : Nat) (f : Tile → Tile) : (s.modTile t f).strap = s.strap := rfl
@[simp] theorem State.modTile_nextPid (s : State) (t : Nat) (f : Tile → Tile) : (s.modTile t f).nextPid = s.nextPid := rfl
@[simp] theorem State.modTile_invals (s : State) (t : Nat) (f : Tile → Tile) : (s.modTile t f).invals = s.invals := rfl
@[simp] theorem State.modTile_msix (s : State) (t : Nat) (f : Tile → Tile) : (s.modTile t f).msix = s.msix := rfl
@[simp] theorem State.writeB_code (s : State) (k : Nat) (b : List Byte) : (s.writeB k b).code = s.code := rfl
@[simp] theorem State.writeB_tick (s : State) (k : Nat) (b : List Byte) : (s.writeB k b).tick = s.tick := rfl
@[simp] theorem State.writeB_tiles (s : State) (k : Nat) (b : List Byte) : (s.writeB k b).tiles = s.tiles := rfl
@[simp] theorem State.writeB_nextId (s : State) (k : Nat) (b : List Byte) : (s.writeB k b).nextId = s.nextId := rfl
@[simp] theorem State.writeB_free (s : State) (k : Nat) (b : List Byte) : (s.writeB k b).free = s.free := rfl
@[simp] theorem State.writeB_cur (s : State) (k : Nat) (b : List Byte) : (s.writeB k b).cur = s.cur := rfl
@[simp] theorem State.writeB_latch (s : State) (k : Nat) (b : List Byte) : (s.writeB k b).latch = s.latch := rfl
@[simp] theorem State.writeB_agenda (s : State) (k : Nat) (b : List Byte) : (s.writeB k b).agenda = s.agenda := rfl
@[simp] theorem State.writeB_net (s : State) (k : Nat) (b : List Byte) : (s.writeB k b).net = s.net := rfl
@[simp] theorem State.writeB_gen (s : State) (k : Nat) (b : List Byte) : (s.writeB k b).gen = s.gen := rfl
@[simp] theorem State.writeB_widths (s : State) (k : Nat) (b : List Byte) : (s.writeB k b).widths = s.widths := rfl
@[simp] theorem State.writeB_lastMap (s : State) (k : Nat) (b : List Byte) : (s.writeB k b).lastMap = s.lastMap := rfl
@[simp] theorem State.writeB_islands (s : State) (k : Nat) (b : List Byte) : (s.writeB k b).islands = s.islands := rfl
@[simp] theorem State.writeB_deadLinks (s : State) (k : Nat) (b : List Byte) : (s.writeB k b).deadLinks = s.deadLinks := rfl
@[simp] theorem State.writeB_spawns (s : State) (k : Nat) (b : List Byte) : (s.writeB k b).spawns = s.spawns := rfl
@[simp] theorem State.writeB_rounds (s : State) (k : Nat) (b : List Byte) : (s.writeB k b).rounds = s.rounds := rfl
@[simp] theorem State.writeB_walks (s : State) (k : Nat) (b : List Byte) : (s.writeB k b).walks = s.walks := rfl
@[simp] theorem State.writeB_dieTlb (s : State) (k : Nat) (b : List Byte) : (s.writeB k b).dieTlb = s.dieTlb := rfl
@[simp] theorem State.writeB_fabricOut (s : State) (k : Nat) (b : List Byte) : (s.writeB k b).fabricOut = s.fabricOut := rfl
@[simp] theorem State.writeB_uio (s : State) (k : Nat) (b : List Byte) : (s.writeB k b).uio = s.uio := rfl
@[simp] theorem State.writeB_hostOut (s : State) (k : Nat) (b : List Byte) : (s.writeB k b).hostOut = s.hostOut := rfl
@[simp] theorem State.writeB_packs (s : State) (k : Nat) (b : List Byte) : (s.writeB k b).packs = s.packs := rfl
@[simp] theorem State.writeB_parts (s : State) (k : Nat) (b : List Byte) : (s.writeB k b).parts = s.parts := rfl
@[simp] theorem State.writeB_saves (s : State) (k : Nat) (b : List Byte) : (s.writeB k b).saves = s.saves := rfl
@[simp] theorem State.writeB_links (s : State) (k : Nat) (b : List Byte) : (s.writeB k b).links = s.links := rfl
@[simp] theorem State.writeB_routes (s : State) (k : Nat) (b : List Byte) : (s.writeB k b).routes = s.routes := rfl
@[simp] theorem State.writeB_receive (s : State) (k : Nat) (b : List Byte) : (s.writeB k b).receive = s.receive := rfl
@[simp] theorem State.writeB_uncounted (s : State) (k : Nat) (b : List Byte) : (s.writeB k b).uncounted = s.uncounted := rfl
@[simp] theorem State.writeB_cryo (s : State) (k : Nat) (b : List Byte) : (s.writeB k b).cryo = s.cryo := rfl
@[simp] theorem State.writeB_modBudget (s : State) (k : Nat) (b : List Byte) : (s.writeB k b).modBudget = s.modBudget := rfl
@[simp] theorem State.writeB_scale (s : State) (k : Nat) (b : List Byte) : (s.writeB k b).scale = s.scale := rfl
@[simp] theorem State.writeB_fuseSvn (s : State) (k : Nat) (b : List Byte) : (s.writeB k b).fuseSvn = s.fuseSvn := rfl
@[simp] theorem State.writeB_flash (s : State) (k : Nat) (b : List Byte) : (s.writeB k b).flash = s.flash := rfl
@[simp] theorem State.writeB_image (s : State) (k : Nat) (b : List Byte) : (s.writeB k b).image = s.image := rfl
@[simp] theorem State.writeB_bootRom (s : State) (k : Nat) (b : List Byte) : (s.writeB k b).bootRom = s.bootRom := rfl
@[simp] theorem State.writeB_fwResident (s : State) (k : Nat) (b : List Byte) : (s.writeB k b).fwResident = s.fwResident := rfl
@[simp] theorem State.writeB_strap (s : State) (k : Nat) (b : List Byte) : (s.writeB k b).strap = s.strap := rfl
@[simp] theorem State.writeB_nextPid (s : State) (k : Nat) (b : List Byte) : (s.writeB k b).nextPid = s.nextPid := rfl
@[simp] theorem State.writeB_invals (s : State) (k : Nat) (b : List Byte) : (s.writeB k b).invals = s.invals := rfl
@[simp] theorem State.writeB_msix (s : State) (k : Nat) (b : List Byte) : (s.writeB k b).msix = s.msix := rfl
@[simp] theorem State.markWord_code (s : State) (k : Nat) : (s.markWord k).code = s.code := rfl
@[simp] theorem State.markWord_tick (s : State) (k : Nat) : (s.markWord k).tick = s.tick := rfl
@[simp] theorem State.markWord_tiles (s : State) (k : Nat) : (s.markWord k).tiles = s.tiles := rfl
@[simp] theorem State.markWord_mem (s : State) (k : Nat) : (s.markWord k).mem = s.mem := rfl
@[simp] theorem State.markWord_nextId (s : State) (k : Nat) : (s.markWord k).nextId = s.nextId := rfl
@[simp] theorem State.markWord_free (s : State) (k : Nat) : (s.markWord k).free = s.free := rfl
@[simp] theorem State.markWord_cur (s : State) (k : Nat) : (s.markWord k).cur = s.cur := rfl
@[simp] theorem State.markWord_latch (s : State) (k : Nat) : (s.markWord k).latch = s.latch := rfl
@[simp] theorem State.markWord_agenda (s : State) (k : Nat) : (s.markWord k).agenda = s.agenda := rfl
@[simp] theorem State.markWord_net (s : State) (k : Nat) : (s.markWord k).net = s.net := rfl
@[simp] theorem State.markWord_gen (s : State) (k : Nat) : (s.markWord k).gen = s.gen := rfl
@[simp] theorem State.markWord_widths (s : State) (k : Nat) : (s.markWord k).widths = s.widths := rfl
@[simp] theorem State.markWord_lastMap (s : State) (k : Nat) : (s.markWord k).lastMap = s.lastMap := rfl
@[simp] theorem State.markWord_islands (s : State) (k : Nat) : (s.markWord k).islands = s.islands := rfl
@[simp] theorem State.markWord_deadLinks (s : State) (k : Nat) : (s.markWord k).deadLinks = s.deadLinks := rfl
@[simp] theorem State.markWord_spawns (s : State) (k : Nat) : (s.markWord k).spawns = s.spawns := rfl
@[simp] theorem State.markWord_rounds (s : State) (k : Nat) : (s.markWord k).rounds = s.rounds := rfl
@[simp] theorem State.markWord_walks (s : State) (k : Nat) : (s.markWord k).walks = s.walks := rfl
@[simp] theorem State.markWord_dieTlb (s : State) (k : Nat) : (s.markWord k).dieTlb = s.dieTlb := rfl
@[simp] theorem State.markWord_fabricOut (s : State) (k : Nat) : (s.markWord k).fabricOut = s.fabricOut := rfl
@[simp] theorem State.markWord_uio (s : State) (k : Nat) : (s.markWord k).uio = s.uio := rfl
@[simp] theorem State.markWord_hostOut (s : State) (k : Nat) : (s.markWord k).hostOut = s.hostOut := rfl
@[simp] theorem State.markWord_packs (s : State) (k : Nat) : (s.markWord k).packs = s.packs := rfl
@[simp] theorem State.markWord_parts (s : State) (k : Nat) : (s.markWord k).parts = s.parts := rfl
@[simp] theorem State.markWord_saves (s : State) (k : Nat) : (s.markWord k).saves = s.saves := rfl
@[simp] theorem State.markWord_links (s : State) (k : Nat) : (s.markWord k).links = s.links := rfl
@[simp] theorem State.markWord_routes (s : State) (k : Nat) : (s.markWord k).routes = s.routes := rfl
@[simp] theorem State.markWord_receive (s : State) (k : Nat) : (s.markWord k).receive = s.receive := rfl
@[simp] theorem State.markWord_uncounted (s : State) (k : Nat) : (s.markWord k).uncounted = s.uncounted := rfl
@[simp] theorem State.markWord_cryo (s : State) (k : Nat) : (s.markWord k).cryo = s.cryo := rfl
@[simp] theorem State.markWord_modBudget (s : State) (k : Nat) : (s.markWord k).modBudget = s.modBudget := rfl
@[simp] theorem State.markWord_scale (s : State) (k : Nat) : (s.markWord k).scale = s.scale := rfl
@[simp] theorem State.markWord_fuseSvn (s : State) (k : Nat) : (s.markWord k).fuseSvn = s.fuseSvn := rfl
@[simp] theorem State.markWord_flash (s : State) (k : Nat) : (s.markWord k).flash = s.flash := rfl
@[simp] theorem State.markWord_image (s : State) (k : Nat) : (s.markWord k).image = s.image := rfl
@[simp] theorem State.markWord_bootRom (s : State) (k : Nat) : (s.markWord k).bootRom = s.bootRom := rfl
@[simp] theorem State.markWord_fwResident (s : State) (k : Nat) : (s.markWord k).fwResident = s.fwResident := rfl
@[simp] theorem State.markWord_strap (s : State) (k : Nat) : (s.markWord k).strap = s.strap := rfl
@[simp] theorem State.markWord_nextPid (s : State) (k : Nat) : (s.markWord k).nextPid = s.nextPid := rfl
@[simp] theorem State.markWord_invals (s : State) (k : Nat) : (s.markWord k).invals = s.invals := rfl
@[simp] theorem State.markWord_msix (s : State) (k : Nat) : (s.markWord k).msix = s.msix := rfl
@[simp] theorem State.modMe_code (s : State) (f : Thread → Thread) : (s.modMe f).code = s.code := rfl
@[simp] theorem State.modHere_code (s : State) (f : Tile → Tile) : (s.modHere f).code = s.code := rfl
@[simp] theorem State.wx_code (s : State) (r : Reg) (v : Dword) : (s.wx r v).code = s.code := rfl
@[simp] theorem State.wv_code (s : State) (r : VReg) (v : Vec) : (s.wv r v).code = s.code := rfl
@[simp] theorem State.noteIssue_code (s : State) : s.noteIssue.code = s.code := rfl
@[simp] theorem State.retireTo_code (s : State) (pc : Dword) : (s.retireTo pc).code = s.code := rfl
@[simp] theorem State.retire_code (s : State) : s.retire.code = s.code := rfl
@[simp] theorem State.block_code (s : State) (st : SlotState) (n : Need) : (s.block st n).code = s.code := rfl
@[simp] theorem State.modMe_tick (s : State) (f : Thread → Thread) : (s.modMe f).tick = s.tick := rfl
@[simp] theorem State.modHere_tick (s : State) (f : Tile → Tile) : (s.modHere f).tick = s.tick := rfl
@[simp] theorem State.wx_tick (s : State) (r : Reg) (v : Dword) : (s.wx r v).tick = s.tick := rfl
@[simp] theorem State.wv_tick (s : State) (r : VReg) (v : Vec) : (s.wv r v).tick = s.tick := rfl
@[simp] theorem State.noteIssue_tick (s : State) : s.noteIssue.tick = s.tick := rfl
@[simp] theorem State.retireTo_tick (s : State) (pc : Dword) : (s.retireTo pc).tick = s.tick := rfl
@[simp] theorem State.retire_tick (s : State) : s.retire.tick = s.tick := rfl
@[simp] theorem State.block_tick (s : State) (st : SlotState) (n : Need) : (s.block st n).tick = s.tick := rfl
@[simp] theorem State.modMe_mem (s : State) (f : Thread → Thread) : (s.modMe f).mem = s.mem := rfl
@[simp] theorem State.modHere_mem (s : State) (f : Tile → Tile) : (s.modHere f).mem = s.mem := rfl
@[simp] theorem State.wx_mem (s : State) (r : Reg) (v : Dword) : (s.wx r v).mem = s.mem := rfl
@[simp] theorem State.wv_mem (s : State) (r : VReg) (v : Vec) : (s.wv r v).mem = s.mem := rfl
@[simp] theorem State.noteIssue_mem (s : State) : s.noteIssue.mem = s.mem := rfl
@[simp] theorem State.retireTo_mem (s : State) (pc : Dword) : (s.retireTo pc).mem = s.mem := rfl
@[simp] theorem State.retire_mem (s : State) : s.retire.mem = s.mem := rfl
@[simp] theorem State.block_mem (s : State) (st : SlotState) (n : Need) : (s.block st n).mem = s.mem := rfl
@[simp] theorem State.modMe_marks (s : State) (f : Thread → Thread) : (s.modMe f).marks = s.marks := rfl
@[simp] theorem State.modHere_marks (s : State) (f : Tile → Tile) : (s.modHere f).marks = s.marks := rfl
@[simp] theorem State.wx_marks (s : State) (r : Reg) (v : Dword) : (s.wx r v).marks = s.marks := rfl
@[simp] theorem State.wv_marks (s : State) (r : VReg) (v : Vec) : (s.wv r v).marks = s.marks := rfl
@[simp] theorem State.noteIssue_marks (s : State) : s.noteIssue.marks = s.marks := rfl
@[simp] theorem State.retireTo_marks (s : State) (pc : Dword) : (s.retireTo pc).marks = s.marks := rfl
@[simp] theorem State.retire_marks (s : State) : s.retire.marks = s.marks := rfl
@[simp] theorem State.block_marks (s : State) (st : SlotState) (n : Need) : (s.block st n).marks = s.marks := rfl
@[simp] theorem State.modMe_nextId (s : State) (f : Thread → Thread) : (s.modMe f).nextId = s.nextId := rfl
@[simp] theorem State.modHere_nextId (s : State) (f : Tile → Tile) : (s.modHere f).nextId = s.nextId := rfl
@[simp] theorem State.wx_nextId (s : State) (r : Reg) (v : Dword) : (s.wx r v).nextId = s.nextId := rfl
@[simp] theorem State.wv_nextId (s : State) (r : VReg) (v : Vec) : (s.wv r v).nextId = s.nextId := rfl
@[simp] theorem State.noteIssue_nextId (s : State) : s.noteIssue.nextId = s.nextId := rfl
@[simp] theorem State.retireTo_nextId (s : State) (pc : Dword) : (s.retireTo pc).nextId = s.nextId := rfl
@[simp] theorem State.retire_nextId (s : State) : s.retire.nextId = s.nextId := rfl
@[simp] theorem State.block_nextId (s : State) (st : SlotState) (n : Need) : (s.block st n).nextId = s.nextId := rfl
@[simp] theorem State.modMe_free (s : State) (f : Thread → Thread) : (s.modMe f).free = s.free := rfl
@[simp] theorem State.modHere_free (s : State) (f : Tile → Tile) : (s.modHere f).free = s.free := rfl
@[simp] theorem State.wx_free (s : State) (r : Reg) (v : Dword) : (s.wx r v).free = s.free := rfl
@[simp] theorem State.wv_free (s : State) (r : VReg) (v : Vec) : (s.wv r v).free = s.free := rfl
@[simp] theorem State.noteIssue_free (s : State) : s.noteIssue.free = s.free := rfl
@[simp] theorem State.retireTo_free (s : State) (pc : Dword) : (s.retireTo pc).free = s.free := rfl
@[simp] theorem State.retire_free (s : State) : s.retire.free = s.free := rfl
@[simp] theorem State.block_free (s : State) (st : SlotState) (n : Need) : (s.block st n).free = s.free := rfl
@[simp] theorem State.modMe_cur (s : State) (f : Thread → Thread) : (s.modMe f).cur = s.cur := rfl
@[simp] theorem State.modHere_cur (s : State) (f : Tile → Tile) : (s.modHere f).cur = s.cur := rfl
@[simp] theorem State.wx_cur (s : State) (r : Reg) (v : Dword) : (s.wx r v).cur = s.cur := rfl
@[simp] theorem State.wv_cur (s : State) (r : VReg) (v : Vec) : (s.wv r v).cur = s.cur := rfl
@[simp] theorem State.noteIssue_cur (s : State) : s.noteIssue.cur = s.cur := rfl
@[simp] theorem State.retireTo_cur (s : State) (pc : Dword) : (s.retireTo pc).cur = s.cur := rfl
@[simp] theorem State.retire_cur (s : State) : s.retire.cur = s.cur := rfl
@[simp] theorem State.block_cur (s : State) (st : SlotState) (n : Need) : (s.block st n).cur = s.cur := rfl
@[simp] theorem State.modMe_latch (s : State) (f : Thread → Thread) : (s.modMe f).latch = s.latch := rfl
@[simp] theorem State.modHere_latch (s : State) (f : Tile → Tile) : (s.modHere f).latch = s.latch := rfl
@[simp] theorem State.wx_latch (s : State) (r : Reg) (v : Dword) : (s.wx r v).latch = s.latch := rfl
@[simp] theorem State.wv_latch (s : State) (r : VReg) (v : Vec) : (s.wv r v).latch = s.latch := rfl
@[simp] theorem State.noteIssue_latch (s : State) : s.noteIssue.latch = s.latch := rfl
@[simp] theorem State.retireTo_latch (s : State) (pc : Dword) : (s.retireTo pc).latch = s.latch := rfl
@[simp] theorem State.retire_latch (s : State) : s.retire.latch = s.latch := rfl
@[simp] theorem State.block_latch (s : State) (st : SlotState) (n : Need) : (s.block st n).latch = s.latch := rfl
@[simp] theorem State.modMe_agenda (s : State) (f : Thread → Thread) : (s.modMe f).agenda = s.agenda := rfl
@[simp] theorem State.modHere_agenda (s : State) (f : Tile → Tile) : (s.modHere f).agenda = s.agenda := rfl
@[simp] theorem State.wx_agenda (s : State) (r : Reg) (v : Dword) : (s.wx r v).agenda = s.agenda := rfl
@[simp] theorem State.wv_agenda (s : State) (r : VReg) (v : Vec) : (s.wv r v).agenda = s.agenda := rfl
@[simp] theorem State.noteIssue_agenda (s : State) : s.noteIssue.agenda = s.agenda := rfl
@[simp] theorem State.retireTo_agenda (s : State) (pc : Dword) : (s.retireTo pc).agenda = s.agenda := rfl
@[simp] theorem State.retire_agenda (s : State) : s.retire.agenda = s.agenda := rfl
@[simp] theorem State.block_agenda (s : State) (st : SlotState) (n : Need) : (s.block st n).agenda = s.agenda := rfl
@[simp] theorem State.modMe_net (s : State) (f : Thread → Thread) : (s.modMe f).net = s.net := rfl
@[simp] theorem State.modHere_net (s : State) (f : Tile → Tile) : (s.modHere f).net = s.net := rfl
@[simp] theorem State.wx_net (s : State) (r : Reg) (v : Dword) : (s.wx r v).net = s.net := rfl
@[simp] theorem State.wv_net (s : State) (r : VReg) (v : Vec) : (s.wv r v).net = s.net := rfl
@[simp] theorem State.noteIssue_net (s : State) : s.noteIssue.net = s.net := rfl
@[simp] theorem State.retireTo_net (s : State) (pc : Dword) : (s.retireTo pc).net = s.net := rfl
@[simp] theorem State.retire_net (s : State) : s.retire.net = s.net := rfl
@[simp] theorem State.block_net (s : State) (st : SlotState) (n : Need) : (s.block st n).net = s.net := rfl
@[simp] theorem State.modMe_gen (s : State) (f : Thread → Thread) : (s.modMe f).gen = s.gen := rfl
@[simp] theorem State.modHere_gen (s : State) (f : Tile → Tile) : (s.modHere f).gen = s.gen := rfl
@[simp] theorem State.wx_gen (s : State) (r : Reg) (v : Dword) : (s.wx r v).gen = s.gen := rfl
@[simp] theorem State.wv_gen (s : State) (r : VReg) (v : Vec) : (s.wv r v).gen = s.gen := rfl
@[simp] theorem State.noteIssue_gen (s : State) : s.noteIssue.gen = s.gen := rfl
@[simp] theorem State.retireTo_gen (s : State) (pc : Dword) : (s.retireTo pc).gen = s.gen := rfl
@[simp] theorem State.retire_gen (s : State) : s.retire.gen = s.gen := rfl
@[simp] theorem State.block_gen (s : State) (st : SlotState) (n : Need) : (s.block st n).gen = s.gen := rfl
@[simp] theorem State.modMe_widths (s : State) (f : Thread → Thread) : (s.modMe f).widths = s.widths := rfl
@[simp] theorem State.modHere_widths (s : State) (f : Tile → Tile) : (s.modHere f).widths = s.widths := rfl
@[simp] theorem State.wx_widths (s : State) (r : Reg) (v : Dword) : (s.wx r v).widths = s.widths := rfl
@[simp] theorem State.wv_widths (s : State) (r : VReg) (v : Vec) : (s.wv r v).widths = s.widths := rfl
@[simp] theorem State.noteIssue_widths (s : State) : s.noteIssue.widths = s.widths := rfl
@[simp] theorem State.retireTo_widths (s : State) (pc : Dword) : (s.retireTo pc).widths = s.widths := rfl
@[simp] theorem State.retire_widths (s : State) : s.retire.widths = s.widths := rfl
@[simp] theorem State.block_widths (s : State) (st : SlotState) (n : Need) : (s.block st n).widths = s.widths := rfl
@[simp] theorem State.modMe_lastMap (s : State) (f : Thread → Thread) : (s.modMe f).lastMap = s.lastMap := rfl
@[simp] theorem State.modHere_lastMap (s : State) (f : Tile → Tile) : (s.modHere f).lastMap = s.lastMap := rfl
@[simp] theorem State.wx_lastMap (s : State) (r : Reg) (v : Dword) : (s.wx r v).lastMap = s.lastMap := rfl
@[simp] theorem State.wv_lastMap (s : State) (r : VReg) (v : Vec) : (s.wv r v).lastMap = s.lastMap := rfl
@[simp] theorem State.noteIssue_lastMap (s : State) : s.noteIssue.lastMap = s.lastMap := rfl
@[simp] theorem State.retireTo_lastMap (s : State) (pc : Dword) : (s.retireTo pc).lastMap = s.lastMap := rfl
@[simp] theorem State.retire_lastMap (s : State) : s.retire.lastMap = s.lastMap := rfl
@[simp] theorem State.block_lastMap (s : State) (st : SlotState) (n : Need) : (s.block st n).lastMap = s.lastMap := rfl
@[simp] theorem State.modMe_islands (s : State) (f : Thread → Thread) : (s.modMe f).islands = s.islands := rfl
@[simp] theorem State.modHere_islands (s : State) (f : Tile → Tile) : (s.modHere f).islands = s.islands := rfl
@[simp] theorem State.wx_islands (s : State) (r : Reg) (v : Dword) : (s.wx r v).islands = s.islands := rfl
@[simp] theorem State.wv_islands (s : State) (r : VReg) (v : Vec) : (s.wv r v).islands = s.islands := rfl
@[simp] theorem State.noteIssue_islands (s : State) : s.noteIssue.islands = s.islands := rfl
@[simp] theorem State.retireTo_islands (s : State) (pc : Dword) : (s.retireTo pc).islands = s.islands := rfl
@[simp] theorem State.retire_islands (s : State) : s.retire.islands = s.islands := rfl
@[simp] theorem State.block_islands (s : State) (st : SlotState) (n : Need) : (s.block st n).islands = s.islands := rfl
@[simp] theorem State.modMe_deadLinks (s : State) (f : Thread → Thread) : (s.modMe f).deadLinks = s.deadLinks := rfl
@[simp] theorem State.modHere_deadLinks (s : State) (f : Tile → Tile) : (s.modHere f).deadLinks = s.deadLinks := rfl
@[simp] theorem State.wx_deadLinks (s : State) (r : Reg) (v : Dword) : (s.wx r v).deadLinks = s.deadLinks := rfl
@[simp] theorem State.wv_deadLinks (s : State) (r : VReg) (v : Vec) : (s.wv r v).deadLinks = s.deadLinks := rfl
@[simp] theorem State.noteIssue_deadLinks (s : State) : s.noteIssue.deadLinks = s.deadLinks := rfl
@[simp] theorem State.retireTo_deadLinks (s : State) (pc : Dword) : (s.retireTo pc).deadLinks = s.deadLinks := rfl
@[simp] theorem State.retire_deadLinks (s : State) : s.retire.deadLinks = s.deadLinks := rfl
@[simp] theorem State.block_deadLinks (s : State) (st : SlotState) (n : Need) : (s.block st n).deadLinks = s.deadLinks := rfl
@[simp] theorem State.modMe_spawns (s : State) (f : Thread → Thread) : (s.modMe f).spawns = s.spawns := rfl
@[simp] theorem State.modHere_spawns (s : State) (f : Tile → Tile) : (s.modHere f).spawns = s.spawns := rfl
@[simp] theorem State.wx_spawns (s : State) (r : Reg) (v : Dword) : (s.wx r v).spawns = s.spawns := rfl
@[simp] theorem State.wv_spawns (s : State) (r : VReg) (v : Vec) : (s.wv r v).spawns = s.spawns := rfl
@[simp] theorem State.noteIssue_spawns (s : State) : s.noteIssue.spawns = s.spawns := rfl
@[simp] theorem State.retireTo_spawns (s : State) (pc : Dword) : (s.retireTo pc).spawns = s.spawns := rfl
@[simp] theorem State.retire_spawns (s : State) : s.retire.spawns = s.spawns := rfl
@[simp] theorem State.block_spawns (s : State) (st : SlotState) (n : Need) : (s.block st n).spawns = s.spawns := rfl
@[simp] theorem State.modMe_rounds (s : State) (f : Thread → Thread) : (s.modMe f).rounds = s.rounds := rfl
@[simp] theorem State.modHere_rounds (s : State) (f : Tile → Tile) : (s.modHere f).rounds = s.rounds := rfl
@[simp] theorem State.wx_rounds (s : State) (r : Reg) (v : Dword) : (s.wx r v).rounds = s.rounds := rfl
@[simp] theorem State.wv_rounds (s : State) (r : VReg) (v : Vec) : (s.wv r v).rounds = s.rounds := rfl
@[simp] theorem State.noteIssue_rounds (s : State) : s.noteIssue.rounds = s.rounds := rfl
@[simp] theorem State.retireTo_rounds (s : State) (pc : Dword) : (s.retireTo pc).rounds = s.rounds := rfl
@[simp] theorem State.retire_rounds (s : State) : s.retire.rounds = s.rounds := rfl
@[simp] theorem State.block_rounds (s : State) (st : SlotState) (n : Need) : (s.block st n).rounds = s.rounds := rfl
@[simp] theorem State.modMe_walks (s : State) (f : Thread → Thread) : (s.modMe f).walks = s.walks := rfl
@[simp] theorem State.modHere_walks (s : State) (f : Tile → Tile) : (s.modHere f).walks = s.walks := rfl
@[simp] theorem State.wx_walks (s : State) (r : Reg) (v : Dword) : (s.wx r v).walks = s.walks := rfl
@[simp] theorem State.wv_walks (s : State) (r : VReg) (v : Vec) : (s.wv r v).walks = s.walks := rfl
@[simp] theorem State.noteIssue_walks (s : State) : s.noteIssue.walks = s.walks := rfl
@[simp] theorem State.retireTo_walks (s : State) (pc : Dword) : (s.retireTo pc).walks = s.walks := rfl
@[simp] theorem State.retire_walks (s : State) : s.retire.walks = s.walks := rfl
@[simp] theorem State.block_walks (s : State) (st : SlotState) (n : Need) : (s.block st n).walks = s.walks := rfl
@[simp] theorem State.modMe_dieTlb (s : State) (f : Thread → Thread) : (s.modMe f).dieTlb = s.dieTlb := rfl
@[simp] theorem State.modHere_dieTlb (s : State) (f : Tile → Tile) : (s.modHere f).dieTlb = s.dieTlb := rfl
@[simp] theorem State.wx_dieTlb (s : State) (r : Reg) (v : Dword) : (s.wx r v).dieTlb = s.dieTlb := rfl
@[simp] theorem State.wv_dieTlb (s : State) (r : VReg) (v : Vec) : (s.wv r v).dieTlb = s.dieTlb := rfl
@[simp] theorem State.noteIssue_dieTlb (s : State) : s.noteIssue.dieTlb = s.dieTlb := rfl
@[simp] theorem State.retireTo_dieTlb (s : State) (pc : Dword) : (s.retireTo pc).dieTlb = s.dieTlb := rfl
@[simp] theorem State.retire_dieTlb (s : State) : s.retire.dieTlb = s.dieTlb := rfl
@[simp] theorem State.block_dieTlb (s : State) (st : SlotState) (n : Need) : (s.block st n).dieTlb = s.dieTlb := rfl
@[simp] theorem State.modMe_fabricOut (s : State) (f : Thread → Thread) : (s.modMe f).fabricOut = s.fabricOut := rfl
@[simp] theorem State.modHere_fabricOut (s : State) (f : Tile → Tile) : (s.modHere f).fabricOut = s.fabricOut := rfl
@[simp] theorem State.wx_fabricOut (s : State) (r : Reg) (v : Dword) : (s.wx r v).fabricOut = s.fabricOut := rfl
@[simp] theorem State.wv_fabricOut (s : State) (r : VReg) (v : Vec) : (s.wv r v).fabricOut = s.fabricOut := rfl
@[simp] theorem State.noteIssue_fabricOut (s : State) : s.noteIssue.fabricOut = s.fabricOut := rfl
@[simp] theorem State.retireTo_fabricOut (s : State) (pc : Dword) : (s.retireTo pc).fabricOut = s.fabricOut := rfl
@[simp] theorem State.retire_fabricOut (s : State) : s.retire.fabricOut = s.fabricOut := rfl
@[simp] theorem State.block_fabricOut (s : State) (st : SlotState) (n : Need) : (s.block st n).fabricOut = s.fabricOut := rfl
@[simp] theorem State.modMe_uio (s : State) (f : Thread → Thread) : (s.modMe f).uio = s.uio := rfl
@[simp] theorem State.modHere_uio (s : State) (f : Tile → Tile) : (s.modHere f).uio = s.uio := rfl
@[simp] theorem State.wx_uio (s : State) (r : Reg) (v : Dword) : (s.wx r v).uio = s.uio := rfl
@[simp] theorem State.wv_uio (s : State) (r : VReg) (v : Vec) : (s.wv r v).uio = s.uio := rfl
@[simp] theorem State.noteIssue_uio (s : State) : s.noteIssue.uio = s.uio := rfl
@[simp] theorem State.retireTo_uio (s : State) (pc : Dword) : (s.retireTo pc).uio = s.uio := rfl
@[simp] theorem State.retire_uio (s : State) : s.retire.uio = s.uio := rfl
@[simp] theorem State.block_uio (s : State) (st : SlotState) (n : Need) : (s.block st n).uio = s.uio := rfl
@[simp] theorem State.modMe_hostOut (s : State) (f : Thread → Thread) : (s.modMe f).hostOut = s.hostOut := rfl
@[simp] theorem State.modHere_hostOut (s : State) (f : Tile → Tile) : (s.modHere f).hostOut = s.hostOut := rfl
@[simp] theorem State.wx_hostOut (s : State) (r : Reg) (v : Dword) : (s.wx r v).hostOut = s.hostOut := rfl
@[simp] theorem State.wv_hostOut (s : State) (r : VReg) (v : Vec) : (s.wv r v).hostOut = s.hostOut := rfl
@[simp] theorem State.noteIssue_hostOut (s : State) : s.noteIssue.hostOut = s.hostOut := rfl
@[simp] theorem State.retireTo_hostOut (s : State) (pc : Dword) : (s.retireTo pc).hostOut = s.hostOut := rfl
@[simp] theorem State.retire_hostOut (s : State) : s.retire.hostOut = s.hostOut := rfl
@[simp] theorem State.block_hostOut (s : State) (st : SlotState) (n : Need) : (s.block st n).hostOut = s.hostOut := rfl
@[simp] theorem State.modMe_packs (s : State) (f : Thread → Thread) : (s.modMe f).packs = s.packs := rfl
@[simp] theorem State.modHere_packs (s : State) (f : Tile → Tile) : (s.modHere f).packs = s.packs := rfl
@[simp] theorem State.wx_packs (s : State) (r : Reg) (v : Dword) : (s.wx r v).packs = s.packs := rfl
@[simp] theorem State.wv_packs (s : State) (r : VReg) (v : Vec) : (s.wv r v).packs = s.packs := rfl
@[simp] theorem State.noteIssue_packs (s : State) : s.noteIssue.packs = s.packs := rfl
@[simp] theorem State.retireTo_packs (s : State) (pc : Dword) : (s.retireTo pc).packs = s.packs := rfl
@[simp] theorem State.retire_packs (s : State) : s.retire.packs = s.packs := rfl
@[simp] theorem State.block_packs (s : State) (st : SlotState) (n : Need) : (s.block st n).packs = s.packs := rfl
@[simp] theorem State.modMe_parts (s : State) (f : Thread → Thread) : (s.modMe f).parts = s.parts := rfl
@[simp] theorem State.modHere_parts (s : State) (f : Tile → Tile) : (s.modHere f).parts = s.parts := rfl
@[simp] theorem State.wx_parts (s : State) (r : Reg) (v : Dword) : (s.wx r v).parts = s.parts := rfl
@[simp] theorem State.wv_parts (s : State) (r : VReg) (v : Vec) : (s.wv r v).parts = s.parts := rfl
@[simp] theorem State.noteIssue_parts (s : State) : s.noteIssue.parts = s.parts := rfl
@[simp] theorem State.retireTo_parts (s : State) (pc : Dword) : (s.retireTo pc).parts = s.parts := rfl
@[simp] theorem State.retire_parts (s : State) : s.retire.parts = s.parts := rfl
@[simp] theorem State.block_parts (s : State) (st : SlotState) (n : Need) : (s.block st n).parts = s.parts := rfl
@[simp] theorem State.modMe_saves (s : State) (f : Thread → Thread) : (s.modMe f).saves = s.saves := rfl
@[simp] theorem State.modHere_saves (s : State) (f : Tile → Tile) : (s.modHere f).saves = s.saves := rfl
@[simp] theorem State.wx_saves (s : State) (r : Reg) (v : Dword) : (s.wx r v).saves = s.saves := rfl
@[simp] theorem State.wv_saves (s : State) (r : VReg) (v : Vec) : (s.wv r v).saves = s.saves := rfl
@[simp] theorem State.noteIssue_saves (s : State) : s.noteIssue.saves = s.saves := rfl
@[simp] theorem State.retireTo_saves (s : State) (pc : Dword) : (s.retireTo pc).saves = s.saves := rfl
@[simp] theorem State.retire_saves (s : State) : s.retire.saves = s.saves := rfl
@[simp] theorem State.block_saves (s : State) (st : SlotState) (n : Need) : (s.block st n).saves = s.saves := rfl
@[simp] theorem State.modMe_links (s : State) (f : Thread → Thread) : (s.modMe f).links = s.links := rfl
@[simp] theorem State.modHere_links (s : State) (f : Tile → Tile) : (s.modHere f).links = s.links := rfl
@[simp] theorem State.wx_links (s : State) (r : Reg) (v : Dword) : (s.wx r v).links = s.links := rfl
@[simp] theorem State.wv_links (s : State) (r : VReg) (v : Vec) : (s.wv r v).links = s.links := rfl
@[simp] theorem State.noteIssue_links (s : State) : s.noteIssue.links = s.links := rfl
@[simp] theorem State.retireTo_links (s : State) (pc : Dword) : (s.retireTo pc).links = s.links := rfl
@[simp] theorem State.retire_links (s : State) : s.retire.links = s.links := rfl
@[simp] theorem State.block_links (s : State) (st : SlotState) (n : Need) : (s.block st n).links = s.links := rfl
@[simp] theorem State.modMe_routes (s : State) (f : Thread → Thread) : (s.modMe f).routes = s.routes := rfl
@[simp] theorem State.modHere_routes (s : State) (f : Tile → Tile) : (s.modHere f).routes = s.routes := rfl
@[simp] theorem State.wx_routes (s : State) (r : Reg) (v : Dword) : (s.wx r v).routes = s.routes := rfl
@[simp] theorem State.wv_routes (s : State) (r : VReg) (v : Vec) : (s.wv r v).routes = s.routes := rfl
@[simp] theorem State.noteIssue_routes (s : State) : s.noteIssue.routes = s.routes := rfl
@[simp] theorem State.retireTo_routes (s : State) (pc : Dword) : (s.retireTo pc).routes = s.routes := rfl
@[simp] theorem State.retire_routes (s : State) : s.retire.routes = s.routes := rfl
@[simp] theorem State.block_routes (s : State) (st : SlotState) (n : Need) : (s.block st n).routes = s.routes := rfl
@[simp] theorem State.modMe_receive (s : State) (f : Thread → Thread) : (s.modMe f).receive = s.receive := rfl
@[simp] theorem State.modHere_receive (s : State) (f : Tile → Tile) : (s.modHere f).receive = s.receive := rfl
@[simp] theorem State.wx_receive (s : State) (r : Reg) (v : Dword) : (s.wx r v).receive = s.receive := rfl
@[simp] theorem State.wv_receive (s : State) (r : VReg) (v : Vec) : (s.wv r v).receive = s.receive := rfl
@[simp] theorem State.noteIssue_receive (s : State) : s.noteIssue.receive = s.receive := rfl
@[simp] theorem State.retireTo_receive (s : State) (pc : Dword) : (s.retireTo pc).receive = s.receive := rfl
@[simp] theorem State.retire_receive (s : State) : s.retire.receive = s.receive := rfl
@[simp] theorem State.block_receive (s : State) (st : SlotState) (n : Need) : (s.block st n).receive = s.receive := rfl
@[simp] theorem State.modMe_uncounted (s : State) (f : Thread → Thread) : (s.modMe f).uncounted = s.uncounted := rfl
@[simp] theorem State.modHere_uncounted (s : State) (f : Tile → Tile) : (s.modHere f).uncounted = s.uncounted := rfl
@[simp] theorem State.wx_uncounted (s : State) (r : Reg) (v : Dword) : (s.wx r v).uncounted = s.uncounted := rfl
@[simp] theorem State.wv_uncounted (s : State) (r : VReg) (v : Vec) : (s.wv r v).uncounted = s.uncounted := rfl
@[simp] theorem State.noteIssue_uncounted (s : State) : s.noteIssue.uncounted = s.uncounted := rfl
@[simp] theorem State.retireTo_uncounted (s : State) (pc : Dword) : (s.retireTo pc).uncounted = s.uncounted := rfl
@[simp] theorem State.retire_uncounted (s : State) : s.retire.uncounted = s.uncounted := rfl
@[simp] theorem State.block_uncounted (s : State) (st : SlotState) (n : Need) : (s.block st n).uncounted = s.uncounted := rfl
@[simp] theorem State.modMe_cryo (s : State) (f : Thread → Thread) : (s.modMe f).cryo = s.cryo := rfl
@[simp] theorem State.modHere_cryo (s : State) (f : Tile → Tile) : (s.modHere f).cryo = s.cryo := rfl
@[simp] theorem State.wx_cryo (s : State) (r : Reg) (v : Dword) : (s.wx r v).cryo = s.cryo := rfl
@[simp] theorem State.wv_cryo (s : State) (r : VReg) (v : Vec) : (s.wv r v).cryo = s.cryo := rfl
@[simp] theorem State.noteIssue_cryo (s : State) : s.noteIssue.cryo = s.cryo := rfl
@[simp] theorem State.retireTo_cryo (s : State) (pc : Dword) : (s.retireTo pc).cryo = s.cryo := rfl
@[simp] theorem State.retire_cryo (s : State) : s.retire.cryo = s.cryo := rfl
@[simp] theorem State.block_cryo (s : State) (st : SlotState) (n : Need) : (s.block st n).cryo = s.cryo := rfl
@[simp] theorem State.modMe_modBudget (s : State) (f : Thread → Thread) : (s.modMe f).modBudget = s.modBudget := rfl
@[simp] theorem State.modHere_modBudget (s : State) (f : Tile → Tile) : (s.modHere f).modBudget = s.modBudget := rfl
@[simp] theorem State.wx_modBudget (s : State) (r : Reg) (v : Dword) : (s.wx r v).modBudget = s.modBudget := rfl
@[simp] theorem State.wv_modBudget (s : State) (r : VReg) (v : Vec) : (s.wv r v).modBudget = s.modBudget := rfl
@[simp] theorem State.noteIssue_modBudget (s : State) : s.noteIssue.modBudget = s.modBudget := rfl
@[simp] theorem State.retireTo_modBudget (s : State) (pc : Dword) : (s.retireTo pc).modBudget = s.modBudget := rfl
@[simp] theorem State.retire_modBudget (s : State) : s.retire.modBudget = s.modBudget := rfl
@[simp] theorem State.block_modBudget (s : State) (st : SlotState) (n : Need) : (s.block st n).modBudget = s.modBudget := rfl
@[simp] theorem State.modMe_scale (s : State) (f : Thread → Thread) : (s.modMe f).scale = s.scale := rfl
@[simp] theorem State.modHere_scale (s : State) (f : Tile → Tile) : (s.modHere f).scale = s.scale := rfl
@[simp] theorem State.wx_scale (s : State) (r : Reg) (v : Dword) : (s.wx r v).scale = s.scale := rfl
@[simp] theorem State.wv_scale (s : State) (r : VReg) (v : Vec) : (s.wv r v).scale = s.scale := rfl
@[simp] theorem State.noteIssue_scale (s : State) : s.noteIssue.scale = s.scale := rfl
@[simp] theorem State.retireTo_scale (s : State) (pc : Dword) : (s.retireTo pc).scale = s.scale := rfl
@[simp] theorem State.retire_scale (s : State) : s.retire.scale = s.scale := rfl
@[simp] theorem State.block_scale (s : State) (st : SlotState) (n : Need) : (s.block st n).scale = s.scale := rfl
@[simp] theorem State.modMe_fuseSvn (s : State) (f : Thread → Thread) : (s.modMe f).fuseSvn = s.fuseSvn := rfl
@[simp] theorem State.modHere_fuseSvn (s : State) (f : Tile → Tile) : (s.modHere f).fuseSvn = s.fuseSvn := rfl
@[simp] theorem State.wx_fuseSvn (s : State) (r : Reg) (v : Dword) : (s.wx r v).fuseSvn = s.fuseSvn := rfl
@[simp] theorem State.wv_fuseSvn (s : State) (r : VReg) (v : Vec) : (s.wv r v).fuseSvn = s.fuseSvn := rfl
@[simp] theorem State.noteIssue_fuseSvn (s : State) : s.noteIssue.fuseSvn = s.fuseSvn := rfl
@[simp] theorem State.retireTo_fuseSvn (s : State) (pc : Dword) : (s.retireTo pc).fuseSvn = s.fuseSvn := rfl
@[simp] theorem State.retire_fuseSvn (s : State) : s.retire.fuseSvn = s.fuseSvn := rfl
@[simp] theorem State.block_fuseSvn (s : State) (st : SlotState) (n : Need) : (s.block st n).fuseSvn = s.fuseSvn := rfl
@[simp] theorem State.modMe_flash (s : State) (f : Thread → Thread) : (s.modMe f).flash = s.flash := rfl
@[simp] theorem State.modHere_flash (s : State) (f : Tile → Tile) : (s.modHere f).flash = s.flash := rfl
@[simp] theorem State.wx_flash (s : State) (r : Reg) (v : Dword) : (s.wx r v).flash = s.flash := rfl
@[simp] theorem State.wv_flash (s : State) (r : VReg) (v : Vec) : (s.wv r v).flash = s.flash := rfl
@[simp] theorem State.noteIssue_flash (s : State) : s.noteIssue.flash = s.flash := rfl
@[simp] theorem State.retireTo_flash (s : State) (pc : Dword) : (s.retireTo pc).flash = s.flash := rfl
@[simp] theorem State.retire_flash (s : State) : s.retire.flash = s.flash := rfl
@[simp] theorem State.block_flash (s : State) (st : SlotState) (n : Need) : (s.block st n).flash = s.flash := rfl
@[simp] theorem State.modMe_image (s : State) (f : Thread → Thread) : (s.modMe f).image = s.image := rfl
@[simp] theorem State.modHere_image (s : State) (f : Tile → Tile) : (s.modHere f).image = s.image := rfl
@[simp] theorem State.wx_image (s : State) (r : Reg) (v : Dword) : (s.wx r v).image = s.image := rfl
@[simp] theorem State.wv_image (s : State) (r : VReg) (v : Vec) : (s.wv r v).image = s.image := rfl
@[simp] theorem State.noteIssue_image (s : State) : s.noteIssue.image = s.image := rfl
@[simp] theorem State.retireTo_image (s : State) (pc : Dword) : (s.retireTo pc).image = s.image := rfl
@[simp] theorem State.retire_image (s : State) : s.retire.image = s.image := rfl
@[simp] theorem State.block_image (s : State) (st : SlotState) (n : Need) : (s.block st n).image = s.image := rfl
@[simp] theorem State.modMe_bootRom (s : State) (f : Thread → Thread) : (s.modMe f).bootRom = s.bootRom := rfl
@[simp] theorem State.modHere_bootRom (s : State) (f : Tile → Tile) : (s.modHere f).bootRom = s.bootRom := rfl
@[simp] theorem State.wx_bootRom (s : State) (r : Reg) (v : Dword) : (s.wx r v).bootRom = s.bootRom := rfl
@[simp] theorem State.wv_bootRom (s : State) (r : VReg) (v : Vec) : (s.wv r v).bootRom = s.bootRom := rfl
@[simp] theorem State.noteIssue_bootRom (s : State) : s.noteIssue.bootRom = s.bootRom := rfl
@[simp] theorem State.retireTo_bootRom (s : State) (pc : Dword) : (s.retireTo pc).bootRom = s.bootRom := rfl
@[simp] theorem State.retire_bootRom (s : State) : s.retire.bootRom = s.bootRom := rfl
@[simp] theorem State.block_bootRom (s : State) (st : SlotState) (n : Need) : (s.block st n).bootRom = s.bootRom := rfl
@[simp] theorem State.modMe_fwResident (s : State) (f : Thread → Thread) : (s.modMe f).fwResident = s.fwResident := rfl
@[simp] theorem State.modHere_fwResident (s : State) (f : Tile → Tile) : (s.modHere f).fwResident = s.fwResident := rfl
@[simp] theorem State.wx_fwResident (s : State) (r : Reg) (v : Dword) : (s.wx r v).fwResident = s.fwResident := rfl
@[simp] theorem State.wv_fwResident (s : State) (r : VReg) (v : Vec) : (s.wv r v).fwResident = s.fwResident := rfl
@[simp] theorem State.noteIssue_fwResident (s : State) : s.noteIssue.fwResident = s.fwResident := rfl
@[simp] theorem State.retireTo_fwResident (s : State) (pc : Dword) : (s.retireTo pc).fwResident = s.fwResident := rfl
@[simp] theorem State.retire_fwResident (s : State) : s.retire.fwResident = s.fwResident := rfl
@[simp] theorem State.block_fwResident (s : State) (st : SlotState) (n : Need) : (s.block st n).fwResident = s.fwResident := rfl
@[simp] theorem State.modMe_strap (s : State) (f : Thread → Thread) : (s.modMe f).strap = s.strap := rfl
@[simp] theorem State.modHere_strap (s : State) (f : Tile → Tile) : (s.modHere f).strap = s.strap := rfl
@[simp] theorem State.wx_strap (s : State) (r : Reg) (v : Dword) : (s.wx r v).strap = s.strap := rfl
@[simp] theorem State.wv_strap (s : State) (r : VReg) (v : Vec) : (s.wv r v).strap = s.strap := rfl
@[simp] theorem State.noteIssue_strap (s : State) : s.noteIssue.strap = s.strap := rfl
@[simp] theorem State.retireTo_strap (s : State) (pc : Dword) : (s.retireTo pc).strap = s.strap := rfl
@[simp] theorem State.retire_strap (s : State) : s.retire.strap = s.strap := rfl
@[simp] theorem State.block_strap (s : State) (st : SlotState) (n : Need) : (s.block st n).strap = s.strap := rfl
@[simp] theorem State.modMe_nextPid (s : State) (f : Thread → Thread) : (s.modMe f).nextPid = s.nextPid := rfl
@[simp] theorem State.modHere_nextPid (s : State) (f : Tile → Tile) : (s.modHere f).nextPid = s.nextPid := rfl
@[simp] theorem State.wx_nextPid (s : State) (r : Reg) (v : Dword) : (s.wx r v).nextPid = s.nextPid := rfl
@[simp] theorem State.wv_nextPid (s : State) (r : VReg) (v : Vec) : (s.wv r v).nextPid = s.nextPid := rfl
@[simp] theorem State.noteIssue_nextPid (s : State) : s.noteIssue.nextPid = s.nextPid := rfl
@[simp] theorem State.retireTo_nextPid (s : State) (pc : Dword) : (s.retireTo pc).nextPid = s.nextPid := rfl
@[simp] theorem State.retire_nextPid (s : State) : s.retire.nextPid = s.nextPid := rfl
@[simp] theorem State.block_nextPid (s : State) (st : SlotState) (n : Need) : (s.block st n).nextPid = s.nextPid := rfl
@[simp] theorem State.modMe_invals (s : State) (f : Thread → Thread) : (s.modMe f).invals = s.invals := rfl
@[simp] theorem State.modHere_invals (s : State) (f : Tile → Tile) : (s.modHere f).invals = s.invals := rfl
@[simp] theorem State.wx_invals (s : State) (r : Reg) (v : Dword) : (s.wx r v).invals = s.invals := rfl
@[simp] theorem State.wv_invals (s : State) (r : VReg) (v : Vec) : (s.wv r v).invals = s.invals := rfl
@[simp] theorem State.noteIssue_invals (s : State) : s.noteIssue.invals = s.invals := rfl
@[simp] theorem State.retireTo_invals (s : State) (pc : Dword) : (s.retireTo pc).invals = s.invals := rfl
@[simp] theorem State.retire_invals (s : State) : s.retire.invals = s.invals := rfl
@[simp] theorem State.block_invals (s : State) (st : SlotState) (n : Need) : (s.block st n).invals = s.invals := rfl
@[simp] theorem State.modMe_msix (s : State) (f : Thread → Thread) : (s.modMe f).msix = s.msix := rfl
@[simp] theorem State.modHere_msix (s : State) (f : Tile → Tile) : (s.modHere f).msix = s.msix := rfl
@[simp] theorem State.wx_msix (s : State) (r : Reg) (v : Dword) : (s.wx r v).msix = s.msix := rfl
@[simp] theorem State.wv_msix (s : State) (r : VReg) (v : Vec) : (s.wv r v).msix = s.msix := rfl
@[simp] theorem State.noteIssue_msix (s : State) : s.noteIssue.msix = s.msix := rfl
@[simp] theorem State.retireTo_msix (s : State) (pc : Dword) : (s.retireTo pc).msix = s.msix := rfl
@[simp] theorem State.retire_msix (s : State) : s.retire.msix = s.msix := rfl
@[simp] theorem State.block_msix (s : State) (st : SlotState) (n : Need) : (s.block st n).msix = s.msix := rfl
@[simp] theorem Tile.setTh_fused (x : Tile) (i : Fin 8) (h : Thread) : (x.setTh i h).fused = x.fused := rfl
@[simp] theorem Tile.modTh_fused (x : Tile) (i : Fin 8) (f : Thread → Thread) : (x.modTh i f).fused = x.fused := rfl
@[simp] theorem Tile.mapTh_fused (x : Tile) (f : Thread → Thread) : (x.mapTh f).fused = x.fused := rfl
@[simp] theorem Tile.setTh_router (x : Tile) (i : Fin 8) (h : Thread) : (x.setTh i h).router = x.router := rfl
@[simp] theorem Tile.modTh_router (x : Tile) (i : Fin 8) (f : Thread → Thread) : (x.modTh i f).router = x.router := rfl
@[simp] theorem Tile.mapTh_router (x : Tile) (f : Thread → Thread) : (x.mapTh f).router = x.router := rfl
@[simp] theorem Tile.setTh_core (x : Tile) (i : Fin 8) (h : Thread) : (x.setTh i h).core = x.core := rfl
@[simp] theorem Tile.modTh_core (x : Tile) (i : Fin 8) (f : Thread → Thread) : (x.modTh i f).core = x.core := rfl
@[simp] theorem Tile.mapTh_core (x : Tile) (f : Thread → Thread) : (x.mapTh f).core = x.core := rfl
@[simp] theorem Tile.setTh_cycle (x : Tile) (i : Fin 8) (h : Thread) : (x.setTh i h).cycle = x.cycle := rfl
@[simp] theorem Tile.modTh_cycle (x : Tile) (i : Fin 8) (f : Thread → Thread) : (x.modTh i f).cycle = x.cycle := rfl
@[simp] theorem Tile.mapTh_cycle (x : Tile) (f : Thread → Thread) : (x.mapTh f).cycle = x.cycle := rfl
@[simp] theorem Tile.setTh_last0 (x : Tile) (i : Fin 8) (h : Thread) : (x.setTh i h).last0 = x.last0 := rfl
@[simp] theorem Tile.modTh_last0 (x : Tile) (i : Fin 8) (f : Thread → Thread) : (x.modTh i f).last0 = x.last0 := rfl
@[simp] theorem Tile.mapTh_last0 (x : Tile) (f : Thread → Thread) : (x.mapTh f).last0 = x.last0 := rfl
@[simp] theorem Tile.setTh_last1 (x : Tile) (i : Fin 8) (h : Thread) : (x.setTh i h).last1 = x.last1 := rfl
@[simp] theorem Tile.modTh_last1 (x : Tile) (i : Fin 8) (f : Thread → Thread) : (x.modTh i f).last1 = x.last1 := rfl
@[simp] theorem Tile.mapTh_last1 (x : Tile) (f : Thread → Thread) : (x.mapTh f).last1 = x.last1 := rfl
@[simp] theorem Tile.setTh_last2 (x : Tile) (i : Fin 8) (h : Thread) : (x.setTh i h).last2 = x.last2 := rfl
@[simp] theorem Tile.modTh_last2 (x : Tile) (i : Fin 8) (f : Thread → Thread) : (x.modTh i f).last2 = x.last2 := rfl
@[simp] theorem Tile.mapTh_last2 (x : Tile) (f : Thread → Thread) : (x.mapTh f).last2 = x.last2 := rfl
@[simp] theorem Tile.setTh_last3 (x : Tile) (i : Fin 8) (h : Thread) : (x.setTh i h).last3 = x.last3 := rfl
@[simp] theorem Tile.modTh_last3 (x : Tile) (i : Fin 8) (f : Thread → Thread) : (x.modTh i f).last3 = x.last3 := rfl
@[simp] theorem Tile.mapTh_last3 (x : Tile) (f : Thread → Thread) : (x.mapTh f).last3 = x.last3 := rfl
@[simp] theorem Tile.setTh_divider (x : Tile) (i : Fin 8) (h : Thread) : (x.setTh i h).divider = x.divider := rfl
@[simp] theorem Tile.modTh_divider (x : Tile) (i : Fin 8) (f : Thread → Thread) : (x.modTh i f).divider = x.divider := rfl
@[simp] theorem Tile.mapTh_divider (x : Tile) (f : Thread → Thread) : (x.mapTh f).divider = x.divider := rfl
@[simp] theorem Tile.setTh_reqs (x : Tile) (i : Fin 8) (h : Thread) : (x.setTh i h).reqs = x.reqs := rfl
@[simp] theorem Tile.modTh_reqs (x : Tile) (i : Fin 8) (f : Thread → Thread) : (x.modTh i f).reqs = x.reqs := rfl
@[simp] theorem Tile.mapTh_reqs (x : Tile) (f : Thread → Thread) : (x.mapTh f).reqs = x.reqs := rfl
@[simp] theorem Tile.setTh_groups (x : Tile) (i : Fin 8) (h : Thread) : (x.setTh i h).groups = x.groups := rfl
@[simp] theorem Tile.modTh_groups (x : Tile) (i : Fin 8) (f : Thread → Thread) : (x.modTh i f).groups = x.groups := rfl
@[simp] theorem Tile.mapTh_groups (x : Tile) (f : Thread → Thread) : (x.mapTh f).groups = x.groups := rfl
@[simp] theorem Tile.setTh_sfuFree (x : Tile) (i : Fin 8) (h : Thread) : (x.setTh i h).sfuFree = x.sfuFree := rfl
@[simp] theorem Tile.modTh_sfuFree (x : Tile) (i : Fin 8) (f : Thread → Thread) : (x.modTh i f).sfuFree = x.sfuFree := rfl
@[simp] theorem Tile.mapTh_sfuFree (x : Tile) (f : Thread → Thread) : (x.mapTh f).sfuFree = x.sfuFree := rfl
@[simp] theorem Tile.setTh_lateChecks (x : Tile) (i : Fin 8) (h : Thread) : (x.setTh i h).lateChecks = x.lateChecks := rfl
@[simp] theorem Tile.modTh_lateChecks (x : Tile) (i : Fin 8) (f : Thread → Thread) : (x.modTh i f).lateChecks = x.lateChecks := rfl
@[simp] theorem Tile.mapTh_lateChecks (x : Tile) (f : Thread → Thread) : (x.mapTh f).lateChecks = x.lateChecks := rfl
@[simp] theorem Tile.setTh_intake (x : Tile) (i : Fin 8) (h : Thread) : (x.setTh i h).intake = x.intake := rfl
@[simp] theorem Tile.modTh_intake (x : Tile) (i : Fin 8) (f : Thread → Thread) : (x.modTh i f).intake = x.intake := rfl
@[simp] theorem Tile.mapTh_intake (x : Tile) (f : Thread → Thread) : (x.mapTh f).intake = x.intake := rfl
@[simp] theorem Tile.setTh_inbox (x : Tile) (i : Fin 8) (h : Thread) : (x.setTh i h).inbox = x.inbox := rfl
@[simp] theorem Tile.modTh_inbox (x : Tile) (i : Fin 8) (f : Thread → Thread) : (x.modTh i f).inbox = x.inbox := rfl
@[simp] theorem Tile.mapTh_inbox (x : Tile) (f : Thread → Thread) : (x.mapTh f).inbox = x.inbox := rfl
@[simp] theorem Tile.setTh_chans (x : Tile) (i : Fin 8) (h : Thread) : (x.setTh i h).chans = x.chans := rfl
@[simp] theorem Tile.modTh_chans (x : Tile) (i : Fin 8) (f : Thread → Thread) : (x.modTh i f).chans = x.chans := rfl
@[simp] theorem Tile.mapTh_chans (x : Tile) (f : Thread → Thread) : (x.mapTh f).chans = x.chans := rfl
@[simp] theorem Tile.setTh_turn (x : Tile) (i : Fin 8) (h : Thread) : (x.setTh i h).turn = x.turn := rfl
@[simp] theorem Tile.modTh_turn (x : Tile) (i : Fin 8) (f : Thread → Thread) : (x.modTh i f).turn = x.turn := rfl
@[simp] theorem Tile.mapTh_turn (x : Tile) (f : Thread → Thread) : (x.mapTh f).turn = x.turn := rfl
@[simp] theorem Tile.setTh_ladle (x : Tile) (i : Fin 8) (h : Thread) : (x.setTh i h).ladle = x.ladle := rfl
@[simp] theorem Tile.modTh_ladle (x : Tile) (i : Fin 8) (f : Thread → Thread) : (x.modTh i f).ladle = x.ladle := rfl
@[simp] theorem Tile.mapTh_ladle (x : Tile) (f : Thread → Thread) : (x.mapTh f).ladle = x.ladle := rfl
@[simp] theorem Tile.setTh_matrix (x : Tile) (i : Fin 8) (h : Thread) : (x.setTh i h).matrix = x.matrix := rfl
@[simp] theorem Tile.modTh_matrix (x : Tile) (i : Fin 8) (f : Thread → Thread) : (x.modTh i f).matrix = x.matrix := rfl
@[simp] theorem Tile.mapTh_matrix (x : Tile) (f : Thread → Thread) : (x.mapTh f).matrix = x.matrix := rfl
@[simp] theorem Tile.setTh_evpend (x : Tile) (i : Fin 8) (h : Thread) : (x.setTh i h).evpend = x.evpend := rfl
@[simp] theorem Tile.modTh_evpend (x : Tile) (i : Fin 8) (f : Thread → Thread) : (x.modTh i f).evpend = x.evpend := rfl
@[simp] theorem Tile.mapTh_evpend (x : Tile) (f : Thread → Thread) : (x.mapTh f).evpend = x.evpend := rfl
@[simp] theorem Tile.setTh_elhead (x : Tile) (i : Fin 8) (h : Thread) : (x.setTh i h).elhead = x.elhead := rfl
@[simp] theorem Tile.modTh_elhead (x : Tile) (i : Fin 8) (f : Thread → Thread) : (x.modTh i f).elhead = x.elhead := rfl
@[simp] theorem Tile.mapTh_elhead (x : Tile) (f : Thread → Thread) : (x.mapTh f).elhead = x.elhead := rfl
@[simp] theorem Tile.setTh_elog (x : Tile) (i : Fin 8) (h : Thread) : (x.setTh i h).elog = x.elog := rfl
@[simp] theorem Tile.modTh_elog (x : Tile) (i : Fin 8) (f : Thread → Thread) : (x.modTh i f).elog = x.elog := rfl
@[simp] theorem Tile.mapTh_elog (x : Tile) (f : Thread → Thread) : (x.mapTh f).elog = x.elog := rfl
@[simp] theorem Tile.setTh_hriser (x : Tile) (i : Fin 8) (h : Thread) : (x.setTh i h).hriser = x.hriser := rfl
@[simp] theorem Tile.modTh_hriser (x : Tile) (i : Fin 8) (f : Thread → Thread) : (x.modTh i f).hriser = x.hriser := rfl
@[simp] theorem Tile.mapTh_hriser (x : Tile) (f : Thread → Thread) : (x.mapTh f).hriser = x.hriser := rfl
@[simp] theorem Tile.setTh_pcTrained (x : Tile) (i : Fin 8) (h : Thread) : (x.setTh i h).pcTrained = x.pcTrained := rfl
@[simp] theorem Tile.modTh_pcTrained (x : Tile) (i : Fin 8) (f : Thread → Thread) : (x.modTh i f).pcTrained = x.pcTrained := rfl
@[simp] theorem Tile.mapTh_pcTrained (x : Tile) (f : Thread → Thread) : (x.mapTh f).pcTrained = x.pcTrained := rfl
@[simp] theorem Tile.setTh_pcPowered (x : Tile) (i : Fin 8) (h : Thread) : (x.setTh i h).pcPowered = x.pcPowered := rfl
@[simp] theorem Tile.modTh_pcPowered (x : Tile) (i : Fin 8) (f : Thread → Thread) : (x.modTh i f).pcPowered = x.pcPowered := rfl
@[simp] theorem Tile.mapTh_pcPowered (x : Tile) (f : Thread → Thread) : (x.mapTh f).pcPowered = x.pcPowered := rfl
@[simp] theorem Tile.setTh_scrubPtr (x : Tile) (i : Fin 8) (h : Thread) : (x.setTh i h).scrubPtr = x.scrubPtr := rfl
@[simp] theorem Tile.modTh_scrubPtr (x : Tile) (i : Fin 8) (f : Thread → Thread) : (x.modTh i f).scrubPtr = x.scrubPtr := rfl
@[simp] theorem Tile.mapTh_scrubPtr (x : Tile) (f : Thread → Thread) : (x.mapTh f).scrubPtr = x.scrubPtr := rfl
@[simp] theorem Tile.setTh_ueCount (x : Tile) (i : Fin 8) (h : Thread) : (x.setTh i h).ueCount = x.ueCount := rfl
@[simp] theorem Tile.modTh_ueCount (x : Tile) (i : Fin 8) (f : Thread → Thread) : (x.modTh i f).ueCount = x.ueCount := rfl
@[simp] theorem Tile.mapTh_ueCount (x : Tile) (f : Thread → Thread) : (x.mapTh f).ueCount = x.ueCount := rfl
@[simp] theorem Tile.setTh_tlb (x : Tile) (i : Fin 8) (h : Thread) : (x.setTh i h).tlb = x.tlb := rfl
@[simp] theorem Tile.modTh_tlb (x : Tile) (i : Fin 8) (f : Thread → Thread) : (x.modTh i f).tlb = x.tlb := rfl
@[simp] theorem Tile.mapTh_tlb (x : Tile) (f : Thread → Thread) : (x.mapTh f).tlb = x.tlb := rfl
@[simp] theorem Tile.setTh_engineFaults (x : Tile) (i : Fin 8) (h : Thread) : (x.setTh i h).engineFaults = x.engineFaults := rfl
@[simp] theorem Tile.modTh_engineFaults (x : Tile) (i : Fin 8) (f : Thread → Thread) : (x.modTh i f).engineFaults = x.engineFaults := rfl
@[simp] theorem Tile.mapTh_engineFaults (x : Tile) (f : Thread → Thread) : (x.mapTh f).engineFaults = x.engineFaults := rfl
@[simp] theorem Tile.setTh_halted (x : Tile) (i : Fin 8) (h : Thread) : (x.setTh i h).halted = x.halted := rfl
@[simp] theorem Tile.setTh_sealed (x : Tile) (i : Fin 8) (h : Thread) : (x.setTh i h).sealed = x.sealed := rfl
@[simp] theorem Tile.modTh_halted (x : Tile) (i : Fin 8) (f : Thread → Thread) : (x.modTh i f).halted = x.halted := rfl
@[simp] theorem Tile.modTh_sealed (x : Tile) (i : Fin 8) (f : Thread → Thread) : (x.modTh i f).sealed = x.sealed := rfl
@[simp] theorem Tile.mapTh_halted (x : Tile) (f : Thread → Thread) : (x.mapTh f).halted = x.halted := rfl
@[simp] theorem Tile.mapTh_sealed (x : Tile) (f : Thread → Thread) : (x.mapTh f).sealed = x.sealed := rfl
@[simp] theorem Tile.setTh_ramBad (x : Tile) (i : Fin 8) (h : Thread) : (x.setTh i h).ramBad = x.ramBad := rfl
@[simp] theorem Tile.modTh_ramBad (x : Tile) (i : Fin 8) (f : Thread → Thread) : (x.modTh i f).ramBad = x.ramBad := rfl
@[simp] theorem Tile.mapTh_ramBad (x : Tile) (f : Thread → Thread) : (x.mapTh f).ramBad = x.ramBad := rfl
@[simp] theorem Tile.setTh_transient (x : Tile) (i : Fin 8) (h : Thread) : (x.setTh i h).transient = x.transient := rfl
@[simp] theorem Tile.modTh_transient (x : Tile) (i : Fin 8) (f : Thread → Thread) : (x.modTh i f).transient = x.transient := rfl
@[simp] theorem Tile.mapTh_transient (x : Tile) (f : Thread → Thread) : (x.mapTh f).transient = x.transient := rfl
@[simp] theorem Tile.setTh_tested (x : Tile) (i : Fin 8) (h : Thread) : (x.setTh i h).tested = x.tested := rfl
@[simp] theorem Tile.modTh_tested (x : Tile) (i : Fin 8) (f : Thread → Thread) : (x.modTh i f).tested = x.tested := rfl
@[simp] theorem Tile.mapTh_tested (x : Tile) (f : Thread → Thread) : (x.mapTh f).tested = x.tested := rfl
@[simp] theorem Tile.setTh_partTick (x : Tile) (i : Fin 8) (h : Thread) : (x.setTh i h).partTick = x.partTick := rfl
@[simp] theorem Tile.modTh_partTick (x : Tile) (i : Fin 8) (f : Thread → Thread) : (x.modTh i f).partTick = x.partTick := rfl
@[simp] theorem Tile.mapTh_partTick (x : Tile) (f : Thread → Thread) : (x.mapTh f).partTick = x.partTick := rfl
@[simp] theorem Tile.setTh_lattice (x : Tile) (i : Fin 8) (h : Thread) : (x.setTh i h).lattice = x.lattice := rfl
@[simp] theorem Tile.modTh_lattice (x : Tile) (i : Fin 8) (f : Thread → Thread) : (x.modTh i f).lattice = x.lattice := rfl
@[simp] theorem Tile.mapTh_lattice (x : Tile) (f : Thread → Thread) : (x.mapTh f).lattice = x.lattice := rfl
@[simp] theorem Tile.setTh_busyTick (x : Tile) (i : Fin 8) (h : Thread) : (x.setTh i h).busyTick = x.busyTick := rfl
@[simp] theorem Tile.setTh_was (x : Tile) (i : Fin 8) (h : Thread) : (x.setTh i h).was = x.was := rfl
@[simp] theorem Tile.setTh_delayed (x : Tile) (i : Fin 8) (h : Thread) : (x.setTh i h).delayed = x.delayed := rfl
@[simp] theorem Tile.setTh_told (x : Tile) (i : Fin 8) (h : Thread) : (x.setTh i h).told = x.told := rfl
@[simp] theorem Tile.setTh_unscreened (x : Tile) (i : Fin 8) (h : Thread) : (x.setTh i h).unscreened = x.unscreened := rfl
@[simp] theorem Tile.modTh_busyTick (x : Tile) (i : Fin 8) (f : Thread → Thread) : (x.modTh i f).busyTick = x.busyTick := rfl
@[simp] theorem Tile.modTh_was (x : Tile) (i : Fin 8) (f : Thread → Thread) : (x.modTh i f).was = x.was := rfl
@[simp] theorem Tile.modTh_delayed (x : Tile) (i : Fin 8) (f : Thread → Thread) : (x.modTh i f).delayed = x.delayed := rfl
@[simp] theorem Tile.modTh_told (x : Tile) (i : Fin 8) (f : Thread → Thread) : (x.modTh i f).told = x.told := rfl
@[simp] theorem Tile.modTh_unscreened (x : Tile) (i : Fin 8) (f : Thread → Thread) : (x.modTh i f).unscreened = x.unscreened := rfl
@[simp] theorem Tile.mapTh_busyTick (x : Tile) (f : Thread → Thread) : (x.mapTh f).busyTick = x.busyTick := rfl
@[simp] theorem Tile.mapTh_was (x : Tile) (f : Thread → Thread) : (x.mapTh f).was = x.was := rfl
@[simp] theorem Tile.mapTh_delayed (x : Tile) (f : Thread → Thread) : (x.mapTh f).delayed = x.delayed := rfl
@[simp] theorem Tile.mapTh_told (x : Tile) (f : Thread → Thread) : (x.mapTh f).told = x.told := rfl
@[simp] theorem Tile.mapTh_unscreened (x : Tile) (f : Thread → Thread) : (x.mapTh f).unscreened = x.unscreened := rfl
@[simp] theorem Thread.clearResv_st (h : Thread) (c : Nat) : (h.clearResv c).st = h.st := rfl
@[simp] theorem Thread.finish_mode (h : Thread) (pc : Dword) (b : Bool) : (h.finish pc b).mode = h.mode := rfl
@[simp] theorem Thread.clearResv_mode (h : Thread) (c : Nat) : (h.clearResv c).mode = h.mode := rfl
@[simp] theorem Thread.finish_firmware (h : Thread) (pc : Dword) (b : Bool) : (h.finish pc b).firmware = h.firmware := rfl
@[simp] theorem Thread.clearResv_firmware (h : Thread) (c : Nat) : (h.clearResv c).firmware = h.firmware := rfl
@[simp] theorem Thread.finish_epoch (h : Thread) (pc : Dword) (b : Bool) : (h.finish pc b).epoch = h.epoch := rfl
@[simp] theorem Thread.clearResv_epoch (h : Thread) (c : Nat) : (h.clearResv c).epoch = h.epoch := rfl
@[simp] theorem Thread.finish_x (h : Thread) (pc : Dword) (b : Bool) : (h.finish pc b).x = h.x := rfl
@[simp] theorem Thread.clearResv_x (h : Thread) (c : Nat) : (h.clearResv c).x = h.x := rfl
@[simp] theorem Thread.finish_v (h : Thread) (pc : Dword) (b : Bool) : (h.finish pc b).v = h.v := rfl
@[simp] theorem Thread.clearResv_v (h : Thread) (c : Nat) : (h.clearResv c).v = h.v := rfl
@[simp] theorem Thread.clearResv_pc (h : Thread) (c : Nat) : (h.clearResv c).pc = h.pc := rfl
@[simp] theorem Thread.finish_prio (h : Thread) (pc : Dword) (b : Bool) : (h.finish pc b).prio = h.prio := rfl
@[simp] theorem Thread.clearResv_prio (h : Thread) (c : Nat) : (h.clearResv c).prio = h.prio := rfl
@[simp] theorem Thread.clearResv_budget (h : Thread) (c : Nat) : (h.clearResv c).budget = h.budget := rfl
@[simp] theorem Thread.finish_mstatus (h : Thread) (pc : Dword) (b : Bool) : (h.finish pc b).mstatus = h.mstatus := rfl
@[simp] theorem Thread.clearResv_mstatus (h : Thread) (c : Nat) : (h.clearResv c).mstatus = h.mstatus := rfl
@[simp] theorem Thread.finish_mie (h : Thread) (pc : Dword) (b : Bool) : (h.finish pc b).mie = h.mie := rfl
@[simp] theorem Thread.clearResv_mie (h : Thread) (c : Nat) : (h.clearResv c).mie = h.mie := rfl
@[simp] theorem Thread.finish_mtvec (h : Thread) (pc : Dword) (b : Bool) : (h.finish pc b).mtvec = h.mtvec := rfl
@[simp] theorem Thread.clearResv_mtvec (h : Thread) (c : Nat) : (h.clearResv c).mtvec = h.mtvec := rfl
@[simp] theorem Thread.finish_mscratch (h : Thread) (pc : Dword) (b : Bool) : (h.finish pc b).mscratch = h.mscratch := rfl
@[simp] theorem Thread.clearResv_mscratch (h : Thread) (c : Nat) : (h.clearResv c).mscratch = h.mscratch := rfl
@[simp] theorem Thread.finish_mepc (h : Thread) (pc : Dword) (b : Bool) : (h.finish pc b).mepc = h.mepc := rfl
@[simp] theorem Thread.clearResv_mepc (h : Thread) (c : Nat) : (h.clearResv c).mepc = h.mepc := rfl
@[simp] theorem Thread.finish_mcause (h : Thread) (pc : Dword) (b : Bool) : (h.finish pc b).mcause = h.mcause := rfl
@[simp] theorem Thread.clearResv_mcause (h : Thread) (c : Nat) : (h.clearResv c).mcause = h.mcause := rfl
@[simp] theorem Thread.finish_mtval (h : Thread) (pc : Dword) (b : Bool) : (h.finish pc b).mtval = h.mtval := rfl
@[simp] theorem Thread.clearResv_mtval (h : Thread) (c : Nat) : (h.clearResv c).mtval = h.mtval := rfl
@[simp] theorem Thread.clearResv_instret (h : Thread) (c : Nat) : (h.clearResv c).instret = h.instret := rfl
@[simp] theorem Thread.finish_jsrseed (h : Thread) (pc : Dword) (b : Bool) : (h.finish pc b).jsrseed = h.jsrseed := rfl
@[simp] theorem Thread.clearResv_jsrseed (h : Thread) (c : Nat) : (h.clearResv c).jsrseed = h.jsrseed := rfl
@[simp] theorem Thread.finish_jmcfg (h : Thread) (pc : Dword) (b : Bool) : (h.finish pc b).jmcfg = h.jmcfg := rfl
@[simp] theorem Thread.clearResv_jmcfg (h : Thread) (c : Nat) : (h.clearResv c).jmcfg = h.jmcfg := rfl
@[simp] theorem Thread.finish_jvcfg (h : Thread) (pc : Dword) (b : Bool) : (h.finish pc b).jvcfg = h.jvcfg := rfl
@[simp] theorem Thread.clearResv_jvcfg (h : Thread) (c : Nat) : (h.clearResv c).jvcfg = h.jvcfg := rfl
@[simp] theorem Thread.finish_jutvec (h : Thread) (pc : Dword) (b : Bool) : (h.finish pc b).jutvec = h.jutvec := rfl
@[simp] theorem Thread.clearResv_jutvec (h : Thread) (c : Nat) : (h.clearResv c).jutvec = h.jutvec := rfl
@[simp] theorem Thread.finish_jutcause (h : Thread) (pc : Dword) (b : Bool) : (h.finish pc b).jutcause = h.jutcause := rfl
@[simp] theorem Thread.clearResv_jutcause (h : Thread) (c : Nat) : (h.clearResv c).jutcause = h.jutcause := rfl
@[simp] theorem Thread.finish_jutepc (h : Thread) (pc : Dword) (b : Bool) : (h.finish pc b).jutepc = h.jutepc := rfl
@[simp] theorem Thread.clearResv_jutepc (h : Thread) (c : Nat) : (h.clearResv c).jutepc = h.jutepc := rfl
@[simp] theorem Thread.finish_jutval (h : Thread) (pc : Dword) (b : Bool) : (h.finish pc b).jutval = h.jutval := rfl
@[simp] theorem Thread.clearResv_jutval (h : Thread) (c : Nat) : (h.clearResv c).jutval = h.jutval := rfl
@[simp] theorem Thread.finish_jmgate (h : Thread) (pc : Dword) (b : Bool) : (h.finish pc b).jmgate = h.jmgate := rfl
@[simp] theorem Thread.clearResv_jmgate (h : Thread) (c : Nat) : (h.clearResv c).jmgate = h.jmgate := rfl
@[simp] theorem Thread.finish_jmgatev (h : Thread) (pc : Dword) (b : Bool) : (h.finish pc b).jmgatev = h.jmgatev := rfl
@[simp] theorem Thread.clearResv_jmgatev (h : Thread) (c : Nat) : (h.clearResv c).jmgatev = h.jmgatev := rfl
@[simp] theorem Thread.finish_jrmark (h : Thread) (pc : Dword) (b : Bool) : (h.finish pc b).jrmark = h.jrmark := rfl
@[simp] theorem Thread.clearResv_jrmark (h : Thread) (c : Nat) : (h.clearResv c).jrmark = h.jrmark := rfl
@[simp] theorem Thread.finish_uhold (h : Thread) (pc : Dword) (b : Bool) : (h.finish pc b).uhold = h.uhold := rfl
@[simp] theorem Thread.clearResv_uhold (h : Thread) (c : Nat) : (h.clearResv c).uhold = h.uhold := rfl
@[simp] theorem Thread.finish_snap (h : Thread) (pc : Dword) (b : Bool) : (h.finish pc b).snap = h.snap := rfl
@[simp] theorem Thread.clearResv_snap (h : Thread) (c : Nat) : (h.clearResv c).snap = h.snap := rfl
@[simp] theorem Thread.finish_wait (h : Thread) (pc : Dword) (b : Bool) : (h.finish pc b).wait = h.wait := rfl
@[simp] theorem Thread.clearResv_wait (h : Thread) (c : Nat) : (h.clearResv c).wait = h.wait := rfl
@[simp] theorem Thread.finish_lastIssue (h : Thread) (pc : Dword) (b : Bool) : (h.finish pc b).lastIssue = h.lastIssue := rfl
@[simp] theorem Thread.clearResv_lastIssue (h : Thread) (c : Nat) : (h.clearResv c).lastIssue = h.lastIssue := rfl
@[simp] theorem Thread.clearResv_need (h : Thread) (c : Nat) : (h.clearResv c).need = h.need := rfl
@[simp] theorem Thread.finish_sleep (h : Thread) (pc : Dword) (b : Bool) : (h.finish pc b).sleep = h.sleep := rfl
@[simp] theorem Thread.clearResv_sleep (h : Thread) (c : Nat) : (h.clearResv c).sleep = h.sleep := rfl
@[simp] theorem Thread.finish_sleepTs (h : Thread) (pc : Dword) (b : Bool) : (h.finish pc b).sleepTs = h.sleepTs := rfl
@[simp] theorem Thread.clearResv_sleepTs (h : Thread) (c : Nat) : (h.clearResv c).sleepTs = h.sleepTs := rfl
@[simp] theorem Thread.finish_woken (h : Thread) (pc : Dword) (b : Bool) : (h.finish pc b).woken = h.woken := rfl
@[simp] theorem Thread.clearResv_woken (h : Thread) (c : Nat) : (h.clearResv c).woken = h.woken := rfl
@[simp] theorem Thread.finish_lat (h : Thread) (pc : Dword) (b : Bool) : (h.finish pc b).lat = h.lat := rfl
@[simp] theorem Thread.clearResv_lat (h : Thread) (c : Nat) : (h.clearResv c).lat = h.lat := rfl
@[simp] theorem Thread.finish_vlat (h : Thread) (pc : Dword) (b : Bool) : (h.finish pc b).vlat = h.vlat := rfl
@[simp] theorem Thread.clearResv_vlat (h : Thread) (c : Nat) : (h.clearResv c).vlat = h.vlat := rfl
@[simp] theorem Thread.finish_pend (h : Thread) (pc : Dword) (b : Bool) : (h.finish pc b).pend = h.pend := rfl
@[simp] theorem Thread.clearResv_pend (h : Thread) (c : Nat) : (h.clearResv c).pend = h.pend := rfl
@[simp] theorem Thread.finish_resv (h : Thread) (pc : Dword) (b : Bool) : (h.finish pc b).resv = h.resv := rfl
@[simp] theorem Thread.finish_holdEnd (h : Thread) (pc : Dword) (b : Bool) : (h.finish pc b).holdEnd = h.holdEnd := rfl
@[simp] theorem Thread.finish_lastHold (h : Thread) (pc : Dword) (b : Bool) : (h.finish pc b).lastHold = h.lastHold := rfl
@[simp] theorem Thread.finish_intervals (h : Thread) (pc : Dword) (b : Bool) : (h.finish pc b).intervals = h.intervals := rfl
@[simp] theorem Thread.clearResv_intervals (h : Thread) (c : Nat) : (h.clearResv c).intervals = h.intervals := rfl
@[simp] theorem Thread.finish_unchk (h : Thread) (pc : Dword) (b : Bool) : (h.finish pc b).unchk = h.unchk := rfl
@[simp] theorem Thread.clearResv_unchk (h : Thread) (c : Nat) : (h.clearResv c).unchk = h.unchk := rfl
@[simp] theorem Thread.finish_checks (h : Thread) (pc : Dword) (b : Bool) : (h.finish pc b).checks = h.checks := rfl
@[simp] theorem Thread.clearResv_checks (h : Thread) (c : Nat) : (h.clearResv c).checks = h.checks := rfl
@[simp] theorem Thread.finish_acquire (h : Thread) (pc : Dword) (b : Bool) : (h.finish pc b).acquire = h.acquire := rfl
@[simp] theorem Thread.clearResv_acquire (h : Thread) (c : Nat) : (h.clearResv c).acquire = h.acquire := rfl
@[simp] theorem Thread.finish_awaits (h : Thread) (pc : Dword) (b : Bool) : (h.finish pc b).awaits = h.awaits := rfl
@[simp] theorem Thread.clearResv_awaits (h : Thread) (c : Nat) : (h.clearResv c).awaits = h.awaits := rfl
@[simp] theorem Thread.finish_vecAt (h : Thread) (pc : Dword) (b : Bool) : (h.finish pc b).vecAt = h.vecAt := rfl
@[simp] theorem Thread.finish_vecGid (h : Thread) (pc : Dword) (b : Bool) : (h.finish pc b).vecGid = h.vecGid := rfl
@[simp] theorem Thread.finish_vec (h : Thread) (pc : Dword) (b : Bool) : (h.finish pc b).vec = h.vec := rfl
@[simp] theorem Thread.clearResv_vec (h : Thread) (c : Nat) : (h.clearResv c).vec = h.vec := rfl
@[simp] theorem Thread.clearResv_vecAt (h : Thread) (c : Nat) : (h.clearResv c).vecAt = h.vecAt := rfl
@[simp] theorem Thread.clearResv_vecGid (h : Thread) (c : Nat) : (h.clearResv c).vecGid = h.vecGid := rfl
@[simp] theorem Thread.finish_fbuf (h : Thread) (pc : Dword) (b : Bool) : (h.finish pc b).fbuf = h.fbuf := rfl
@[simp] theorem Thread.clearResv_fbuf (h : Thread) (c : Nat) : (h.clearResv c).fbuf = h.fbuf := rfl
@[simp] theorem Thread.finish_walkFault (h : Thread) (pc : Dword) (b : Bool) : (h.finish pc b).walkFault = h.walkFault := rfl
@[simp] theorem Thread.clearResv_walkFault (h : Thread) (c : Nat) : (h.clearResv c).walkFault = h.walkFault := rfl
@[simp] theorem Thread.finish_rcfg (h : Thread) (pc : Dword) (b : Bool) : (h.finish pc b).rcfg = h.rcfg := rfl
@[simp] theorem Thread.clearResv_rcfg (h : Thread) (c : Nat) : (h.clearResv c).rcfg = h.rcfg := rfl
@[simp] theorem Thread.finish_fwTrap (h : Thread) (pc : Dword) (b : Bool) : (h.finish pc b).fwTrap = h.fwTrap := rfl
@[simp] theorem Thread.clearResv_fwTrap (h : Thread) (c : Nat) : (h.clearResv c).fwTrap = h.fwTrap := rfl

end Sys2Proof.Machine
end

