-- ==== Sys2Proof/Laws/Ops.lean ====
section
/-!
SUPPORT. What the shared operations do, once each: reading back what was set, the memory's canonical form, and the ends of
an instruction.
-/
namespace Sys2Proof.Machine

/-! ### Sparse data -/

@[simp] theorem Assoc.get_put_same {α : Type} (d : α) (a : Nat) (v : α) (l : List (Nat × α)) :
    Assoc.get d (Assoc.put a v l) a = v := by
  induction l with
  | nil => simp [Assoc.put, Assoc.get]
  | cons p r ih =>
    obtain ⟨k, w⟩ := p
    simp only [Assoc.put]
    split
    · simp [Assoc.get]
    · split
      · simp [Assoc.get]
      · rename_i h _
        simp [Assoc.get, ih, Ne.symm h]

theorem Assoc.get_put_other {α : Type} (d : α) {a b : Nat} (v : α) (l : List (Nat × α)) (h : b ≠ a) :
    Assoc.get d (Assoc.put a v l) b = Assoc.get d l b := by
  induction l with
  | nil => simp [Assoc.put, Assoc.get, Ne.symm h]
  | cons p r ih =>
    obtain ⟨k, w⟩ := p
    simp only [Assoc.put]
    split
    · rename_i e; subst e; simp [Assoc.get, Ne.symm h]
    · split
      · simp [Assoc.get, Ne.symm h]
      · simp [Assoc.get, ih]

theorem Assoc.all_put {α : Type} (q : Nat × α → Bool) (a : Nat) (v : α) (l : List (Nat × α))
    (hl : l.all q = true) (hv : q (a, v) = true) : (Assoc.put a v l).all q = true := by
  induction l with
  | nil => simp [Assoc.put, hv]
  | cons p r ih =>
    obtain ⟨k, w⟩ := p
    simp only [List.all_cons, Bool.and_eq_true] at hl
    simp only [Assoc.put]
    split
    · simp [hv, hl.2]
    · split
      · simp [hv, hl.1, hl.2]
      · simp [hl.1, ih hl.2]

theorem Assoc.rising_put {α : Type} (a : Nat) (v : α) (l : List (Nat × α)) (hl : Assoc.rising l = true) :
    Assoc.rising (Assoc.put a v l) = true := by
  induction l with
  | nil => simp [Assoc.put, Assoc.rising]
  | cons p r ih =>
    obtain ⟨k, w⟩ := p
    simp only [Assoc.rising, Bool.and_eq_true, List.all_eq_true, decide_eq_true_eq] at hl
    simp only [Assoc.put]
    split
    · rename_i e; subst e
      simp only [Assoc.rising, Bool.and_eq_true, List.all_eq_true, decide_eq_true_eq]; exact hl
    · split
      · rename_i h
        simp only [Assoc.rising, Bool.and_eq_true, List.all_eq_true, decide_eq_true_eq, List.mem_cons]
        exact ⟨fun x hx => hx.elim (fun e => e ▸ h) (fun m => Nat.lt_trans h (hl.1 x m)), hl.1, hl.2⟩
      · rename_i h1 h2
        simp only [Assoc.rising, Bool.and_eq_true]
        refine ⟨Assoc.all_put _ a v r ?_ ?_, ih hl.2⟩
        · simpa using hl.1
        · simp; omega

theorem Assoc.all_del {α : Type} (q : Nat × α → Bool) (a : Nat) (l : List (Nat × α)) (hl : l.all q = true) :
    (Assoc.del a l).all q = true := by
  induction l with
  | nil => rfl
  | cons p r ih =>
    obtain ⟨k, w⟩ := p
    simp only [List.all_cons, Bool.and_eq_true] at hl
    simp only [Assoc.del]
    split
    · exact ih hl.2
    · simp [hl.1, ih hl.2]

theorem Assoc.rising_del {α : Type} (a : Nat) (l : List (Nat × α)) (hl : Assoc.rising l = true) :
    Assoc.rising (Assoc.del a l) = true := by
  induction l with
  | nil => rfl
  | cons p r ih =>
    obtain ⟨k, w⟩ := p
    simp only [Assoc.rising, Bool.and_eq_true] at hl
    simp only [Assoc.del]
    split
    · exact ih hl.2
    · simp only [Assoc.rising, Bool.and_eq_true]
      exact ⟨Assoc.all_del _ a r hl.1, ih hl.2⟩

theorem Assoc.rising_filter {α : Type} (q : Nat × α → Bool) (l : List (Nat × α)) (hl : Assoc.rising l = true) :
    Assoc.rising (l.filter q) = true := by
  induction l with
  | nil => rfl
  | cons p r ih =>
    obtain ⟨k, w⟩ := p
    simp only [Assoc.rising, Bool.and_eq_true, List.all_eq_true] at hl
    simp only [List.filter_cons]
    split
    · simp only [Assoc.rising, Bool.and_eq_true, List.all_eq_true]
      exact ⟨fun x hx => hl.1 x ((List.mem_filter.1 hx).1), ih hl.2⟩
    · exact ih hl.2

theorem Assoc.rising_map {α β : Type} (f : Nat × α → Nat × β) (hf : ∀ p, (f p).1 = p.1) (l : List (Nat × α))
    (hl : Assoc.rising l = true) : Assoc.rising (l.map f) = true := by
  induction l with
  | nil => rfl
  | cons p r ih =>
    obtain ⟨k, w⟩ := p
    simp only [Assoc.rising, Bool.and_eq_true, List.all_eq_true, decide_eq_true_eq] at hl
    have e : f (k, w) = (k, (f (k, w)).2) := Prod.ext (hf (k, w)) rfl
    rw [List.map_cons, e]
    simp only [Assoc.rising, Bool.and_eq_true, List.all_eq_true, List.mem_map, decide_eq_true_eq]
    refine ⟨?_, ih hl.2⟩
    rintro x ⟨y, hy, rfl⟩
    rw [hf]; exact hl.1 y hy

theorem Assoc.get_del_same {α : Type} (d : α) (a : Nat) (l : List (Nat × α)) : Assoc.get d (Assoc.del a l) a = d := by
  induction l with
  | nil => rfl
  | cons p r ih =>
    obtain ⟨k, w⟩ := p
    simp only [Assoc.del]
    split
    · exact ih
    · rename_i h; simp [Assoc.get, Ne.symm h, ih]

theorem Assoc.get_del_other {α : Type} (d : α) {a b : Nat} (l : List (Nat × α)) (h : b ≠ a) :
    Assoc.get d (Assoc.del a l) b = Assoc.get d l b := by
  induction l with
  | nil => rfl
  | cons p r ih =>
    obtain ⟨k, w⟩ := p
    simp only [Assoc.del]
    split
    · rename_i e; subst e; simp [Assoc.get, Ne.symm h, ih]
    · simp [Assoc.get, ih]

/-! ### Memory -/

theorem Memory.wf_set (m : List Host.Cell) (k : Nat) (b : Byte) (h : Memory.wf m = true) :
    Memory.wf (Memory.set m k b) = true := by
  simp only [Memory.wf, Bool.and_eq_true] at h ⊢
  unfold Memory.set
  split
  · exact ⟨Assoc.rising_del k m h.1, Assoc.all_del _ k m h.2⟩
  · rename_i hb
    exact ⟨Assoc.rising_put k b m h.1, Assoc.all_put _ k b m h.2 (by simpa using hb)⟩

theorem Memory.wf_write (m : List Host.Cell) (k : Nat) (bs : List Byte) (h : Memory.wf m = true) :
    Memory.wf (Memory.write m k bs) = true := by
  induction bs generalizing m k with
  | nil => exact h
  | cons b bs ih => exact ih _ _ (Memory.wf_set m k b h)

theorem Memory.wf_filter (m : List Host.Cell) (q : Host.Cell → Bool) (h : Memory.wf m = true) :
    Memory.wf (m.filter q) = true := by
  simp only [Memory.wf, Bool.and_eq_true] at h ⊢
  refine ⟨Assoc.rising_filter q m h.1, ?_⟩
  simp only [List.all_eq_true] at h ⊢
  exact fun x hx => h.2 x ((List.mem_filter.1 hx).1)

@[simp] theorem Memory.get_set_same (m : List Host.Cell) (k : Nat) (b : Byte) : Memory.get (Memory.set m k b) k = b := by
  unfold Memory.get Memory.set
  split
  · rename_i h; rw [Assoc.get_del_same, h]
  · simp

theorem Memory.get_set_other (m : List Host.Cell) {k j : Nat} (b : Byte) (h : j ≠ k) :
    Memory.get (Memory.set m k b) j = Memory.get m j := by
  unfold Memory.get Memory.set
  split
  · exact Assoc.get_del_other _ _ h
  · exact Assoc.get_put_other _ _ _ h

/-- What a written range and everything outside it read as. -/
theorem Memory.get_write (m : List Host.Cell) (k : Nat) (bs : List Byte) (j : Nat) :
    Memory.get (Memory.write m k bs) j =
      if h : k ≤ j ∧ j < k + bs.length then bs[j - k]'(by omega) else Memory.get m j := by
  induction bs generalizing m k with
  | nil =>
    rw [dif_neg (fun h => absurd (Nat.lt_of_lt_of_le h.2 h.1) (Nat.lt_irrefl _))]
    rfl
  | cons b bs ih =>
    rw [Memory.write, ih]
    by_cases h1 : j = k
    · subst h1
      rw [dif_neg (by omega), dif_pos (by simp)]
      simp
    · by_cases h2 : k + 1 ≤ j ∧ j < k + 1 + bs.length
      · rw [dif_pos h2, dif_pos (by simp; omega)]
        have : j - k = (j - (k + 1)) + 1 := by omega
        simp [this]
      · rw [dif_neg h2, dif_neg (by simp; omega), Memory.get_set_other _ _ h1]

/-! ### Tiles and threads -/

@[simp] theorem State.tile_setTile (s : State) (t : Nat) (x : Tile) : (s.setTile t x).tile t = x := by
  simp [State.tile, State.setTile]
theorem State.tile_setTile_other (s : State) {t u : Nat} (x : Tile) (h : u ≠ t) : (s.setTile t x).tile u = s.tile u := by
  simp [State.tile, State.setTile, Assoc.get_put_other _ _ _ h]
@[simp] theorem State.tile_modTile (s : State) (t : Nat) (f : Tile → Tile) : (s.modTile t f).tile t = f (s.tile t) := by
  simp [State.modTile]
theorem State.tile_modTile_other (s : State) {t u : Nat} (f : Tile → Tile) (h : u ≠ t) :
    (s.modTile t f).tile u = s.tile u := State.tile_setTile_other s _ h
@[simp] theorem Tile.th_setTh (x : Tile) (i : Fin 8) (h : Thread) : (x.setTh i h).th i = h := by
  simp [Tile.th, Tile.setTh]
theorem Tile.th_setTh_other (x : Tile) {i j : Fin 8} (h : Thread) (ne : j ≠ i) : (x.setTh i h).th j = x.th j := by
  have : i.val ≠ j.val := fun e => ne (Fin.ext e.symm)
  simp [Tile.th, Tile.setTh, this]
@[simp] theorem State.here_modHere (s : State) (f : Tile → Tile) : (s.modHere f).here = f s.here := by
  simp [State.here, State.modHere]
@[simp] theorem State.me_modMe (s : State) (f : Thread → Thread) : (s.modMe f).me = f s.me := by
  simp [State.me, State.modMe, State.th, State.modTh, Tile.modTh]

/-- Reading x registers after a write. -/
theorem Thread.rx_wx (h : Thread) (r rd : Reg) (v : Dword) :
    (h.wx rd v).rx r = if r = rd ∧ r ≠ 0 then v else h.rx r := by
  unfold Thread.rx Thread.wx
  split
  · rename_i e; simp [e]
  · rename_i h0
    split
    · rename_i h1
      have : r ≠ rd := fun e => h0 (e.trans h1)
      simp [this]
    · by_cases h2 : r = rd
      · subst h2
        have : r ≠ 0#5 := h0
        simp [this]
      · have : rd.toNat ≠ r.toNat := fun e => h2 (BitVec.eq_of_toNat_eq e.symm)
        simp [h2, this]

/-! ### Ends of an instruction -/

/-- The tile that retiring leaves. -/
def retiredTile (x : Tile) (i : Fin 8) (h : Thread) : Tile :=
  let y := x.setTh i { h with wait := 0, lastIssue := x.cycle }
  if i.val < 6 then
    match y.eprio h with
    | 0 => { y with last0 := i }
    | 1 => { y with last1 := i }
    | 2 => { y with last2 := i }
    | _ => { y with last3 := i }
  else y

theorem retiredTile_th (x : Tile) (i j : Fin 8) (h : Thread) :
    (retiredTile x i h).th j = if j = i then { h with wait := 0, lastIssue := x.cycle } else x.th j := by
  have : ∀ y : Tile, y.threads = (x.setTh i { h with wait := 0, lastIssue := x.cycle }).threads →
      y.th j = if j = i then { h with wait := 0, lastIssue := x.cycle } else x.th j := by
    intro y e
    have e' : y.th j = (x.setTh i { h with wait := 0, lastIssue := x.cycle }).th j := by simp [Tile.th, e]
    rw [e']
    split
    · rename_i e; subst e; simp
    · rename_i e; exact Tile.th_setTh_other _ _ e
  apply this
  unfold retiredTile
  dsimp only
  split
  · split <;> rfl
  · rfl

theorem retiredTile_rest (x : Tile) (i : Fin 8) (h : Thread) :
    { retiredTile x i h with
      threads := x.threads, last0 := x.last0, last1 := x.last1, last2 := x.last2, last3 := x.last3 } = x := by
  unfold retiredTile
  dsimp only
  split
  · split <;> rfl
  · rfl

theorem State.setTile_setTile (s : State) (t : Nat) (x y : Tile) : (s.setTile t x).setTile t y = s.setTile t y := by
  have : ∀ l : List (Nat × Tile), Assoc.put t y (Assoc.put t x l) = Assoc.put t y l := by
    intro l
    induction l with
    | nil => simp [Assoc.put]
    | cons p r ih =>
      obtain ⟨k, w⟩ := p
      simp only [Assoc.put]
      split
      · simp [Assoc.put]
      · split
        · simp [Assoc.put]
        · rename_i h1 h2
          simp [Assoc.put, h1, h2, ih]
  simp [State.setTile, this]

theorem Tile.setTh_setTh (x : Tile) (i : Fin 8) (h k : Thread) : (x.setTh i h).setTh i k = x.setTh i k := by
  simp [Tile.setTh]
theorem retiredTile_modTh (x : Tile) (i : Fin 8) (f : Thread → Thread) (h : Thread) :
    retiredTile (x.modTh i f) i h = retiredTile x i h := by
  unfold retiredTile
  rw [Tile.modTh, Tile.setTh_cycle, Tile.setTh_setTh]

/-- What the note of an issue does to the tile at the cursor. -/
theorem State.noteIssue_eq (s : State) :
    s.noteIssue = s.setTile s.cur.tile (retiredTile s.here s.cur.slot s.me) := rfl

/-- A change of the one tile at the cursor, of its thread's context and of the core's record of issues alone. -/
theorem sameButMe_retiredTile (s : State) (h : Thread) :
    sameButMe s (s.setTile s.cur.tile (retiredTile s.here s.cur.slot h)) := by
  refine ⟨rfl, fun u hu => State.tile_setTile_other _ _ hu, ?_, ?_⟩
  · simp only [State.here, State.setTile_cur, State.tile_setTile]
    exact retiredTile_rest _ _ _
  · intro i hi
    simp only [State.th, State.tile_setTile]
    rw [retiredTile_th, if_neg hi]; rfl

@[simp] theorem State.here_modMe (s : State) (f : Thread → Thread) : (s.modMe f).here = s.here.modTh s.cur.slot f := by
  simp [State.here, State.modMe, State.modTh]
@[simp] theorem State.modMe_modMe (s : State) (f g : Thread → Thread) : (s.modMe f).modMe g = s.modMe fun h => g (f h) := by
  simp only [State.modMe, State.modTh, State.modTile, State.setTile_cur, State.tile_setTile, State.setTile_setTile]
  congr 1
  simp [Tile.modTh, Tile.setTh, Tile.th]
theorem State.modHere_modHere (s : State) (f g : Tile → Tile) : (s.modHere f).modHere g = s.modHere fun x => g (f x) := by
  simp only [State.modHere, State.modTile, State.setTile_cur, State.tile_setTile, State.setTile_setTile]

/-- A change of the thread at the cursor, and the note of an issue. -/
theorem noteIssue_modMe (s : State) (f : Thread → Thread) :
    (s.modMe f).noteIssue.me = { f s.me with wait := 0, lastIssue := s.here.cycle }
      ∧ sameButMe s (s.modMe f).noteIssue := by
  have e : (s.modMe f).noteIssue = s.setTile s.cur.tile (retiredTile s.here s.cur.slot (f s.me)) := by
    rw [State.noteIssue_eq, State.me_modMe, State.here_modMe]
    show ((s.modMe f).setTile s.cur.tile _) = _
    rw [show (s.modMe f).cur = s.cur from rfl, retiredTile_modTh]
    simp only [State.modMe, State.modTh, State.modTile, State.setTile_setTile]
  rw [e]
  refine ⟨?_, sameButMe_retiredTile s _⟩
  simp only [State.me, State.th, State.setTile_cur, State.tile_setTile]
  rw [retiredTile_th, if_pos rfl]

/-- What retiring does: the thread at the cursor, and nothing else. -/
theorem retired_of_retireTo (s : State) (f : Thread → Thread) (pc : Dword) :
    Retired s ((s.modMe f).retireTo pc) (f s.me) pc := by
  have h := noteIssue_modMe s fun x => (f x).finish pc (decide (6 ≤ s.cur.slot.val))
  unfold State.retireTo
  rw [State.modMe_modMe]
  refine ⟨?_, h.2⟩
  refine Eq.trans h.1 ?_
  simp only [retiredThread, Thread.finish, decide_eq_true_eq]

/-- Retiring with the context as it stands. -/
theorem retired_of_retire (s : State) (pc : Dword) : Retired s (s.retireTo pc) s.me pc := by
  have h := noteIssue_modMe s fun x => x.finish pc (decide (6 ≤ s.cur.slot.val))
  refine ⟨Eq.trans h.1 ?_, h.2⟩
  simp only [retiredThread, Thread.finish, decide_eq_true_eq]

/-- A result written to x[rd]. -/
theorem writes_of_result (i : Instr) (s : State) (rd : Reg) (v : Dword) (h : exec i s = .next (s.wx rd v).retire) :
    Writes i s rd v := by
  have hp : (s.wx rd v).me.pc = s.me.pc := by
    simp only [State.wx, State.me_modMe]; unfold Thread.wx; split <;> rfl
  refine ⟨_, h, ?_, ?_⟩
  · unfold State.retire; rw [hp]; exact retired_of_retireTo s (·.wx rd v) _
  · intro r
    unfold State.retire
    rw [hp]
    have := (retired_of_retireTo s (·.wx rd v) (s.me.pc + 4)).1
    show (State.me _).rx r = _
    rw [State.wx, this]
    show (s.me.wx rd v).rx r = _
    rw [Thread.rx_wx]; rfl

/-- A result to be read later. -/
theorem lateWrites_of_wxIn (i : Instr) (s : State) (rd : Reg) (v : Dword) (n : Nat)
    (h : exec i s = .next (s.wxIn rd v n).retire) : LateWrites i s rd v n := by
  have hr : ∀ r, (s.me.wxIn rd v s.here.cycle n).rx r = if r = rd ∧ r ≠ 0 then v else s.me.rx r := by
    intro r
    unfold Thread.wxIn
    split
    · rename_i e
      rw [if_neg]
      rintro ⟨a, b⟩
      exact b (a.trans e)
    · rw [← Thread.rx_wx]; rfl
  have hp : (s.wxIn rd v n).me.pc = s.me.pc := by
    simp only [State.wxIn, State.me_modMe]; unfold Thread.wxIn Thread.wx; split <;> rfl
  refine ⟨_, h, ?_, ?_⟩
  · unfold State.retire; rw [hp]; exact retired_of_retireTo s (·.wxIn rd v s.here.cycle n) _
  · intro r
    unfold State.retire
    rw [hp]
    have := (retired_of_retireTo s (·.wxIn rd v s.here.cycle n) (s.me.pc + 4)).1
    show (State.me _).rx r = _
    rw [State.wxIn, this]
    exact hr r

theorem goesTo_of_retireTo (i : Instr) (s : State) (pc : Dword) (h : exec i s = .next (s.retireTo pc)) : GoesTo i s pc :=
  ⟨_, h, retired_of_retire s pc⟩

/-- An effect, and the retirement that follows it. -/
theorem effects_of_retire (i : Instr) (s u : State) (h : exec i s = .next u.retire) (hp : u.me.pc = s.me.pc) :
    Effects i s u := by
  refine ⟨_, h, ?_⟩
  have := retired_of_retire u (u.me.pc + 4)
  rw [hp] at this
  unfold State.retire
  rw [hp]
  exact this

/-- What blocking does. -/
theorem blocks_of_block (i : Instr) (s : State) (st : SlotState) (n : Need) (h : exec i s = .next (s.block st n)) :
    Blocks i s st n := by
  refine ⟨_, h, ?_, rfl, fun u hu => State.tile_modTile_other _ _ hu, ?_, ?_⟩
  · simp [State.block]
  · simp only [State.block, State.here_modMe]; rfl
  · intro j hj
    simp only [State.block, State.modMe, State.modTh, State.th, State.tile_modTile]
    exact Tile.th_setTh_other _ _ hj

/-- Holds that end wake the threads that waited for them. -/
theorem Tile.wakeHold_th (x : Tile) (i : Fin 8) : x.wakeHold.th i = afterHold (x.th i) := by
  unfold Tile.wakeHold Tile.mapTh Tile.th mapV afterHold
  simp only [Fin.getElem_fin, Vector.getElem_ofFn]

theorem trapped_eq (s : State) (cause : Nat) (epc val : Dword) (int : Bool) :
    { s.me.trapped (s.delegated cause epc int) s.here.cycle cause epc val int with
      wait := 0, lastIssue := s.here.cycle } = trappedThread s cause epc val int := by
  unfold Thread.trapped trappedThread
  dsimp only
  split <;> rfl

theorem trapped_need (h : Thread) (d : Bool) (c cause : Nat) (epc val : Dword) (int : Bool) :
    (h.trapped d c cause epc val int).need = .none := by
  unfold Thread.trapped
  dsimp only
  split <;> rfl

/-- What taking a trap without a fault record does. -/
theorem traps_of_trap (i : Instr) (s : State) (cause : Nat) (val : Dword) (h : exec i s = .next (s.trap cause val)) :
    Traps i s cause val := by
  refine ⟨_, h, ?_⟩
  show State.me (State.noteIssue _) = _ ∧ sameButHeld s (State.noteIssue _)
  rw [State.noteIssue_eq]
  simp only [State.modMe, State.modTh, State.modHere, State.modTile, State.setTile_cur, State.tile_setTile,
    State.setTile_setTile, State.me, State.here, State.th, Tile.wakeHold_th, Tile.modTh, Tile.th_setTh]
  have hn : afterHold ((s.me.trapped (s.delegated cause s.me.pc false) s.here.cycle cause s.me.pc val false)) = _ :=
    if_neg (by rw [trapped_need]; decide)
  refine ⟨?_, rfl, fun u hu => State.tile_setTile_other _ _ hu, ?_, ?_⟩
  · rw [retiredTile_th, if_pos rfl]
    refine Eq.trans ?_ (trapped_eq s cause s.me.pc val false)
    exact congrArg (fun h : Thread => ({ h with wait := 0, lastIssue := s.here.cycle } : Thread)) hn
  · simp only [State.here, State.setTile_cur, State.tile_setTile]
    exact congrArg (fun x : Tile => ({ x with threads := s.here.threads } : Tile)) (retiredTile_rest _ _ _)
  · intro j hj
    simp only [State.th, State.tile_setTile]
    rw [retiredTile_th, if_neg hj, Tile.wakeHold_th, Tile.th_setTh_other _ _ hj]

/-! ### Writes at a port, and the seal of a suspension or a close -/

/-- A write in its turn at a port is performed, or it waits there and nothing but the port's queue changes. -/
theorem atPort_cases (s0 s : State) (t : Nat) (who : Waiter) (w : Writer) (spans : List (Nat × Nat)) (k : State → State) :
    (s.portBlocked t who w spans = true ∧ s0.atPort s t who w spans k = s0.waitAt t who spans)
      ∨ (s.portBlocked t who w spans = false
        ∧ s0.atPort s t who w spans k = k (s.modTile t fun x => { x with delayed := x.delayed.filter (·.1 != who) })) := by
  cases h : s.portBlocked t who w spans <;> simp [State.atPort, h]

@[simp] theorem State.waitAt_mem (s : State) (t : Nat) (who : Waiter) (l : List (Nat × Nat)) : (s.waitAt t who l).mem = s.mem := rfl
@[simp] theorem State.waitAt_marks (s : State) (t : Nat) (who : Waiter) (l : List (Nat × Nat)) :
    (s.waitAt t who l).marks = s.marks := rfl
@[simp] theorem State.waitAt_net (s : State) (t : Nat) (who : Waiter) (l : List (Nat × Nat)) : (s.waitAt t who l).net = s.net := rfl
theorem State.tile_waitAt_other (s : State) {t u : Nat} (who : Waiter) (l : List (Nat × Nat)) (h : u ≠ t) :
    (s.waitAt t who l).tile u = s.tile u := State.tile_modTile_other _ _ h
@[simp] theorem State.tile_waitAt_threads (s : State) (t : Nat) (who : Waiter) (l : List (Nat × Nat)) :
    ((s.waitAt t who l).tile t).threads = (s.tile t).threads := by
  simp only [State.waitAt, State.tile_modTile]
  split <;> rfl

@[simp] theorem State.seal_mem (s : State) (ts : List Nat) : (s.seal ts).mem = s.mem := by
  induction ts generalizing s with
  | nil => rfl
  | cons t r ih => exact (ih _).trans rfl
theorem State.tile_seal (s : State) (ts : List Nat) (u : Nat) :
    (s.seal ts).tile u = { s.tile u with sealed := (s.tile u).sealed || memNat u ts } := by
  induction ts generalizing s with
  | nil => simp [State.seal, memNat]
  | cons t r ih =>
    refine (ih (s.modTile t fun x => { x with sealed := true })).trans ?_
    by_cases h : u = t
    · subst h; simp [memNat]
    · rw [State.tile_modTile_other _ _ h]; simp [memNat, beq_false_of_ne h]

end Sys2Proof.Machine
end

