-- ==== Sys2Proof/Tests/Slice0.lean ====
section
/-!
SUPPORT. The model's own tests: ill-formed instructions refused, words decoded, single instructions on small states, and
for each statement states and operands that meet its hypotheses.
-/
namespace Sys2Proof.Tests
open Sys2Proof Sys2Proof.Machine
set_option Elab.async false

/-! ### Small states -/

/-- A core of a 2 by 2 partition of number 5, job module 0 of modules 0 and 1, with every class of instructions. -/
def core1 : CoreRegs :=
  { jmpart0 := 0x1002, jmpart1 := 0x0005000000006003, jmodule := 0x10000, jobid := 9 }
/-- An enabled tile with that core. -/
def tile1 : Tile := { router := 1, core := core1 }
/-- Registers by number; the others are 0. -/
def regs (l : List (Nat × Nat)) : Vector Dword 32 := Vector.ofFn fun i => BitVec.ofNat 64 (Assoc.get 0 l i.val)
/-- A ready U-mode thread with registers l. -/
def user (l : List (Nat × Nat)) : Thread := { st := .ready, x := regs l }
/-- A ready M-mode thread with registers l. -/
def mach (l : List (Nat × Nat)) : Thread := { st := .ready, mode := .machine, x := regs l }
/-- One tile, whose thread h in the slot executes. -/
def one (h : Thread) (x : Tile := tile1) (slot : Fin 8 := 0) : State :=
  { tiles := [(0, x.setTh slot h)], cur := { slot := slot } }
/-- As many request entries as a core has. -/
def fullReqs : List ReqEntry := List.replicate 256 { slot := 7 }
/-- A reservation of another thread, in slot 1, on the granule at offset off. -/
def holding (off : Nat) (x : Tile := tile1) : Tile :=
  x.setTh 1 { st := .ready, resv := some { granule := off, size := 8 }, holdEnd := some 9 }

/-! ### Witnesses: operands and states that meet the hypotheses of each statement -/

theorem witness_Multiplies : (one (user [])).cap 0 = true ∧ (one (user []) { tile1 with core := { core1 with jcaps := 0 } }).cap 0 = false := by
  decide
theorem witness_Divisions :
    ((one (user [])).cap 0 = true ∧ (one (user [])).here.divider = none)
    ∧ (let s := one (user []) { tile1 with divider := some (9, 1, 0, 3, 7) };
      s.cap 0 = true ∧ s.here.divider.isSome = true)
    ∧ (let s := one (user []) { tile1 with divider := some (1, 0, 0, 3, 7) };
      s.inFrame 0 = true ∧ (s.tile 0).divider = some (1, (0 : Fin 8).val, (s.th 0 0).epoch, 3, 7) ∧ (s.th 0 0).st ≠ .empty
        ∧ 1 ≤ (s.tile 0).cycle + 1) := by
  decide
/-- Each branch taken to a target with bit 1 clear, taken to one with it set, and not taken. -/
theorem witness_JumpsAndBranches :
    let s := one (user [(1, 8), (2, 8), (3, 0xFFFFFFFFFFFFFFFF)])
    let bt (off : BitVec 12) : Dword := s.me.pc + (off ++ 0#1).signExtend 64
    ((s.me.pc + ((2 : BitVec 20) ++ 0#1).signExtend 64).getLsbD 1 = false
      ∧ (s.me.pc + ((1 : BitVec 20) ++ 0#1).signExtend 64).getLsbD 1 = true)
    ∧ (((s.rx 1 + (0 : BitVec 12).signExtend 64) &&& 0xFFFFFFFFFFFFFFFE).getLsbD 1 = false
      ∧ ((s.rx 1 + (3 : BitVec 12).signExtend 64) &&& 0xFFFFFFFFFFFFFFFE).getLsbD 1 = true)
    ∧ (bt 2).getLsbD 1 = false ∧ (bt 1).getLsbD 1 = true
    ∧ (s.rx 1 == s.rx 2) = true ∧ (s.rx 1 == s.rx 3) = false ∧ (s.rx 1 != s.rx 3) = true ∧ (s.rx 1 != s.rx 2) = false
    ∧ (s.rx 3).slt (s.rx 1) = true ∧ (s.rx 1).slt (s.rx 3) = false ∧ (!(s.rx 1).slt (s.rx 3)) = true
    ∧ (!(s.rx 3).slt (s.rx 1)) = false ∧ (s.rx 1).ult (s.rx 3) = true ∧ (s.rx 3).ult (s.rx 1) = false
    ∧ (!(s.rx 3).ult (s.rx 1)) = true ∧ (!(s.rx 1).ult (s.rx 3)) = false := by
  decide
theorem witness_FencesAndHints : (one (user [])).myEntries = [] ∧ (one (user []) { tile1 with reqs := [{}] }).myEntries ≠ [] := by
  decide
theorem witness_MachineModeInstructions : (one (user [])).me.mode = .user ∧ (one (mach [])).me.mode = .machine := by decide
theorem witness_CsrOperations :
    ((one (mach [])).csrRead 0x340 = some 0 ∧ ¬((one (mach [])).me.mode = .user ∧ (0x340 : BitVec 12).extractLsb' 8 2 = 0b11#2)
      ∧ ¬(true = true ∧ (0x340 : BitVec 12).extractLsb' 10 2 = 0b11#2))
    ∧ ((one (user [])).csrRead 0xC00 = some 0 ∧ ¬(false = true ∧ (0xC00 : BitVec 12).extractLsb' 10 2 = 0b11#2)
      ∧ ¬((one (user [])).me.mode = .user ∧ (0xC00 : BitVec 12).extractLsb' 8 2 = 0b11#2))
    ∧ (one (user [])).csrRead 0x123 = none
    ∧ ¬¬((one (user [])).me.mode = .user ∧ (0x340 : BitVec 12).extractLsb' 8 2 = 0b11#2)
    ∧ ¬¬(true = true ∧ (0xC00 : BitVec 12).extractLsb' 10 2 = 0b11#2) := by
  decide
/-- Each space at its last place, past its end, outside its fields, and misaligned; on a module of 256 by 256 cores. -/
theorem witness_AddressSpaces :
    let s := one (mach [])
    let sp (a : Dword) (n : Nat) : Bool := bits a 60 4 == n
    (sp 0x7FFF8 0 ∧ bits (0x7FFF8 : Dword) 19 41 = 0 ∧ bits (0x7FFF8 : Dword) 0 19 + 8 ≤ 0x80000
      ∧ (0x7FFF8 : Dword).toNat % 8 = 0 ∧ (0x7FFF4 : Dword).toNat % 8 ≠ 0 ∧ bits (0x7FFF4 : Dword) 0 19 + 8 ≤ 0x80000
      ∧ 0x80000 < bits (0x7FFFC : Dword) 0 19 + 8 ∧ sp 0x80000 0 ∧ bits (0x80000 : Dword) 19 41 ≠ 0)
    ∧ (let a : Dword := 0x100000004017FFF8;
      sp a 1 ∧ bits a 40 20 = 0 ∧ bits a 19 1 = 0 ∧ bits a 30 10 < s.here.core.height ∧ bits a 20 10 < s.here.core.width
        ∧ bits a 0 19 + 8 ≤ 0x80000 ∧ sp 0x1000000080000000 1 ∧ ¬bits (0x1000000080000000 : Dword) 30 10 < s.here.core.height
        ∧ 0x80000 < bits (0x100000000007FFFC : Dword) 0 19 + 8)
    ∧ (let a : Dword := 0x200FFFFFFFFFFFF8;
      sp a 2 ∧ bits a 52 8 = 0 ∧ bits a 0 52 + 8 ≤ 2 ^ 52 ∧ 2 ^ 52 < bits (0x200FFFFFFFFFFFFC : Dword) 0 52 + 8
        ∧ sp 0x2010000000000000 2 ∧ bits (0x2010000000000000 : Dword) 52 8 ≠ 0)
    ∧ (let a : Dword := 0x300000401007FFF8;
      sp a 3 ∧ bits a 48 12 = s.here.core.jmod ∧ bits a 19 9 = 0 ∧ s.here.core.jmod ≤ s.here.core.jmods
        ∧ bits a 38 10 < s.here.core.height ∧ bits a 28 10 < s.here.core.width ∧ bits a 0 19 + 8 ≤ 0x80000
        ∧ sp 0x3000008000000000 3 ∧ ¬bits (0x3000008000000000 : Dword) 38 10 < s.here.core.height)
    ∧ (let a : Dword := 0x3001FFFFF007FFF8;
      sp a 3 ∧ bits a 48 12 ≠ s.here.core.jmod ∧ bits a 19 9 = 0 ∧ bits a 48 12 ≤ s.here.core.jmods ∧ bits a 0 19 + 8 ≤ 0x80000
        ∧ sp 0x3002000000000000 3 ∧ ¬bits (0x3002000000000000 : Dword) 48 12 ≤ s.here.core.jmods) := by
  decide
theorem witness_AddressSpaces_machine :
    let s := one (mach [])
    let sp (a : Dword) (n : Nat) : Bool := bits a 60 4 == n
    ([(0x4000003FCFF7FFF8 : Dword), 0x4000003FCFF87FF8, 0x4000003FCFFC0FF8, 0x4000003FCFFFFFF8].all fun a =>
      sp a 4 && decide (bits a 40 20 = 0 ∧ bits a 30 10 < s.side ∧ bits a 20 10 < s.side ∧ a.toNat % 8 = 0)) = true
    ∧ (0x80000 < bits (0x400000000007FFFC : Dword) 0 20 + 8 ∧ 0x88000 < bits (0x4000000000087FFC : Dword) 0 20 + 8
      ∧ 0xC1000 < bits (0x40000000000C0FFC : Dword) 0 20 + 8 ∧ sp 0x4000004000000000 4
      ∧ ¬bits (0x4000004000000000 : Dword) 30 10 < s.side)
    ∧ (let a : Dword := 0x5000000000007FF8;
      sp a 5 ∧ bits a 15 45 = 0 ∧ bits a 0 15 + 8 ≤ 0x8000 ∧ 0x8000 < bits (0x5000000000007FFC : Dword) 0 15 + 8
        ∧ sp 0x5000000000008000 5 ∧ bits (0x5000000000008000 : Dword) 15 45 ≠ 0)
    ∧ (let a : Dword := 0x600000000000FFF8;
      sp a 6 ∧ bits a 20 40 = 0 ∧ bits a 16 4 < s.packages ∧ bits a 0 16 + 8 ≤ 2 ^ 16
        ∧ sp 0x60000000000F0000 6 ∧ ¬bits (0x60000000000F0000 : Dword) 16 4 < s.packages)
    ∧ (let a : Dword := 0x70FFFFFFFFFFFFF8;
      sp a 7 ∧ bits a 56 4 < s.packages ∧ bits a 0 56 + 8 ≤ 2 ^ 56 ∧ sp 0x7F00000000000000 7
        ∧ ¬bits (0x7F00000000000000 : Dword) 56 4 < s.packages)
    ∧ 8 ≤ bits (0x8000000000000000 : Dword) 60 4 ∧ s.me.mode = .machine ∧ (one (user [])).me.mode ≠ .machine := by
  decide +kernel
/-- A load or store past the end of the scratchpad, a misaligned one, and a marked word that no thread holds. -/
theorem witness_AccessFaults :
    (let s := one (user [(1, 0x80000), (2, 0x1001)]);
      checkAddr s s.me.mode (s.rx 1 + (0 : BitVec 12).signExtend 64) 1 1 = .error .access
        ∧ checkAddr s s.me.mode (s.rx 1 &&& 0xFFFFFFFFFFFFFFF0) 16 16 = .error .access
        ∧ checkAddr s s.me.mode (s.rx 2 + (0 : BitVec 12).signExtend 64) 2 2 = .error .misaligned ∧ s.cap 17 = true)
    ∧ (let s := { one (user [(1, 0x7FFF8)]) with marks := [0xFFFF] };
      0x7FFF8 < 0x80000 ∧ ∀ n ∈ [1, 2, 4, 8], checkAddr s s.me.mode (s.rx 1 + (0 : BitVec 12).signExtend 64) n n = .ok (.own 0x7FFF8)
        ∧ checkAddr s s.me.mode (s.rx 1) n n = .ok (.own 0x7FFF8)
        ∧ s.markedIn (s.myKey 0x7FFF8) n = true ∧ s.here.held s.cur.tile (s.localWriter n) 0x7FFF8 n = false) := by
  decide
theorem witness_LocalLoads :
    let s := one (mach [(1, 0x7FFF8), (2, 0x5000000000007FF8)])
    ((Loc.own 0x7FFF8).localOff = some 0x7FFF8 ∧ checkAddr s s.me.mode (s.rx 1 + (0 : BitVec 12).signExtend 64) 8 8 = .ok (.own 0x7FFF8)
      ∧ s.markedIn (s.myKey 0x7FFF8) 8 = false)
    ∧ ((Loc.mram 0x7FF8).localOff = some 0x87FF8
      ∧ checkAddr s s.me.mode (s.rx 2 + (0 : BitVec 12).signExtend 64) 8 8 = .ok (.mram 0x7FF8)
      ∧ s.markedIn (s.myKey 0x87FF8) 8 = false) := by
  decide
theorem witness_LocalStores :
    (let s := one (user [(1, 0x7FFF8)]);
      checkAddr s s.me.mode (s.rx 1 + (0 : BitVec 12).signExtend 64) 8 8 = .ok (.own 0x7FFF8)
        ∧ s.here.held s.cur.tile (s.localWriter 8) 0x7FFF8 8 = false)
    ∧ (let s := one (user [(1, 0x7FFF8)]) (holding 0x7FFF8);
      checkAddr s s.me.mode (s.rx 1 + (0 : BitVec 12).signExtend 64) 8 8 = .ok (.own 0x7FFF8)
        ∧ s.here.held s.cur.tile (s.localWriter 8) 0x7FFF8 8 = true) := by
  decide
/-- A routed access of every width to the core at (1, 1), with and without a free entry; and to a management register. -/
theorem witness_RoutedAccesses :
    (let s := one (user [(1, 0x1000000040100020)]);
      (Loc.mesh 1 1 32).localOff = none ∧ (Loc.mesh 1 1 32).riserSpace = true ∧ s.entryFree = true ∧ s.myEntries = []
        ∧ bits (s.rx 2) 0 3 = 0 ∧ bits (s.rx 2) 19 45 = 0
        ∧ routeOf s s.cur.tile (.mesh 1 1 32) = some (.tile nowhere, 32, 1)
        ∧ ∀ n ∈ [1, 2, 4, 8, 16, 32], checkAddr s s.me.mode (s.rx 1) n n = .ok (.mesh 1 1 32)
          ∧ checkAddr s s.me.mode (s.rx 1 + (0 : BitVec 12).signExtend 64) n n = .ok (.mesh 1 1 32))
    ∧ (let s := one (user [(1, 0x1000000040100020)]) { tile1 with reqs := fullReqs };
      checkAddr s s.me.mode (s.rx 1) 8 8 = .ok (.mesh 1 1 32) ∧ s.entryFree = false)
    ∧ (let s := one (mach [(1, 0x6000000000000028)]);
      (Loc.mgmt 0 0x28).riserSpace = false ∧ (∀ n ∈ [1, 2, 4, 8], checkAddr s s.me.mode (s.rx 1) n n = .ok (.mgmt 0 0x28)
          ∧ checkAddr s s.me.mode (s.rx 1 + (0 : BitVec 12).signExtend 64) n n = .ok (.mgmt 0 0x28))
        ∧ routeOf s s.cur.tile (.mgmt 0 0x28) = some (.mgmt 0, 0x28, 5))
    ∧ (let s := one (mach [(1, 0x7000000000000020)]);
      (Loc.host 0 32).riserSpace = false ∧ s.cap 17 = true
        ∧ checkAddr s s.me.mode (s.rx 1 &&& 0xFFFFFFFFFFFFFFF0) 16 16 = .ok (.host 0 32)
        ∧ ∀ n ∈ [4, 8, 16, 32], checkAddr s s.me.mode (s.rx 1) n n = .ok (.host 0 32)) := by
  decide +kernel
/-- An access in space 0x2 at the last word of page 3: with its leaf in the core's table, in the die's, and in none,
with a fault found and without one; a leaf that forbids it, one past the HBM, a pooled page, a remote one; and machine
mode outside a partition. -/
theorem witness_RoutedAccesses_translated :
    let va := 0x3FF8
    let h := user [(1, 0x2000000000003FF8)]
    let e (leaf : Dword) : TlbEntry := { asid := 0, page := 3, leaf := leaf }
    let core (l : List TlbEntry) : State := one h { tile1 with tlb := l }
    (let s := core [e 0x1F];
      checkAddr s s.me.mode (s.rx 1 + (0 : BitVec 12).signExtend 64) 8 8 = .ok (.global va) ∧ (Loc.global va).localOff = none
        ∧ s.entryFree = true ∧ s.here.core.asid = 0 ∧ va / 4096 = 3 ∧ tlbFind s.here.tlb 0 3 = some (e 0x1F)
        ∧ ¬(s.me.mode = .machine ∧ s.here.core.width = 0) ∧ ptePool 0x1F = false ∧ pteIlv 0x1F ≠ 3
        ∧ permitted 0x1F (s.me.mode == .user) true = true ∧ permitted 0x1F (s.me.mode == .user) false = true
        ∧ leafPa 0x1F va < s.hbmEnd)
    ∧ (let s := { core [] with dieTlb := [(0, [e 0x1F])] };
      tlbFind s.here.tlb 0 3 = none ∧ globalDie s.cur.tile = 0 ∧ tlbFind (Assoc.get [] s.dieTlb 0) 0 3 = some (e 0x1F))
    ∧ (let s := core [];
      tlbFind s.here.tlb 0 3 = none ∧ tlbFind (Assoc.get [] s.dieTlb 0) 0 3 = none ∧ s.me.walkFault ≠ some 3 ∧ s.walks = [])
    ∧ { h with walkFault := some 3 }.walkFault = some 3
    ∧ tlbFind (core [e 1]).here.tlb 0 3 = some (e 1) ∧ permitted 1 true true = false ∧ permitted 1 true false = false
    ∧ (core []).hbmEnd ≤ leafPa 0x0003FFFFFFFFF01F va ∧ ptePool 0x0003FFFFFFFFF01F = false ∧ pteIlv 0x0003FFFFFFFFF01F ≠ 3
    ∧ ptePool 0x5F = true ∧ pteIlv 0xC00000000000001F = 3
    ∧ (let s := one (mach [(1, 0x2000000000003FF8)]) {};
      checkAddr s s.me.mode (s.rx 1 + (0 : BitVec 12).signExtend 64) 8 8 = .ok (.global va) ∧ s.me.mode = .machine
        ∧ s.here.core.width = 0) := by
  decide +kernel
/-- A store to module 1 with an entry of that module one below SENT's limit and at it, with none, and with four of other
modules. -/
theorem witness_FabricStoresCounted :
    let st (l : List Interval) : State := one { user [(1, 0x3001004010000008)] with intervals := l }
    (∀ l ∈ [[], [{ module := 1, sent := 0xFFFFFE, idx := 3 }], [{ module := 1, sent := 0xFFFFFF, idx := 3 }],
        [{ module := 2, sent := 1, idx := 0 }, { module := 3, sent := 1, idx := 1 }, { module := 4, sent := 1, idx := 2 }, { module := 5, sent := 1, idx := 3 }]],
      let s := st l
      checkAddr s s.me.mode (s.rx 1 + (0 : BitVec 12).signExtend 64) 8 8 = .ok (.fabric 1 1 1 8) ∧ s.entryFree = true
        ∧ s.me.checks = [] ∧ s.me.intervals = l)
    ∧ 0xFFFFFE < 2 ^ 24 - 1 ∧ 0xFFFFFF = 2 ^ 24 - 1
    ∧ ∀ i ∈ [({ module := 2, sent := 1, idx := 0 } : Interval), { module := 3, sent := 1, idx := 1 }, { module := 4, sent := 1, idx := 2 }, { module := 5, sent := 1, idx := 3 }],
      i.module ≠ 1 := by
  decide
/-- An atomic that goes on, one held by another thread, one of a thread with a request outstanding, and an access after
AQ. -/
theorem witness_LocalAtomics :
    (let s := one (user [(1, 0x7FFF8)]);
      (Loc.own 0x7FFF8).localOff = some 0x7FFF8 ∧ s.myEntries = [] ∧ ∀ n ∈ [4, 8], checkAddr s s.me.mode (s.rx 1) n n = .ok (.own 0x7FFF8)
        ∧ s.markedIn (s.myKey 0x7FFF8) n = false ∧ s.here.held s.cur.tile (s.localWriter n) 0x7FFF8 n = false)
    ∧ (let s := one (user [(1, 0x7FFF8)]) (holding 0x7FFF8 { tile1 with reqs := [{}] });
      s.myEntries ≠ [] ∧ ∀ n ∈ [4, 8], s.here.held s.cur.tile (s.localWriter n) 0x7FFF8 n = true)
    ∧ { user [] with acquire := true }.acquire = true ∧ isMemory (.lw 1 2 0) = true := by
  decide
/-- A reservation held with the size of the SC, and none; a request outstanding; another thread's hold. -/
theorem witness_LoadReservedStoreConditional :
    (let s := one { user [(1, 0x7FFF8)] with resv := some { granule := 0x7FFF8, size := 8 } };
      checkAddr s s.me.mode (s.rx 1) 8 8 = .ok (.own 0x7FFF8) ∧ s.markedIn (s.myKey 0x7FFF8) 8 = false
        ∧ s.here.held s.cur.tile (s.localWriter 8) 0x7FFF8 8 = false ∧ s.myEntries = []
        ∧ s.me.resv = some { granule := 0x7FFF8 / 8 * 8, size := 8 } ∧ (Loc.own 0x7FFF8).localOff = some 0x7FFF8)
    ∧ (let s := one { user [(1, 0x7FFFC)] with resv := some { granule := 0x7FFF8, size := 8 } };
      checkAddr s s.me.mode (s.rx 1) 4 4 = .ok (.own 0x7FFFC) ∧ s.markedIn (s.myKey 0x7FFFC) 4 = false
        ∧ s.here.held s.cur.tile (s.localWriter 4) 0x7FFFC 4 = false
        ∧ s.me.resv ≠ some { granule := 0x7FFFC / 8 * 8, size := 4 })
    ∧ (let s := one (user [(1, 0x7FFF8)]) (holding 0x7FFF8 { tile1 with reqs := [{}] });
      s.myEntries ≠ [] ∧ ∀ n ∈ [4, 8], checkAddr s s.me.mode (s.rx 1) n n = .ok (.own 0x7FFF8)
        ∧ s.here.held s.cur.tile (s.localWriter n) 0x7FFF8 n = true) := by
  decide
/-- Slots 5 and 6, with no division of the thread in progress and with one; marks of all registers and of none. -/
theorem witness_ThreadControl :
    (let s := one (user [(1, 0xFFFFFFFF)]) tile1 5;
      s.cur.slot.val < 6 ∧ s.me.mode = .user ∧ bits (s.rx 1) 0 32 ≠ 0 ∧ bits (s.rx 2) 0 32 = 0 ∧ s.here.divider = none)
    ∧ (let s := one (user []) { tile1 with divider := some (9, 6, 0, 3, 7) } 6;
      6 ≤ s.cur.slot.val ∧ s.here.divider = some (9, s.cur.slot.val, s.me.epoch, 3, 7))
    ∧ (one (mach [])).me.mode = .machine := by
  decide
theorem witness_SpawnAndMessage :
    (let s := one (user [(1, 0x1000000040100008)]);
      locate s s.me.mode (s.rx 1) = some (.mesh 1 1 8) ∧ (Loc.mesh 1 1 8).riserSpace = true ∧ (∀ y x o, Loc.mesh 1 1 8 ≠ .abs y x o)
        ∧ routeOf s s.cur.tile (.mesh 1 1 8) = some (.tile nowhere, 8, 1) ∧ s.entryFree = true)
    ∧ (let s := one (user [(1, 0x1000000040100008)]) { tile1 with reqs := fullReqs };
      locate s s.me.mode (s.rx 1) = some (.mesh 1 1 8) ∧ s.entryFree = false)
    ∧ (let s := one (mach [(1, 0x8000000000000000), (2, 0x4000000000000008), (3, 0x2000000000000008)]);
      locate s s.me.mode (s.rx 1) = none ∧ locate s s.me.mode (s.rx 2) = some (.abs 0 0 8)
        ∧ locate s s.me.mode (s.rx 3) = some (.global 8) ∧ (Loc.global 8).riserSpace = false) := by
  refine ⟨⟨by decide, by decide, by intros; simp, by decide, by decide⟩, by decide +kernel, by decide⟩
/-- Clusters with COUNT 0; COUNT 1 in 15 and 0 alone; a rectangle outside, one that covers the core, and reserved bits. -/
theorem witness_SpawnSelection :
    (∀ i, i < 16 → bits (one (user [])).here.core.jcload (4 * i) 4 = 0)
    ∧ (let s := one (user []) { tile1 with core := { core1 with jcload := 0x1000000000000001 } };
      (0 : Nat) < 16 ∧ bits s.here.core.jcload 0 4 ≠ 0 ∧ s.here.cluster < 16
        ∧ (∀ j, j < 16 → bits s.here.core.jcload (4 * j) 4 ≤ bits s.here.core.jcload 0 4)
        ∧ (∀ j, j < 16 → bits s.here.core.jcload (4 * j) 4 = bits s.here.core.jcload 0 4 →
          (0 + 16 - s.here.cluster) % 16 ≤ (j + 16 - s.here.cluster) % 16)
        ∧ s.entryFree = true ∧ s.core (s.here.core.gy / 4 * 4 + 0 / 4) (s.here.core.gx / 4 * 4 + 0 % 4) = some 0)
    ∧ (let s := one (user [(1, 0x10000000000), (2, 0x80000000), (3, 0x40100401)]);
      bits (s.rx 1) 40 24 ≠ 0
      ∧ (bits (s.rx 2) 40 24 = 0
        ∧ min (bits (s.rx 2) 10 10 + 1) (2 - bits (s.rx 2) 30 10) * min (bits (s.rx 2) 0 10 + 1) (2 - bits (s.rx 2) 20 10) = 0)
      ∧ (bits (s.rx 3) 40 24 = 0
        ∧ min (bits (s.rx 3) 10 10 + 1) (2 - bits (s.rx 3) 30 10) * min (bits (s.rx 3) 0 10 + 1) (2 - bits (s.rx 3) 20 10) = 1)
      ∧ s.here.core.height = 2 ∧ s.here.core.width = 2 ∧ s.entryFree = true)
    ∧ (one (user []) { tile1 with reqs := fullReqs }).entryFree = false := by
  decide +kernel
theorem witness_CapabilityQuery :
    let s := one (user [(1, 8), (2, 0x1000000040100008)])
    locate s s.me.mode (s.rx 1) = some (.own 8) ∧ locate s s.me.mode (s.rx 2) = some (.mesh 1 1 8) ∧ s.entryFree = true := by
  decide
/-- A riser at its target, one below it, and a poisoned one; a timeout of 0 and of 1; a handler. -/
theorem witness_RiserWaits :
    (let s := { one (user [(1, 8), (2, 3), (3, 1)]) with mem := [(8, 2)] };
      s.cur.slot.val < 6 ∧ checkAddr s s.me.mode (s.rx 1) 8 8 = .ok (.own 8) ∧ (s.readD (s.myKey 8)).getLsbD 63 = false
        ∧ bits (s.readD (s.myKey 8)) 0 40 < bits (s.rx 2) 0 40 ∧ (2 : BitVec 7).toNat ≤ bits (s.readD (s.myKey 8)) 0 40
        ∧ some (s.rx 4).toNat = some 0 ∧ some (s.rx 3).toNat ≠ some 0
        ∧ checkAddr s s.me.mode (s.rx 0 + (1 : BitVec 5).zeroExtend 64 * 8) 8 8 = .ok (.own 8))
    ∧ (let s := { one (user [(1, 8)]) with mem := [(15, 0x80)] };
      checkAddr s s.me.mode (s.rx 1) 8 8 = .ok (.own 8) ∧ (s.readD (s.myKey 8)).getLsbD 63 = true)
    ∧ 6 ≤ (one (user []) tile1 6).cur.slot.val := by
  decide
theorem witness_RiserSteps :
    let s := one (user [(1, 0x7FFF8)])
    checkAddr s s.me.mode (s.rx 1) 8 8 = .ok (.own 0x7FFF8) ∧ s.myKey 0x7FFF8 < 2 ^ 61
      ∧ s.here.held s.cur.tile (s.localWriter 8) 0x7FFF8 8 = false := by
  decide
/-- A riser beside the data, one at an address that is no multiple of 8, and holds of either place. -/
theorem witness_CountedStores :
    (let s := one (user [(1, 0x7FFE0), (2, 0x7FFD8), (3, 4)]);
      (∀ n ∈ [4, 8, 32], checkAddr s s.me.mode (s.rx 1) n n = .ok (.own 0x7FFE0)
        ∧ s.here.held s.cur.tile (s.localWriter n) 0x7FFE0 n = false ∧ s.here.held s.cur.tile (s.localWriter 8) 0x7FFD8 8 = false)
      ∧ (s.rx 2).toNat = 0x7FFD8 ∧ 0x7FFD8 % 8 = 0 ∧ 0x7FFD8 < 2 ^ 19
      ∧ s.myKey 0x7FFE0 < 2 ^ 61 ∧ s.myKey 0x7FFD8 < 2 ^ 61 ∧ 0x7FFD8 + 8 ≤ 0x7FFE0 ∧ bits (s.rx 3) 0 3 ≠ 0)
    ∧ (∀ n ∈ [4, 8, 32], (one (user []) (holding 0x7FFE0)).here.held 0 ((one (user [])).localWriter n) 0x7FFE0 n = true)
    ∧ (one (user []) (holding 0x7FFD8)).here.held 0 ((one (user [])).localWriter 8) 0x7FFD8 8 = true := by
  decide
/-- Generation 15 with PENDING 2 and with PENDING 1, an arrival of another generation; INBOUND 255, at -256 and with one
awaited; a hold of the barrier; and a word whose release goes to one core. -/
theorem witness_Barriers :
    (let w : Dword := 0x000000000200000F; 15 = bits w 0 4 ∧ bits w 24 20 ≠ 0 ∧ bits w 24 20 ≠ 1 ∧ 3 ≠ bits w 0 4)
    ∧ (let w : Dword := 0x000000000100000F; 15 = bits w 0 4 ∧ bits w 24 20 = 1 ∧ bits w 44 18 = 0)
    ∧ (let w : Dword := 0x000FF00000000000; bits w 44 9 = 255 ∧ (255 : Int) < 255 + (1 : Nat) ∧ (255 : Int) + (0 : Nat) ≤ 255)
    ∧ (let w : Dword := 0x0010000000000000; bits w 44 9 = 256)
    ∧ (let w : Dword := 0x0000100000000000; bits w 44 9 = 1 ∧ bits w 24 20 = 0
      ∧ (barStep w 0 (.inDone false)).release = some 1 ∧ (barStep w 0 (.inDone true)).release = some 1)
    ∧ (let s := one (user [(1, 0x7FFF0), (2, 0x7FFE8)]);
      checkAddr s s.me.mode (s.rx 1) 16 16 = .ok (.own 0x7FFF0) ∧ s.here.held s.cur.tile (s.localWriter 16) 0x7FFF0 16 = false
        ∧ checkAddr s s.me.mode (s.rx 1 &&& 0xFFFFFFFFFFFFFFF0) 16 16 = .ok (.own 0x7FFF0) ∧ s.myEntries = []
        ∧ checkAddr s s.me.mode (s.rx 2) 16 16 = .error .misaligned)
    ∧ (one (user []) (holding 0x7FFF8)).here.held 0 ((one (user [])).localWriter 16) 0x7FFF0 16 = true
    ∧ (let s := one (user [(1, 0x7FFF0)]) { tile1 with reqs := [{}] };
      checkAddr s s.me.mode (s.rx 1 &&& 0xFFFFFFFFFFFFFFF0) 16 16 = .ok (.own 0x7FFF0) ∧ s.myEntries ≠ []) := by
  decide
theorem witness_DeviceAtomics :
    (let s := one (user [(1, 0x7FFF8)]);
      s.cap 17 = true ∧ checkAddr s s.me.mode (s.rx 1) 4 4 = .ok (.own 0x7FFF8) ∧ checkAddr s s.me.mode (s.rx 1) 8 8 = .ok (.own 0x7FFF8)
        ∧ s.markedIn (s.myKey 0x7FFF8) 8 = false ∧ s.markedIn (s.myKey 0x7FFF8) 4 = false
        ∧ s.here.held s.cur.tile (s.localWriter 4) 0x7FFF8 4 = false ∧ s.here.held s.cur.tile (s.localWriter 8) 0x7FFF8 8 = false)
    ∧ (let s := one (user []) { tile1 with core := { core1 with jcaps := 0 } };
      bits (s.rx 1) 60 4 = 0 ∧ s.cap 17 = false) := by
  decide
theorem witness_FenceFabric :
    (one (user []) { tile1 with reqs := [{}] }).myEntries ≠ []
    ∧ (let s := one (user []);
      s.myEntries = [] ∧ s.me.checks = [] ∧ s.me.intervals = [])
    ∧ (let s := one { user [] with intervals := [{ module := 1, sent := 1, idx := 3 }] };
      s.myEntries = [] ∧ s.me.checks = [] ∧ s.me.intervals = [{ module := 1, sent := 1, idx := 3 }])
    ∧ (∀ kind ∈ [0, 1, 2], ∀ unchk ∈ [false, true],
      let c : Check := { idx := 3, module := 1, sent := 1, explicit := true, answer := some (kind, 0) }
      let s := one { user [] with checks := [c], unchk := unchk }
      s.myEntries = [] ∧ s.me.intervals = [] ∧ s.me.checks = [c] ∧ c.explicit = true ∧ c.answer = some (kind, 0) ∧ c.idx < 4 ∧ kind < 3
        ∧ s.me.unchk = unchk ∧ s.me.mode = .user ∧ s.cur.slot.val < 6 ∧ ∀ f ∈ s.me.pend, f.cause ≠ 28) := by
  decide
theorem witness_TileLinks :
    (let s := one (mach [(1, 0x5000000000007FC0), (2, 3), (3, 5)]);
      s.me.mode = .machine ∧ checkAddr s .machine (s.rx 1) 64 64 = .ok (.mram 0x7FC0) ∧ (s.rx 2).toNat < 4 ∧ s.entryFree = true
        ∧ s.markedIn (s.myKey (mramBase + 0x7FC0)) 64 = false ∧ 4 < (s.rx 3).toNat ∧ s.rx 0 = 0)
    ∧ (let s := one { mach [(1, 2)] with rcfg := some (0, 2, 0) };
      s.inFrame s.cur.tile = true ∧ s.me.rcfg = some (s.cur.tile, s.rx 1, s.rx 2) ∧ s.here.router.getLsbD 63 = false
        ∧ bits (s.rx 1) 0 2 = 2 ∧ s.here.fused = false)
    ∧ (let s := one { mach [(1, 2)] with rcfg := some (0, 2, 0) } { tile1 with router := 0x8000000000000001 };
      s.me.rcfg = some (s.cur.tile, s.rx 1, s.rx 2) ∧ s.here.router.getLsbD 63 = true)
    ∧ (let s := one { mach [(1, 2)] with rcfg := some (nowhere, 2, 0) };
      s.inFrame s.cur.tile = true ∧ s.inFrame nowhere = false ∧ s.me.rcfg = some (nowhere, s.rx 1, s.rx 2)) := by
  decide
/-- A copy command that passes R208's checks, with 15 and 16 queued, and one whose OP fails them; the watermark at its
mark, and just ahead of it; ladle commands that pass and fail, with 3 and 4 queued; handlers; the classes absent. -/
theorem witness_EngineQueues :
    let no : Tile := { tile1 with core := { core1 with jcaps := 0 } }
    let chan (n : Nat) (d : Word) : Tile := { tile1 with chans := tile1.chans.set 0 { fifo := List.replicate n {}, jcpdone := d } }
    ((one (user []) no).cap 12 = false ∧ (one (user []) no).cap 16 = false)
    ∧ (let s := one (user [(3, 0x40)]) (chan 15 0); s.cap 12 = true ∧ s.here.chans[(0 : Fin 4)].fifo.length < 16
      ∧ (let w (k : Nat) : Dword := s.rx (0 + BitVec.ofNat 5 k);
        bits (w 0) 60 4 = 0 ∧ bits (w 3) 32 32 = 0 ∧ bits (w 1) 60 4 = 0 ∧ bits (w 2) 60 4 = 0
          ∧ checkAddr s s.me.mode (w 1) (bits (w 3) 0 32) 1 = .ok (.own 0) ∧ checkAddr s s.me.mode (w 2) (bits (w 3) 0 32) 1 = .ok (.own 0)
          ∧ bits (w 0) 0 16 = 0 ∧ (w 0).getLsbD 59 = false ∧ (w 0).getLsbD 58 = false))
    ∧ 16 ≤ (one (user [(3, 0x40)]) (chan 16 0)).here.chans[(0 : Fin 4)].fifo.length
    ∧ 8 < bits ((one (user [(1, 0xF000000000000000)])).rx (1 + BitVec.ofNat 5 0)) 60 4
    ∧ 6 ≤ (one (user []) tile1 7).cur.slot.val
    ∧ (let s := one (user [(1, 5)]) (chan 0 5); s.cur.slot.val < 6
      ∧ (s.here.chans[(0 : Fin 4)].jcpdone - (s.rx 1).extractLsb' 0 32).toNat < 2 ^ 31)
    ∧ (let s := one (user [(1, 6)]) (chan 0 5); 2 ^ 31 ≤ (s.here.chans[(0 : Fin 4)].jcpdone - (s.rx 1).extractLsb' 0 32).toNat)
    ∧ (let s := one (user [(2, 0x7FF80)]) { tile1 with ladle := { queue := List.replicate 3 {} } }; s.cap 16 = true
      ∧ s.here.ladle.queue.length < 4 ∧ bits (s.rx 1) 60 4 ≤ 3 ∧ bits (s.rx 1) 58 2 = 0 ∧ bits (s.rx 1) 0 16 = 0
      ∧ (s.rx 2).toNat < 2 ^ 19 ∧ (s.rx 2).toNat % 128 = 0 ∧ s.rx 3 = 0 ∧ s.rx 4 = 0)
    ∧ 4 ≤ (one (user []) { tile1 with ladle := { queue := List.replicate 4 {} } }).here.ladle.queue.length
    ∧ (let s := one (user [(2, 1)]); bits (s.rx 1) 60 4 ≤ 3 ∧ (s.rx 2).toNat % 128 ≠ 0) := by
  decide
/-- Descriptors at the last base that fits and one further, seven and eight entries queued, and the classes absent. -/
theorem witness_MatrixIssue :
    let no : Tile := { tile1 with core := { core1 with jcaps := 0 } }
    let queued (n : Nat) : Tile := { tile1 with matrix := { queue := List.replicate n {} } }
    let p : Pair := 1
    let d (s : State) : Dword × Dword := (s.rx (p ++ 0#1), s.rx (p ++ 1#1))
    let bad (e : Dword × Dword) (len align : Nat) (scales : Bool) : Option Dword :=
      let base := bits e.1 0 19
      let last := base + 112 * bits e.2 0 16
      if bits e.2 35 29 ≠ 0 ∨ 3 < bits e.2 32 3 then some e.2
      else if bits e.1 19 45 ≠ 0 ∨ base % align ≠ 0 ∨ 0x7FFFF < last + len - 1
        ∨ (scales = true ∧ 0x7FFFF < last + bits e.2 16 16) then some e.1
      else none
    ((one (user []) no).cap 5 = false ∧ (one (user []) no).cap 10 = false ∧ (one (user []) no).cap 11 = false)
    ∧ (let s := one (user [(2, 0x7FFE0)]) (queued 7); s.cap 5 = true ∧ s.cap 9 = true ∧ s.cap 10 = true ∧ s.cap 11 = true
      ∧ bad (d s) 32 16 true = none ∧ bad (d s) 8 8 true = none
      ∧ bad (d s) 16 16 false = none ∧ s.here.matrix.queue.length < 8 ∧ s.me.jmcfg.getLsbD 1 = false)
    ∧ (let s := one { user [(2, 0x7FFF0)] with jmcfg := 2 } (queued 8); 8 ≤ s.here.matrix.queue.length
      ∧ bad (d s) 32 16 true = some 0x7FFF0 ∧ bad (d s) 16 16 false = none
      ∧ s.me.jmcfg.getLsbD 1 = true) := by
  decide
/-- Gates cleared, set at an offset that is a multiple of 8 and at one that is not, and outside space 0x0; a sound and a
poisoned accumulator; an entry queued that names it, awaited or not yet. -/
theorem witness_MatrixControl :
    (let s := one (user [(1, 0x7FFF8), (2, 0x7FFFC), (3, 0x1000000000000000)]);
      locate s s.me.mode (s.rx 1) = some (.own 0x7FFF8) ∧ 0x7FFF8 % 8 = 0
        ∧ locate s s.me.mode (s.rx 2) = some (.own 0x7FFFC) ∧ 0x7FFFC % 8 ≠ 0
        ∧ locate s s.me.mode (s.rx 3) = some (.mesh 0 0 0) ∧ s.here.matrix.queue = []
        ∧ (s.here.matrix.accs[(0 : Acc).toFin]).mark.getLsbD 23 = false)
    ∧ (let s := one (user []) { tile1 with matrix := { accs := tile1.matrix.accs.set 0 { mark := 0x800000 } } };
      s.here.matrix.queue = [] ∧ (s.here.matrix.accs[(0 : Acc).toFin]).mark.getLsbD 23 = true)
    ∧ (let s := one (user []) { tile1 with matrix := { queue := [{ serial := 4 }] } };
      s.here.matrix.queue = [{ serial := 4 }] ∧ ({ serial := 4 } : MEntry).acc = (0 : Acc).toNat ∧ s.me.awaits = none)
    ∧ (let s := one { user [] with awaits := some [4] } { tile1 with matrix := { queue := [{ serial := 4 }, { serial := 5 }] } };
      s.me.awaits = some [4] ∧ ∃ e ∈ s.here.matrix.queue, e.serial ∈ [4])
    ∧ (let s := one { user [] with awaits := some [4] } { tile1 with matrix := { queue := [{ serial := 5 }] } };
      s.me.awaits = some [4] ∧ ∀ e ∈ s.here.matrix.queue, e.serial ∉ [4]) := by
  decide
theorem witness_VectorLanes :
    fmtOf .w = none ∧ fmtOf .b = none ∧ fmtOf .f32 = some fp32 ∧ fmtOf .bf = some bf16
    ∧ (∀ c, c < 18 → (one (user [])).cap c = true)
    ∧ ∀ c, c < 18 → (one (user []) { tile1 with core := { core1 with jcaps := 0 } }).cap c = false := by
  refine ⟨rfl, rfl, rfl, rfl, by decide, by decide⟩
theorem witness_VectorWhole :
    (let s := one (user []);
      s.here.sfuFree ≤ s.here.cycle ∧ s.cap 4 = true ∧ (∀ c ∈ convertCaps s .b .f32, s.cap c = true)
        ∧ s.stochastic .b .f32 = false ∧ fmtOf .h = none ∧ isSigned .h = true ∧ isSigned .hu = false)
    ∧ (let s := one (user []) { tile1 with sfuFree := 1 };
      s.cap 4 = true ∧ s.here.cycle < s.here.sfuFree)
    ∧ (let s := one { user [(3, 16)] with jvcfg := 2 };
      s.cap 2 = true ∧ s.cap 3 = true ∧ s.cap 11 = true ∧ s.cap 10 = true ∧ s.me.jvcfg.getLsbD 1 = true
        ∧ ¬(s.rx 3).toNat < 256 / wBits .h ∧ (s.rx 4).toNat < 256 / wBits .h)
    ∧ (let s := one (user []) { tile1 with core := { core1 with jcaps := 0 } };
      s.cap 4 = false ∧ s.cap 10 = false ∧ s.cap (sfxCap .f32) = false) := by
  decide
/-- Vectors and elements at the end of the scratchpad and past it, marked, held, misaligned, and in the middle of an
access; a core's cycle with such a thread in UNIT; and a routed VLD. -/
theorem witness_VectorMemory :
    (let s := one (user [(1, 0x7FFE0), (2, 4), (3, 0x7FFF0), (4, 0x7FFFE)]);
      checkAddr s s.me.mode (s.rx 1) 32 32 = .ok (.own 0x7FFE0) ∧ s.markedIn (s.myKey 0x7FFE0) 32 = false
        ∧ s.here.held s.cur.tile (s.localWriter 32) 0x7FFE0 32 = false ∧ s.me.vecAt = 0 ∧ s.me.vec = none ∧ s.cur.tile < 2 ^ 40
        ∧ (∀ n, n < 8 → checkAddr s s.me.mode (s.rx 1 + BitVec.ofNat 64 n * s.rx 2) 4 4 = .ok (.own (0x7FFE0 + 4 * n)))
        ∧ s.markedIn (s.myKey 0x7FFE0) 4 = false ∧ s.here.held s.cur.tile (s.localWriter 4) 0x7FFE0 4 = false
        ∧ checkAddr s s.me.mode (s.rx 3) 32 32 = .error .access ∧ checkAddr s s.me.mode (s.rx 4) 4 4 = .error .access)
    ∧ (let s := { one (user [(1, 0x7FFE0)]) (holding 0x7FFF8) with marks := [0xFFFF] };
      checkAddr s s.me.mode (s.rx 1) 32 32 = .ok (.own 0x7FFE0) ∧ s.markedIn (s.myKey 0x7FFE0) 32 = true
        ∧ s.here.held s.cur.tile (s.localWriter 32) 0x7FFE0 32 = true)
    ∧ (let s := one { user [(1, 0x7FFE0)] with v := (Vector.replicate 16 0).set 1 (BitVec.ofNat 256 0x700000006000000050000000400000003000000020000000100000000) };
      ∀ n, n < 8 → checkAddr s s.me.mode (s.rx 1 + BitVec.ofNat 64 (bits (s.rv 1) (32 * n) 32 * 4)) 4 4 = .ok (.own (0x7FFE0 + 4 * n)))
    ∧ (let r : VecRun := { size := 4, rest := [(6, 0x7FFF8, 0x7FFF8, 0), (7, 0x7FFFC, 0x7FFFC, 0)] };
      let s := one { user [] with st := .unit, need := .element, vec := some r };
      s.me.vec = some r ∧ r.rest.drop 1 ≠ [] ∧ r.group = none ∧ s.markedIn (s.myKey 0x7FFF8) 4 = false
        ∧ { s with marks := [0xFFFF] }.markedIn (s.myKey 0x7FFF8) 4 = true ∧ 0x7FFF8 < mramBase ∧ 0x7FFFC + r.size ≤ 2 ^ 20
        ∧ s.inFrame 0 = true ∧ s.awake 0 = true ∧ (s.tile 0).tstate = 1 ∧ (s.th 0 0).st = .unit ∧ (s.th 0 0).vec = some r
        ∧ (s.th 0 0).need = .element ∧ (s.th 0 0).pend = [] ∧ ∀ j, j ≠ 0 → (s.th 0 j).st = .empty)
    ∧ (let r : VecRun := { size := 4, group := some 3, rest := [(6, 0x7FFF8, 0x7FFF8, 0)] };
      let p (n : Nat) : Packet := { op := .load 4, group := some (3, n) };
      let s := one { user [] with st := .unit, need := .element, vec := some r };
      let far (n : Nat) : State := one { user [] with vec := some r } { tile1 with reqs := [{ group := some (3, n), target := 0x3001000000000000 }] };
      s.me.vec = some r ∧ { s with net := [p 5] }.net.any (beforeInGroup 3 6) = true
        ∧ { s with net := [p 7] }.net.any (beforeInGroup 3 6) = false
        ∧ (∀ n ∈ [5, 7], ((far n).here.reqs.any fun e => e.group.any (fun q => q.1 == 3 && decide (q.2 < 6))
          && bits e.target 60 4 == 3 && bits e.target 48 12 != (far n).here.core.jmod) = (n == 5)))
    ∧ (let r : VecRun := { size := 4, rest := [(7, 0x7FFFC, 0x7FFFC, 0)] };
      r.rest.drop 1 = [] ∧ (one { user [] with st := .unit, vec := some r }).me.vec = some r)
    ∧ (let r : VecRun := { write := true, size := 4, rest := [(7, 0x7FFFC, 0x7FFFC, 0xFFFFFFFF)] };
      let s := one { user [] with st := .unit, vec := some r };
      s.me.vec = some r ∧ s.here.held s.cur.tile (s.localWriter 4) 0x7FFFC 4 = false ∧ 0xFFFFFFFF < 2 ^ (8 * r.size)
        ∧ (one { user [] with st := .unit, vec := some r } (holding 0x7FFF8)).here.held 0 (s.localWriter 4) 0x7FFFC 4 = true)
    ∧ (let s := one (user [(1, 8), (2, 0x1000000040100020)]);
      checkAddr s s.me.mode (s.rx 1) 32 32 = .error .misaligned ∧ s.entryFree = true
        ∧ checkAddr s s.me.mode (s.rx 2) 32 32 = .ok (.mesh 1 1 32))
    ∧ (let s := one (user [(2, 0x1000000040100020)]) { tile1 with reqs := fullReqs };
      checkAddr s s.me.mode (s.rx 2) 32 32 = .ok (.mesh 1 1 32) ∧ s.entryFree = false) := by
  decide +kernel
/-- Elements all in the core at (1, 1), with room and without; elements of which the fourth leaves the scratchpad, the
second is misaligned, or all are of a management block. -/
theorem witness_VectorMemory_elements :
    (∀ l ∈ [[], fullReqs],
      let s := one (user [(1, 0x1000000040100020), (2, 4)]) { tile1 with reqs := l }
      (∀ n, n < 8 → checkAddr s s.me.mode (s.rx 1 + BitVec.ofNat 64 n * s.rx 2) 4 4 = .ok (.mesh 1 1 (32 + 4 * n)))
        ∧ (s.here.reqs.length + 8 ≤ 256 ∧ s.myEntries.length + 8 ≤ 64 ↔ l = []) ∧ (∀ g ∈ s.here.groups, g.id ≠ s.nextId))
    ∧ (let s := one (user [(1, 0x7FFF4), (2, 4), (3, 6)]);
      (∀ n, n < 3 → checkAddr s s.me.mode (s.rx 1 + BitVec.ofNat 64 n * s.rx 2) 4 4 = .ok (.own (0x7FFF4 + 4 * n)))
        ∧ checkAddr s s.me.mode (s.rx 1 + BitVec.ofNat 64 3 * s.rx 2) 4 4 = .error .access
        ∧ checkAddr s s.me.mode (s.rx 1 + BitVec.ofNat 64 1 * s.rx 3) 4 4 = .error .misaligned)
    ∧ (let s := one (mach [(1, 0x6000000000000028)]);
      checkAddr s s.me.mode (s.rx 1 + BitVec.ofNat 64 0 * s.rx 2) 4 4 = .ok (.mgmt 0 0x28)
        ∧ checkAddr s s.me.mode (s.rx 1) 32 32 = .error .misaligned)
    ∧ (let s := one (mach [(1, 0x6000000000000020)]);
      checkAddr s s.me.mode (s.rx 1) 32 32 = .ok (.mgmt 0 0x20)) := by
  decide +kernel
/-- The packet p in flight, to or from tile 0. -/
def sent (p : Packet) (x : Tile := tile1) : State := { one (user []) x with net := [p] }
/-- A thread of partition 5 as a source. -/
def org5 : Origin := { pid := 5 }

/-- A spawn and a message admitted, one for another partition, full intake and inbox; each drain; the seventh and the eighth
refusal; a resend that is due; a status. -/
theorem witness_SpawnTraffic :
    (let p : Packet := { op := .spawn {}, org := org5 };
      let s := sent p { tile1 with intake := List.replicate 3 {} };
      Arrives s p 0 ∧ p.org.fab = false ∧ admits s p 0 = true ∧ (s.tile 0).intake.length < 4)
    ∧ (let p : Packet := { op := .spawn {}, org := org5 };
      let s := sent p { tile1 with intake := List.replicate 4 {} };
      Arrives s p 0 ∧ admits s p 0 = true ∧ 4 ≤ (s.tile 0).intake.length)
    ∧ (let p : Packet := { op := .spawn {}, org := { pid := 6 } };
      Arrives (sent p) p 0 ∧ admits (sent p) p 0 = false)
    ∧ (let p : Packet := { op := .message {}, org := org5 };
      let s := sent p { tile1 with inbox := List.replicate 31 {} };
      Arrives s p 0 ∧ admits s p 0 = true ∧ (s.tile 0).inbox.length < 32)
    ∧ (let p : Packet := { op := .message {}, org := org5 };
      let s := sent p { tile1 with inbox := List.replicate 32 {} };
      Arrives s p 0 ∧ admits s p 0 = true ∧ 32 ≤ (s.tile 0).inbox.length)
    ∧ (let p : Packet := { op := .message {}, org := { pid := 6 } };
      Arrives (sent p) p 0 ∧ admits (sent p) p 0 = false) := by
  simp only [Arrives]
  decide
theorem witness_SpawnTraffic_drains :
    let q : Intake := { org := org5 }
    (let s := one (user []) { tile1 with intake := [q], core := { core1 with jmpart1 := 0x0005000000006013 } };
      s.inFrame 0 = true ∧ (s.tile 0).intake = [q] ∧ q.org.fab = false ∧ (s.tile 0).core.hold = true)
    ∧ (let s := one (user []) { tile1 with intake := [q], core := { core1 with jkcaps := 0x40000 } };
      (s.tile 0).intake = [q] ∧ (s.tile 0).core.hold = false ∧ (s.tile 0).core.jkcaps &&& ~~~(s.tile 0).core.jcaps ≠ 0)
    ∧ (let s := one (user []) { tile1 with intake := [q], core := { core1 with jmpart1 := 0x0005000000001003 } };
      (s.tile 0).intake = [q] ∧ (s.tile 0).core.hold = false ∧ (s.tile 0).core.jkcaps &&& ~~~(s.tile 0).core.jcaps = 0
        ∧ (s.tile 0).core.gslots ≤ (s.tile 0).occupied)
    ∧ (let s := one (user []) { tile1 with intake := [q] };
      let i : Fin 8 := 1;
      s.inFrame 0 = true ∧ (s.tile 0).intake = [q] ∧ (s.tile 0).core.hold = false
        ∧ (s.tile 0).core.jkcaps &&& ~~~(s.tile 0).core.jcaps = 0 ∧ (s.tile 0).occupied < (s.tile 0).core.gslots
        ∧ i.val < (s.tile 0).core.gslots ∧ i.val < 6 ∧ ((s.tile 0).th i).st = .empty
        ∧ ∀ j, j < i → ((s.tile 0).th j).st ≠ .empty) := by
  decide
theorem witness_SpawnTraffic_answers :
    (let s := one (user []) { tile1 with inbox := [{}] };
      let i : Fin 8 := 6;
      (s.tile 0).inbox = [{}] ∧ (s.tile 0).halted = false ∧ (s.tile 0).needsFirmware = false ∧ 6 ≤ i.val
        ∧ ((s.tile 0).th i).st = .empty ∧ ∀ j : Fin 8, 6 ≤ j.val → j < i → ((s.tile 0).th j).st ≠ .empty)
    ∧ (let p : Packet := { op := .refused };
      let s := { sent p with spawns := [{ refusals := 6 }] };
      s.pkt p.id = some p ∧ s.spawns.find? (·.id == p.req) = some { refusals := 6 } ∧ 6 < 7)
    ∧ (let p : Packet := { op := .refused };
      let s := { sent p with spawns := [{ refusals := 7 }] };
      s.pkt p.id = some p ∧ s.spawns.find? (·.id == p.req) = some { refusals := 7 } ∧ 7 ≤ 7)
    ∧ (let r : SpawnRec := { due := some 0 };
      let s := { one (user []) with spawns := [r] };
      s.spawns.find? (·.id == r.id) = some r ∧ r.due = some 0 ∧ 0 ≤ s.tick ∧ r.home = .tile 0)
    ∧ (let p : Packet := { op := .status 4 };
      let e : ReqEntry := { rd := some 3, tag := 15 };
      let r : SpawnRec := {};
      let s := { sent p { tile1 with reqs := [e] } with spawns := [r] };
      s.pkt p.id = some p ∧ s.spawns.find? (·.id == p.req) = some r ∧ r.host = none ∧ r.many = false ∧ r.org.tile = 0 ∧ (s.tile 0).reqs.find? (·.id == 0) = some e ∧ e.slot = 0
        ∧ e.rd = some 3 ∧ e.discard = false ∧ e.epoch = ((s.tile 0).th 0).epoch ∧ e.tag < 16) := by
  decide

/-- A thread at offset 0 of an 8 KiB code window that holds ADDI x0, x0, 0. -/
def fetching : State :=
  { one { user [] with budget := 1 } { tile1 with core := { core1 with jcodewin := 0x200000000 } } with mem := [(0, 0x13)] }

/-- What an issue fetches, whole or after a wake; waits that return, time out, and a hold that ends; firmware that is
owed. -/
theorem witness_ThreadsWake :
    (let s := fetching;
      let x := s.tile 0;
      let h := x.th 0;
      s.inFrame 0 = true ∧ s.awake 0 = true ∧ x.tstate = 1 ∧ (s.island (islandOf 0)).throttle = 16 ∧ x.halted = false
        ∧ x.lattice = none ∧ x.evpend = 0 ∧ x.reqs = [] ∧ x.groups = [] ∧ x.divider = none
        ∧ (∀ j, j ≠ (0 : Fin 8) → (x.th j).st = .empty) ∧ h.st = .ready ∧ h.need = .none ∧ h.pend = [] ∧ h.fwTrap = none
        ∧ h.firmware = false ∧ 0 < h.budget ∧ h.wait = 0 ∧ h.lat = [] ∧ h.vlat = [] ∧ h.acquire = false ∧ h.fbuf = []
        ∧ fetchPlace x.core h = .ok 0 ∧ s.markedIn (tileKey 0 0) 4 = false
        ∧ decodeWord (BitVec.ofNat 32 (s.readN (tileKey 0 0) 4)) = .ok (.addi 0 0 0))
    ∧ (let w : Wait := .riser 8 1 (some 5) 3;
      let s := { one { user [] with st := .sleep, sleep := some w, woken := some (2, 1) } with tick := 5 };
      ((s.tile 0).th 0).sleep = some w ∧ ((s.tile 0).th 0).woken = some (2, 1) ∧ 1 ≤ (s.tile 0).cycle + 1
        ∧ (s.tile 0).halted = false)
    ∧ (let w : Wait := .riser 8 1 (some 5) 3;
      let s := { one { user [] with st := .sleep, sleep := some w } with tick := 5 };
      ((s.tile 0).th 0).sleep = some w ∧ ((s.tile 0).th 0).woken = none ∧ 5 ≤ s.tick
        ∧ (s.readD (tileKey 0 8)).getLsbD 63 = false ∧ bits (s.readD (tileKey 0 8)) 0 40 < 1)
    ∧ (let s := one { user [] with holdEnd := some 1 };
      ((s.tile 0).th 0).holdEnd = some 1 ∧ 1 ≤ (s.tile 0).cycle + 1)
    ∧ (let s := one (user []) { tile1 with evpend := 1 };
      let i : Fin 8 := 6;
      (s.tile 0).needsFirmware = true ∧ 6 ≤ i.val ∧ ((s.tile 0).th i).st = .empty
        ∧ ∀ j : Fin 8, 6 ≤ j.val → j < i → ((s.tile 0).th j).st ≠ .empty) := by
  decide
/-- A request of partition 5 at the last place that 8 bytes fit. -/
def last8 (op : Op) : Packet := { op := op, org := org5, off := 0x7FFF8 }
/-- The request is in its turn at tile 0 and is not rejected, with no granule held. -/
def admitted (p : Packet) (write : Bool) (n kind lsize : Nat) (fp : Bool) : Bool :=
  let s := sent p
  decide (s.pkt p.id = some p) && decide (p.home = .tile 0) && s.inTurn p && s.awake 0 && !p.org.fab
    && decide (p.org.party ≠ .host) && !(s.tile 0).core.jmtrace.getLsbD 63 && decide (p.off < 0x80000)
    && decide (rejection s p 0 write [(p.off, n)] fp = none) && !(s.tile 0).held 0 (writerOf p kind lsize) p.off n
    && decide ((s.tile 0).delayed = [])
/-- Each kind of request admitted; one of another partition; a marked word; a granule held. -/
theorem witness_RequestsPerformed :
    admitted (last8 (.load 8)) false 8 0 3 false = true ∧ (sent (last8 (.load 8))).markedIn (tileKey 0 0x7FFF8) 8 = false
      ∧ { sent (last8 (.load 8)) with marks := [0xFFFF] }.markedIn (tileKey 0 0x7FFF8) 8 = true
      ∧ (let p : Packet := { op := .load 8, org := { pid := 6 }, off := 0x7FFF8 };
        rejection (sent p) p 0 false [(p.off, 8)] false = some 1 ∧ rejection (sent p) p 0 true [(p.off, 8)] false = some 1
          ∧ rejection (sent p) p 0 true [(p.off, 4)] true = some 1 ∧ rejection (sent p) p 0 true [(p.off, 16)] false = some 4
          ∧ rejection (sent p) p 0 true [(p.off, 8), (8, 8)] false = some 1 ∧ rejection (sent p) p 0 false [] false = some 1
          ∧ (sent p).inFrame 0 = true)
      ∧ admitted (last8 (.store 8 1)) true 8 0 3 false = true
      ∧ (let p := last8 (.store 8 1);
        ((sent p (holding 0x7FFF8)).tile 0).held 0 (writerOf p 0 3) p.off 8 = true
          ∧ rejection (sent p (holding 0x7FFF8)) p 0 true [(p.off, 8)] false = none)
      ∧ (let p := last8 (.store 8 1);
        let s := sent p { tile1 with delayed := [(.packet 7, [(0x7FFFC, 4)]), (.packet 0, [(0x7FFF8, 8)]), (.packet 8, [(0x7FFF8, 8)])] };
        ∀ d ∈ (s.tile 0).delayed.takeWhile (·.1 != .packet p.id), s.waiterLive d.1 = true → spansMeet d.2 [(p.off, 8)] = false)
      ∧ admitted (last8 (.amo .fadd 4 1 0)) true 4 3 2 true = true ∧ admitted (last8 (.radd 1)) true 8 2 3 false = true
      ∧ admitted (last8 (.rsig 1)) true 8 2 3 false = true ∧ admitted (last8 (.rpoison 7)) true 8 2 3 false = true
      ∧ admitted (last8 (.release 1 false 0)) true 8 8 3 false = true := by
  decide
/-- A counted store with its riser below, a barrier operation, a transfer completion, and a capability question. -/
theorem witness_RequestsPerformed_more :
    (let p := last8 (.counted 8 1 0x7FFF0);
      admitted p true 8 1 3 false = true ∧ rejection (sent p) p 0 true [(p.off, 8), (0x7FFF0, 8)] false = none
        ∧ ((sent p).tile 0).held 0 (writerOf p 1 3) 0x7FFF0 8 = false ∧ 0x7FFF0 + 8 ≤ p.off)
    ∧ (let p : Packet := { op := .binit 1 0, org := org5, off := 0x7FFF0 };
      admitted p true 16 7 4 false = true ∧ barEvent p.op = some (.init 1 0)
        ∧ (barStep ((sent p).readD (tileKey 0 0x7FFF0)) ((sent p).readD (tileKey 0 0x7FFF8)) (.init 1 0)).release = none)
    ∧ (let p : Packet := { op := .done true false, org := org5, off := 0x7FFF0 };
      let s := { sent p with mem := [(tileKey 0 0x7FFF3, 2), (tileKey 0 0x7FFF5, 0x20)] };
      let b := barStep (s.readD (tileKey 0 0x7FFF0)) (s.readD (tileKey 0 0x7FFF8)) (.inDone false);
      admitted p true 16 7 4 false = true ∧ s.pkt p.id = some p ∧ s.inTurn p = true ∧ s.awake 0 = true
        ∧ rejection s p 0 true [(p.off, 16)] false = none ∧ barEvent p.op = some (.inDone false) ∧ b.release = none ∧ b.held = 0)
    ∧ admitted (last8 (.capq 0)) false 0 0 0 false = true
      ∧ rejection (sent (last8 (.capq 0))) (last8 (.capq 0)) 0 false [] false = none := by
  decide
/-- Pseudo-channel 127, reached and powered, with a sound and a marked word; and without power. -/
theorem witness_MemoryPerformed :
    let p : Packet := { op := .load 8, org := org5, home := .chan 127, off := 0x3FFFFFF8 }
    let at_ (on : Bool) : State := sent p { tile1 with pcPowered := on }
    let s := at_ true
    s.pkt p.id = some p ∧ p.home = .chan 127 ∧ s.inTurn p = true ∧ p.org.fab = false ∧ p.org.party ≠ .host
      ∧ reached s p (chanTile 127) = true ∧ (s.tile (chanTile 127)).pcPowered = true ∧ s.markedIn (hbmKey 127 p.off) 8 = false
      ∧ { s with marks := [hbmKey 127 p.off / 8] }.markedIn (hbmKey 127 p.off) 8 = true
      ∧ ((at_ false).tile (chanTile 127)).pcPowered = false := by
  decide +kernel
/-- Each answer to a request of the thread; a rejection of a store that holds no entry; and faults that arrived before. -/
theorem witness_AnswersReturn :
    let e : ReqEntry := { id := 4, rd := some 31, target := 8 }
    let x : Tile := { tile1 with reqs := [e] }
    (∀ op ∈ [Op.result 7 0, .complete, .reject 1 0 false, .result 7 2, .status 1],
      let p : Packet := { op := op, req := 4 }
      let s := sent p x
      s.pkt p.id = some p ∧ p.org.party = .thread ∧ p.org.tile = 0 ∧ p.org.fab = false
        ∧ (s.tile 0).reqs.find? (·.id == p.req) = some e ∧ e.slot = (0 : Fin 8).val ∧ e.epoch = ((s.tile 0).th 0).epoch
        ∧ ((s.tile 0).th 0).st ≠ .empty ∧ e.discard = false ∧ e.group = none ∧ e.quiet = false
        ∧ e.rd = some 31 ∧ s.spawns.any (·.id == p.req) = false)
    ∧ (let p : Packet := { op := .reject 1 0 false, req := 4 };
      let s := sent p;
      (s.tile 0).reqs.find? (·.id == p.req) = none ∧ p.group = none ∧ p.org.machine = false ∧ p.org.slot = 0
        ∧ p.org.epoch = ((s.tile 0).th 0).epoch ∧ ((s.tile 0).th 0).st ≠ .empty)
    ∧ (let f (n : Nat) : FaultRec := { cause := 26, cycle := 0, age := n };
      (∀ g ∈ [f 3], g.cycle = 0 → g.age ≤ 4) ∧ [f 3, f 5] = [f 3] ++ [f 5] ∧ (∀ k ∈ [f 3], k.cycle = 0 → k.age ≤ 4)
        ∧ (f 5).cycle = 0 ∧ 4 < (f 5).age ∧ ({ user [] with pend := [f 3, f 5] }).pend = [f 3, f 5]) := by
  decide
/-- A packet to the tile below with a free buffer, with none, and northward off the frame; a fabric store and a check at
their gateway; an answer; walks at a leaf, a pointer and an entry that is not valid. -/
theorem witness_CountsAndWalks :
    (let p : Packet := { op := .nb (List.replicate 64 0) 2 0 };
      let full : List Host.Cell := [(tileKey 1024 0x87F07, 0x80), (tileKey 1024 0x87F0F, 0x80), (tileKey 1024 0x87F17, 0x80),
        (tileKey 1024 0x87F1F, 0x80)]
      (sent p).pkt p.id = some p ∧ p.org.fab = false ∧ receiver (sent p) 256 p.org.tile 2 0 = some (1024, 0) ∧ (sent p).side = 256
        ∧ freePacket (sent p) 1024 = some 0 ∧ 1024 < 2 ^ 40 ∧ freePacket { sent p with mem := full } 1024 = none)
    ∧ (let p : Packet := { op := .nb (List.replicate 64 0) 0 0 };
      (sent p).pkt p.id = some p ∧ p.org.fab = false ∧ receiver (sent p) 256 p.org.tile 0 0 = none)
    ∧ (let p : Packet := { op := .store 8 1, org := { job := 9, fab := true, omod := 1 }, home := .module 0 1 1 };
      let e : Receive := { omod := 1, job := 9 };
      let s := { sent p with parts := [{ jobid := 9, table := [0], height := 2, width := 2 }], receive := [e] };
      s.pkt p.id = some p ∧ fabricStore p = true ∧ (routedIn s p).isSome = true ∧ s.receive = [e] ∧ sameSource p e = true
        ∧ e.gateway = p.port)
    ∧ (let p : Packet := { op := .check 0 7, org := { job := 9, fab := true, omod := 1 } };
      let e : Receive := { omod := 1, job := 9, count := 7 };
      let s := { sent p with receive := [e] };
      s.pkt p.id = some p ∧ p.org.fab = true ∧ storesPending s p = false ∧ s.uncounted = [] ∧ s.receive = [e]
        ∧ sameSource p e = true ∧ e.gateway = p.port) := by
  decide
/-- An answer; a walk at a pointer, at a leaf and at an entry that is not valid, with threads that wait for its page and
for another. -/
theorem witness_CountsAndWalks_wakes :
    let waiting (page : Nat) : Thread := { user [] with st := .queue, need := .translation page }
    let two : State := one (waiting 3) (tile1.setTh 1 (waiting 4))
    (let c : Check := { idx := 0, module := 1, sent := 7 };
      let p : Packet := { op := .answer 1 6 };
      let s := { one { user [] with st := .queue, need := .intervalCheck, checks := [c] } with net := [p] };
      s.pkt p.id = some p ∧ p.org.party = .thread ∧ p.org.tile = 0 ∧ (s.th 0 0).checks = [c] ∧ c.id = p.req
        ∧ (s.th 0 0).need = .intervalCheck ∧ (s.tile 0).lateChecks = [])
    ∧ (let w : Walk := { page := 3, level := 1, table := 0x800 };
      let s : State := { two with walks := [w], mem := Memory.write [] (({} : State).paKey 0x800) [1, 0x10] };
      s.walks = [w] ∧ walkLevel s w = .down 0x1000)
    ∧ (let w : Walk := { page := 3, level := 4, table := 0x800 };
      let s : State := { two with walks := [w], mem := Memory.write [] (({} : State).paKey 0x818) [0x1F] };
      s.walks = [w] ∧ walkLevel s w = .leaf 0x1F ∧ (s.th w.tile 0).st = .queue ∧ (s.th w.tile 0).need = .translation w.page)
    ∧ (let w : Walk := { page := 3, level := 4, table := 0x800, engines := [6] };
      let s : State := { two with walks := [w] };
      s.walks = [w] ∧ walkLevel s w = .fault ∧ (s.th w.tile 0).st = .queue ∧ (s.th w.tile 0).need = .translation w.page
        ∧ (s.th w.tile 1).st = .queue ∧ (s.th w.tile 1).need = .translation 4 ∧ 4 ≠ w.page) := by
  refine ⟨by decide, ⟨rfl, rfl⟩, ⟨rfl, rfl, rfl, rfl⟩, ⟨rfl, rfl, rfl, rfl, rfl, rfl, by decide⟩⟩

/-- Channel 0 of tile 0 as c. -/
def chan0 (c : Channel) : State := one (user []) { tile1 with chans := tile1.chans.set 0 c }
/-- A copy of 8 bytes from offset 0x7FFF8 to 0x100 with completion riser 0x40 and destination riser 8. -/
def copy8 : CopyCmd := { w0 := 0x10001, w1 := 0x7FFF8, w2 := 0x100, w3 := 8 }
/-- The same without risers. -/
def bare8 : CopyCmd := { copy8 with w0 := 0 }

theorem witness_CopySteps :
    (let h : CopyCmd := copy8;
      let s := chan0 { fifo := [h], gate := 1, started := List.replicate 3 {} };
      let c := (s.tile 0).chans[(0 : Ch).toFin]
      s.inFrame 0 = true ∧ c.fifo = [h] ∧ c.gate = 1 ∧ c.started.length < 4 ∧ (s.tile 0).sealed = false ∧ c.ask = none
        ∧ c.stall = none ∧ CopyCmd.op h ≠ 5)
    ∧ (let h : CopyCmd := { copy8 with w0 := 0x5000000000000000 };
      CopyCmd.op h = 5 ∧ ∀ r ∈ (List.replicate 3 {} : List CopyRun), CopyCmd.op r.cmd ≠ 5)
    ∧ (let c := ((chan0 { fifo := [bare8], gate := 2 }).tile 0).chans[(0 : Ch).toFin];
      c.fifo = [bare8] ∧ c.gate = 2 ∧ wDriser bare8.w0 = 0 ∧ wCriser bare8.w0 = 0)
    ∧ (let r : CopyRun := { cmd := copy8 };
      let s := chan0 { started := [r] };
      let a := r.cmd.w1 + BitVec.ofNat 64 0
      activeRun s 0 0 0 = some r ∧ CopyCmd.op r.cmd = 0 ∧ CopyRun.piece r 0 0 a = some 8 ∧ memNat 0 r.reads = false
        ∧ checkAddr (s.viewFrom 0) (modeOf r.cmd) a 8 1 = .ok (.own 0x7FFF8) ∧ s.awake 0 = true
        ∧ rejection s (copyPacket s 0 0 r.cmd (.load 8) (.tile 0) 0x7FFF8 a true) 0 false [(0x7FFF8, 8)] false = none
        ∧ s.markedIn (tileKey 0 0x7FFF8) 8 = false)
    ∧ (let r : CopyRun := { cmd := copy8, buf := numbered 0 [1, 2, 3, 4, 5, 6, 7, 8] };
      let s := chan0 { started := [r] };
      let a := r.cmd.w2 + BitVec.ofNat 64 0
      let p := { copyPacket s 0 0 r.cmd (.store 8 (leVal [1, 2, 3, 4, 5, 6, 7, 8])) (.tile 0) 0x100 a true with xn := CopyRun.marked r 0 8 }
      activeRun s 0 0 0 = some r ∧ CopyRun.piece r 0 0 a = some 8 ∧ memNat 0 r.writes = false
        ∧ CopyRun.have r 0 8 = some [1, 2, 3, 4, 5, 6, 7, 8]
        ∧ checkAddr (s.viewFrom 0) (modeOf r.cmd) a 8 1 = .ok (.own 0x100) ∧ rejection s p 0 true [(0x100, 8)] false = none
        ∧ (s.tile 0).held 0 (writerOf p 0 (Nat.log2 8)) 0x100 8 = false ∧ (s.tile 0).delayed = []
        ∧ (s.tile 0).core.jmtrace.getLsbD 63 = false) := by
  decide
theorem witness_CopySteps_ends :
    (let r : CopyRun := { cmd := copy8, done := 8 };
      let s := chan0 { started := [r] };
      let off := wDriser r.cmd.w0
      let p := copyPacket s 0 0 r.cmd (.rsig 1) (.tile 0) off (nd (r.cmd.w2.toNat / 2 ^ 20 * 2 ^ 20 + off)) true
      activeRun s 0 0 0 = some r ∧ CopyRun.landedAll r = true ∧ hasDest r.cmd = true ∧ wDbar r.cmd.w0 = false
        ∧ memNat 0 r.stepped = false ∧ destHome s 0 r.cmd 0 = some (.tile 0, true) ∧ s.awake 0 = true ∧ off < 0x80000
        ∧ rejection s p 0 true [(off, 8)] false = none ∧ (s.tile 0).held 0 (writerOf p 2 3) off 8 = false)
    ∧ (let r : CopyRun := { cmd := bare8, done := 8 };
      let s := chan0 { started := [r] };
      ((s.tile 0).chans[(0 : Ch).toFin]).started.find? (·.cmd.serial == 0) = some r ∧ r.bad = none ∧ CopyRun.ready r 0 = true
        ∧ wCriser r.cmd.w0 = 0)
    ∧ (let r : CopyRun := { cmd := copy8, done := 8, stepped := [0] };
      let s := chan0 { started := [r] };
      let off := wCriser r.cmd.w0
      let p := copyPacket s 0 0 r.cmd (.rsig 1) (.tile 0) off (nd off) true
      CopyRun.ready r 0 = true ∧ r.final = false ∧ wCriser r.cmd.w0 ≠ 0 ∧ wCbar r.cmd.w0 = false
        ∧ rejection s p 0 true [(off, 8)] false = none ∧ (s.tile 0).held 0 (writerOf p 2 3) off 8 = false)
    ∧ (let r : CopyRun := { cmd := bare8, bad := some (2, 4) };
      ((chan0 { started := [r] }).tile 0).chans[(0 : Ch).toFin].started.find? (·.cmd.serial == 0) = some r
        ∧ r.bad = some (2, 4) ∧ r.outstanding = [] ∧ r.owed = 0 ∧ wDriser r.cmd.w0 = 0 ∧ wCriser r.cmd.w0 = 0) := by
  decide
/-- A multicast from tile 0 to the core at (0, 1), whose flit is at tile 0; its acknowledgements; pooled memory. -/
theorem witness_CopySteps_more :
    let m : CopyCmd := { w0 := 0x5000000000000000, w2 := 0x1000000000100000, w3 := 8 }
    let two (s : State) : State := { s with tiles := s.tiles ++ [(1, { router := 0x100001, core := core1 })] }
    (let r : CopyRun := { cmd := m, flits := [(0, 0)] };
      let s := two (chan0 { started := [r] });
      let d := mcastDests s 0 r.cmd
      activeRun s 0 0 0 = some r ∧ r.flits.any (· == (0, 0)) = true ∧ mcastChildren d.1 0 0 = [1]
        ∧ ((mcastChildren d.1 0 0).all fun u => mcastFree s 0 u) = true ∧ memNat 0 d.1 = false)
    ∧ (let r : CopyRun := { cmd := m, done := 8, landed := [(1, 8)] };
      let s := two (chan0 { started := [r] });
      let d := (mcastDests s 0 r.cmd).1
      activeRun s 0 0 0 = some r ∧ CopyCmd.op r.cmd = 5 ∧ CopyRun.landedAll r = true ∧ r.owed = 0 ∧ d = [1] ∧ memNat 1 (route 0 1) = true
        ∧ memNat 1 r.acks = false ∧ r.flits.any (·.2 == 1) = false ∧ CopyRun.acked r 1 = true
        ∧ ((mcastChildren d 0 1).all fun u => memNat u r.acks) = true ∧ r.failed = [])
    ∧ (let r : CopyRun := { faulted := some 7 };
      let s := { one (user []) { tile1 with chans := tile1.chans.set 3 { stall := some (0, 5), ask := some (0, 5), started := [r] } } with
        tick := 7 + 2 ^ 21 };
      ((s.tile 0).chans[3]).stall = some (0, 5) ∧ ((s.tile 0).chans[3]).ask = some (0, 5) ∧ r ∈ ((s.tile 0).chans[3]).started
        ∧ r.cmd.serial = 0 ∧ r.faulted = some 7 ∧ 7 + 2 ^ 21 ≤ s.tick)
    ∧ (let p : Packet := { op := .store 8 1, home := .host 0 };
      let s := { one (user []) with uio := [p] };
      s.uio.find? (·.id == p.id) = some p ∧ p.home = .host 0 ∧ p.org.tile = 0 ∧ (s.pack 0).purges = []) := by
  decide
/-- Tile 0 whose channel ch has the run r started, with one leaf in its TLB: page 3, to page 7 of HBM. -/
def running (ch : Fin 4) (r : CopyRun) : State :=
  one (user []) { tile1 with chans := tile1.chans.set ch { started := [r] }, tlb := [{ asid := 0, page := 3, leaf := 0x701F }] }
/-- A copy command of the operation with source a, destination b and word 3. -/
def cmdOf (op : Nat) (a b w3 : Dword) (w0 : Nat := 0) : CopyCmd := { w0 := BitVec.ofNat 64 (op * 2 ^ 60 + w0), w1 := a, w2 := b, w3 := w3 }
/-- Eight bytes of a transfer, taken. -/
def eight : List Byte := [1, 2, 3, 4, 5, 6, 7, 8]

/-- The last 8 bytes of the own scratchpad, by the own and by the mesh address; of a page of HBM; and of module 1: taken,
and written there. -/
theorem witness_CopyPieces_moves :
    (∀ n ∈ [0x7FFF8, 0x100000000007FFF8, 0x2000000000003FF8, 0x300100000007FFF8],
      let a : Dword := BitVec.ofNat 64 n
      let r : CopyRun := { cmd := cmdOf 0 a 0x100 8 }
      let w : CopyRun := { cmd := cmdOf 0 0x100 a 8, buf := numbered 0 eight }
      bits r.cmd.w0 60 4 = 0 ∧ CopyRun.places r (0 / CopyRun.unit r) = (.at a, 0x100) ∧ CopyRun.places w 0 = (.at 0x100, a)
        ∧ CopyRun.piece r 0 0 (a + BitVec.ofNat 64 0) = some 8 ∧ r.reads = [] ∧ CopyRun.piece w 0 0 (a + BitVec.ofNat 64 0) = some 8
        ∧ CopyRun.data w (CopyRun.places w 0).1 a 0 8 = some eight ∧ w.writes = []
        ∧ activeRun (running 1 r) 0 1 0 = some r ∧ activeRun (running 1 w) 0 1 0 = some w)
    ∧ (let r : CopyRun := { cmd := cmdOf 0 0x7FFF8 0x100 8 };
      let s := running 1 r;
      let p := fun (o : Op) own => copyPacket s 0 1 r.cmd o (.tile 0) 0x7FFF8 (if own then 0x7FFF8 else 0x100000000007FFF8) own
      s.inFrame 0 = true ∧ s.awake 0 = true ∧ checkAddr (s.viewFrom 0) .user 0x7FFF8 8 1 = .ok (.own 0x7FFF8)
        ∧ checkAddr (s.viewFrom 0) .user 0x100000000007FFF8 8 1 = .ok (.mesh 0 0 0x7FFF8) ∧ (s.viewFrom 0).meshTile 0 0 0 = 0
        ∧ s.markedIn (tileKey 0 0x7FFF8) 8 = false ∧ (s.tile 0).delayed = [] ∧ (∀ k, ((s.tile 0).th k).holdEnd = none)
        ∧ (s.tile 0).core.jmtrace.getLsbD 63 = false
        ∧ ∀ own ∈ [true, false], rejection s (p (.load 8) own) 0 false [(0x7FFF8, 8)] false = none
          ∧ rejection s { p (.store 8 (leVal eight)) own with xn := CopyRun.marked r 0 8 } 0 true [(0x7FFF8, 8)] false = none)
    ∧ (let s := running 1 {};
      let h := interleave s (pteIlv 0x701F) (leafPa 0x701F 0x3FF8)
      checkAddr (s.viewFrom 0) .user 0x2000000000003FF8 8 1 = .ok (.global 0x3FF8)
        ∧ tlbFind (s.tile 0).tlb (s.tile 0).core.asid (0x3FF8 / 4096) = some { asid := 0, page := 3, leaf := 0x701F }
        ∧ (∀ w ∈ [true, false], permitted 0x701F true w = true) ∧ ptePool 0x701F = false ∧ pteIlv 0x701F ≠ 3 ∧ leafPa 0x701F 0x3FF8 < s.hbmEnd
        ∧ configured s (route 0 (chanTile h.1)) = true ∧ s.markedIn (hbmKey h.1 h.2) 8 = false
        ∧ checkAddr (s.viewFrom 0) .user 0x300100000007FFF8 8 1 = .ok (.fabric 1 0 0 0x7FFF8)) := by
  refine ⟨?_, ?_, ?_⟩ <;> decide +kernel
/-- An index not yet read and one read; a tensor map not yet read, and one valid, with a record inside and one in the
padding; FILL's pattern; an element of each reduce. -/
theorem witness_CopyPieces_forms :
    (let r : CopyRun := { cmd := cmdOf 3 0 0x100 0 };
      bits r.cmd.w0 60 4 = 3 ∧ activeRun (running 1 r) 0 1 0 = some r ∧ r.idx.find? (·.1 == 0) = none ∧ 0 < bits r.cmd.w3 29 16 + 1
        ∧ (running 1 r).markedIn (tileKey 0 (bits r.cmd.w3 45 19 + 4 * 0)) 4 = false
        ∧ bits (cmdOf 4 0 0 0).w0 60 4 = 4 ∧ ([(0, 5)] : List (Nat × Nat)).find? (·.1 == 0) = some (0, 5) ∧ 5 ≠ 0xFFFFFFFF)
    ∧ (let map : List Dword := [0x400, 0x0000001000000008, 0x0001000100080000, 0x0101010101010001, 0x0001000200000000, 0x0000001000000000, 7, 0];
      let r : CopyRun := { cmd := cmdOf 2 0 0x2000000000000100 0x800 };
      let q : CopyRun := { r with map := map };
      let s : State := { running 1 r with mem := Memory.write [] (tileKey 0 0x800) (map.flatMap fun w => leBytes 8 w.toNat) };
      bits r.cmd.w0 60 4 = 2 ∧ r.map = [] ∧ activeRun s 0 1 0 = some r ∧ checkAddr (s.viewFrom 0) .user r.cmd.w3 64 1 = .ok (.own 0x800)
        ∧ s.markedIn (tileKey 0 0x800) 64 = false ∧ (upTo 8).map (fun k => s.readD (tileKey 0 0x800 + 8 * k)) = map
        ∧ rejection s (copyPacket s 0 1 r.cmd (.load 64) (.tile 0) 0x800 r.cmd.w3 true) 0 false [(0x800, 64)] false = none
        ∧ mapValid 1 false r.cmd.w2 map = true ∧ q.map ≠ [] ∧ CopyRun.unit q = 8
        ∧ (CopyRun.places q 0).1 = .byte 7 ∧ (CopyRun.places q 1).1 = .at 0x400
        ∧ CopyRun.data q (.byte 7) 0x100 0 8 = some (List.replicate 8 7))
    ∧ (let r : CopyRun := { cmd := cmdOf 8 0x0807060504030201 0x100 8 };
      CopyRun.data r (CopyRun.places r 0).1 0x100 0 8 = some eight ∧ CopyRun.piece r 0 0 0x100 = some 8 ∧ r.writes = [])
    ∧ (∀ op ∈ [6, 7],
      let size := if op = 6 then 4 else 2
      let r : CopyRun := { cmd := cmdOf op 0 0x7FFF8 8, buf := numbered 0 eight }
      let s := running 1 r
      bits r.cmd.w0 60 4 = op ∧ activeRun s 0 1 0 = some r ∧ CopyRun.have r 0 size = some (eight.take size)
        ∧ checkAddr (s.viewFrom 0) .user (r.cmd.w2 + BitVec.ofNat 64 0) size 1 = .ok (.own 0x7FFF8)
        ∧ s.markedIn (tileKey 0 0x7FFF8) size = false
        ∧ rejection s { copyPacket s 0 1 r.cmd (.amo (if op = 6 then .fadd else .faddBf) size (BitVec.ofNat 64 (leVal (eight.take size))) 0)
          (.tile 0) 0x7FFF8 0x7FFF8 true with xn := CopyRun.marked r 0 size } 0 true [(0x7FFF8, size)] true = none) := by
  decide +kernel
/-- The riser step at a destination on module 1, by riser and by barrier; a gate that waits; the poison of a destination
and of the completion riser. -/
theorem witness_CopyPieces_ends :
    (∀ bar ∈ [0, 2 ^ 15],
      let r : CopyRun := { cmd := cmdOf 0 0x100 0x3001000000000100 8 (bar + 1), done := 8 }
      let s := running 1 r
      activeRun s 0 1 0 = some r ∧ CopyRun.landedAll r = true ∧ wDriser r.cmd.w0 ≠ 0 ∧ r.stepped = []
        ∧ (destHome s 0 r.cmd 0).map (·.1) = some (.module 1 0 0))
    ∧ (let h := cmdOf 0 0 0 8 (2 ^ 45 + 2 ^ 29);
      let s := chan0 { fifo := [h] };
      ((s.tile 0).chans[(0 : Fin 4)]).fifo = h :: [] ∧ ((s.tile 0).chans[(0 : Fin 4)]).gate = 0 ∧ bits h.w0 45 13 ≠ 0
        ∧ (s.tile 0).core.jmtrace.getLsbD 63 = false)
    ∧ (let r : CopyRun := { cmd := cmdOf 0 0 0x100 8 0x10001, bad := some (2, 4) };
      let s := running 1 r;
      let c := (s.tile 0).chans[(1 : Fin 4)]
      c.started.find? (·.cmd.serial == 0) = some r ∧ r.outstanding = [] ∧ r.owed = 0 ∧ r.final = false ∧ wDriser r.cmd.w0 = 8
        ∧ wDbar r.cmd.w0 = false ∧ wCriser r.cmd.w0 ≠ 0 ∧ wCbar r.cmd.w0 = false ∧ destHome s 0 r.cmd 0 = some (.tile 0, true)
        ∧ rejection s (copyPacket s 0 1 r.cmd (.rpoison 4) (.tile 0) 8 8 true) 0 true [(8, 8)] false = none
        ∧ rejection s (copyPacket s 0 1 r.cmd (.rpoison 4) (.tile 0) (wCriser r.cmd.w0) (BitVec.ofNat 64 (wCriser r.cmd.w0)) true) 0 true
          [(wCriser r.cmd.w0, 8)] false = none) := by
  decide +kernel
/-- A ladle descriptor of one core with one expert, one token and one choice: choices at 0x1100, records at 0x1300,
tokens at 0x1500, experts at 0x1700; gates at 0x1000, totals at 0x1200, output at 0x1400 and drops at 0x1600. -/
def desc1 : List Dword :=
  [0, 0x10000008, 0x0001000000000001, 0x0000100000001100, 0x0000120000001300, 0x0000140000001500, 0x0000160000001700,
    0x100000000, 0, 0, 0, 0, 0, 0, 0, 0]
/-- The descriptor's bytes. -/
def descBytes (d : List Dword) : List Byte := d.flatMap fun w => leBytes 8 w.toNat
/-- Tile 0 with the ladle commands l, the descriptor d at 0x800, and more bytes. -/
def ladle (l : List LadleCmd) (m : List (Nat × List Byte)) (d : List Dword := desc1) : State :=
  { one (user []) { tile1 with ladle := { queue := l } } with
    mem := ((0x800, descBytes d) :: m).foldl (fun a p => Memory.write a p.1 p.2) [] }
/-- A command of the operation at that descriptor, its gate reached. -/
def lcmd (op : Nat) : LadleCmd := { w0 := BitVec.ofNat 64 (op * 2 ^ 60), w1 := 0x800, gate := 1 }
/-- The same started, with its descriptor read. -/
def lrun (op : Nat) (d : List Dword := desc1) : LadleCmd := { lcmd op with started := true, desc := d }
/-- An expert's table entry: its buffer, riser word, output buffer and core. -/
def expert (buf riser out core : Nat) : Nat × List Byte :=
  (0x1700, leBytes 8 buf ++ leBytes 8 riser ++ leBytes 8 out ++ leBytes 8 core)
/-- A write to tile u is neither delayed nor traced. -/
def writableAt (s : State) (u : Nat) : Bool :=
  (s.tile u).delayed == [] && (s.tile u).threads.toList.all (·.holdEnd == none) && !(s.tile u).core.jmtrace.getLsbD 63

theorem witness_LadleSteps_start :
    (∀ g ∈ [1, 2], ∀ op ∈ [0, 1, 2], ∀ abort ∈ [false, true],
      let c : LadleCmd := { lcmd op with gate := g }
      let s := one (user []) { tile1 with ladle := { queue := [c], abortNext := abort } }
      s.inFrame 0 = true ∧ (s.tile 0).ladle.queue = c :: [] ∧ c.bad = none ∧ c.started = false ∧ bits c.w0 60 4 = op
        ∧ (s.tile 0).sealed = false ∧ c.gate = g ∧ (s.tile 0).ladle.abortNext = abort)
    ∧ (let c : LadleCmd := { lcmd 3 with started := false };
      bits c.w0 60 4 = 3 ∧ c.gate = 1) := by
  decide +kernel
/-- The descriptor's blocks, valid and, with a reserved word set, not; a member of its rectangle and, at (1, 1), none. -/
theorem witness_LadleSteps_desc :
    let wrong := desc1.set 12 1
    let away := desc1.set 0 0x4010000000000
    ∀ d ∈ [desc1, wrong, away],
      let c : LadleCmd := { lcmd 0 with started := true }
      let s := ladle [c] [] d
      c.desc = [] ∧ wDesc c.w1 % 128 = 0 ∧ ownRead s 0 (wDesc c.w1) 64 = .ok ((descBytes d).take 64)
        ∧ ownRead s 0 (wDesc c.w1 + 64) 64 = .ok ((descBytes d).drop 64)
        ∧ descWords ((descBytes d).take 64 ++ (descBytes d).drop 64) = d
        ∧ dscValid s 0 d = (d == desc1) ∧ rectInside s 0 d = true ∧ isMember s 0 d = (d != away) ∧ dscNtok d ≠ 0 ∧ s.rounds = [] := by
  decide +kernel
/-- Choices and records in one block, and records in two. -/
theorem witness_LadleSteps_table :
    (∀ op ∈ [0, 1],
      let c := lrun op
      let s := ladle [c] []
      let at0 := if op = 0 then dscLo c.desc 3 else dscLo c.desc 4
      let n := (if op = 0 then 2 else 4) * dscNtok c.desc * dscK c.desc
      c.desc ≠ [] ∧ c.table = none ∧ (blocksOf at0 n)[0]? = some (0, n) ∧ ownRead s 0 (at0 + 0) n = .ok (List.replicate n 0)
        ∧ LadleCmd.whole { c with parts := c.parts ++ [(0, List.replicate n 0)] } at0 n = some (List.replicate n 0) ∧ s.rounds = [])
    ∧ (let c := lrun 1 (desc1.set 2 0x0001000000000011);
      let s := ladle [c] [];
      (blocksOf 0x1300 68)[0]? = some (0, 64) ∧ (blocksOf 0x1300 68)[1]? = some (64, 4)
        ∧ ownRead s 0 (0x1300 + 0) 64 = .ok (List.replicate 64 0)
        ∧ LadleCmd.whole { c with parts := [(0, List.replicate 64 0)] } 0x1300 68 = none)
    ∧ (let c : LadleCmd := { lrun 0 with todo := [(0x1300, [0, 0, 0, 0])] };
      c.todo.find? (·.1 == 0x1300) = some (0x1300, [0, 0, 0, 0]) ∧ writableAt (ladle [c] []) 0 = true) := by
  decide +kernel
theorem witness_LadleSteps_plan :
    let c : LadleCmd := { lrun 0 with joined := true, table := some [0] }
    let m : Joined := { tile := 0, same := dscSame desc1, counts := [1] }
    let r : Round := { pid := 5, rect := [0, 0, 1, 1], n := 0, members := [m] }
    let s (r : Round) : State := { ladle [c] [] with rounds := [r] }
    let order := dscMembers (s r) 0 c.desc
    let a := (([0] : List Nat).zipIdx).foldl (fun a e => planStep c.desc (addLists 1 []) [1] a e.2 e.1) { seen := List.replicate 1 0 }
    roundOf (s r) 0 c = some r ∧ c.joined = true ∧ c.finished = false ∧ c.bad = none ∧ order = [0] ∧ order.length ≤ r.members.length
      ∧ r.members.any (·.bad) = false ∧ (order.filterMap fun u => r.members.find? (·.tile == u)) = [m] ∧ addLists 1 [m.counts] = [1]
      ∧ (∀ w ∈ planWrites c.desc a [1], w.1 + w.2.length ≤ 0x80000)
      ∧ (let q : Round := { r with members := [{ m with bad := true }] };
        roundOf (s q) 0 c = some q ∧ q.members.any (·.bad) = true)
      ∧ (let k : Joined := { m with tile := 1, same := [] };
        ∃ j ∈ [m, k], j.same ≠ (([m, k] : List Joined).head?.map (·.same)).getD []) := by
  decide +kernel
/-- A SCATTER's record: beyond the table; of an expert whose buffer lies at 0x7FFF8 of the core at (0, 0), without a
riser and with riser 8; of one in space 0x2 whose core names none; and of one in space 0x0. -/
theorem witness_LadleSteps_entry :
    let c (rc : Nat) : LadleCmd := { lrun 1 with table := some [rc] }
    let buf : Dword := 0x100000000007FFF8
    let st (e : Nat × List Byte) : State := ladle [c 0x80000000] [e]
    ((c 0x80000001).table = some [0x80000001] ∧ 0x80000001 / 2 ^ 31 % 2 = 1 ∧ dscE (c 0).desc ≤ 0x80000001 % 256)
    ∧ (0x80000000 / 2 ^ 31 % 2 = 1 ∧ 0x80000000 % 256 < dscE (c 0).desc ∧ 0 ∉ (c 0).stepped ∧ ∀ r ∈ (c 0).rows, r.row ≠ 0)
    ∧ (rowTarget (st (expert 0x100000000007FFF8 0 0 0)) 0 desc1 0x80000000 = .ok (buf, 0, 0) ∧ bufferSpace buf = true ∧ bits buf 60 4 ≠ 2)
    ∧ (rowTarget (st (expert 0x100000000007FFF8 1 0 0)) 0 desc1 0x80000000 = .ok (buf, 8, 0)
      ∧ riserHome (st (expert 0x100000000007FFF8 1 0 0)) 0 buf = some (.tile 0))
    ∧ (rowTarget (st (expert 0x2000000000000000 1 0 0)) 0 desc1 0x80000000 = .ok (0x2000000000000000, 8, 0)
      ∧ bits (0x2000000000000000 : Dword) 60 4 = 2 ∧ riserHome (st (expert 0x2000000000000000 1 0 0)) 0 0 = none)
    ∧ (rowTarget (st (expert 0 0 0 0)) 0 desc1 0x80000000 = .ok (0, 0, 0) ∧ bufferSpace 0 = false) := by
  decide +kernel
/-- A row of 8 bytes of it: read, written, and its riser stepped. -/
theorem witness_LadleSteps_scatter :
    let buf : Dword := 0x100000000007FFF8
    let r : LadleRow := { row := 0, places := [(0, buf)], buf := numbered 0 [1, 2, 3, 4, 5, 6, 7, 8], core := buf }
    let c (r : LadleRow) : LadleCmd := { lrun 1 with table := some [0x80000000], rows := [r] }
    let s := ladle [c r] []
    let u := (s.viewFrom 0).meshTile 0 0 0
    let q : LadleRow := { r with done := 8, riser := 8 }
    (c r).rows.find? (·.row == r.row) = some r ∧ (c r).bad = none
      ∧ pieceLen (0x1500 + 0 * 8 + 0) 0 (dscRowb desc1) = some 8 ∧ r.reads = [] ∧ dscLo desc1 5 = 0x1500
      ∧ ownRead s 0 0x1500 8 = .ok [0, 0, 0, 0, 0, 0, 0, 0]
      ∧ r.places = [(0, buf)] ∧ pieceLen (buf + BitVec.ofNat 64 0).toNat 0 (dscRowb desc1) = some 8 ∧ r.writes = []
      ∧ LadleRow.have r 0 8 = some [1, 2, 3, 4, 5, 6, 7, 8]
      ∧ checkAddr (s.viewFrom 0) .user (buf + BitVec.ofNat 64 0) 8 1 = .ok (.mesh 0 0 0x7FFF8) ∧ u = 0 ∧ s.awake u = true
      ∧ writableAt s u = true
      ∧ rejection s (ladlePacket s 0 (c r) (.store 8 (leVal [1, 2, 3, 4, 5, 6, 7, 8])) (.tile u) 0x7FFF8 buf) u true [(0x7FFF8, 8)] false
        = none
      ∧ dscRowb desc1 ≤ q.done ∧ q.outstanding = [] ∧ q.riser ≠ 0 ∧ ({ q with riser := 0 } : LadleRow).riser = 0
      ∧ riserHome s 0 q.core = some (.tile u) ∧ q.riser < 0x80000
      ∧ rejection s (ladlePacket s 0 (c q) (.rsig 1) (.tile u) q.riser (BitVec.ofNat 64 (q.core.toNat / 2 ^ 20 * 2 ^ 20 + q.riser))) u
        true [(q.riser, 8)] false = none := by
  decide +kernel
/-- A COMBINE's record beyond the table and not valid; the gate and the place of a valid one; its row read; rows
written, whole and in part. -/
theorem witness_LadleSteps_combine :
    let buf : Dword := 0x100000000007FFF8
    let c (r : List LadleRow) (d : List Dword := desc1) : LadleCmd := { lrun 2 d with rows := r }
    let r : LadleRow := { row := 0, recs := [(0, 0x80000000)] }
    let s := ladle [c [r]] [expert 0 0 0x100000000007FFF8 0]
    (0 < dscNtok desc1 ∧ 0 < dscK desc1 ∧ 0 ∉ (c []).moved ∧ ownRead s 0 (dscLo desc1 4 + 4 * (0 * dscK desc1 + 0)) 4 = .ok [0, 0, 0, 0]
      ∧ ¬leVal [0, 0, 0, 0] / 2 ^ 31 % 2 = 1 ∧ leVal [1, 0, 0, 0x80] / 2 ^ 31 % 2 = 1 ∧ dscE desc1 ≤ leVal [1, 0, 0, 0x80] % 256
      ∧ ownRead (ladle [c []] [(0x1300, [1, 0, 0, 0x80])]) 0 0x1300 4 = .ok [1, 0, 0, 0x80])
    ∧ ((c [r]).rows.find? (·.row == r.row) = some r ∧ LadleRow.valid r 0 = some 0x80000000 ∧ r.gates = [] ∧ r.places = []
      ∧ ownRead s 0 (dscHi desc1 3 + 4 * (0 * dscK desc1 + 0)) 4 = .ok [0, 0, 0, 0] ∧ outputRow s 0 desc1 0x80000000 = .ok buf)
    ∧ (let q : LadleRow := { r with places := [(0, buf)] };
      let len := dscNel desc1 * fmtSize (dscRfmt desc1);
      q.places.find? (·.1 == 0 / len) = some (0 / len, buf) ∧ len = 4
        ∧ pieceLen (buf + BitVec.ofNat 64 (0 % len)).toNat (0 % len) len = some 4 ∧ q.reads = []
        ∧ checkAddr (s.viewFrom 0) .user (buf + BitVec.ofNat 64 (0 % len)) 4 1 = .ok (.mesh 0 0 0x7FFF8)
        ∧ (s.viewFrom 0).meshTile 0 0 0 = 0 ∧ s.awake 0 = true ∧ s.markedIn (tileKey 0 0x7FFF8) 4 = false
        ∧ rejection s (ladlePacket s 0 (c [q]) (.load 4) (.tile 0) 0x7FFF8 (buf + BitVec.ofNat 64 (0 % len))) 0 false [(0x7FFF8, 4)] false
          = none)
    ∧ (∀ nel ∈ [1, 17],
      let d := desc1.set 2 (BitVec.ofNat 64 (nel * 2 ^ 48 + 1))
      let q : LadleRow := { row := 0, recs := [(0, 0)] }
      let c := c [q] d
      let s := ladle [c] [] d
      let n := if nel = 1 then 4 else 64
      combineSources c q = some [] ∧ outBytes d = 4 * nel ∧ pieceLen (0x1400 + 0 * outBytes d + 0) 0 (outBytes d) = some n
        ∧ q.writes = [] ∧ 0x1400 + n ≤ 0x80000 ∧ dscHi d 5 = 0x1400 ∧ writableAt s 0 = true
        ∧ rejection s { ladlePacket s 0 c (.store n 0) (.tile 0) 0x1400 (BitVec.ofNat 64 0x1400) with absolute := true, xn := LadleRow.marked c q 0 n } 0 true
          [(0x1400, n)] false = none) := by
  decide +kernel
/-- Commands that end, with and without a completion riser; a RESET whose gate is reached, alone and with a member that
has joined the round in progress, has not yet joined it, or has its result. -/
theorem witness_LadleSteps_ends :
    (∀ w0 ∈ [0x2000000000000000, 0x2000000000010000],
      let c : LadleCmd := { lrun 2 with w0 := BitVec.ofNat 64 w0, moved := [0] }
      c.started = true ∧ LadleCmd.allBack c = true ∧ LadleCmd.moved_all c = true ∧ c.bad = none
        ∧ (wCriser c.w0 = 0 ↔ w0 = 0x2000000000000000) ∧ writableAt (ladle [c] []) 0 = true)
    ∧ (let c := lrun 3;
      let s := ladle [c] [];
      bits c.w0 60 4 = 3 ∧ c.gate = 1 ∧ (s.tile 0).halted = false ∧ c.desc ≠ [] ∧ wCriser c.w0 = 0 ∧ dscMembers s 0 c.desc = [0]
        ∧ s.rounds = [])
    ∧ (let d := desc1.set 0 0x100000;
      let c := lrun 3 d;
      let k : LadleCmd := { lrun 0 d with joined := true };
      let s := ladle [c] [] d;
      let r : Round := { pid := 5, rect := [0, 0, 1, 2], n := 1, members := [{ tile := 1, same := [], counts := [] }] };
      let u := { s with tiles := s.tiles ++ [(1, { router := 0x100001, core := { core1 with gx := 1 }, ladle := { queue := [k] } })], rounds := [r] };
      dscMembers u 0 d = [0, 1] ∧ u.inFrame 1 = true ∧ r.pid = (u.tile 0).core.pid ∧ r.rect = dscRect d
        ∧ (u.tile 1).ladle.queue = [k] ∧ r.members.any (·.tile == 1) = true ∧ 1 ∉ r.taken ∧ k.joined = true ∧ k.finished = false
        ∧ k.bad = none ∧ ({ r with members := [] } : Round).members.any (·.tile == 1) = false) := by
  decide +kernel
/-- Commands that have failed, with and without a completion riser; and a SCATTER that owes riser 8 of the core at (0,
1) a row. -/
theorem witness_LadleSteps_failed :
    (∀ w0 ∈ [0x2000000000000000, 0x2000000000010000], ∀ written ∈ [false, true],
      let c : LadleCmd := { lrun 2 with w0 := BitVec.ofNat 64 w0, bad := some 4, lfail := written }
      let s := ladle [c] []
      s.inFrame 0 = true ∧ (s.tile 0).ladle.queue = c :: [] ∧ c.started = true ∧ LadleCmd.allBack c = true ∧ c.bad = some 4
        ∧ wDesc c.w1 % 128 = 0 ∧ writableAt s 0 = true ∧ bits c.w0 60 4 ≠ 1 ∧ c.lfail = written
        ∧ (wCriser c.w0 = 0 ↔ w0 = 0x2000000000000000))
    ∧ (let c : LadleCmd := { lrun 1 with table := some [0x80000000], bad := some 2, lfail := true };
      let buf : Dword := 0x100000000017FFF8;
      let s := ladle [c] [expert 0x100000000017FFF8 1 0 0];
      let u := { s with tiles := s.tiles ++ [(1, { router := 0x100001, core := { core1 with gx := 1 } })] };
      bits c.w0 60 4 = 1 ∧ wCriser c.w0 = 0 ∧ c.desc ≠ [] ∧ c.table = some [0x80000000] ∧ 0x80000000 / 2 ^ 31 % 2 = 1
        ∧ 0x80000000 % 256 < dscE c.desc ∧ 0 ∉ c.stepped ∧ rowTarget u 0 c.desc 0x80000000 = .ok (buf, 8, 0) ∧ (8 : Nat) < 0x80000
        ∧ bits buf 60 4 ≠ 2 ∧ riserHome u 0 buf = some (.tile 1) ∧ u.awake 1 = true ∧ writableAt u 1 = true
        ∧ rejection u (ladlePacket u 0 c (.rpoison 4) (.tile 1) 8 (BitVec.ofNat 64 (buf.toNat / 2 ^ 20 * 2 ^ 20 + 8))) 1 true [(8, 8)] false
          = none) := by
  decide +kernel

/-- Tile 0 with the matrix entry e queued, or with the array in a state. -/
def queued (e : MEntry) : State := one (user []) { tile1 with matrix := { queue := [e] } }
/-- Gates reached, not reached and poisoned; a block to fetch; entries that hold all they read; the ends of the ramps. -/
theorem witness_MatrixSteps :
    (let e : MEntry := { stage := .gate, gateTgt := 3, evals := [2, 3, 0x8000000000000000] };
      let s := queued e
      s.inFrame 0 = true ∧ (s.tile 0).matrix.queue = [e] ∧ e.stage = .gate ∧ e.evals = 2 :: [3, 0x8000000000000000]
        ∧ (2 : Dword).getLsbD 63 = false ∧ bits (2 : Dword) 0 40 < e.gateTgt ∧ e.gateTgt ≤ bits (3 : Dword) 0 40
        ∧ (0x8000000000000000 : Dword).getLsbD 63 = true)
    ∧ (let e : MEntry := { op := .mld, stage := .fetch };
      MEntry.isMst e = false ∧ memNat 0 (MEntry.toFetch e) = true)
    ∧ (let e : MEntry := { op := .mzero, stage := .fetch };
      MEntry.fetchedAll e = true)
    ∧ (let e : MEntry := { op := .mld, stage := .fetch, blocks := [0] };
      MEntry.fetchedAll e = true ∧ e.op = .mld)
    ∧ (let e : MEntry := { op := .mmaBf, stage := .compute, began := some 0 };
      let s := one (user []) { tile1 with matrix := { queue := [e] }, cycle := 15 };
      MEntry.isMma e = true ∧ e.began = some 0 ∧ 0 + 16 ≤ (s.tile 0).cycle + 1)
    ∧ (let e : MEntry := { op := .mstF32, stage := .fetch };
      let s := queued e;
      MEntry.isMst e = true ∧ e.out = none ∧ (s.tile 0).cycle % 16 < (s.island (islandOf 0)).throttle
        ∧ ¬15 % 16 < ({ throttle := 15 } : Island).throttle)
    ∧ (let e : MEntry := { op := .mstF32, stage := .fetch, out := some ([[(0x7FFFF, 1)], [(0x800, 2)]], true) };
      let s := queued e;
      e.out = some ([(0x7FFFF, 1)] :: [[(0x800, 2)]], true) ∧ (s.tile 0).core.jmtrace.getLsbD 63 = false ∧ (s.tile 0).delayed = []
        ∧ ∀ i, ((s.tile 0).th i).holdEnd = none)
    ∧ (let x : Tile := { tile1 with matrix := { power := .rampUp }, cycle := 23 };
      x.matrix.power = .rampUp ∧ x.matrix.since + 24 ≤ x.cycle + 1)
    ∧ (let x : Tile := { tile1 with matrix := { power := .rampDown, gaps := 4096 }, cycle := 23 };
      x.matrix.power = .rampDown ∧ x.matrix.since + 24 ≤ x.cycle + 1 ∧ Matrix.mmaReady x.matrix = false ∧ 4096 ≤ x.matrix.gaps) := by
  decide +kernel
/-- A router locked, one whose word enables it on a sound and on a fused tile, and one left in transit; a slot used and
empty. -/
theorem witness_RegisterWrites :
    let w (v : Dword) : Dword := v &&& 0x8FFFFF003FF00003
    ({ tile1 with router := 0x8000000000000001 } : Tile).router.getLsbD 63 = true
    ∧ (tile1.router.getLsbD 63 = false ∧ bits (w 1) 0 2 = 1 ∧ tile1.fused = false)
    ∧ (bits (w 0) 0 2 ≠ 1 ∧ bits (w 0) 0 2 ≠ 2 ∧ bits (w 2) 0 2 = 2 ∧ ({ tile1 with fused := true } : Tile).fused = true)
    ∧ (one (user [])).inFrame 0 = true ∧ ((one (user [])).th 0 0).st ≠ .empty ∧ ((one (user [])).th 0 1).st = .empty
    ∧ 0 < (one (user [])).packages ∧ (one (user [])).bootRom = false := by
  decide

/-- A module of one tile, cold and ready, with the partitions ps, and the mailbox's arguments. -/
def cold (x : Tile) (ps : List Part) (args : List Dword) : State :=
  { tiles := [(0, x)], widths := [124, 124], cryo := { st := .coldReady, band := 0 }, parts := ps
    mem := Memory.write [] (windowKey 0 8) (args.flatMap fun w => leBytes 8 w.toNat) }
/-- Words of HBM from a physical address. -/
def withHbm (s : State) (l : List (Nat × List Dword)) : State :=
  { s with mem := l.foldl (fun m p => Memory.write m (s.paKey p.1) (p.2.flatMap fun w => leBytes 8 w.toNat)) s.mem }
/-- An RCB of one core at (0, 0) with its image at 0x200. -/
def rcb1 : List Dword := [0, 0x801, 0, 0, 0, 0, 0, 0, 0, 0, 0, 0, 0, 0x200]
/-- The header of an image of 4 code bytes at scratchpad offset 0, with one slot, one entry and its CRC. -/
def image1 : List Dword :=
  [0x010000014D494B4C, 0x400000100, 0, 0, 0, 0x10100000000, 0, 1] ++ List.replicate 22 0 ++ [0x104, 0xAA0D02BD]
/-- The module whose next OPEN takes that RCB, and the bytes that the CRC of its image covers, by words. -/
def opening (i : List (Nat × Island) := []) : State :=
  { withHbm (cold { router := 1 } [] [0x100]) [(0x100, rcb1), (0x200, image1)] with islands := i }
def covered : List (List Byte) := (image1.take 31).map fun w => leBytes 8 w.toNat
/-- CRC-32 after a word of bytes. -/
def crcWord (c : Word) (b : List Byte) : Word := b.foldl crcByte c

/-- A partition of one core with its RCB at 0x100. -/
def part1 : Part := { pid := 5, rcb := 0x100, height := 1, width := 1, jobid := 9 }
/-- A tile of it. -/
def tile5 : Tile := { router := 1, core := { jmpart0 := 0x801, jmpart1 := 0x0005000000001003, jobid := 9 } }

theorem witness_PartitionsOpenAndClose_open :
    MailReady (cold {} [] []) 0
    ∧ openArgsBad (cold {} [] [1]) 0 = true
    ∧ (let s := cold {} [] [0x100]; openArgsBad s 0 = false ∧ (openCheck s 0).toOption.isNone = true) := by
  simp only [MailReady]
  decide +kernel
theorem covered_crc : ~~~(covered.foldl crcWord 0xFFFFFFFF#32) = 0xAA0D02BD := by
  have split : covered = covered.take 8 ++ ((covered.drop 8).take 8 ++ ((covered.drop 16).take 8 ++ covered.drop 24)) := by
    decide +kernel
  rw [split, List.foldl_append, List.foldl_append, List.foldl_append,
    show (covered.take 8).foldl crcWord 0xFFFFFFFF#32 = 0x898F60B1 by decide +kernel,
    show ((covered.drop 8).take 8).foldl crcWord 0x898F60B1 = 0x9F0BF287 by decide +kernel,
    show ((covered.drop 16).take 8).foldl crcWord 0x9F0BF287 = 0x83F05E11 by decide +kernel,
    show (covered.drop 24).foldl crcWord 0x83F05E11 = 0x55F2FD42 by decide +kernel]
  decide
theorem crc32_words (l : List (List Byte)) : crc32 l.flatten = ~~~(l.foldl crcWord 0xFFFFFFFF#32) := by
  unfold crc32
  congr 1
  generalize (0xFFFFFFFF#32) = c
  induction l generalizing c with
  | nil => rfl
  | cons b l ih => rw [List.flatten_cons, List.foldl_append, ih]; rfl
theorem opening_crc (i : List (Nat × Island)) (a : Nat) (h : a = 0x200) : crc32 ((opening i).paBytes a 0xF8) = 0xAA0D02BD := by
  subst h
  rw [show (opening i).paBytes 0x200 0xF8 = opening.paBytes 0x200 0xF8 from rfl,
    show opening.paBytes 0x200 0xF8 = covered.flatten by decide +kernel, crc32_words, covered_crc]
/-- The OPEN is served, with its island running and with it asleep. -/
theorem witness_PartitionsOpenAndClose_opens :
    ∀ asleep ∈ [[], [(islandOf 0, ({ pstate := 1 } : Island))]],
      openArgsBad (opening asleep) 0 = false
        ∧ ((openCheck (opening asleep) 0).toOption.any fun p =>
          allAwake (opening asleep) (rectTiles (opening asleep) p.1.orgY p.1.orgX p.1.height p.1.width) == asleep.isEmpty) = true := by
  intro asleep h
  simp only [List.mem_cons, List.not_mem_nil, or_false] at h
  rcases h with rfl | rfl <;> constructor <;> (try simp only [openCheck]) <;> (try rw [opening_crc _ _ (by decide +kernel)]) <;>
    decide +kernel
theorem witness_PartitionsOpenAndClose_close :
    (let s := cold {} [] [0x100]; badRcb s (s.arg 0 0) = false ∧ s.partAt (s.arg 0 0) = none)
    ∧ (let q := { part1 with state := 3 };
      let s := cold {} [q] [0x100]; badRcb s (s.arg 0 0) = false ∧ s.partAt (s.arg 0 0) = some q ∧ q.state = 3 ∧ q.holds = true)
    ∧ (let s := cold tile5 [part1] [0x100];
      badRcb s (s.arg 0 0) = false ∧ s.partAt (s.arg 0 0) = some part1 ∧ part1.state ≠ 3 ∧ part1.holds = false
        ∧ (s.openFamily part1.pid).any (·.save == 0) = true)
    ∧ (let q := { part1 with save := 0x1000 };
      let s := cold tile5 [q] [0x100];
      badRcb s (s.arg 0 0) = false ∧ s.partAt (s.arg 0 0) = some q ∧ q.holds = false
        ∧ (s.openFamily q.pid).any (·.save == 0) = false) := by
  decide +kernel
theorem witness_PartitionsOpenAndClose_resume :
    (let s := cold {} [] [0x100];
      badRcb s (s.arg 0 0) = false ∧ bits (s.arg 0 1) 20 44 = 0 ∧ (resumeCheck s 0).toOption.isNone = true)
    ∧ (let q := { part1 with state := 2 };
      let c : SavedCore := { jcodewin := 7 };
      let s := { cold tile5 [q] [0x100] with saves := [(5, [c])] };
      badRcb s (s.arg 0 0) = false ∧ bits (s.arg 0 1) 20 44 = 0
        ∧ ((resumeCheck s 0).toOption.any fun q =>
          allAwake s (rectTiles s q.orgY q.orgX q.height q.width) && s.core (q.orgY + c.y) (q.orgX + c.x) == some 0) = true
        ∧ Assoc.get [] s.saves q.pid = [c] ∧ c.y < q.height ∧ c.x < q.width ∧ s.inFrame 0 = true ∧ q.save % 8 = 0
        ∧ Memory.wf s.mem = true ∧ Assoc.rising s.tiles = true ∧ ((Assoc.get [] s.saves q.pid).map fun c => (c.y, c.x)).Nodup
        ∧ (let u := { s with islands := [(islandOf 0, { pstate := 1 })] };
          (resumeCheck u 0).toOption.any fun q => !allAwake u (rectTiles u q.orgY q.orgX q.height q.width)) = true)
    ∧ (∀ v ∈ [0, 2 ^ 63],
      bits (({ mem := Memory.write [] (({} : State).paKey 0x81000) (leBytes 8 v) } : State).paRead (0x1000 + 0x80000)) 63 1 = v / 2 ^ 63) := by
  decide +kernel

/-- The request of number 5 in service for a partition. -/
def serving (x : Tile) (q : Part) : State :=
  { cold x [q] [] with packs := [(0, { mail := { done := false, serving := some 5, req := 0x0203000000000000 } })] }
/-- A closed partition inside an open one, and one that lies in none. -/
theorem witness_PartitionsDrain_close :
    let parent : Part := { pid := 4, rcb := 0x900, height := 1, width := 1 }
    let ends (q : Part) (ps : List Part) (shut : Bool := true) (busy : Bool := false) : Prop :=
      let ladle : Ladle := { queue := if busy then [{}] else [] }
      let s := { serving { tile5 with sealed := shut, ladle := ladle } q with parts := q :: ps }
      let fam := s.family 5
      let ts := fam.flatMap s.tilesOf
      let rest := s.parts.filter fun p => !memNat p.pid (fam.map (·.pid))
      (s.parts.find? (·.pid == 5) = some q ∧ (∀ p ∈ s.parts, p.pid = 5 → p = q) ∧ 0 < s.packages
      ∧ (s.pack 0).mail.serving = some 5 ∧ q.state = 3)
      ∧ (s.parts.any fun p => q.parent != 0 && p.rcb == q.parent && p.state == 3) = false
      ∧ ts = [0] ∧ rest = ps
      ∧ (ts.all fun t => (s.tile t).drained && (upTo 8).all (s.tile t).isEmpty && enginesIdle s t && (s.tile t).sealed) = shut
      ∧ netDrained s ts = true ∧ noneInward s ts = true ∧ (ts.any fun t => (s.tile t).queued) = busy
      ∧ (ts.any fun t => !(s.tile t).sealed) = !shut ∧ ts.Nodup ∧ s.inFrame 0 = true ∧ Memory.wf s.mem = true
      ∧ Assoc.rising s.tiles = true
    ends { part1 with state := 3, parent := 0x900 } [parent] ∧ ends { part1 with state := 3 } []
      ∧ ends { part1 with state := 3 } [] false ∧ ends { part1 with state := 3 } [] true true
      ∧ tile5.core.gy = 0 ∧ tile5.core.gx = 0 ∧ parent.orgY ≤ 0 ∧ 0 < parent.orgY + parent.height ∧ parent.orgX ≤ 0
      ∧ 0 < parent.orgX + parent.width ∧ parent.state ≠ 2 ∧ ∀ c ∈ [parent], c.parent ≠ 0 → c.parent ≠ parent.rcb := by
  refine ⟨?_, ?_, ?_, ?_, ?_⟩ <;> decide +kernel
theorem witness_PartitionsDrain_suspend :
    let q := { part1 with stopping := some 0, save := 0x1000 }
    ∀ shut : Bool,
    let s := serving { tile5 with sealed := shut } q
    let stopping := (s.family 5).filter (·.stopping.isSome)
    let ts := stopping.flatMap s.tilesOf
    s.parts.find? (·.pid == 5) = some q ∧ (∀ p ∈ s.parts, p.pid = 5 → p = q) ∧ q.stopping.isSome = true
      ∧ (s.parts.any fun p => q.parent != 0 && p.rcb == q.parent && p.stopping.isSome) = false ∧ ts = [0]
      ∧ (ts.all fun t => (s.tile t).drained && (s.tile t).isEmpty 6 && (s.tile t).isEmpty 7 && (s.tile t).atBoundary
        && (s.tile t).threads.toList.all (fun h => h.intervals.isEmpty) && (s.tile t).sealed && ((s.tile t).chans[3]).stall.isNone
        && enginesIdle s t && matrixSettled (s.tile t)) = shut
      ∧ (ts.any fun t => !(s.tile t).sealed) = !shut
      ∧ threadsDrained s ts = true ∧ netDrained s ts = true ∧ stopping = [q] ∧ q.save % 4096 = 0
      ∧ q.save + saveSize q.height q.width ≤ s.hbmEnd ∧ q.rcb % 256 = 0 ∧ q.rcb + 256 ≤ q.save ∧ s.inFrame 0 = true
      ∧ (s.tile 0).inbox.length ≤ 32 ∧ s.partCores q = [(0, 0, 0)] := by
  decide +kernel
/-- The bound of a suspension passed; a quiet sample that is not, one that is, and the one that declares a stall. -/
theorem witness_PartitionsDrain_samples :
    (let q := { part1 with stopping := some 0 };
      let s := { serving tile5 q with tick := 62501 };
      q.stopping = some 0 ∧ 0 + 62500 < s.tick ∧ q ∈ s.parts ∧ q.state = 1)
    ∧ (let s := { serving tile5 part1 with tick := 1024 };
      part1.opened < s.tick ∧ (s.tick - part1.opened) % 1024 = 0 ∧ part1.state = 1 ∧ s.tick < { part1 with busy := 1 }.busy + 1024)
    ∧ (let q := part1;
      let s := { serving tile5 q with tick := 2048 };
      let jmstall := (s.tile 0).core.jmstall;
      q.busy + 1024 ≤ s.tick ∧ (s.partCores q).map (·.2.2) = [0]
        ∧ (jmstall.getLsbD 63 && !q.declared && decide ((bits jmstall 0 32 + 1023) / 1024 ≤ q.quietRun + 1)) = false)
    ∧ (let q := part1;
      let s := { serving { tile5 with core := { tile5.core with jmstall := 0x8000000000000400 } } q with tick := 2048 };
      let jmstall := (s.tile 0).core.jmstall;
      (s.tick - q.opened) % 1024 = 0 ∧ q.busy + 1024 ≤ s.tick ∧ q.report = 0 ∧ 0x40 % 64 = 0 ∧ 0x40 + 0x1040 ≤ s.hbmEnd ∧ (s.partCores q).map (·.2.2) = [0]
        ∧ (jmstall.getLsbD 63 && !q.declared && decide ((bits jmstall 0 32 + 1023) / 1024 ≤ q.quietRun + 1)) = true) := by
  decide +kernel

/-- The mailbox with nothing in service, and each request's arguments. -/
theorem witness_MailboxServes_inval :
    (let s := cold tile5 [] [0, 1, 1]; MailReady s 0 ∧ invalBad s 0 = false)
    ∧ (let s := { cold tile5 [] [] with
        invals := [(0, 3, 1, 2)], packs := [(0, { mail := { done := false, req := 0x0507000000000000 } })] };
      s.invals.find? (·.1 == 0) = some (0, 3, 1, 2) ∧ 7 = bits (s.pack 0).mail.req 48 8 ∧ translatedOut s 3 1 2 = false) := by
  simp only [MailReady]
  decide +kernel
/-- A free first entry, no free entry, and an entry to remove. -/
theorem witness_MailboxServes_hriser :
    (let s := cold tile5 [part1] [0x100, 8, 2, 1];
      MailReady s 0 ∧ hriserBad s 0 = false ∧ s.partAt (s.arg 0 0) = some part1 ∧ part1.state = 1 ∧ hriserCore s 0 part1 = some 0
        ∧ (s.arg 0 3).getLsbD 0 = true
        ∧ (∀ j : Fin 4, (s.tile 0).hriser[j] ≠ 0x8000000200000001) ∧ (!((s.tile 0).hriser[(0 : Fin 4)]).getLsbD 63) = true)
    ∧ (let s := cold { tile5 with hriser := Vector.replicate 4 0x8000000300000001 } [part1] [0x100, 8, 2, 1];
      hriserBad s 0 = false ∧ hriserCore s 0 part1 = some 0
        ∧ ∀ j : Fin 4, (s.tile 0).hriser[j] ≠ 0x8000000200000001 ∧ (!((s.tile 0).hriser[j]).getLsbD 63) = false)
    ∧ (let s := cold { tile5 with hriser := Vector.replicate 4 0x8000000200000001 } [part1] [0x100, 8, 2, 0];
      hriserBad s 0 = false ∧ hriserCore s 0 part1 = some 0 ∧ (s.arg 0 3).getLsbD 0 = false
        ∧ (s.tile 0).hriser[(0 : Fin 4)] = 0x8000000200000001) := by
  simp only [MailReady]
  decide +kernel
theorem witness_MailboxServes_cryo :
    (let s := { cold tile5 [] [1] with cryo := { st := .warmService } };
      0 < s.packages ∧ (s.pack 0).mail.done = true ∧ s.bootRom = false ∧ s.cryo.st = .warmService ∧ s.arg 0 0 = 1)
    ∧ (let s := cold tile5 [] [1]; MailReady s 0 ∧ s.arg 0 0 = 1)
    ∧ (∀ st ∈ [CryoState.calibrate, .coldReady, .excursion],
      let s := { cold tile5 [] [2] with cryo := { st := st } }
      0 < s.packages ∧ (s.pack 0).mail.done = true ∧ s.bootRom = false ∧ s.strap = false
        ∧ s.cryo.st ∈ [CryoState.calibrate, .coldReady, .excursion] ∧ s.arg 0 0 = 2)
    ∧ (let s := cold tile5 [] [3]; MailReady s 0 ∧ s.arg 0 0 = 3 ∧ (s.parts.all fun q => q.state == 2) = true)
    ∧ (let s := cold tile5 [part1] [3]; s.arg 0 0 = 3 ∧ (s.parts.all fun q => q.state == 2) = false)
    ∧ (let s := cold tile5 [] [0x40]; MailReady s 0 ∧ (s.arg 0 0).toNat % 64 = 0) := by
  simp only [MailReady]
  decide +kernel
theorem witness_MailboxServes_submission :
    (let s := { one (user []) with bootRom := true, cryo := { st := .warmService } };
      s.cryo.st ≠ .warmOff ∧ s.bootRom = true ∧ (s.pack 0).mail.done = true)
    ∧ bits (0x0905000000000000 : Dword) 48 8 = 5 ∧ bits (0x0905000000000000 : Dword) 56 8 = 9
    ∧ bits (0x0B05000000000000 : Dword) 48 8 = 5 ∧ 10 < bits (0x0B05000000000000 : Dword) 56 8
    ∧ (cold tile5 [] [1]).arg 0 0 = 1 ∧ (cold tile5 [] [2]).arg 0 0 = 2 ∧ bits (0x0705000000000000 : Dword) 56 8 = 7 := by
  decide +kernel

/-- A partition with export index 0, and a module with its one core and the routers of its row, by which the host port
reaches it wherever on that edge the port lies. -/
def outward : Part := { part1 with eidx := some 0 }
def hosted (x : Tile := tile5) : State :=
  { cold x [outward] [] with tiles := (0, x) :: (upTo 127).map fun i => (i + 1, { router := 2 }) }
/-- A request of the host port, at its home. -/
def hostAsks (op : Op) (off : Nat) : Packet :=
  { op := op, org := { party := .host, tile := cornerTile 0, pid := 5 }, off := off, addr := BitVec.ofNat 64 off }
def arriving (p : Packet) (x : Tile := tile5) : State := { hosted x with net := [p] }
theorem arriving_tile (p : Packet) (x : Tile) : (arriving p x).tile 0 = x := by simp [arriving, hosted, State.tile, Assoc.get]
theorem arriving_reached (op : Op) (off : Nat) (x : Tile) (hx : (x.tstate != 0) = true) :
    reached (arriving (hostAsks op off) x) (hostAsks op off) 0 = true := by
  have row : ∀ t < 128, t ≠ 0 → (((hosted).tile t).tstate != 0) = true := by decide +kernel
  have way : ∀ n < 128, (route (tileAt 0 n 127) 0).all (fun t => decide (t < 128)) = true := by decide +kernel
  have h := way (Config.hostColumn 0 % 128) (Nat.mod_lt _ (by decide))
  have frame : (arriving (hostAsks op off) x).inFrame 0 = true := by
    simp [State.inFrame, State.side, arriving, hosted, cold, pyOf, pxOf]
  have entry : entryTile (hostAsks op off) = tileAt 0 (Config.hostColumn 0 % 128) 127 := by
    simp [entryTile, hostAsks, hostTile, show pkgOf (cornerTile 0) = 0 by decide]
  simp only [reached, frame, entry, Bool.true_and, configured, List.all_eq_true, decide_eq_true_eq] at h ⊢
  intro t ht
  by_cases z : t = 0
  · rw [z, arriving_tile]; exact hx
  · have same : (arriving (hostAsks op off) x).tile t = (hosted).tile t := by
      show Assoc.get {} ((0, x) :: _) t = Assoc.get {} ((0, tile5) :: _) t
      simp only [Assoc.get, if_neg (Ne.symm z)]
    rw [same]
    exact row t (h t ht) z
theorem arriving_admitted (op : Op) (n : Nat) (write : Bool) (h : 0x7FFF8 + n ≤ 0x80000) :
    rejection (arriving (hostAsks op 0x7FFF8)) (hostAsks op 0x7FFF8) 0 write [(0x7FFF8, n)] false = none := by
  have past : ¬(mramBase < 0x7FFF8 + n) := by unfold mramBase; omega
  have open_ : descends (arriving (hostAsks op 0x7FFF8)) ((arriving (hostAsks op 0x7FFF8)).parts.length + 1)
      tile5.portCore.pid (hostAsks op 0x7FFF8).org.pid = true := by
    simp only [arriving, hosted, cold, descends]; exact Bool.or_eq_true_iff.mpr (.inl rfl)
  have on : tile5.enabled = true := by decide
  have free : tile5.portCore.hold = false := by decide
  have noWindow : tile5.portCore.winHi = 0 := by decide
  simp only [rejection, arriving_reached op 0x7FFF8 tile5 (by decide), arriving_tile, open_, on, free, noWindow]
  simp [past, hostAsks]
theorem witness_HostAndFabric_reads :
    let s := hosted
    0 < s.packages ∧ 0x7FFF8 < 2 ^ 44 ∧ 2 ^ 19 / 2 ^ 19 % 2 = 1 ∧ wordShape (3 % 2 ^ 19) 2 = false
      ∧ meshTarget s (2 ^ 20) = none ∧ 0x7FFF8 / 2 ^ 19 % 2 = 0 ∧ meshTarget s 0x7FFF8 = some (outward, 0)
      ∧ wordShape (0x7FFF8 % 2 ^ 19) 8 = true := by
  decide +kernel
theorem witness_HostAndFabric_writes :
    let s := hosted
    let data : List Byte := [1, 2, 3]
    data ≠ [] ∧ blocksOf 5 3 = [(0, 3)] ∧ 5 % 2 ^ 19 + 3 ≤ 2 ^ 19 ∧ 5 / 2 ^ 19 % 2 = 0 ∧ meshTarget s 5 = some (outward, 0)
      ∧ blocksOf (2 ^ 20) 3 = [(0, 3)] ∧ 2 ^ 20 / 2 ^ 19 % 2 = 0 ∧ 2 ^ 20 % 2 ^ 19 + 3 ≤ 2 ^ 19 ∧ meshTarget s (2 ^ 20) = none := by
  decide +kernel
theorem witness_HostAndFabric_signals :
    let s := hosted
    2 ^ 19 / 2 ^ 19 % 2 = 1 ∧ 2 ^ 19 % 2 ^ 19 = 0 ∧ (leBytes 64 0).length = 64 ∧ meshTarget s (2 ^ 19) = some (outward, 0)
      ∧ (2 ^ 19 + 0x40) % 2 ^ 19 = 0x40 ∧ meshTarget s (2 ^ 19 + 0x40) = some (outward, 0) ∧ (leBytes 8 0x10008).length = 8
      ∧ (leBytes 63 0).length ≠ 64 ∧ (leBytes 7 0).length ≠ 8 ∧ meshTarget s (2 ^ 20 + 2 ^ 19) = none := by
  decide +kernel
/-- The port's requests at the last place of the core, performed; and, in another partition's core, not. -/
theorem witness_HostAndFabric_performed :
    (∀ op ∈ [Op.load 8, .store 8 1, .rsig 1],
      let p := hostAsks op 0x7FFF8
      let s := arriving p
      Arrives s p 0 ∧ p.org.party = .host ∧ p.org.fab = false ∧ p.off < 0x80000 ∧ (s.tile 0).core.jmtrace.getLsbD 63 = false
        ∧ (s.tile 0).delayed = [] ∧ rejection s p 0 false [(p.off, 8)] false = none ∧ rejection s p 0 true [(p.off, 8)] false = none
        ∧ (s.tile 0).held 0 (writerOf p 0 3) p.off 8 = false ∧ (s.tile 0).held 0 (writerOf p 2 3) p.off 8 = false)
    ∧ (let p := hostAsks (.load 8) 0x7FFF8;
      let s := arriving p { tile5 with core := { tile5.core with jmpart1 := 0x0006000000001003 } };
      rejection s p 0 false [(p.off, 8)] false = some 1) := by
  constructor
  · intro op h
    refine ⟨?_, rfl, rfl, ?_, ?_, ?_, arriving_admitted _ _ _ (Nat.le_refl _), arriving_admitted _ _ _ (Nat.le_refl _), ?_, ?_⟩
    all_goals
      simp only [List.mem_cons, List.not_mem_nil, or_false] at h
      rcases h with rfl | rfl | rfl <;> (try simp only [Arrives]) <;> decide +kernel
  · have e := arriving_reached (.load 8) 0x7FFF8 { tile5 with core := { tile5.core with jmpart1 := 0x0006000000001003 } } (by decide)
    simp only [rejection, e]
    decide +kernel
theorem witness_HostAndFabric_links :
    (let s := hosted;
      0 / s.hbmEnd < 3 ∧ wordShape 0 8 = true ∧ blocksOf 0 8 = [(0, 8)] ∧ (0 + 8 - 1) / s.hbmEnd = 0 / s.hbmEnd)
    ∧ (∀ n ∈ [7, 8],
      let s := { one (user []) with links := [(0, { replays := n })] }
      0 < 4 * s.packages ∧ (s.link 0).failed = none ∧ 0 = (s.link 0).expect ∧ (s.link 0).replays = n ∧ s.parts = [])
    ∧ (∀ ack ∈ [4, 6], ∀ n ∈ [7, 8],
      let flit (k : Nat) : Flit := (⟨k, 0, false, 8⟩, [])
      let l : Link := { next := 6, buffer := [flit 4, flit 5], resent := n }
      let unsent := l.buffer.filter (ack ≤ ·.1.seq)
      (unsent = [] ↔ ack = 6) ∧ (unsent.length = l.buffer.length ↔ ack = 4) ∧ l.resent = n)
    ∧ isReply (.complete) = true := by
  decide +kernel
/-- A fabric store, a check, a load that its partition's table leads to a core, and one of no job here; a request that
lost its path. -/
theorem witness_HostAndFabric_fabric :
    let m (op : Op) : Packet := { op := op, home := .module 0 0 0, org := { job := 9 } }
    let q (op : Op) : Packet := { m op with id := 0, extId := (m op).id, port := 0, org := { (m op).org with fab := true } }
    let s := cold tile5 [{ part1 with table := [0, 1] }] []
    isReply (m (.store 8 0)).op = false ∧ fabricStore (q (.store 8 0)) = true ∧ isReply (m (.check 0 1)).op = false
      ∧ fabricStore (q (.load 8)) = false ∧ isReply (m (.load 8)).op = false ∧ (routedIn s (q (.load 8))).isSome = true
      ∧ routedIn (cold tile5 [] []) (q (.load 8)) = none
      ∧ (let e : ReqEntry := { id := 3 };
        let s := { one (user []) { tile1 with reqs := [e] } with links := [(0, { failed := some 0, lost := [(0, 3)] })], tick := 2 ^ 20 };
        (s.link 0).failed = some 0 ∧ 0 + 2 ^ 20 ≤ s.tick ∧ (s.link 0).lost = [(0, 3)]
          ∧ (s.tile 0).reqs.find? (·.id == 3) = some e ∧ e.slot = (0 : Fin 8).val ∧ e.epoch = ((s.tile 0).th 0).epoch
          ∧ ((s.tile 0).th 0).st ≠ .empty ∧ e.group = none ∧ e.quiet = false ∧ ((s.tile 0).th 0).pend = []
          ∧ (s.tiles.all fun p => (fabricWaits s p.1).all fun e => e.2.isSome) = true) := by
  decide +kernel

/-- Channel 3 with a translation request out, and stalled on a page. -/
def pooled (c : Channel) (k : Package := {}) : State :=
  { one (user []) { tile1 with chans := (tile1.chans).set 3 c } with packs := [(0, k)] }
theorem witness_PooledTranslations :
    (let s := pooled { ask := some (4, 6) };
      s.inFrame 0 = true ∧ (0, s.tile 0) ∈ s.tiles ∧ ((s.tile 0).chans[3]).ask = some (4, 6) ∧ ((s.tile 0).chans[3]).stall = none
        ∧ s.uio = [])
    ∧ (let s := pooled { stall := some (4, 6) } { paged := [(0, 6)] };
      s.inFrame 0 = true ∧ (0, s.tile 0) ∈ s.tiles ∧ ((s.tile 0).chans[3]).stall = some (4, 6)
        ∧ (s.pack 0).paged.any (· == ((s.tile 0).core.asid, 6)) = true ∧ asidTiles s 0 (s.tile 0).core.asid = [0]) := by
  decide +kernel

/-- An island's registers and a time. -/
def isled (i : Island) (tick : Nat) (x : Tile := tile1) : State :=
  { one (user []) x with islands := [(islandOf 0, i)], tick := tick, cryo := { st := .coldReady, band := 0 } }
theorem witness_HealthAndPower_islands :
    (∀ guard ∈ [75, 78], ∀ margin ∈ [10, 30, 50],
      let s := isled { margins := [margin], guard := guard } 1250000000
      s.cryo.band ≤ 1 ∧ s.tick % 1250000000 = 0 ∧ s.strap = false ∧ s.cryo.st ≠ .warmOff
        ∧ leastOf (s.island (islandOf 0)).margins = margin ∧ (s.tile 0).enabled = true)
    ∧ (let s := isled {} 0; s.tick % 108000000000000 = 0 ∧ s.strap = false ∧ s.cryo.st ≠ .warmOff
      ∧ (s.island (islandOf 0)).daily.length < 89 ∧ islandOf 0 / 256 < s.packages ∧ s.tick % 12500 = 0 ∧ s.tick % 125000 = 0)
    ∧ (let s := { isled {} 1024 with tiles := [(0, tile1)] };
      let ts := islandCores s (islandOf 0);
      ts = [0] ∧ s.parts = [] ∧ islandIdle s ts = true ∧ deepest s (islandOf 0) ts = 2 ∧ (s.island (islandOf 0)).pstate < 2
        ∧ (s.island (islandOf 0)).waking = none ∧ ((upTo s.packages).any fun p => islandOf (cornerTile p) == islandOf 0) = true)
    ∧ (let s := { isled {} 1024 with tiles := [(16, tile1)], islands := [(islandOf 16, { pstate := 2 })] };
      let ts := islandCores s (islandOf 16);
      ts = [16] ∧ islandIdle s ts = true ∧ deepest s (islandOf 16) ts = 3 ∧ (s.island (islandOf 16)).pstate < 3
        ∧ (s.island (islandOf 16)).waking = none ∧ ((upTo s.packages).any fun p => islandOf (cornerTile p) == islandOf 16) = false)
    ∧ (∀ lat ∈ [39, 40, 4000],
      let q := { part1 with hostlat := lat }
      let s := { isled {} 1024 with tiles := [(0, tile1)], parts := [q] }
      let ts := islandCores s (islandOf 0)
      islandIdle s ts = true ∧ (s.parts.filter fun q => ts.any fun t => (s.tile t).core.pid == q.pid) = [q]
        ∧ deepest s (islandOf 0) ts = (if lat = 39 then 0 else if lat = 40 then 1 else 2))
    ∧ waitsHere (tile1.setTh 0 { st := .sleep, sleep := some (.riser 8 1 none 0) }) = true
    ∧ (let s := { isled { pstate := 2 } 0 with net := [{}] };
      (s.island (islandOf 0)).pstate ≠ 0 ∧ (s.island (islandOf 0)).waking = none
        ∧ (islandCores s (islandOf 0)).any (deliveryWaits s) = true)
    ∧ (let s := isled { pstate := 2, waking := some 5000 } 5000;
      (s.island (islandOf 0)).waking = some 5000 ∧ 5000 ≤ s.tick ∧ ∀ p, p < s.packages → (s.pack p).mail.done = true) := by
  decide +kernel
/-- A pseudo-channel's controller on the tile of channel 0; a test that is due on a core of no partition. -/
theorem witness_HealthAndPower_tests :
    (let t := chanTile 0;
      let s : State := { tiles := [(t, { pcPowered := true, scrubPtr := 0x3FFFFFF8 })] };
      s.inFrame t = true ∧ (s.tile t).scrubPtr = 0x3FFFFFF8 ∧ (s.tile t).pcPowered = true)
    ∧ (let x : Tile := { tile1 with transient := [(3, 1)] };
      let s := { one (user []) x with tick := 86400 * 1250000000 + 1 };
      s.inFrame 0 = true ∧ (s.tile 0).enabled = true ∧ s.strap = false ∧ s.inOpen 0 = false
        ∧ (s.tile 0).partTick + 60 * 1250000000 ≤ s.tick ∧ (s.tile 0).tested + 86400 * 1250000000 < s.tick
        ∧ (s.tile 0).core.jcaps.getLsbD 3 = true ∧ Assoc.get 0 (s.tile 0).transient 3 < 2
        ∧ (s.pack (pkgOf 0)).deconf.length < 1023) := by
  decide +kernel

/-! The map of a module whose tiles all work. -/

/-- Every tile's fuse is intact. -/
def Sound (s : State) : Prop := ∀ t, (s.tile t).fused = false
theorem sound_setTile (s : State) (t : Nat) (x : Tile) (h : Sound s) (hx : x.fused = false) : Sound (s.setTile t x) := by
  intro u
  by_cases e : u = t
  · subst e; simpa using hx
  · rw [State.tile_setTile_other s x e]; exact h u
theorem cleared_keeps (s : State) (t : Nat) :
    ((s.clearSpad t).clearHeaders t).tiles = s.tiles ∧ ((s.clearSpad t).clearHeaders t).packs = s.packs
      ∧ ((s.clearSpad t).clearHeaders t).code = s.code := by
  simp only [State.clearHeaders, State.writeB, State.clearSpad, and_self]
theorem sound_fold (l : List Nat) (f : Nat → Tile) (hf : ∀ t, (f t).fused = false) (s : State) (h : Sound s) :
    Sound (l.foldl (fun s t => ((s.clearSpad t).clearHeaders t).setTile t (f t)) s) := by
  induction l generalizing s with
  | nil => exact h
  | cons a l ih =>
    rw [List.foldl_cons]
    refine ih _ (sound_setTile _ _ _ (fun t => ?_) (hf a))
    unfold State.tile
    rw [(cleared_keeps s a).1]
    exact h t
theorem tiles_islands (l : List Nat) (f : Nat → State → Island → Island) (s : State) :
    (l.foldl (fun s i => s.modIsland i (f i s)) s).tiles = s.tiles
      ∧ (l.foldl (fun s i => s.modIsland i (f i s)) s).packs = s.packs
      ∧ (l.foldl (fun s i => s.modIsland i (f i s)) s).code = s.code := by
  induction l generalizing s with
  | nil => exact ⟨rfl, rfl, rfl⟩
  | cons a l ih => exact ih _
theorem packs_fold (l : List Nat) (f : Nat → Tile) (s : State) :
    (l.foldl (fun s t => ((s.clearSpad t).clearHeaders t).setTile t (f t)) s).packs = s.packs
      ∧ (l.foldl (fun s t => ((s.clearSpad t).clearHeaders t).setTile t (f t)) s).code = s.code := by
  induction l generalizing s with
  | nil => exact ⟨rfl, rfl⟩
  | cons a l ih =>
    rw [List.foldl_cons]
    have w := cleared_keeps s a
    exact ⟨(ih _).1.trans w.2.1, (ih _).2.trans w.2.2⟩
theorem hbmCleared_keeps (s : State) :
    s.hbmCleared.tiles = s.tiles ∧ s.hbmCleared.packs = s.packs ∧ s.hbmCleared.code = s.code := by
  unfold State.hbmCleared; split <;> exact ⟨rfl, rfl, rfl⟩
theorem sound_powerUp (s : State) (c : Calibration) (ts : List Nat) (h : s.tiles = []) :
    Sound (s.powerUp c ts) ∧ (s.powerUp c ts).packs = s.packs ∧ (s.powerUp c ts).code = s.code := by
  let island (s : State) (i : Nat) (k : Island) : Island := { k with
    pstate := if s.strap && !ts.any (fun t => islandOf t == i) then 3 else 0, waking := none, throttle := 16, share := 0
    freq := if s.cryo.band = 0 then 1250 else 1000, vdd := s.supply k }
  have isles (l : List Nat) (u : State) := tiles_islands l (fun i s k => island s i k) u
  let f (t : Nat) : Tile := ((s.tile t).coreReset t).ranFor (Config.choice s.free [10, t])
  have cleared := packs_fold ts f
  simp only [State.powerUp]
  refine ⟨?_, ?_, ?_⟩
  · intro t
    unfold State.tile
    erw [(isles _ _).1, (hbmCleared_keeps _).1]
    refine sound_fold ts f (fun t => ?_) _ (fun u => ?_) t
    · simp [f, Tile.coreReset, Tile.ranFor, State.tile, h, Assoc.get]
    · simp [State.tile, h, Assoc.get]
  · erw [(isles _ _).2.1, (hbmCleared_keeps _).2.1, (cleared _).1]
  · erw [(isles _ _).2.2, (hbmCleared_keeps _).2.2, (cleared _).2]
theorem upTo_length (n : Nat) : (upTo n).length = n := by simp [upTo]
theorem fold_min (l : List Nat) (f : Nat → Nat) (n : Nat) (h : ∀ a, n ≤ f a) : l.foldl (fun n a => min n (f a)) n = n := by
  induction l with
  | nil => rfl
  | cons a l ih => rw [List.foldl_cons, Nat.min_eq_left (h a), ih]
theorem cols_sound (s : State) (h : Sound s) (hp : s.packs = []) (hc : s.code = .lk64q) : 64 ≤ s.newMap.2.foldl (· + ·) 0 := by
  have w (t : Nat) : working s t = true := by simp [working, h t, State.pack, hp, Assoc.get]
  have seg (py c : Nat) : (Machine.segment s py c).length = 128 := by
    unfold Machine.segment
    rw [List.filter_eq_self.mpr (fun t _ => w t), List.length_map, upTo_length]
  have col (c : Nat) : columnWidth s c = 124 := by
    unfold columnWidth
    rw [fold_min _ _ _ fun py => by rw [seg]; decide]
    decide
  show 64 ≤ (mapWidths s).foldl (· + ·) 0
  have : mapWidths s = [124, 124] := by
    simp only [mapWidths, State.dieCols, State.side, hc]
    show (upTo 2).map (columnWidth s) = _
    rw [show upTo 2 = [0, 1] by decide]
    simp [col]
  rw [this]
  decide
theorem cols_powerUp (s : State) (c : Calibration) (ts : List Nat) (h : s.tiles = []) (hp : s.packs = [])
    (hc : s.code = .lk64q) : 64 ≤ (State.newMap { s.powerUp c ts with bootRom := false }).2.foldl (· + ·) 0 := by
  have w := sound_powerUp s c ts h
  exact cols_sound _ w.1 (w.2.1.trans hp) (w.2.2.trans hc)
/-- The map of a module with no broken tile has 248 columns, so CALIBRATE goes through. -/
theorem witness_CryoAndBoot_calibrates :
    let s : State := { cryo := { st := .soak } }
    let c : Calibration := {}
    let s1 := { State.powerUp { s with fwResident := false, cryo := { s.cryo with st := .calibrate } } c (allTiles s) with bootRom := false }
    s.cryo.st = .soak ∧ s.tick % 1250000 = 0 ∧ s.cryo.soakEnd ≤ s.tick ∧ c.failStep = 0 ∧ s.strap = false
      ∧ 64 ≤ s1.newMap.2.foldl (· + ·) 0 := by
  exact ⟨rfl, rfl, Nat.le_refl _, rfl, rfl, cols_powerUp _ _ _ rfl rfl rfl⟩
theorem witness_CryoAndBoot :
    State.reset.wf ∧ State.reset.cryo.st = .warmOff
    ∧ (∀ st ∈ [CryoState.warmService, .precool, .cooldown, .soak, .calibrate, .coldReady, .excursion, .warmup],
      let s : State := { cryo := { st := st, rampViol := true }, tick := 1250000 }
      s.cryo.st ≠ .warmOff ∧ s.tick % 1250000 = 0 ∧ s.cryo.recal = none ∧ s.cryo.st = st)
    ∧ (let s : State := { cryo := { st := .soak }, strap := true };
      s.tick % 1250000 = 0 ∧ s.cryo.st = .soak ∧ s.cryo.soakEnd ≤ s.tick ∧ ({ failStep := 1 } : Calibration).failStep = 1
        ∧ s.strap = true)
    ∧ (let x : Sensors := { tmax := 290000, tbath := 0, carrierMin := 290000, carrierMax := 290000 };
      let s : State := { cryo := { st := .precool, last := x }, tick := 3600 * 1250000000 };
      s.tick % 1250000 = 0 ∧ s.cryo.st = .precool ∧ s.cryo.precoolAt + 3600 * 1250000000 ≤ s.tick ∧ 280000 < s.cryo.last.tmax) := by
  unfold State.wf
  decide +kernel
/-- A soak that begins, and samples on both sides of the bounds of the bands; and an accepted RECAL, with the partitions
suspended and with one open. -/
theorem witness_CryoAndBoot_samples :
    (let x : Sensors := { tmax := 80000, hbm := 80000, tbath := 0, carrierMin := 0, carrierMax := 80000 };
      x.islands.foldl (fun m i => max m i.2.1) (max x.hbm x.carrierMax) = 80000 ∧ 80000 ≤ 85000 ∧ (∀ i ∈ x.islands, i.2.1 ≤ 85000)
        ∧ x.hbm ≤ 85000 ∧ x.carrierMax ≤ 85000)
    ∧ (let x : Sensors := { tmax := 0, tbath := 0, carrierMin := 0, carrierMax := 180001 };
      180000 < x.islands.foldl (fun m i => max m i.2.1) (max x.hbm x.carrierMax))
    ∧ (∀ q ∈ [part1, { part1 with state := 2 }],
      let c : Calibration := { failStep := 1 }
      let s : State := { cryo := { st := .coldReady, band := 0, recal := some c }, parts := [q] }
      s.cryo.st = .coldReady ∧ s.tick % 1250000 = 0 ∧ s.cryo.recal = some c ∧ s.cryo.warm = false ∧ s.cryo.band = 0 ∧ c.failStep = 1
        ∧ (s.parts.all fun q => q.state == 2) = (q.state == 2)) := by
  decide
/-- A responder with a task or with nothing to do, and packets received; a router beyond the frame, and a locked one. -/
theorem witness_CryoAndBoot_lattice :
    let doing (l : List LatTask) : State := one (mach []) { tile1 with lattice := some { todo := l } }
    let start (h w : Nat) : List Byte := [4, h, 0, w, 0x40, 0, 0, 0].flatMap fun n => leBytes 8 n
    (let s := doing [.cfg 1 7];
      s.inFrame 0 = true ∧ (s.tile 0).lattice = some { todo := .cfg 1 7 :: [] } ∧ 1 ≠ 0 ∧ rcfgReaches s 0 1 2 = true
        ∧ (s.tile 1).router.getLsbD 63 = false ∧ (s.th 0 0).mode = .machine)
    ∧ (let s := { doing [.cfg 1 7] with deadLinks := [(0, 1)] };
      rcfgReaches s 0 1 2 = false)
    ∧ (let s : State := { tiles := [(0, tile1), (1, { router := 0x8000000000000001 })] };
      (s.tile 1).router.getLsbD 63 = true)
    ∧ (let s := doing [.send (leBytes 64 0) 0];
      (s.tile 0).lattice = some { todo := [.send (leBytes 64 0) 0] } ∧ (0 : Nat) ≠ 1 ∧ receiver s s.side 0 0 0 = none)
    ∧ (let s := { doing [.send (start 2 2) 1] with deadLinks := [(0, 1)] };
      latWord (start 2 2) 0 = 4 ∧ receiver s s.side 0 1 0 = none ∧ latWord (start 2 2) 3 - 1 < ({ w := 2 } : Responder).w
        ∧ ({} : Responder).w ≤ latWord (start 2 2) 3 - 1)
    ∧ (let r : Responder := { todo := [.send (leBytes 64 0) 2] };
      let s : State := { tiles := [(0, { tile1 with lattice := some r }), (1024, tile1)] };
      (s.tile 0).lattice = some r ∧ (2 : Nat) ≠ 1 ∧ (leBytes 64 0).length = 64 ∧ receiver s s.side 0 2 0 = some (1024, 0)
        ∧ freePacket s 1024 = some 0 ∧ 1024 < 2 ^ 40 ∧ s.awake 1024 = true ∧ (s.tile 1024).delayed = []
        ∧ (packetSpans 0).all (fun p => !(s.tile 1024).held 1024 (latWriter s 0 6) p.1 p.2) = true
        ∧ { s with islands := [(islandOf 1024, { pstate := 1 })] }.awake 1024 = false)
    ∧ (let r : Responder := {};
      let s : State := { tiles := [(0, { tile1 with lattice := some r })], mem := Memory.write [] (tileKey 0 0x87F00) (leBytes 8 (2 ^ 63)) };
      (s.tile 0).lattice = some r ∧ r.todo = [] ∧ validPacket s 0 = some 0 ∧ (s.tile 0).delayed = []
        ∧ (s.tile 0).held 0 (latWriter s 0 3) 0x87F00 8 = false) := by
  decide +kernel

theorem witness_DecodeInvertsEncode : wellFormed (.addi 5 1 0xFFF) = true ∧ encodeWord (.addi 5 1 0xFFF) = some 0xFFF08293 := by
  decide
theorem witness_EncodeInvertsDecode : decodeWord 0xFFF08293 = .ok (.addi 5 1 0xFFF) := by decide
theorem witness_StepKeepsForm : State.reset.wf ∧ step State.reset = .next State.reset.nextTick := by
  constructor
  · unfold State.wf; decide
  · rfl
/-- An empty agenda; an event of the agenda; a word that was fetched and is an instruction, and one that is not. -/
theorem witness_StepRunsDecoded :
    State.reset.agenda = []
    ∧ (let s := { one (user []) with agenda := [.islandWake 0] };
      s.agenda = .islandWake 0 :: [] ∧ exec (.islandWake 0) { s with agenda := [] } = .next { s with agenda := [] })
    ∧ (let s := { fetching with agenda := [.issueSelect 0] };
      (match exec (.issueSelect 0) { s with agenda := [] } with
        | .next u => u.latch && decide (decodeWord u.cur.word = .ok (.addi 0 0 0))
        | _ => false) = true)
    ∧ (let s := { fetching with agenda := [.issueSelect 0], mem := [] };
      (match exec (.issueSelect 0) { s with agenda := [] } with
        | .next u => u.latch && decide (decodeWord u.cur.word = .error .compressed)
        | _ => false) = true) := by
  refine ⟨rfl, ⟨rfl, rfl⟩, ?_, ?_⟩ <;> decide +kernel
theorem witness_StepRunsDecoded_issues :
    let s := { fetching with agenda := [.issueSelect 0] }
    let x := s.tile 0
    let h := x.th 0
    s.agenda = .issueSelect 0 :: [] ∧ s.inFrame 0 = true ∧ s.awake 0 = true ∧ x.tstate = 1 ∧ (s.island (islandOf 0)).throttle = 16
      ∧ x.halted = false ∧ x.lattice = none ∧ x.evpend = 0 ∧ x.reqs = [] ∧ x.groups = [] ∧ x.divider = none
      ∧ (∀ j, j ≠ (0 : Fin 8) → (x.th j).st = .empty) ∧ h.st = .ready ∧ h.need = .none ∧ h.pend = [] ∧ h.fwTrap = none
      ∧ h.firmware = false ∧ 0 < h.budget ∧ h.wait = 0 ∧ h.lat = [] ∧ h.vlat = [] ∧ h.acquire = false ∧ h.fbuf = []
      ∧ fetchPlace x.core h = .ok 0 ∧ s.markedIn (tileKey 0 0) 4 = false
      ∧ decodeWord (BitVec.ofNat 32 (s.readN (tileKey 0 0) 4)) = .ok (.addi 0 0 0) := by
  decide +kernel
/-- Traps that the thread's own handler takes, and traps that it does not. -/
theorem witness_TrapEntry :
    let own (s : State) (cause : Nat) (epc : Dword) (int : Bool) : Bool :=
      !int && s.me.mode == .user && decide (s.cur.slot.val < 6) && s.here.core.jmdeleg.getLsbD cause
        && decide (8 ≤ bits s.me.jutvec 2 17) && !s.me.uhold && epc != BitVec.ofNat 64 (4 * bits s.me.jutvec 2 17)
    own (one { user [] with jutvec := 0x40 } { tile1 with core := { core1 with jmdeleg := 0x100 } }) 8 0x80 false = true
      ∧ own (one (user [])) 8 0x80 false = false := by
  decide

/-! ### Decoding: every encoded instruction, from the table's match and fields -/

/-- Each word decodes to its instruction, which is well formed and encodes to the word. -/
def agree (l : List (Word × Instr)) : Bool :=
  l.all fun p => decodeWord p.1 == .ok p.2 && wellFormed p.2 && encodeWord p.2 == some p.1

theorem test_decode_1 : agree [
    (0xA5C312B7, .lui 5 0xa5c31), (0xA5C31297, .auipc 5 0xa5c31), (0x8634B2EF, .jal 5 0xA5C31),
    (0xA5C302E7, .jalr 5 6 0xa5c), (0xCA730C63, .beq 6 7 0xA5C), (0xCA731C63, .bne 6 7 0xA5C),
    (0xCA734C63, .blt 6 7 0xA5C), (0xCA735C63, .bge 6 7 0xA5C), (0xCA736C63, .bltu 6 7 0xA5C),
    (0xCA737C63, .bgeu 6 7 0xA5C), (0xA5C30283, .lb 5 6 0xa5c), (0xA5C31283, .lh 5 6 0xa5c),
    (0xA5C32283, .lw 5 6 0xa5c), (0xA5C33283, .ld 5 6 0xa5c), (0xA5C34283, .lbu 5 6 0xa5c),
    (0xA5C35283, .lhu 5 6 0xa5c), (0xA5C36283, .lwu 5 6 0xa5c), (0xA4730E23, .sb 6 7 0xA5C),
    (0xA4731E23, .sh 6 7 0xA5C)] = true := by decide +kernel
theorem test_decode_2 : agree [
    (0xA4732E23, .sw 6 7 0xA5C), (0xA4733E23, .sd 6 7 0xA5C), (0xA5C30293, .addi 5 6 0xa5c),
    (0xA5C32293, .slti 5 6 0xa5c), (0xA5C33293, .sltiu 5 6 0xa5c), (0xA5C34293, .xori 5 6 0xa5c),
    (0xA5C36293, .ori 5 6 0xa5c), (0xA5C37293, .andi 5 6 0xa5c), (0x02D31293, .slli 5 6 0x2d),
    (0x02D35293, .srli 5 6 0x2d), (0x42D35293, .srai 5 6 0x2d), (0x007302B3, .add 5 6 7), (0x407302B3, .sub 5 6 7),
    (0x007312B3, .sll 5 6 7), (0x007322B3, .slt 5 6 7), (0x007332B3, .sltu 5 6 7), (0x007342B3, .xor 5 6 7),
    (0x007352B3, .srl 5 6 7), (0x407352B3, .sra 5 6 7)] = true := by decide +kernel
theorem test_decode_3 : agree [
    (0x007362B3, .or 5 6 7), (0x007372B3, .and 5 6 7), (0xA5C3029B, .addiw 5 6 0xa5c),
    (0x0153129B, .slliw 5 6 0x15), (0x0153529B, .srliw 5 6 0x15), (0x4153529B, .sraiw 5 6 0x15),
    (0x007302BB, .addw 5 6 7), (0x407302BB, .subw 5 6 7), (0x007312BB, .sllw 5 6 7), (0x007352BB, .srlw 5 6 7),
    (0x407352BB, .sraw 5 6 7), (0x027302B3, .mul 5 6 7), (0x027312B3, .mulh 5 6 7), (0x027322B3, .mulhsu 5 6 7),
    (0x027332B3, .mulhu 5 6 7), (0x027342B3, .div 5 6 7), (0x027352B3, .divu 5 6 7), (0x027362B3, .rem 5 6 7),
    (0x027372B3, .remu 5 6 7)] = true := by decide +kernel
theorem test_decode_4 : agree [
    (0x027302BB, .mulw 5 6 7), (0x027342BB, .divw 5 6 7), (0x027352BB, .divuw 5 6 7), (0x027362BB, .remw 5 6 7),
    (0x027372BB, .remuw 5 6 7), (0x140322AF, .lrW 5 6 true false), (0x140332AF, .lrD 5 6 true false),
    (0x1C7322AF, .scW 5 6 7 true false), (0x1C7332AF, .scD 5 6 7 true false),
    (0x0C7322AF, .amoswapW 5 6 7 true false), (0x0C7332AF, .amoswapD 5 6 7 true false),
    (0x047322AF, .amoaddW 5 6 7 true false), (0x047332AF, .amoaddD 5 6 7 true false),
    (0x247322AF, .amoxorW 5 6 7 true false), (0x247332AF, .amoxorD 5 6 7 true false),
    (0x647322AF, .amoandW 5 6 7 true false), (0x647332AF, .amoandD 5 6 7 true false),
    (0x447322AF, .amoorW 5 6 7 true false), (0x447332AF, .amoorD 5 6 7 true false)] = true := by decide +kernel
theorem test_decode_5 : agree [
    (0x847322AF, .amominW 5 6 7 true false), (0x847332AF, .amominD 5 6 7 true false),
    (0xA47322AF, .amomaxW 5 6 7 true false), (0xA47332AF, .amomaxD 5 6 7 true false),
    (0xC47322AF, .amominuW 5 6 7 true false), (0xC47332AF, .amominuD 5 6 7 true false),
    (0xE47322AF, .amomaxuW 5 6 7 true false), (0xE47332AF, .amomaxuD 5 6 7 true false), (0x0A60000F, .fence 0xA 6),
    (0x0000100F, .fenceI), (0x00000073, .ecall), (0x00100073, .ebreak), (0x30200073, .mret), (0x10500073, .wfi),
    (0x7C5312F3, .csrrw 5 0x7C5 6), (0x7C5322F3, .csrrs 5 0x7C5 6), (0x7C5332F3, .csrrc 5 0x7C5 6),
    (0x7C59D2F3, .csrrwi 5 0x7C5 0x13), (0x7C59E2F3, .csrrsi 5 0x7C5 0x13)] = true := by decide +kernel
theorem test_decode_6 : agree [
    (0x7C59F2F3, .csrrci 5 0x7C5 0x13), (0x0000000B, .quit), (0x0200000B, .yield), (0x0400000B, .hret),
    (0x0603000B, .setprio 6), (0x0873028B, .spawna 5 6 7), (0x0A03028B, .capq 5 6), (0x0C03000B, .utrap 6),
    (0x0E03000B, .rmark 6), (0xAA93128B, .rwaitImm 5 6 9 0x55), (0x0073228B, .rwait 5 6 7),
    (0x0273228B, .radd 5 6 7), (0x0473200B, .rpoison 6 7), (0x0683200B, .binit 6 8), (0x0803228B, .barv 5 6),
    (0x0A73228B, .bexp 5 6 7), (0x0C73200B, .bpoison 6 7), (0xE873328B, .spawn 5 6 7 29),
    (0xEA73328B, .spawnm 5 6 7 29)] = true := by decide +kernel
theorem test_decode_7 : agree [
    (0xEC73328B, .amsg 5 6 7 29), (0xEE73328B, .rwaitt 5 6 7 29), (0x0073728B, .nbsend 5 6 7),
    (0x0273700B, .rcfg 6 7), (0x0473700B, .capset 6 7), (0xE873002B, .sdc 6 7 29), (0xEA73002B, .swc 6 7 29),
    (0x007312AB, .amofaddS 5 6 7), (0x027312AB, .amofaddBf 5 6 7), (0x047312AB, .amofmaxS 5 6 7),
    (0x067312AB, .amofminS 5 6 7), (0x087312AB, .amoincbW 5 6 7), (0x0A7312AB, .amoincbD 5 6 7),
    (0x0C7312AB, .amocasD 5 6 7), (0x0E73102B, .rsig 6 7), (0x100012AB, .fencef 5), (0x040322AB, .cpq 5 6 2),
    (0x0C0322AB, .cpqn 5 6 2), (0x1403202B, .cpwait 6 2)] = true := by decide +kernel
theorem test_decode_8 : agree [
    (0x180322AB, .ldlq 5 6), (0x00C5035B, .mmaE4e4 6 5 6), (0x02C5035B, .mmaE4e5 6 5 6),
    (0x04C5035B, .mmaE5e4 6 5 6), (0x06C5035B, .mmaE5e5 6 5 6), (0x08C5035B, .mmaBf 6 5 6), (0x0000135B, .mzero 6),
    (0x0205135B, .mld 6 5), (0x0405135B, .mstF32 6 5), (0x0605135B, .mstBf 6 5), (0x0805135B, .mstE4m3 6 5),
    (0x0A05135B, .mstE5m2 6 5), (0x0C73105B, .mgate 6 7), (0x0E03105B, .mburst 6), (0x1000105B, .mfence),
    (0x2A03125B, .mrowv 4 6 5), (0x00C4127B, .vadd .h 4 8 12), (0x02C4527B, .vsub .f32 4 8 12),
    (0x04C4227B, .vmul .b 4 8 12)] = true := by decide +kernel
theorem test_decode_9 : agree [
    (0x06C4527B, .vfma .f32 4 8 12), (0x08C4327B, .vmax .hu 4 8 12), (0x0AC4427B, .vmin .bu 4 8 12),
    (0x0C04527B, .vabs .f32 4 8), (0x0E04627B, .vneg .bf 4 8), (0x10C4027B, .vand 4 8 12),
    (0x12C4027B, .vor 4 8 12), (0x14C4027B, .vxor 4 8 12), (0x16C4127B, .vsll .h 4 8 12),
    (0x18C4127B, .vsrl .h 4 8 12), (0x1AC4127B, .vsra .h 4 8 12), (0x20C4527B, .vcmpeq .f32 4 8 12),
    (0x22C4527B, .vcmplt .f32 4 8 12), (0x24C4627B, .vcmple .bf 4 8 12), (0x26C4127B, .vsel .h 4 8 12),
    (0x3004527B, .vrcp 4 8), (0x3204527B, .vrsq 4 8), (0x3404527B, .vexp2 4 8),
    (0x3604527B, .vlog2 4 8)] = true := by decide +kernel
theorem test_decode_10 : agree [
    (0x4064527B, .vcvt .f32 .bf 4 8), (0x4214527B, .vpack .f32 .e5m2 4 8), (0x4414627B, .vunpack .bf .e5m2 4 8),
    (0x5004527B, .vredsum .f32 4 8), (0x5204127B, .vredmax .h 4 8), (0x5414027B, .vscan .w true 4 8),
    (0x60C4127B, .vperm .h 4 8 12), (0x6274127B, .vslide .h 4 8 7), (0x7003127B, .vbcast .h 4 6),
    (0x727442FB, .vmvx .bu 5 8 7), (0x8003027B, .vld 4 6), (0x8273127B, .vlds .h 4 6 7),
    (0x84C3127B, .vldx .h 4 6 12), (0x860302FB, .vst 5 6), (0x887312FB, .vsts .h 5 6 7),
    (0x8AC312FB, .vstx .h 5 6 12), (0x8C7302FB, .vstc 5 6 7)] = true := by decide +kernel
/-- The words that the spec works out. -/
theorem test_decode_examples : agree [
    (0x100532AF, .lrD 5 10 false false), (0x1875332F, .scD 6 10 7 false false), (0x0805A50B, .barv 10 11),
    (0x000523AB, .cpq 7 10 0), (0x0C072E2B, .cpqn 28 14 2), (0x1207A02B, .cpwait 15 1), (0x100012AB, .fencef 5),
    (0x00C5015B, .mmaE4e4 2 5 6), (0x240291DB, .mrowv 3 5 2), (0x0A0711DB, .mstE5m2 3 7), (0x66B4B50B, .rwaitt 10 9 11 12),
    (0x60B5002B, .sdc 10 11 12), (0x405160FB, .vcvt .bf .f32 1 2), (0x3402527B, .vexp2 4 4), (0x063150FB, .vfma .f32 1 2 3),
    (0x720102FB, .vmvx .w 5 2 0), (0x4214527B, .vpack .f32 .e5m2 4 8), (0x5200D17B, .vredmax .f32 2 1), (0x180522AB, .ldlq 5 10)]
    = true := by decide +kernel
theorem test_decode_fence_tso : agree [(0x8330000F, .fenceTso 3 3)] = true := by decide
/-- Words of other lengths, and fields that no instruction has. -/
theorem test_decode_refuses :
    decodeWord 0x12345 = .error .compressed ∧ decodeWord 0x1F = .error .longer ∧ (decodeWord 0x00007063).toOption ≠ none
      ∧ (decodeWord 0x00002063).toOption = none ∧ (decodeWord 0x0000007F).toOption = none ∧ (decodeWord 0x8001_202F).toOption ≠ none := by
  decide +kernel

/-! ### Well-formedness: an ill-formed instruction for each check, refused, and its word with it -/

theorem test_ill_quads :
    wellFormed (.spawna 5 29 7) = false ∧ wellFormed (.spawn 5 29 7 8) = false ∧ wellFormed (.spawnm 5 29 7 8) = false
      ∧ wellFormed (.amsg 5 29 7 8) = false ∧ wellFormed (.cpq 5 29 0) = false ∧ wellFormed (.cpqn 5 29 0) = false
      ∧ wellFormed (.ldlq 5 29) = false ∧ (decodeWord 0x080E_828B).toOption = none := by decide
theorem test_ill_pair : wellFormed (.binit 6 7) = false ∧ (decodeWord 0x0673_200B).toOption = none := by decide
theorem test_ill_formats :
    wellFormed (.vadd .hu 1 2 3) = false ∧ wellFormed (.vsub .bu 1 2 3) = false ∧ wellFormed (.vmul .hu 1 2 3) = false
      ∧ wellFormed (.vabs .hu 1 2) = false ∧ wellFormed (.vneg .bu 1 2) = false ∧ wellFormed (.vcmpeq .hu 1 2 3) = false
      ∧ wellFormed (.vredsum .bu 1 2) = false ∧ wellFormed (.vscan .hu true 1 2) = false
      ∧ wellFormed (.vfma .w 1 2 3) = false ∧ (decodeWord 0x0031_30FB).toOption = none := by decide
theorem test_ill_integers :
    wellFormed (.vsll .f32 1 2 3) = false ∧ wellFormed (.vsrl .hu 1 2 3) = false ∧ wellFormed (.vsra .bf 1 2 3) = false
      ∧ wellFormed (.vsel .bu 1 2 3) = false ∧ wellFormed (.vperm .f32 1 2 3) = false ∧ wellFormed (.vslide .hu 1 2 3) = false
      ∧ wellFormed (.vbcast .f32 1 2) = false ∧ wellFormed (.vlds .bf 1 2 3) = false ∧ wellFormed (.vldx .hu 1 2 3) = false
      ∧ wellFormed (.vsts .f32 1 2 3) = false ∧ wellFormed (.vstx .bu 1 2 3) = false ∧ wellFormed (.vmvx .f32 1 2 3) = false := by
  decide
theorem test_ill_conversions :
    wellFormed (.vcvt .w .h 1 2) = false ∧ wellFormed (.vcvt .bf .bf 1 2) = false ∧ wellFormed (.vpack .f32 .e4m3 3 4) = false
      ∧ wellFormed (.vpack .f32 .e4m3 2 6) = false ∧ wellFormed (.vpack .bf .e4m3 2 5) = false
      ∧ wellFormed (.vpack .w .e4m3 2 4) = false ∧ wellFormed (.vunpack .f32 .e4m3 6 2) = false
      ∧ wellFormed (.vunpack .bf .e4m3 5 2) = false ∧ wellFormed (.vunpack .bf .e4m3 4 3) = false := by
  decide

/-! ### Number formats, by the worked examples of the spec (R70-R87, R91) -/

/-- FP32 1.0, -3.5, 0.1, 448, 500 and 2^-9 to E4M3, E5M2 and BF16, as the table of those encodings has them. -/
theorem test_encodings :
    ([0x3F800000, 0xC0600000, 0x3DCCCCCD, 0x43E00000, 0x43FA0000, 0x3B000000].map fun w => e4m3.convert false (fp32.read w))
        = [0x38, 0xC6, 0x1D, 0x7E, 0x7E, 0x01]
      ∧ e4m3.convert true (fp32.read 0x43FA0000) = 0x7F
      ∧ ([0x3F800000, 0xC0600000, 0x3DCCCCCD, 0x43E00000, 0x43FA0000, 0x3B000000].map fun w => e5m2.convert false (fp32.read w))
        = [0x3C, 0xC3, 0x2E, 0x5F, 0x60, 0x18]
      ∧ ([0x3F800000, 0xC0600000, 0x3DCCCCCD, 0x43E00000, 0x43FA0000, 0x3B000000].map fun w => bf16.convert false (fp32.read w))
        = [0x3F80, 0xC060, 0x3DCD, 0x43E0, 0x43FA, 0x3B00] := by decide +kernel
/-- The MXFP8 block worked by hand, with scale 0x7F and with XA = 0x80. -/
theorem test_mx_block :
    let a := [0x38, 0x30, 0x7E, 0x46] ++ List.replicate 28 0
    let b := [0x3C, 0x40, 0x98, 0x34] ++ List.replicate 28 0
    mmaMX 0x4B800000 e4m3 a 0x7F e5m2 b 0x7F = 0x4B800001 ∧ mmaMX 0x4B800000 e4m3 a 0x80 e5m2 b 0x7F = 0x4B800002 := by
  decide +kernel
/-- Where the BF16 window bites, and an accumulator of 2^20 that a small product leaves as it is. -/
theorem test_bf16_window :
    mmaBF 0x3F800000 (0xBF80 :: List.replicate 15 0x35C0) (0x3F80 :: List.replicate 15 0x3200) = 0x29F00000
      ∧ mmaBF 0x49800000 (0x35C0 :: List.replicate 15 0) (0x3C80 :: List.replicate 15 0) = 0x49800000 := by decide +kernel
/-- 480, -460, 1.0 and 0.01 packed to E4M3 and E5M2; and the block of 3.0 and 0.1. -/
theorem test_pack :
    let xs (l : List Nat) : List FVal := (l ++ List.replicate (32 - l.length) 0).map fp32.read
    let x := xs [0x43F00000, 0xC3E60000, 0x3F800000, 0x3C23D70A]
    packMX x .e4m3 false = (0x7F, [0x7E, 0xFE, 0x38, 0x05] ++ List.replicate 28 0)
      ∧ ((packMX x .e4m3 true).2.take 1) = [0x7F] ∧ (packMX x .e5m2 false).1 = 0x78 ∧ (packMX x .e5m2 false).2.take 1 = [0x7B]
      ∧ packMX (xs [0x40400000, 0x3DCCCCCD]) .e4m3 false = (0x78, [0x7C, 0x55] ++ List.replicate 30 0) := by decide +kernel
/-- The stochastic rounding trace. -/
theorem test_stochastic :
    (roundSRs [0x3DCCCCCD, 0x3DCCCCCD, 0x3DCCCCCD] 1).1 = [0x3DCC, 0x3DCC, 0x3DCD]
      ∧ stepSR 1 = 0x00042021 ∧ stepSR 0x00042021 = 0x04080601 ∧ stepSR 0x04080601 = 0x9DCCA8C5 := by decide +kernel
/-- FP atomic sums of 1.0, 1.0 and 2.0 to 2^24, in two orders. -/
theorem test_fadd_orders :
    fp32.add (fp32.add (fp32.add 0x4B800000 0x3F800000) 0x3F800000) 0x40000000 = 0x4B800001
      ∧ fp32.add (fp32.add (fp32.add 0x4B800000 0x40000000) 0x3F800000) 0x3F800000 = 0x4B800002 := by decide +kernel
/-- An island at GUARD 45 whose history rises 1 mV a day has 35 days left (R314). -/
theorem test_eol : (({ guard := 45, daily := (List.range 90).reverse } : Island).fit).eolDays = 35 := by decide +kernel

/-! ### Single instructions -/

/-- The instruction answers a next state of which p holds. -/
def ran (o : Machine.Outcome) (p : State → Bool) : Bool :=
  match o with
  | .next u => p u
  | _ => false

/-- The sum wraps, and x0 stays 0 (R95, R118). -/
theorem test_add : ran (exec (.add 1 1 2) (one (user [(1, 0xFFFFFFFFFFFFFFFF), (2, 2)]))) (fun u => u.rx 1 == 1) = true
    ∧ ran (exec (.addi 0 1 7) (one (user [(1, 1)]))) (fun u => u.rx 0 == 0 && u.me.pc == 4) = true := by decide
/-- Word results are sign-extended, and shift amounts are the low bits (R118). -/
theorem test_words : ran (exec (.addw 3 1 2) (one (user [(1, 0x7FFFFFFF), (2, 1)]))) (fun u => u.rx 3 == 0xFFFFFFFF80000000) = true
    ∧ ran (exec (.sraw 3 1 2) (one (user [(1, 0x80000000), (2, 0x21)]))) (fun u => u.rx 3 == 0xFFFFFFFFC0000000) = true
    ∧ ran (exec (.sll 3 1 2) (one (user [(1, 1), (2, 0x7F)]))) (fun u => u.rx 3 == 0x8000000000000000) = true := by decide
/-- The high halves of products of signed and unsigned operands (R120). -/
theorem test_mulh : ran (exec (.mulh 3 1 2) (one (user [(1, 0xFFFFFFFFFFFFFFFF), (2, 2)]))) (fun u => u.rx 3 == 0xFFFFFFFFFFFFFFFF) = true
    ∧ ran (exec (.mulhsu 3 1 2) (one (user [(1, 0xFFFFFFFFFFFFFFFF), (2, 2)]))) (fun u => u.rx 3 == 0xFFFFFFFFFFFFFFFF) = true
    ∧ ran (exec (.mulhu 3 1 2) (one (user [(1, 0xFFFFFFFFFFFFFFFF), (2, 2)]))) (fun u => u.rx 3 == 1) = true := by decide
/-- Division by zero and its overflow (R120). -/
theorem test_div : ran (exec (.div 3 1 0) (one (user [(1, 7)]))) (fun u => u.here.divider == some (36, 0, 0, 3, 0xFFFFFFFFFFFFFFFF)) = true
    ∧ ran (exec (.rem 3 1 0) (one (user [(1, 7)]))) (fun u => u.here.divider == some (36, 0, 0, 3, 7)) = true
    ∧ ran (exec (.div 3 1 2) (one (user [(1, 0x8000000000000000), (2, 0xFFFFFFFFFFFFFFFF)])))
        (fun u => u.here.divider == some (36, 0, 0, 3, 0x8000000000000000)) = true
    ∧ ran (exec (.remw 3 1 2) (one (user [(1, 0x80000000), (2, 0xFFFFFFFF)]))) (fun u => u.here.divider == some (20, 0, 0, 3, 0)) = true := by
  decide
/-- JALR clears bit 0 and links even where the base is its destination; a branch back (R122). -/
theorem test_jumps : ran (exec (.jalr 1 1 1) (one { user [(1, 0x100)] with pc := 0x40 })) (fun u => u.me.pc == 0x100 && u.rx 1 == 0x44) = true
    ∧ ran (exec (.blt 1 2 0xFFE) (one { user [(1, 0xFFFFFFFFFFFFFFFF), (2, 0)] with pc := 0x40 })) (fun u => u.me.pc == 0x3C) = true
    ∧ ran (exec (.bltu 1 2 0xFFE) (one { user [(1, 0xFFFFFFFFFFFFFFFF), (2, 0)] with pc := 0x40 })) (fun u => u.me.pc == 0x44) = true := by
  decide
/-- Bytes are little-endian, and narrow loads extend by their kind (R7, R125). -/
theorem test_memory :
    ran (exec (.sw 1 2 0) (one (user [(1, 0x100), (2, 0x1122334455667788)]))) (fun u => Memory.read u.mem 0x100 5 == [0x88, 0x77, 0x66, 0x55, 0]) = true
    ∧ ran (exec (.lb 3 1 0) { one (user [(1, 0x100)]) with mem := [(0x100, 0x80)] }) (fun u => u.rx 3 == 0xFFFFFFFFFFFFFF80) = true
    ∧ ran (exec (.lhu 3 1 0) { one (user [(1, 0x100)]) with mem := [(0x101, 0x80)] }) (fun u => u.rx 3 == 0x8000) = true := by
  decide +kernel
/-- AMOADD returns the old value; AMOMIN compares as signed (R133). -/
theorem test_atomics :
    ran (exec (.amoaddW 3 1 2 false false) { one (user [(1, 0x100), (2, 1)]) with mem := Memory.write [] 0x100 [0xFF, 0xFF, 0xFF, 0xFF] })
      (fun u => u.rx 3 == 0xFFFFFFFFFFFFFFFF && u.readN 0x100 8 == 0) = true
    ∧ ran (exec (.amominW 3 1 2 false false) { one (user [(1, 0x100), (2, 1)]) with mem := Memory.write [] 0x100 [0xFF, 0xFF, 0xFF, 0xFF] })
      (fun u => u.readN 0x100 4 == 0xFFFFFFFF) = true := by
  decide +kernel
/-- A reservation is taken, and a store-conditional without one writes nothing and returns 1 (R135). -/
theorem test_reservations : ran (exec (.lrD 3 1 false false) (one (user [(1, 0x100)]))) (fun u => u.me.resv == some { granule := 0x100, size := 8 }) = true
    ∧ ran (exec (.scD 3 1 2 false false) (one (user [(1, 0x100), (2, 9)]))) (fun u => u.rx 3 == 1 && u.mem == []) = true := by
  decide +kernel
/-- A set bit of x[rs1] is set in the CSR, and the old value read (R142); a user thread may not read mscratch (R96). -/
theorem test_csr : ran (exec (.csrrs 3 0x340 1) (one { mach [(1, 0xF0)] with mscratch := 0x0F })) (fun u => u.rx 3 == 0x0F && u.me.mscratch == 0xFF) = true
    ∧ ran (exec (.csrrs 3 0x340 0) (one (user []))) (fun u => u.me.mcause == 2 && u.me.mode == .machine) = true := by decide
/-- A system call in U-mode and MRET back (R139, R140). -/
theorem test_ecall : ran (exec .ecall (one { user [] with pc := 0x40, mtvec := 0x20 }))
      (fun u => u.me.mcause == 8 && u.me.mepc == 0x40 && u.me.pc == 0x5000000000000020) = true
    ∧ ran (exec .mret (one { mach [] with mepc := 0x44 })) (fun u => u.me.pc == 0x44 && u.me.mode == .user) = true := by decide
/-- MZERO queues an entry, and a lane sum wraps (R237, R258). -/
theorem test_engines : ran (exec (.mzero 3) (one (user []))) (fun u => (u.here.matrix.queue.map fun e => (e.op, e.acc)) == [(.mzero, 3)]) = true
    ∧ ran (exec (.vadd .b 1 2 3) (one { user [] with v := (Vector.replicate 16 0).set 2 0xFF |>.set 3 0x102 })) (fun u => u.rv 1 == 0x101) = true := by
  decide +kernel

end Sys2Proof.Tests
end

section
/-! # Every step keeps the state's form

`State.wf` speaks of two fields only: the memory in its canonical form and the tiles listed once, in order. Both are
changed by few functions (`setTile`, `writeB`, and the maps and filters of the lists); all others are built from these.
So each function of the model has one lemma, `State.wf.<function>`, in the order of the model's files, and cites those of
the functions it calls; a function that takes a continuation asks for the form of what the continuation gives. -/

namespace Sys2Proof.Machine
section
variable {s : State}

/-- The outcome's next state, where it has one, is in its form. -/
inductive GivesWf : Outcome → Prop where
  | next {u : State} (h : u.wf) : GivesWf (.next u)
  | fault {r : Fault} : GivesWf (.fault r)
  | refused {r : Refusal} : GivesWf (.refused r)

theorem GivesWf.of_next {o : Outcome} {u : State} (h : GivesWf o) (e : o = .next u) : u.wf := by
  subst e; cases h; assumption

/-! ### What changes the memory or the list of tiles, and what does not -/

theorem wf_ite {c : Prop} [Decidable c] {a b : State} (ha : a.wf) (hb : b.wf) : (if c then a else b).wf := by
  split <;> assumption

theorem givesWf_ite {c : Prop} [Decidable c] {a b : Outcome} (ha : GivesWf a) (hb : GivesWf b) :
    GivesWf (if c then a else b) := by
  split <;> assumption

theorem State.wf.foldl {α : Type} {l : List α} {f : State → α → State} (h : s.wf) (hf : ∀ u a, u.wf → (f u a).wf) :
    (l.foldl f s).wf := by
  induction l generalizing s with
  | nil => exact h
  | cons a l ih => exact ih (hf _ a h)

theorem wf_foldl_fst {α β : Type} {l : List α} {f : State × β → α → State × β} {r : State × β} (h : r.1.wf)
    (hf : ∀ r a, r.1.wf → (f r a).1.wf) : (l.foldl f r).1.wf := by
  induction l generalizing r with
  | nil => exact h
  | cons a l ih => exact ih (hf _ a h)

theorem State.wf.setTile {t x} (h : s.wf) : (s.setTile t x).wf :=
  ⟨h.1, Assoc.rising_put _ _ _ h.2⟩

theorem State.wf.writeB {k bs} (h : s.wf) : (s.writeB k bs).wf :=
  ⟨Memory.wf_write _ _ _ h.1, h.2⟩

theorem State.wf.of_same {u : State} (h : s.wf) (hm : u.mem = s.mem) (ht : u.tiles = s.tiles) : u.wf := by
  rw [State.wf, hm, ht]; exact h

theorem State.wf.mapTiles {f : Nat × Tile → Nat × Tile} (h : s.wf) (hf : ∀ p, (f p).1 = p.1) :
    State.wf { s with tiles := s.tiles.map f } :=
  ⟨h.1, Assoc.rising_map f hf _ h.2⟩

/-- Where an engine's step reaches, the state left is in its form. -/
def Reach.Formed (r : Reach) : Prop :=
  match r with
  | .ok _ _ u | .wait u | .fail _ u => u.wf

/-- Where the other word of a channel-2 command has to wait or faults, the state left is in its form. -/
def OtherWord.Formed (r : OtherWord) : Prop :=
  match r with
  | .wait u | .fault u => u.wf
  | .far | .near => True

/-! ### Sys2Proof/Machine/Ops.lean -/

theorem State.wf.modTile {t f} (h : s.wf) : (State.modTile s t f).wf := by
  unfold State.modTile
  exact h.setTile

theorem State.wf.modTh {t i f} (h : s.wf) : (State.modTh s t i f).wf := by
  unfold State.modTh
  exact h.modTile

theorem State.wf.modMe {f} (h : s.wf) : (State.modMe s f).wf := by
  unfold State.modMe
  exact h.modTh

theorem State.wf.modHere {f} (h : s.wf) : (State.modHere s f).wf := by
  unfold State.modHere
  exact h.modTile

theorem State.wf.wx {r v} (h : s.wf) : (State.wx s r v).wf := by
  unfold State.wx
  exact h.modMe

theorem State.wf.draw (h : s.wf) : s.draw.2.wf :=
  h

/-- `h` is not needed: the lemma takes it so that it is cited as the others are. -/
theorem State.wf.onTile {t k} (_ : s.wf) (hk : GivesWf k) : GivesWf (onTile s t k) := by
  unfold Machine.onTile
  exact givesWf_ite hk .fault

theorem State.wf.markWord {k} (h : s.wf) : (State.markWord s k).wf := by
  unfold State.markWord
  exact h

theorem State.wf.writeN {k n v} (h : s.wf) : (State.writeN s k n v).wf := by
  unfold State.writeN
  exact h.writeB

theorem State.wf.trace {t w off} (h : s.wf) : (State.trace s t w off).wf := by
  unfold State.trace
  exact wf_ite h.writeN.writeN.modTile h

theorem State.wf.sendMsix {pkg v} (h : s.wf) : (State.sendMsix s pkg v).wf := by
  unfold State.sendMsix
  exact wf_ite h.writeN h

theorem State.wf.sendPending {pkg v} (h : s.wf) : (State.sendPending s pkg v).wf := by
  unfold State.sendPending
  exact wf_ite h h.writeN.sendMsix

theorem State.wf.hostRisers {t pieces} (h : s.wf) : (State.hostRisers s t pieces).wf := by
  unfold State.hostRisers
  exact h.foldl fun _ _ h1 => wf_ite h1.sendMsix h1

theorem State.wf.stepWrite {t pieces w logOff} (h : s.wf) : (State.stepWrite s t pieces w logOff).wf := by
  unfold State.stepWrite
  exact State.wf.hostRisers (State.wf.trace ((h.foldl fun _ _ h1 => h1.writeB).foldl fun _ _ h1 => h1.modTile))

theorem State.wf.waitAt {t who spans} (h : s.wf) : (State.waitAt s t who spans).wf := by
  unfold State.waitAt
  exact h.modTile

theorem State.wf.atPort {t who w spans k} {s0 : State} (h : s0.wf) (h1 : s.wf) (hk : ∀ u, u.wf → (k u).wf) :
    (State.atPort s0 s t who w spans k).wf := by
  unfold State.atPort
  exact wf_ite h.waitAt (hk _ h1.modTile)

theorem State.wf.logError {t kind src fab slot reason addr info} (h : s.wf) :
    (State.logError s t kind src fab slot reason addr info).wf := by
  unfold State.logError
  exact h.modTile

theorem State.wf.ramFound {t a k n} (h : s.wf) : (State.ramFound s t a k n).wf := by
  unfold State.ramFound
  exact h.logError.modTile

theorem State.wf.event {t b} (h : s.wf) : (State.event s t b).wf := by
  unfold State.event
  exact h.modTile

theorem State.wf.noteIssue (h : s.wf) : (State.noteIssue s).wf := by
  unfold State.noteIssue
  exact h.modHere

theorem State.wf.retireTo {pc} (h : s.wf) : (State.retireTo s pc).wf := by
  unfold State.retireTo
  exact h.modMe.noteIssue

theorem State.wf.retire (h : s.wf) : (State.retire s).wf := by
  unfold State.retire
  exact h.retireTo

theorem State.wf.block {st n} (h : s.wf) : (State.block s st n).wf := by
  unfold State.block
  exact h.modMe

theorem State.wf.emptySlot {t i} (h : s.wf) : (State.emptySlot s t i).wf := by
  unfold State.emptySlot
  exact h.modTile

theorem State.wf.takeTrap {cause epc val fault int} (h : s.wf) : (State.takeTrap s cause epc val fault int).wf := by
  unfold State.takeTrap
  dsimp only
  refine State.wf.noteIssue (State.wf.modHere (State.wf.modMe ?_))
  split
  · exact h.stepWrite
  · exact h

theorem State.wf.trap {cause val} (h : s.wf) : (State.trap s cause val).wf := by
  unfold State.trap
  exact h.takeTrap

theorem State.wf.mret (h : s.wf) : (State.mret s).wf := by
  unfold State.mret
  exact h.modMe.modHere.retireTo

theorem State.wf.illegal (h : s.wf) : (State.illegal s).wf := by
  unfold State.illegal
  exact h.trap

theorem State.wf.fenced (h : s.wf) : (State.fenced s).wf := by
  unfold State.fenced
  exact h.trap

theorem State.wf.needCap {b k} (h : s.wf) (hk : ∀ u, u.wf → GivesWf (k u)) : GivesWf (needCap b s k) := by
  unfold Machine.needCap
  exact givesWf_ite (hk _ h) (.next h.fenced)

theorem State.wf.needMachine {k} (h : s.wf) (hk : ∀ u, u.wf → GivesWf (k u)) : GivesWf (needMachine s k) := by
  unfold Machine.needMachine
  exact givesWf_ite (hk _ h) (.next h.illegal)

/-! ### Sys2Proof/Machine/Csr.lean -/

theorem State.wf.modCore {t f} (h : s.wf) : (State.modCore s t f).wf := by
  unfold State.modCore
  exact h.modTile

theorem State.wf.modPortCore {t f} (h : s.wf) : (State.modPortCore s t f).wf := by
  unfold State.modPortCore
  exact h.modTile

theorem State.wf.writeCodewin {t v} (h : s.wf) : (State.writeCodewin s t v).wf := by
  unfold State.writeCodewin
  exact h.modPortCore

theorem State.wf.writeSeed {t i v} (h : s.wf) : (State.writeSeed s t i v).wf := by
  unfold State.writeSeed
  exact h.modTh

theorem State.wf.writeMark {t i v} (h : s.wf) : (State.writeMark s t i v).wf := by
  unfold State.writeMark
  exact h.modTh

theorem State.wf.writeGate {t i v} (h : s.wf) : (State.writeGate s t i v).wf := by
  unfold State.writeGate
  exact h.modTh

theorem State.wf.writeGateTarget {t i v} (h : s.wf) : (State.writeGateTarget s t i v).wf := by
  unfold State.writeGateTarget
  exact h.modTh

theorem State.wf.writeUcause {t i v} (h : s.wf) : (State.writeUcause s t i v).wf := by
  unfold State.writeUcause
  exact h.modTh

theorem State.wf.writePart {t n v} (h : s.wf) : (State.writePart s t n v).wf := by
  unfold State.writePart
  exact h.modPortCore

theorem State.wf.writeTrace {t v} (h : s.wf) : (State.writeTrace s t v).wf := by
  unfold State.writeTrace
  exact h.modCore

theorem State.wf.csrWrite {n v} (h : s.wf) : (State.csrWrite s n v).wf := by
  unfold State.csrWrite
  dsimp only
  split
  · exact h.modMe
  · exact h.modMe
  · exact h.modMe
  · exact h.modMe
  · exact h.modMe
  · exact h.modMe
  · exact h.modMe
  · exact h.writePart
  · exact h.writePart
  · exact h.writePart
  · exact h.modCore
  · exact h.writeTrace
  · exact h.modCore
  · exact h.modCore
  · exact h.writeSeed
  · exact h.modMe
  · exact h.modMe
  · exact h.modMe
  · exact h.writeUcause
  · exact h.modMe
  · exact h.modMe
  · exact h.writeGate
  · exact h.writeGateTarget
  · exact h.writeMark
  · exact h.writeCodewin
  · exact h

theorem State.wf.csrOp {op rd n src wr} (h : s.wf) : GivesWf (csrOp op rd n src wr s) := by
  unfold Machine.csrOp
  dsimp only
  split
  · exact .next h.illegal
  · split
    · exact .next (State.wf.retire (State.wf.wx (wf_ite h.csrWrite h)))
    · exact .next h.illegal

/-! ### Sys2Proof/Machine/Registers.lean -/

theorem State.wf.modPack {p f} (h : s.wf) : (State.modPack s p f).wf := by
  unfold State.modPack
  exact h

theorem State.wf.modMail {p f} (h : s.wf) : (State.modMail s p f).wf := by
  unfold State.modMail
  exact h.modPack

theorem State.wf.modIsland {i f} (h : s.wf) : (State.modIsland s i f).wf := by
  unfold State.modIsland
  exact h

theorem State.wf.of_mgmtWrite {pkg reg size v u} (h : s.wf) (e : mgmtWrite s pkg reg size v = some u) : u.wf := by
  unfold mgmtWrite at e
  dsimp only at e
  split at e
  · cases e
  · split_ifs at e <;> cases e <;> exact h

theorem State.wf.windowWrite {pkg off bs} (h : s.wf) : (windowWrite s pkg off bs).wf := by
  unfold Machine.windowWrite
  dsimp only
  split
  · exact h
  · split
    · exact wf_ite h.writeB h
    · split
      · exact wf_ite h h.modMail
      · exact wf_ite h.writeB (wf_ite h.writeB.sendPending (wf_ite h.modMail h))

theorem State.wf.notice {pkg kind pid job core slot cause epc val} (h : s.wf) :
    (State.notice s pkg kind pid job core slot cause epc val).wf := by
  unfold State.notice
  exact h.writeB.modMail.sendMsix

theorem State.wf.respond {pkg result data} (h : s.wf) : (State.respond s pkg result data).wf := by
  unfold State.respond
  exact h.modMail.sendMsix

theorem State.wf.submit {pkg op seq k} (h : s.wf) (hk : ∀ u, u.wf → (k u).wf) :
    (State.submit s pkg op seq k).wf := by
  unfold State.submit
  exact wf_ite (hk _ h.modMail) h

/-! ### Sys2Proof/Machine/Translate.lean -/

theorem State.wf.paWrite {pa v} (h : s.wf) : (State.paWrite s pa v).wf := by
  unfold State.paWrite
  exact h.writeN

theorem State.wf.fillCore {t e} (h : s.wf) : (State.fillCore s t e).wf := by
  unfold State.fillCore
  exact h.modTile

theorem State.wf.fillDie {die e} (h : s.wf) : (State.fillDie s die e).wf := by
  unfold State.fillDie
  exact h

theorem State.wf.of_lookup {t va r} (h : s.wf) (e : Machine.lookup s t va = r) : r.2.wf := by
  subst e
  unfold Machine.lookup
  dsimp only
  split
  · exact h.fillCore
  · split
    · exact h.fillCore.fillDie
    · exact h

theorem State.wf.startWalk {t va engine} (h : s.wf) : (State.startWalk s t va engine).wf := by
  unfold State.startWalk
  exact wf_ite h (wf_ite h h)

theorem State.wf.endWalk {w} (h : s.wf) : (s.endWalk w).wf := by
  unfold State.endWalk
  refine State.wf.modTile (wf_ite (State.wf.mapTiles (s := { s with walks := _ }) h fun p => ?_) h)
  split <;> rfl

theorem State.wf.walkComplete {id} (h : s.wf) : (walkComplete s id).wf := by
  unfold Machine.walkComplete
  split
  · exact h
  · split
    · exact h
    · split
      · exact h
      · exact h.fillDie.fillCore.endWalk
      · exact h.modTile.endWalk

theorem State.wf.translated {a va write k} (h : s.wf) (hk : ∀ x y z u, u.wf → GivesWf (k x y z u)) :
    GivesWf (translated s a va write k) := by
  unfold Machine.translated
  dsimp only
  split
  · exact .next h.trap
  · split <;> have h1 := h.of_lookup ‹_›
    · exact givesWf_ite (.next h1.trap) (givesWf_ite (.next h1.trap) (givesWf_ite (.next h1.trap)
        (hk _ _ _ _ h1.modMe)))
    · exact givesWf_ite (.next h1.modMe.trap) (.next h1.startWalk.block)

/-! ### Sys2Proof/Machine/Request.lean -/

theorem State.wf.needEntry {k} (h : s.wf) (hk : ∀ u, u.wf → GivesWf (k u)) : GivesWf (needEntry s k) := by
  unfold Machine.needEntry
  exact givesWf_ite (hk _ h) (.next h.block)

theorem State.wf.issue {op home off cls a e} (h : s.wf) : (s.issue op home off cls a e).wf := by
  unfold State.issue
  extract_lets id p e' s1 s2
  have h2 : s2.wf := State.wf.modHere (s := s1) h
  split <;> exact h2

theorem State.wf.sendChecks {explicit l} (h : s.wf) : (State.sendChecks s explicit l).wf := by
  unfold State.sendChecks
  exact h.foldl fun _ _ h1 => State.wf.modMe h1

theorem State.wf.pendMine {f} (h : s.wf) : (State.pendMine s f).wf := by
  unfold State.pendMine
  exact wf_ite h.logError h.modMe

theorem State.wf.settleChecks (h : s.wf) : (State.settleChecks s).wf := by
  unfold State.settleChecks
  dsimp only
  refine h.modMe.foldl fun _ _ h1 => ?_
  split
  · exact h1.pendMine
  · exact h1.modMe
  · exact h1

theorem State.wf.countFabric {m k} (h : s.wf) (hk : ∀ u, u.wf → GivesWf (k u)) : GivesWf (countFabric s m k) := by
  unfold Machine.countFabric
  dsimp only
  split
  · exact .next h.block
  · split
    · split
      · exact hk _ h.settleChecks.modMe
      · exact .next h.settleChecks.sendChecks.block
    · split
      · exact hk _ h.settleChecks.modMe
      · exact .next h.settleChecks.sendChecks.block

theorem State.wf.withHome {a l write k} (h : s.wf) (hk : ∀ a0 a1 a2 u3, u3.wf → GivesWf (k a0 a1 a2 u3)) :
    GivesWf (withHome s a l write k) := by
  unfold Machine.withHome
  split
  · exact h.translated (fun _ _ _ _ h2 => hk _ _ _ _ h2)
  · split
    · exact hk _ _ _ _ h
    · exact .next h

theorem State.wf.post {op a l k} (h : s.wf) (hk : ∀ u, u.wf → (k u).wf) : GivesWf (post s op a l k) := by
  unfold Machine.post
  refine h.needEntry (fun _ h2 => h2.withHome (fun _ _ _ _ h3 => ?_))
  split
  · exact h3.countFabric (fun _ h4 => .next (hk _ h4.issue))
  · exact .next (hk _ h3.issue)

theorem State.wf.request {op a l write rd size signed k} (h : s.wf) (hk : ∀ u, u.wf → (k u).wf) :
    GivesWf (request s op a l write rd size signed k) := by
  unfold Machine.request
  exact h.needEntry (fun _ h2 => h2.withHome (fun _ _ _ _ h3 => .next (hk _ h3.issue)))

theorem State.wf.awaitAll {k} (h : s.wf) (hk : ∀ u, u.wf → GivesWf (k u)) : GivesWf (awaitAll s k) := by
  unfold Machine.awaitAll
  exact givesWf_ite (hk _ h) (.next h.block)

theorem State.wf.release {rl k} (h : s.wf) (hk : ∀ u, u.wf → GivesWf (k u)) : GivesWf (release rl s k) := by
  unfold Machine.release
  exact givesWf_ite (h.awaitAll (fun _ h2 => hk _ h2)) (hk _ h)

theorem State.wf.acquireIf {aq} (h : s.wf) : (State.acquireIf s aq).wf := by
  unfold State.acquireIf
  exact wf_ite h.modMe h

theorem State.wf.wxIn {rd v n} (h : s.wf) : (State.wxIn s rd v n).wf := by
  unfold State.wxIn
  exact h.modMe

theorem State.wf.wxLate {rd v} (h : s.wf) : (State.wxLate s rd v).wf := by
  unfold State.wxLate
  exact h.wxIn

theorem State.wf.localMark {a off size k} (h : s.wf) (hk : ∀ u, u.wf → GivesWf (k u)) :
    GivesWf (localMark s a off size k) := by
  unfold Machine.localMark
  exact givesWf_ite (givesWf_ite (.next h.trap) (hk _ h.ramFound)) (hk _ h)

theorem State.wf.portFree {off size k} (h : s.wf) (hk : ∀ u, u.wf → GivesWf (k u)) :
    GivesWf (portFree s off size k) := by
  unfold Machine.portFree
  exact givesWf_ite (.next h.block) (hk _ h)

theorem State.wf.storeLocal {off size v} (h : s.wf) : (State.storeLocal s off size v).wf := by
  unfold State.storeLocal
  exact h.stepWrite

/-! ### Sys2Proof/Machine/Memory.lean -/

theorem State.wf.checked {write a size align k} (h : s.wf) (hk : ∀ a0, GivesWf (k a0)) :
    GivesWf (checked s write a size align k) := by
  unfold Machine.checked
  split
  · exact .next h.trap
  · exact .next h.trap
  · exact hk _

theorem State.wf.load {size signed rd rs1 imm} (h : s.wf) : GivesWf (load size signed rd rs1 imm s) := by
  unfold Machine.load
  dsimp only
  refine h.checked (fun _ => ?_)
  split
  · exact h.localMark (fun _ h1 => .next h1.wxLate.retire)
  · split
    · exact givesWf_ite (h.request (fun _ h1 => h1.retire)) (.next h.trap)
    · exact h.request (fun _ h1 => h1.retire)

theorem State.wf.store {size rs1 rs2 imm} (h : s.wf) : GivesWf (store size rs1 rs2 imm s) := by
  unfold Machine.store
  dsimp only
  refine h.checked (fun _ => ?_)
  split
  · exact h.portFree (fun _ h1 => .next h1.storeLocal.retire)
  · split
    · exact givesWf_ite (h.post (fun _ h1 => h1.retire)) (.next h.trap)
    · exact h.post (fun _ h1 => h1.retire)

theorem State.wf.localAmo {op size rd a src cmp off aq} (h : s.wf) :
    GivesWf (localAmo op size rd a src cmp off aq s) := by
  unfold Machine.localAmo
  exact h.portFree (fun _ h1 => h1.localMark (fun _ h2 => .next (State.wf.retire (State.wf.acquireIf
    (State.wf.wxLate (wf_ite h2 h2.storeLocal))))))

theorem State.wf.amo {op size rd rs1 rs2 aq rl} (h : s.wf) : GivesWf (amo op size rd rs1 rs2 aq rl s) := by
  unfold Machine.amo
  dsimp only
  refine h.checked (fun _ => ?_)
  split
  · exact .next h.trap
  · exact .next h.trap
  · refine h.release (fun _ h1 => ?_)
    split
    · exact h1.localAmo
    · exact h1.request (fun _ h2 => h2.acquireIf.retire)

theorem State.wf.loadReserved {size rd rs1 aq rl} (h : s.wf) : GivesWf (loadReserved size rd rs1 aq rl s) := by
  unfold Machine.loadReserved
  dsimp only
  refine h.checked (fun _ => ?_)
  split
  · exact .next h.trap
  · exact h.release (fun _ h1 => h1.localMark (fun _ h2 => .next h2.acquireIf.modHere.modMe.wxLate.retire))

theorem State.wf.storeConditional {size rd rs1 rs2 aq rl} (h : s.wf) :
    GivesWf (storeConditional size rd rs1 rs2 aq rl s) := by
  unfold Machine.storeConditional
  dsimp only
  refine h.checked (fun _ => ?_)
  split
  · exact .next h.trap
  · exact h.release (fun _ h1 => h1.portFree (fun _ h2 => givesWf_ite
      (.next h2.acquireIf.modMe.modHere.storeLocal.wxLate.retire) (.next h2.acquireIf.modMe.modHere.wxLate.retire)))

/-! ### Sys2Proof/Machine/Sync.lean -/

theorem State.wf.riserAdvance {t off n w} (h : s.wf) : (State.riserAdvance s t off n w).wf := by
  unfold State.riserAdvance
  exact h.stepWrite

theorem State.wf.riserPoisoned {t off cls src w} (h : s.wf) : (State.riserPoisoned s t off cls src w).wf := by
  unfold State.riserPoisoned
  exact h.stepWrite

theorem State.wf.riserSignal {t off n poison w} (h : s.wf) : (State.riserSignal s t off n poison w).wf := by
  unfold State.riserSignal
  exact h.stepWrite

theorem State.wf.countedStep {t off roff data w} (h : s.wf) : (State.countedStep s t off roff data w).wf := by
  unfold State.countedStep
  exact h.stepWrite

theorem State.wf.sendReleases {t w0 w1 n} (h : s.wf) : (State.sendReleases s t w0 w1 n).wf := by
  unfold State.sendReleases
  exact h.foldl fun _ _ h1 => h1

theorem State.wf.barrierStep {t off e w} (h : s.wf) : (s.barrierStep t off e w).1.wf := by
  unfold State.barrierStep
  dsimp only
  split
  · exact h.stepWrite.sendReleases
  · exact h.stepWrite

/-! ### Sys2Proof/Machine/Thread.lean -/

theorem State.wf.endMine (h : s.wf) : GivesWf (endMine s) := by
  unfold Machine.endMine
  split
  · exact givesWf_ite (.next h.block) (.next h.retire.emptySlot)
  · exact .next h.retire.emptySlot

theorem State.wf.execRmark {rs1} (h : s.wf) : GivesWf (execRmark rs1 s) := by
  unfold Machine.execRmark
  dsimp only
  split
  · exact .next h.retire
  · exact givesWf_ite (.next h.modMe.retire) (.next h.modMe.retire)

theorem State.wf.send {op m home a rd tag} (h : s.wf) : (State.send s op m home a rd tag).wf := by
  unfold State.send
  exact h.issue.of_same rfl rfl

theorem State.wf.coreOf {a k} (h : s.wf) (hk : ∀ a0 a1, GivesWf (k a0 a1)) : GivesWf (coreOf s a k) := by
  unfold Machine.coreOf
  split
  · split
    · split
      · exact hk _ _
      · exact .next h.trap
    · split
      · exact hk _ _
      · exact .next h.trap
    · split
      · exact hk _ _
      · exact .next h.trap
    · exact .next h.trap
  · exact .next h.trap

theorem State.wf.execSpawna {rd rs1 rs2} (h : s.wf) : GivesWf (execSpawna rd rs1 rs2 s) := by
  unfold Machine.execSpawna
  split
  · exact .next h.wx.retire
  · exact h.needEntry (fun _ h1 => .next h1.send.retire)

theorem State.wf.execSpawnm {rd rs1 rs2 rs3} (h : s.wf) : GivesWf (execSpawnm rd rs1 rs2 rs3 s) := by
  unfold Machine.execSpawnm
  extract_lets v r
  split
  · exact .next h.trap
  · split
    · exact .next h.wx.retire
    · refine h.needEntry fun u h1 => .next (State.wf.retire (State.wf.foldl ?_ fun _ _ h2 => h2))
      exact State.wf.modHere (s := { u with nextId := _ }) h1

theorem State.wf.execCapq {rd rs1} (h : s.wf) : GivesWf (execCapq rd rs1 s) := by
  unfold Machine.execCapq
  dsimp only
  refine h.coreOf (fun _ _ => ?_)
  split
  · exact .next h.wxLate.retire
  · refine h.needEntry (fun _ h1 => ?_)
    split
    · exact .next h1.issue.retire
    · exact .next h1

theorem State.wf.riserWait {rd rs1 off target timeout} (h : s.wf) :
    GivesWf (riserWait rd rs1 off target timeout s) := by
  unfold Machine.riserWait
  dsimp only
  split
  · exact .next h.illegal
  · refine h.checked (fun _ => ?_)
    split
    · split
      · exact .next h.wxLate.retire
      · exact .next h.modMe.noteIssue
    · exact .next h.trap

theorem State.wf.riserChecked {a size align k} (h : s.wf) (hk : ∀ a0, GivesWf (k a0)) :
    GivesWf (riserChecked s a size align k) := by
  unfold Machine.riserChecked
  exact h.checked (fun _ => givesWf_ite (hk _) (.next h.trap))

theorem State.wf.execRadd {rd rs1 rs2} (h : s.wf) : GivesWf (execRadd rd rs1 rs2 s) := by
  unfold Machine.execRadd
  dsimp only
  refine h.riserChecked (fun _ => ?_)
  split
  · exact h.portFree (fun _ h1 => .next h1.riserAdvance.wxLate.retire)
  · exact h.request (fun _ h1 => h1.retire)

theorem State.wf.execRsig {rs1 rs2} (h : s.wf) : GivesWf (execRsig rs1 rs2 s) := by
  unfold Machine.execRsig
  dsimp only
  refine h.riserChecked (fun _ => ?_)
  split
  · exact h.portFree (fun _ h1 => .next h1.riserAdvance.retire)
  · exact h.post (fun _ h1 => h1.retire)

theorem State.wf.execRpoison {rs1 rs2} (h : s.wf) : GivesWf (execRpoison rs1 rs2 s) := by
  unfold Machine.execRpoison
  dsimp only
  refine h.riserChecked (fun _ => ?_)
  split
  · exact h.portFree (fun _ h1 => .next h1.riserPoisoned.retire)
  · exact h.post (fun _ h1 => h1.retire)

theorem State.wf.countedBytes {size v a r} (h : s.wf) : GivesWf (countedBytes size v a r s) := by
  unfold Machine.countedBytes
  refine h.riserChecked (fun _ => givesWf_ite (.next h.trap) ?_)
  split
  · exact h.portFree (fun _ h1 => h1.portFree (fun _ h2 => .next h2.countedStep.retire))
  · exact h.post (fun _ h1 => h1.retire)

theorem State.wf.countedStore {size rs1 rs2 rs3} (h : s.wf) : GivesWf (countedStore size rs1 rs2 rs3 s) := by
  unfold Machine.countedStore
  exact h.countedBytes

theorem State.wf.barrierPost {e op a} (h : s.wf) : GivesWf (barrierPost e op a s) := by
  unfold Machine.barrierPost
  refine h.riserChecked (fun _ => ?_)
  split
  · exact h.portFree (fun _ h1 => .next h1.barrierStep.retire)
  · exact h.post (fun _ h1 => h1.retire)

theorem State.wf.barrierAsk {e op rd l a} (h : s.wf) : GivesWf (barrierAsk e op rd l a s) := by
  unfold Machine.barrierAsk
  dsimp only
  split
  · exact h.portFree (fun _ h1 => .next h1.barrierStep.wxLate.retire)
  · exact h.request (fun _ h1 => h1.retire)

theorem State.wf.deviceAmo {op size rd rs1 rs2 cmp} (h : s.wf) : GivesWf (deviceAmo op size rd rs1 rs2 cmp s) := by
  unfold Machine.deviceAmo
  dsimp only
  split
  · exact .next h.fenced
  · refine h.riserChecked (fun _ => ?_)
    split
    · exact h.localAmo
    · exact h.request (fun _ h1 => h1.retire)

theorem State.wf.execAmoincbW {rd rs1 rs2} (h : s.wf) : GivesWf (execAmoincbW rd rs1 rs2 s) := by
  unfold Machine.execAmoincbW
  exact h.deviceAmo

theorem State.wf.execAmoincbD {rd rs1 rs2} (h : s.wf) : GivesWf (execAmoincbD rd rs1 rs2 s) := by
  unfold Machine.execAmoincbD
  exact h.deviceAmo

theorem State.wf.execAmocasD {rd rs1 rs2} (h : s.wf) : GivesWf (execAmocasD rd rs1 rs2 s) := by
  unfold Machine.execAmocasD
  exact h.deviceAmo

theorem State.wf.execFencef {rd} (h : s.wf) : GivesWf (execFencef rd s) := by
  unfold Machine.execFencef
  dsimp only
  refine h.awaitAll (fun _ h1 => givesWf_ite (.next h1.settleChecks.sendChecks.block) (givesWf_ite
    (.next h1.settleChecks.sendChecks.wx.retire) (.next (State.wf.retire ?_))))
  split
  · exact h1.settleChecks.sendChecks.modMe.wx.pendMine
  · exact h1.settleChecks.sendChecks.modMe.wx

theorem State.wf.execNbsend {rd rs1 rs2} (h : s.wf) : GivesWf (execNbsend rd rs1 rs2 s) := by
  unfold Machine.execNbsend
  dsimp only
  refine h.needMachine (fun _ h1 => ?_)
  split
  · split
    · exact .next h1.trap
    · exact h1.needEntry (fun _ h2 => h2.localMark (fun _ h3 => .next h3.issue.retire))
  · exact .next h1.trap

theorem State.wf.execRcfg {rs1 rs2} (h : s.wf) : GivesWf (execRcfg rs1 rs2 s) := by
  unfold Machine.execRcfg
  exact h.needMachine (fun _ h1 => givesWf_ite (.next h1.trap) (.next h1.modMe.block.noteIssue))

theorem State.wf.execCapset {rs1 rs2} (h : s.wf) : GivesWf (execCapset rs1 rs2 s) := by
  unfold Machine.execCapset
  exact h.needMachine (fun _ h1 => .next h1.modPortCore.retire)

/-! ### Sys2Proof/Machine/Arrival.lean -/

theorem State.wf.dropPkt {id} (h : s.wf) : (State.dropPkt s id).wf := by
  unfold State.dropPkt
  exact h

theorem State.wf.sendPkt {p} (h : s.wf) : (State.sendPkt s p).wf := by
  unfold State.sendPkt
  exact h

theorem State.wf.complete {pkg off status data poisoned} (h : s.wf) :
    (State.complete s pkg off status data poisoned).wf := by
  unfold State.complete
  exact h

theorem State.wf.hostAnswer {p op} (h : s.wf) : (State.hostAnswer s p op).wf := by
  unfold State.hostAnswer
  split
  · exact h.complete
  · exact h.complete
  · exact h

theorem State.wf.reply {p op} (h : s.wf) : (State.reply s p op).wf := by
  unfold State.reply
  exact wf_ite h.hostAnswer (wf_ite (wf_ite h h) h.sendPkt)

theorem State.wf.pendFault {t slot epoch quiet f} (h : s.wf) : (State.pendFault s t slot epoch quiet f).wf := by
  unfold State.pendFault
  exact wf_ite h.logError (wf_ite h.logError (wf_ite h (wf_ite h.logError h.modTh)))

theorem State.wf.freeEntry {t id} (h : s.wf) : (State.freeEntry s t id).wf := by
  unfold State.freeEntry
  exact h.modTile

theorem State.wf.writeResult {t e v} (h : s.wf) : (State.writeResult s t e v).wf := by
  unfold State.writeResult
  dsimp only
  split
  · exact wf_ite h.modTh h
  · exact h

theorem State.wf.reportOnce {t slot epoch quiet gid n f} (h : s.wf) :
    (State.reportOnce s t slot epoch quiet gid n f).wf := by
  unfold State.reportOnce
  exact wf_ite h.modTh h.modTile.pendFault

theorem State.wf.finishGroup {t g e} (h : s.wf) : (s.finishGroup t g e).wf := by
  unfold State.finishGroup
  extract_lets i alive s1 s2 s3
  have h1 : s1.wf := h.modTile
  have h2 : s2.wf := by
    unfold s2
    split
    · exact wf_ite h1.modTh h1
    · exact h1
  have h3 : s3.wf := by
    unfold s3
    split
    · exact h2.reportOnce
    · exact h2.pendFault
    · exact h2
  split
  · exact h3.pendFault
  · exact h3

theorem State.wf.groupStep {t gid e f} (h : s.wf) : (State.groupStep s t gid e f).wf := by
  unfold State.groupStep
  dsimp only
  split
  · exact h
  · exact wf_ite h.finishGroup h.modTile

theorem State.wf.storeRejected {p reason remote fab} (h : s.wf) :
    (State.storeRejected s p reason remote fab).wf := by
  unfold State.storeRejected
  dsimp only
  split
  · exact h.pendFault
  · exact h.reportOnce

theorem State.wf.threadReply {p} (h : s.wf) : (threadReply s p).wf := by
  unfold Machine.threadReply
  dsimp only
  split
  · split
    · exact h.dropPkt.storeRejected
    · exact h.dropPkt
  · refine State.wf.freeEntry ?_
    split
    · exact wf_ite h.dropPkt.writeResult h.dropPkt.writeResult.pendFault
    · exact h.dropPkt.groupStep
    · exact h.dropPkt.pendFault
    · exact h.dropPkt.groupStep
    · exact h.dropPkt.groupStep
    · exact h.dropPkt.writeResult
    · exact h.dropPkt

theorem State.wf.modRun {t serial f} (h : s.wf) : (State.modRun s t serial f).wf := by
  unfold State.modRun
  exact h.modTile

theorem State.wf.pendOverrun {p held remote fab} (h : s.wf) : (State.pendOverrun s p held remote fab).wf := by
  unfold State.pendOverrun
  exact h.pendFault

theorem State.wf.copyReply {p} (h : s.wf) : (copyReply s p).wf := by
  unfold Machine.copyReply
  dsimp only
  split
  · exact h.dropPkt.modRun
  · exact h.dropPkt.modRun
  · exact h.dropPkt.modRun.pendOverrun
  · exact h.dropPkt.modRun

theorem State.wf.takeReply {p} (h : s.wf) : (takeReply s p).wf := by
  unfold Machine.takeReply
  dsimp only
  split
  · exact h.copyReply
  · exact h.dropPkt.modTile
  · exact h.threadReply

theorem State.wf.logRejection {p t kind reason} (h : s.wf) : (State.logRejection s p t kind reason).wf := by
  unfold State.logRejection
  exact wf_ite h.logError h

theorem State.wf.uncount {p} (h : s.wf) : (State.uncount s p).wf := by
  unfold State.uncount
  exact wf_ite h h

theorem State.wf.refuse {p reason} (h : s.wf) : (State.refuse s p reason).wf := by
  unfold State.refuse
  dsimp only
  refine State.wf.reply (State.wf.uncount ?_)
  split
  · exact h.logRejection
  · exact h

theorem State.wf.arrive {id ok k} (h : s.wf) (hk : ∀ a0 u1, u1.wf → (k a0 u1).wf) : GivesWf (arrive s id ok k) := by
  unfold Machine.arrive
  split
  · exact .next h
  · split
    · split
      · exact givesWf_ite (.next (hk _ _ h.dropPkt)) (.next h)
      · exact .next h
      · exact .next (hk _ _ h.dropPkt)
    · exact .next h

theorem State.wf.ramRead {t off size a} (h : s.wf) : (State.ramRead s t off size a).wf := by
  unfold State.ramRead
  exact wf_ite h.ramFound h

theorem State.wf.performLoad {p size} (h : s.wf) : (performLoad p size s).wf := by
  unfold Machine.performLoad
  split
  · split
    · split
      · exact h.refuse
      · exact h.reply
    · split
      · exact h.refuse
      · exact h.ramRead.reply
  · exact wf_ite h.refuse h.reply
  · split
    · exact h.refuse
    · split
      · exact h.reply
      · exact h.refuse
  · exact wf_ite h.refuse h.reply
  · exact h

theorem State.wf.performStore {p size data} {s0 : State} (h : s0.wf) (h1 : s.wf) :
    (performStore s0 p size data s).wf := by
  unfold Machine.performStore
  split
  · split
    · split
      · exact h1.refuse
      · exact h1.modTile.reply
    · split
      · exact h1.refuse
      · exact h.atPort h1 fun _ h2 => h2.stepWrite.reply
  · exact wf_ite h1.refuse h1.writeN.reply
  · split
    · exact h1.refuse
    · split
      · exact (h1.of_mgmtWrite ‹_›).reply
      · exact h1.refuse
  · exact wf_ite h1.refuse h1.writeN.reply
  · exact h1

theorem State.wf.performAmo {p op size src cmp} {s0 : State} (h : s0.wf) (h1 : s.wf) :
    (performAmo s0 p op size src cmp s).wf := by
  unfold Machine.performAmo
  dsimp only
  split
  · split
    · split
      · exact h1.refuse
      · exact h1.modTile.reply
    · split
      · exact h1.refuse
      · exact h.atPort h1 (fun _ h2 => wf_ite h2.ramRead.reply h2.stepWrite.reply)
  · exact wf_ite h1.refuse (wf_ite h1.reply h1.writeN.reply)
  · exact h1

theorem State.wf.performRiser {p} {s0 : State} (h : s0.wf) (h1 : s.wf) : (performRiser s0 p s).wf := by
  unfold Machine.performRiser
  dsimp only
  split
  · split
    · exact h1.refuse
    · refine h.atPort h1 (fun _ h2 => ?_)
      split
      · exact h2.riserAdvance.reply
      · exact h2.riserAdvance.reply
      · exact h2.riserPoisoned.reply
      · exact h2
  · exact h1

theorem State.wf.performCounted {p size data roff} {s0 : State} (h : s0.wf) (h1 : s.wf) :
    (performCounted s0 p size data roff s).wf := by
  unfold Machine.performCounted
  dsimp only
  split
  · split
    · exact h1.refuse
    · exact h.atPort h1 (fun _ h2 => h2.countedStep.reply)
  · exact h1

theorem State.wf.performBarrier {p} {s0 : State} (h : s0.wf) (h1 : s.wf) : (performBarrier s0 p s).wf := by
  unfold Machine.performBarrier
  dsimp only
  split
  · split
    · exact h1.refuse
    · refine h.atPort h1 (fun _ h2 => ?_)
      split
      · exact h2.barrierStep.reply
      · exact h2.barrierStep.reply
  · exact h1

theorem State.wf.performDone {p} {s0 : State} (h : s0.wf) (h1 : s.wf) : (performDone s0 p s).wf := by
  unfold Machine.performDone
  dsimp only
  split
  · split
    · exact h1.refuse
    · exact h.atPort h1 (fun _ h2 => wf_ite h2.barrierStep.reply
        (wf_ite h2.barrierStep.reply h2.barrierStep.pendOverrun.reply))
  · exact h1

theorem State.wf.performRelease {p n poison cls} {s0 : State} (h : s0.wf) (h1 : s.wf) :
    (performRelease s0 p n poison cls s).wf := by
  unfold Machine.performRelease
  dsimp only
  split
  · split
    · exact h1.logRejection
    · exact h.atPort h1 (fun _ h2 => h2.riserSignal)
  · exact h1

theorem State.wf.execRoutedLoadArrival {pkt} (h : s.wf) : GivesWf (execRoutedLoadArrival pkt s) := by
  unfold Machine.execRoutedLoadArrival
  refine h.arrive (fun _ _ h1 => ?_)
  split
  · exact h1.performLoad
  · exact h1

theorem State.wf.execRoutedStoreArrival {pkt} (h : s.wf) : GivesWf (execRoutedStoreArrival pkt s) := by
  unfold Machine.execRoutedStoreArrival
  refine h.arrive (fun _ _ h1 => ?_)
  split
  · exact h.performStore h1
  · exact h1

theorem State.wf.execRoutedAmoArrival {pkt} (h : s.wf) : GivesWf (execRoutedAmoArrival pkt s) := by
  unfold Machine.execRoutedAmoArrival
  refine h.arrive (fun _ _ h1 => ?_)
  split
  · exact h.performAmo h1
  · exact h1

theorem State.wf.execRiserStepArrival {pkt} (h : s.wf) : GivesWf (execRiserStepArrival pkt s) := by
  unfold Machine.execRiserStepArrival
  exact h.arrive (fun _ _ h1 => h.performRiser h1)

theorem State.wf.execCountedStoreArrival {pkt} (h : s.wf) : GivesWf (execCountedStoreArrival pkt s) := by
  unfold Machine.execCountedStoreArrival
  refine h.arrive (fun _ _ h1 => ?_)
  split
  · exact h.performCounted h1
  · exact h1

theorem State.wf.execBarrierStepArrival {pkt} (h : s.wf) : GivesWf (execBarrierStepArrival pkt s) := by
  unfold Machine.execBarrierStepArrival
  exact h.arrive (fun _ _ h1 => h.performBarrier h1)

theorem State.wf.execTransferCompletionStep {pkt} (h : s.wf) : GivesWf (execTransferCompletionStep pkt s) := by
  unfold Machine.execTransferCompletionStep
  refine h.arrive (fun _ _ h1 => ?_)
  split
  · exact h.performDone h1
  · exact h1

theorem State.wf.execReleaseSignalArrival {pkt} (h : s.wf) : GivesWf (execReleaseSignalArrival pkt s) := by
  unfold Machine.execReleaseSignalArrival
  refine h.arrive (fun _ _ h1 => ?_)
  split
  · exact h.performRelease h1
  · exact h1

theorem State.wf.execCapqArrival {pkt} (h : s.wf) : GivesWf (execCapqArrival pkt s) := by
  unfold Machine.execCapqArrival
  refine h.arrive (fun _ _ h1 => ?_)
  split
  · split
    · exact h1.refuse
    · exact h1.reply
  · exact h1

theorem State.wf.returned {pkt ok} (h : s.wf) : GivesWf (returned s pkt ok) := by
  unfold Machine.returned
  split
  · exact givesWf_ite (.next h.takeReply) (.next h)
  · exact .next h

/-! ### Sys2Proof/Machine/Base.lean -/

theorem State.wf.result {rd v} (h : s.wf) : GivesWf (result rd v s) := by
  unfold Machine.result
  exact .next h.wx.retire

theorem State.wf.multiply {rd v} (h : s.wf) : GivesWf (multiply rd v s) := by
  unfold Machine.multiply
  exact h.needCap (fun _ h1 => .next h1.wxLate.retire)

theorem State.wf.divide {cycles rd v} (h : s.wf) : GivesWf (divide cycles rd v s) := by
  unfold Machine.divide
  refine h.needCap (fun _ h1 => ?_)
  split
  · exact .next h1.block
  · exact .next h1.modHere.retire

theorem State.wf.jump {rd target} (h : s.wf) : GivesWf (jump rd target s) := by
  unfold Machine.jump
  exact givesWf_ite (.next h.trap) (.next h.wx.retireTo)

theorem State.wf.branch {taken off} (h : s.wf) : GivesWf (branch taken off s) := by
  unfold Machine.branch
  exact givesWf_ite h.jump (.next h.retire)

theorem State.wf.execFence (p q) (h : s.wf) : GivesWf (execFence p q s) :=
  h.awaitAll fun _ h1 => .next h1.retire

theorem State.wf.execFenceTso (p q) (h : s.wf) : GivesWf (execFenceTso p q s) :=
  h.awaitAll fun _ h1 => .next h1.retire

theorem State.wf.execFenceI (h : s.wf) : GivesWf (execFenceI s) := by
  unfold Machine.execFenceI
  exact h.awaitAll (fun _ h1 => .next h1.modMe.retire)

theorem State.wf.execMret (h : s.wf) : GivesWf (execMret s) := by
  unfold Machine.execMret
  exact h.needMachine (fun _ h1 => .next h1.mret)

theorem State.wf.execCsrrw {rd csr rs1} (h : s.wf) : GivesWf (execCsrrw rd csr rs1 s) := by
  unfold Machine.execCsrrw
  exact h.csrOp

theorem State.wf.execCsrrwi {rd csr uimm} (h : s.wf) : GivesWf (execCsrrwi rd csr uimm s) := by
  unfold Machine.execCsrrwi
  exact h.csrOp

theorem State.wf.execCsrrs {rd csr rs1} (h : s.wf) : GivesWf (execCsrrs rd csr rs1 s) := by
  unfold Machine.execCsrrs
  exact h.csrOp

theorem State.wf.execCsrrsi {rd csr uimm} (h : s.wf) : GivesWf (execCsrrsi rd csr uimm s) := by
  unfold Machine.execCsrrsi
  exact h.csrOp

theorem State.wf.execCsrrc {rd csr rs1} (h : s.wf) : GivesWf (execCsrrc rd csr rs1 s) := by
  unfold Machine.execCsrrc
  exact h.csrOp

theorem State.wf.execCsrrci {rd csr uimm} (h : s.wf) : GivesWf (execCsrrci rd csr uimm s) := by
  unfold Machine.execCsrrci
  exact h.csrOp

/-! ### Sys2Proof/Machine/Deconf.lean -/

theorem State.wf.of_deconf {t e u} (h : s.wf) (he : s.deconf t e = some u) : u.wf := by
  unfold State.deconf at he
  split at he
  · cases he; exact h
  · cases he

theorem State.wf.fenceLog {kind cls t} (h : s.wf) : (State.fenceLog s kind cls t).wf := by
  unfold State.fenceLog
  exact h.modPack

theorem State.wf.retireCore {t} (h : s.wf) : (s.retireCore t).wf := by
  unfold State.retireCore
  extract_lets e
  split
  · exact h
  · cases he : s.deconf t e with
    | none => exact h
    | some u => exact h.of_deconf he

theorem State.wf.screened {island fails} (h : s.wf) : (s.screened island fails).wf := by
  unfold State.screened
  refine State.wf.mapTiles (h.foldl fun _ _ h1 => h1.retireCore) fun p => ?_
  split <;> rfl

theorem State.wf.screenFreed {ts} (h : s.wf) : (State.screenFreed s ts).wf := by
  unfold State.screenFreed
  exact h.foldl fun _ _ h1 => wf_ite h1.screened h1

/-! ### Sys2Proof/Machine/Spawning.lean -/

theorem State.wf.execSpawnRequestArrival {pkt} (h : s.wf) : GivesWf (execSpawnRequestArrival pkt s) := by
  unfold Machine.execSpawnRequestArrival
  refine h.arrive (fun _ _ h1 => ?_)
  split
  · exact wf_ite h1.reply (wf_ite h1.reply h1.modTile)
  · exact h1

theorem State.wf.execMessageArrival {pkt} (h : s.wf) : GivesWf (execMessageArrival pkt s) := by
  unfold Machine.execMessageArrival
  refine h.arrive (fun _ _ h1 => ?_)
  split
  · exact wf_ite h1.reply (wf_ite h1.reply h1.modTile.reply)
  · exact h1

theorem State.wf.execSpawnIntakeDrain {tile} (h : s.wf) : GivesWf (execSpawnIntakeDrain tile s) := by
  unfold Machine.execSpawnIntakeDrain
  dsimp only
  refine h.onTile ?_
  split
  · exact .next h
  · exact .next h.setTile.reply

theorem State.wf.execSpawnRefusalReturn {pkt} (h : s.wf) : GivesWf (execSpawnRefusalReturn pkt s) := by
  unfold Machine.execSpawnRefusalReturn
  dsimp only
  split
  · exact .next h
  · split
    · exact givesWf_ite (.next h.dropPkt.sendPkt) (.next h)
    · exact .next h

theorem State.wf.execSpawnResend {entry} (h : s.wf) : GivesWf (execSpawnResend entry s) := by
  unfold Machine.execSpawnResend
  dsimp only
  split
  · exact .next h
  · split
    · exact .next h
    · split
      · exact .next h
      · exact .next (wf_ite (State.wf.of_same h rfl rfl) (State.wf.sendPkt h))

theorem State.wf.countAnswer {t req v} (h : s.wf) : (State.countAnswer s t req v).wf := by
  unfold State.countAnswer
  dsimp only
  split
  · exact h
  · exact wf_ite h.writeResult.freeEntry h.modTile

theorem State.wf.hostStatus {v h'} (h : s.wf) : (State.hostStatus s v h').wf := by
  unfold State.hostStatus
  exact wf_ite h h.writeN

theorem State.wf.execSpawnStatusReturn {pkt} (h : s.wf) : GivesWf (execSpawnStatusReturn pkt s) := by
  unfold Machine.execSpawnStatusReturn
  dsimp only
  split
  · exact .next h
  · split
    · split
      · exact .next (State.wf.hostStatus h)
      · split
        · exact .next (State.wf.countAnswer h)
        · split
          · exact .next h
          · exact .next (State.wf.freeEntry (State.wf.writeResult h))
    · exact .next h

theorem State.wf.execHandlerDispatch {tile} (h : s.wf) : GivesWf (execHandlerDispatch tile s) := by
  unfold Machine.execHandlerDispatch
  dsimp only
  refine h.onTile ?_
  split
  · exact givesWf_ite (.next h) (.next h.setTile)
  · exact .next h

theorem State.wf.execFirmwareThreadFill {tile} (h : s.wf) : GivesWf (execFirmwareThreadFill tile s) := by
  unfold Machine.execFirmwareThreadFill
  dsimp only
  refine h.onTile ?_
  split
  · exact givesWf_ite (.next h.setTile) (.next h)
  · exact .next h

theorem State.wf.execRwaitWake {tile slot} (h : s.wf) : GivesWf (execRwaitWake tile slot s) := by
  unfold Machine.execRwaitWake
  dsimp only
  refine h.onTile ?_
  split
  · exact givesWf_ite (.next h.modTh) (.next h)
  · exact .next h

theorem State.wf.execRwaittTimeout {tile slot} (h : s.wf) : GivesWf (execRwaittTimeout tile slot s) := by
  unfold Machine.execRwaittTimeout
  dsimp only
  refine h.onTile ?_
  split
  · split
    · split
      · exact .next h.modTile
      · exact .next h
    · exact .next h
  · exact .next h

theorem State.wf.execLrHoldExpiry {tile slot} (h : s.wf) : GivesWf (execLrHoldExpiry tile slot s) := by
  unfold Machine.execLrHoldExpiry
  dsimp only
  refine h.onTile ?_
  split
  · exact givesWf_ite (.next h.setTile) (.next h)
  · exact .next h

theorem State.wf.execDivideComplete {tile} (h : s.wf) : GivesWf (execDivideComplete tile s) := by
  unfold Machine.execDivideComplete
  dsimp only
  refine h.onTile ?_
  split
  · exact givesWf_ite (.next h.setTile) (.next h)
  · exact .next h

/-! ### Sys2Proof/Machine/FwPackets.lean -/

theorem State.wf.storePacket {u i bytes dir skip w} (h : s.wf) : (State.storePacket s u i bytes dir skip w).wf := by
  unfold State.storePacket
  exact h.stepWrite.stepWrite.event

theorem State.wf.execNbsendReceive {pkt} {s0 : State} (h : s0.wf) : GivesWf (execNbsendReceive pkt s0) := by
  unfold Machine.execNbsendReceive
  dsimp only
  split
  · exact .next h
  · split
    · split
      · exact .next h.dropPkt.reply
      · split
        · exact .next h
        · split
          · exact .next h.dropPkt.reply
          · exact .next (h.atPort h.dropPkt (fun _ h1 => h1.storePacket.reply))
    · exact .next h

theorem State.wf.execNbsendStatusReturn {pkt} (h : s.wf) : GivesWf (execNbsendStatusReturn pkt s) := by
  unfold Machine.execNbsendStatusReturn
  split
  · exact .next h
  · split
    · exact .next (wf_ite h h.threadReply)
    · exact .next h

theorem State.wf.asThread {t i} (h : s.wf) : (State.asThread s t i).wf := by
  unfold State.asThread
  exact h

theorem State.wf.execRcfgAck {tile slot} (h : s.wf) : GivesWf (execRcfgAck tile slot s) := by
  unfold Machine.execRcfgAck
  dsimp only
  refine h.onTile ?_
  split
  · exact .next h
  · exact givesWf_ite (.next (h.asThread.trap.of_same rfl rfl)) (.next h.modTile.modTh)

theorem State.wf.onThread {t slot f} (h : s.wf) (hf : ∀ a0, (f a0).wf) : GivesWf (onThread s t slot f) := by
  unfold Machine.onThread
  exact h.onTile (.next (wf_ite h (hf _)))

theorem State.wf.execRegisterWrite {home off size v} (h : s.wf) :
    GivesWf (execRegisterWrite home off size v s) := by
  unfold Machine.execRegisterWrite
  split
  · exact h.onTile (.next (wf_ite h.modTile h))
  · refine .next ?_
    cases e : mgmtWrite s _ off size _ with
    | none => exact h
    | some u => exact h.of_mgmtWrite e
  · exact .next h.windowWrite
  · exact .next h

/-! ### Sys2Proof/Machine/Engine.lean -/

theorem State.wf.modChan {t ch f} (h : s.wf) : (State.modChan s t ch f).wf := by
  unfold State.modChan
  exact h.modTile

theorem State.wf.enqueue {stalling rd rs1 ch} (h : s.wf) : GivesWf (enqueue stalling rd rs1 ch s) := by
  unfold Machine.enqueue
  dsimp only
  refine h.needCap (fun _ h1 => ?_)
  split
  · exact .next h1.trap
  · split
    · exact givesWf_ite (.next h1.block) (.next h1.wx.retire)
    · exact .next (State.wf.retire (State.wf.wx (State.wf.modChan h1)))

theorem State.wf.execCpwait {rs1 ch} (h : s.wf) : GivesWf (execCpwait rs1 ch s) := by
  unfold Machine.execCpwait
  dsimp only
  split
  · exact .next h.illegal
  · exact givesWf_ite (.next h.retire) (.next h.modMe.noteIssue)

theorem State.wf.execLdlq {rd rs1} (h : s.wf) : GivesWf (execLdlq rd rs1 s) := by
  unfold Machine.execLdlq
  dsimp only
  refine h.needCap (fun _ h1 => ?_)
  split
  · exact .next h1.trap
  · split
    · exact .next h1.wx.retire
    · exact .next (State.wf.retire (State.wf.wx (State.wf.modHere h1)))

/-! ### Sys2Proof/Machine/Gateway.lean -/

theorem State.wf.gateway {p} (h : s.wf) : (State.gateway s p).wf := by
  unfold State.gateway
  split
  · exact h.sendPkt
  · exact h

theorem State.wf.replacePkt {id q} (h : s.wf) : (State.replacePkt s id q).wf := by
  unfold State.replacePkt
  exact h

theorem State.wf.countStore {p n} (h : s.wf) : (State.countStore s p n).wf := by
  unfold State.countStore
  exact wf_ite h (wf_ite h h)

theorem State.wf.execFabricStoreReceive {pkt bad} (h : s.wf) : GivesWf (execFabricStoreReceive pkt bad s) := by
  unfold Machine.execFabricStoreReceive
  dsimp only
  split
  · exact .next h
  · split
    · split
      · split
        · exact .next h.dropPkt.countStore.logError
        · split
          · exact .next h.countStore.replacePkt
          · exact .next h.dropPkt.gateway
      · exact .next h
    · exact .next h

theorem State.wf.execIntervalCheckArrival {pkt} (h : s.wf) : GivesWf (execIntervalCheckArrival pkt s) := by
  unfold Machine.execIntervalCheckArrival
  dsimp only
  split
  · exact .next h
  · split
    · exact givesWf_ite (.next h) (.next h)
    · exact .next h

theorem State.wf.execIntervalCheckAnswer {pkt} (h : s.wf) : GivesWf (execIntervalCheckAnswer pkt s) := by
  unfold Machine.execIntervalCheckAnswer
  dsimp only
  split
  · exact .next h
  · split
    · split
      · exact .next h
      · split
        · exact .next h.dropPkt.modTile
        · split
          · exact .next h.dropPkt.modTile.modTile.logError
          · exact .next h.dropPkt.modTile.modTile
    · exact .next h

theorem State.wf.paWrites {pa l} (h : s.wf) : (s.paWrites pa l).wf := by
  induction l generalizing s pa with
  | nil => exact h
  | cons v r ih => exact ih h.paWrite

theorem State.wf.report {q timeout} (h : s.wf) : (State.report s q timeout).wf := by
  unfold State.report
  exact h.paWrites

theorem State.wf.modPart {pid f} (h : s.wf) : (State.modPart s pid f).wf := by
  unfold State.modPart
  exact h

theorem State.wf.declareStall {q timeout} (h : s.wf) : (State.declareStall s q timeout).wf := by
  unfold State.declareStall
  exact State.wf.event (State.wf.modPart (wf_ite h h.report))

theorem State.wf.execQuietSample {pid} (h : s.wf) : GivesWf (execQuietSample pid s) := by
  unfold Machine.execQuietSample
  dsimp only
  split
  · exact .next h
  · split
    · exact .next h
    · split
      · exact .next h.modPart
      · exact .next (wf_ite h.modPart.declareStall h.modPart)

/-! ### Sys2Proof/Machine/CopyEngine.lean -/

theorem State.wf.reachPage {t ch c va write} (h : s.wf) : (reachPage s t ch c va write).Formed := by
  unfold Machine.reachPage
  split
  · have h1 := h.of_lookup ‹_›
    extract_lets s1
    have h2 : s1.wf := h1.modTile
    split_ifs <;> exact h2
  · have h1 := h.of_lookup ‹_›
    split
    · exact h1.modTile
    · exact h1.startWalk

theorem State.wf.of_reach {t ch c a n write r} (h : s.wf) (e : reach s t ch c a n write = r) : r.Formed := by
  subst e
  unfold reach
  split
  · exact h
  · split
    · exact h
    · exact h
    · exact h
    · exact h
    · exact h
    · split
      · exact h
      · exact h.reachPage
    · exact h

theorem State.wf.of_channelTwo {t c a r} (h : s.wf) (e : channelTwo s t c a = r) : r.Formed := by
  subst e
  unfold channelTwo
  split
  · trivial
  · split
    · trivial
    · extract_lets va
      split
      · split <;> trivial
      · split
        · exact h.modTile
        · exact h.startWalk

theorem State.wf.launch {p} (h : s.wf) : (State.launch s p).wf := by
  unfold State.launch
  exact wf_ite (State.wf.of_same h rfl rfl) (State.wf.sendPkt h)

theorem State.wf.setRun {t r} (h : s.wf) : (State.setRun s t r).wf := by
  unfold State.setRun
  exact h.modRun

theorem State.wf.failRun {t r reason cls} (h : s.wf) : (State.failRun s t r reason cls).wf := by
  unfold State.failRun
  exact h.setRun

theorem State.wf.pageRequest {t serial page} (h : s.wf) : (State.pageRequest s t serial page).wf := by
  unfold State.pageRequest
  exact h.modPack.modRun.modChan

theorem State.wf.poolStep {t r a b n data sent} (h : s.wf) : (poolStep s t r a b n data sent).wf := by
  unfold Machine.poolStep
  dsimp only
  split
  · exact h.modChan
  · exact wf_ite h.pageRequest (wf_ite h (State.wf.setRun (State.wf.modChan h)))

theorem State.wf.readAt {t r k n take ram} (h : s.wf) : (readAt s t r k n take ram).wf := by
  unfold Machine.readAt
  dsimp only
  split
  · refine State.wf.failRun ?_
    split
    · exact h.ramFound
    · exact h
  · exact h.setRun.modTile

theorem State.wf.putStep {u off absolute bs w} (h : s.wf) : (State.putStep s u off absolute bs w).wf := by
  unfold State.putStep
  exact wf_ite h.modTile h.stepWrite

theorem State.wf.readSpot {t ch r a b n xn take spot} (h : s.wf) : (readSpot s t ch r a b n xn take spot).wf := by
  unfold Machine.readSpot
  dsimp only
  split
  · split
    · exact h
    · split
      · exact h.logRejection.failRun
      · exact wf_ite h.setRun.modTile h.readAt
  · exact wf_ite h.readAt h.failRun
  · exact h.launch.setRun
  · exact h.poolStep

theorem State.wf.readMap {t ch r} (h : s.wf) : (readMap s t ch r).wf := by
  unfold Machine.readMap
  split <;> rename_i e
  · exact h.of_reach e
  · exact State.wf.failRun (h.of_reach e)
  · exact State.wf.readSpot (h.of_reach e)

theorem State.wf.readIndex {t r i} (h : s.wf) : (readIndex s t r i).wf := by
  unfold Machine.readIndex
  exact h.readAt

theorem State.wf.readStep {t ch r b} (h : s.wf) : (readStep s t ch r b).wf := by
  unfold Machine.readStep
  extract_lets i p
  split
  · exact h.readMap
  · split
    · exact wf_ite h.readIndex h
    · extract_lets a
      split
      · exact h
      · split
        · exact h
        · split <;> rename_i e <;> have h1 : State.wf _ := h.of_reach e
          · exact h1
          · exact h1.failRun
          · split
            · split <;> rename_i e2
              · exact h1.readSpot
              · exact h1.failRun
              · exact h1.of_channelTwo e2
              · exact State.wf.failRun (h1.of_channelTwo e2)
            · exact h1.readSpot
    · exact h

theorem State.wf.writeSpot {t ch r a b n bs spot} (h : s.wf) : (writeSpot s t ch r a b n bs spot).wf := by
  unfold Machine.writeSpot
  dsimp only
  split
  · split
    · exact h
    · split
      · exact h.logRejection.failRun
      · refine h.atPort h (fun _ h1 => ?_)
        split
        · exact h1.putStep.setRun.modTile
        · exact wf_ite h1.failRun h1.stepWrite.setRun.modTile
  · exact wf_ite h.writeB.setRun.modTile h.failRun
  · exact h.launch.setRun.modTile
  · exact h.poolStep

theorem State.wf.writeStep {t ch r b} (h : s.wf) : (writeStep s t ch r b).wf := by
  unfold Machine.writeStep
  extract_lets i p a piece
  clear_value piece
  split
  · exact h
  · split
    · exact h
    · split
      · exact h
      · split
        · exact wf_ite h.setRun.modTile h
        · split <;> rename_i e <;> have h1 : State.wf _ := h.of_reach e
          · exact h1
          · exact h1.failRun
          · split
            · exact wf_ite h1.writeSpot h1.failRun
            · exact h1.failRun
            · exact h1.writeSpot

theorem State.wf.execCopyEngineStep {tile ch serial write byte} (h : s.wf) :
    GivesWf (execCopyEngineStep tile ch serial write byte s) := by
  unfold Machine.execCopyEngineStep
  refine h.onTile ?_
  split
  · exact .next h
  · exact .next (wf_ite h.writeStep h.readStep)

theorem State.wf.settleDone {t ch} (h : s.wf) : (State.settleDone s t ch).wf := by
  unfold State.settleDone
  exact h.modChan.modTile

theorem State.wf.dropCommand {t ch serial} (h : s.wf) : (State.dropCommand s t ch serial).wf := by
  unfold State.dropCommand
  exact State.wf.settleDone (wf_ite h.modChan.modTile h.modChan)

theorem State.wf.engineRiser {p u off poison} (h : s.wf) : (engineRiser s p u off poison).1.wf := by
  unfold Machine.engineRiser
  split
  · exact h.logRejection
  · dsimp only
    split
    · exact h.riserAdvance
    · exact h.riserPoisoned

theorem State.wf.of_engineRiser {p u off poison r} (h : s.wf)
  (e : Machine.engineRiser s p u off poison = r) : r.1.wf :=
  e ▸ h.engineRiser

theorem State.wf.poisonDest {t ch c cls dst} (h : s.wf) : (poisonDest s t ch c cls dst).wf := by
  unfold Machine.poisonDest
  dsimp only
  split
  · exact h
  · split
    · exact wf_ite h.launch h.engineRiser
    · exact h.launch

theorem State.wf.failCommand {t ch c reason} (h : s.wf) : (State.failCommand s t ch c reason).wf := by
  unfold State.failCommand
  exact h.modChan.dropCommand

theorem State.wf.failStep {t ch r reason cls} (h : s.wf) : (State.failStep s t ch r reason cls).wf := by
  unfold State.failStep
  dsimp only
  split
  · split
    · exact wf_ite h (h.atPort h (fun _ h1 => h1.poisonDest.setRun))
    · exact h.poisonDest.setRun
  · split
    · exact h
    · split
      · exact h.failCommand
      · exact wf_ite h.launch.setRun (h.atPort h (fun _ h1 => h1.engineRiser.failCommand))

theorem State.wf.execCopyCommandStart {tile ch} (h : s.wf) : GivesWf (execCopyCommandStart tile ch s) := by
  unfold Machine.execCopyCommandStart
  dsimp only
  refine h.onTile ?_
  split
  · exact .next h
  · split
    · exact .next h
    · split
      · exact .next (wf_ite h.modChan.modTile h.failCommand)
      · exact givesWf_ite (.next h) (.next h.modChan.modTile)

theorem State.wf.execCopyDestinationRiserStep {tile ch serial dst} (h : s.wf) :
    GivesWf (execCopyDestinationRiserStep tile ch serial dst s) := by
  unfold Machine.execCopyDestinationRiserStep
  refine h.onTile ?_
  split
  · exact .next h
  · extract_lets c ready
    split
    · extract_lets off
      split
      · refine givesWf_ite (.next h) (.next (h.atPort h fun _ h1 => ?_))
        split
        · exact (h1.of_engineRiser ‹_›).setRun
        · have h2 := h1.of_engineRiser ‹_›
          exact wf_ite h2.setRun h2.failRun
      · exact .next h.launch.setRun
    · exact .next h

theorem State.wf.execCopyCompletionStep {tile ch serial} (h : s.wf) :
    GivesWf (execCopyCompletionStep tile ch serial s) := by
  unfold Machine.execCopyCompletionStep
  dsimp only
  refine h.onTile ?_
  split
  · exact .next h
  · split
    · exact .next (wf_ite h.failStep h)
    · split
      · exact .next h
      · split
        · exact .next h.dropCommand
        · split
          · exact .next h.launch.setRun
          · exact .next (h.atPort h (fun _ h1 => h1.engineRiser.dropCommand))

theorem State.wf.mcastDeliver {t r b node off absolute moved} (h : s.wf) :
    (mcastDeliver s t r b node off absolute moved).wf := by
  unfold Machine.mcastDeliver
  dsimp only
  split
  · exact h
  · split
    · exact h.setRun
    · split
      · exact h
      · split
        · exact h.logRejection.setRun
        · exact h.atPort h (fun _ h1 => h1.putStep.setRun)

theorem State.wf.execMcastFlitForward {tile serial byte node} (h : s.wf) :
    GivesWf (execMcastFlitForward tile serial byte node s) := by
  unfold Machine.execMcastFlitForward
  dsimp only
  refine h.onTile ?_
  split
  · exact .next h
  · exact givesWf_ite (.next h) (.next (wf_ite h.mcastDeliver h.setRun))

theorem State.wf.execMcastAckCombine {tile serial node} (h : s.wf) :
    GivesWf (execMcastAckCombine tile serial node s) := by
  unfold Machine.execMcastAckCombine
  dsimp only
  refine h.onTile ?_
  split
  · exact .next h
  · exact givesWf_ite (.next h) (.next h.setRun)

theorem State.wf.execPooledPageResident {tile} (h : s.wf) : GivesWf (execPooledPageResident tile s) := by
  unfold Machine.execPooledPageResident
  dsimp only
  refine h.onTile ?_
  split
  · exact .next h
  · exact givesWf_ite (.next h.modPack.modChan) (.next h)

theorem State.wf.execPftimeout {tile} (h : s.wf) : GivesWf (execPftimeout tile s) := by
  unfold Machine.execPftimeout
  dsimp only
  refine h.onTile ?_
  split
  · exact .next h
  · exact givesWf_ite (.next h.modPack.modRun.modChan) (.next h)

theorem State.wf.execAtsTranslationResponse {pkg pasid page grant} (h : s.wf) :
    GivesWf (execAtsTranslationResponse pkg pasid page grant s) := by
  unfold Machine.execAtsTranslationResponse
  dsimp only
  split
  · exact .next h
  · split
    · exact .next (h.modPack.foldl fun _ _ h1 => h1.modChan)
    · exact .next (h.foldl fun _ _ h1 => h1.pageRequest)

theorem State.wf.execPageRequestResponseFailure {pkg pasid page} (h : s.wf) :
    GivesWf (execPageRequestResponseFailure pkg pasid page s) := by
  unfold Machine.execPageRequestResponseFailure
  dsimp only
  split
  · exact .next h
  · refine .next (h.modPack.foldl fun _ _ h1 => ?_)
    split
    · exact wf_ite h1.modRun.modChan h1
    · exact h1

theorem State.wf.settlePurges {pkg} (h : s.wf) : (State.settlePurges s pkg).wf := by
  unfold State.settlePurges
  exact h

theorem State.wf.execUioCompletion {pkt poisoned} (h : s.wf) : GivesWf (execUioCompletion pkt poisoned s) := by
  unfold Machine.execUioCompletion
  split
  · exact .next h
  · extract_lets s1 s2
    have h1 : s1.wf := h
    have h2 : s2.wf := by
      unfold s2
      split
      · exact h1.writeN.modRun
      · exact h1.modRun
      · exact h1
    split
    · exact .next h2.settlePurges
    · exact .next h2

/-! ### Sys2Proof/Machine/LadleEngine.lean -/

theorem State.wf.modLadle {t f} (h : s.wf) : (State.modLadle s t f).wf := by
  unfold State.modLadle
  exact h.modTile

theorem State.wf.setLadle {t c} (h : s.wf) : (State.setLadle s t c).wf := by
  unfold State.setLadle
  exact h.modLadle

theorem State.wf.dropLadle {t serial} (h : s.wf) : (State.dropLadle s t serial).wf := by
  unfold State.dropLadle
  exact h.modLadle

theorem State.wf.ownWrite {t off bs} (h : s.wf) : (State.ownWrite s t off bs).wf := by
  unfold State.ownWrite
  exact h.stepWrite

theorem State.wf.ladleRiser {t c home off a poison} (h : s.wf) : (ladleRiser s t c home off a poison).1.wf := by
  unfold Machine.ladleRiser
  dsimp only
  split
  · exact h.engineRiser
  · exact h.launch

theorem State.wf.ladleEnd {t c off k} (h : s.wf) (hk : ∀ u, u.wf → (k u).wf) : (State.ladleEnd s t c off k).wf := by
  unfold State.ladleEnd
  exact h.atPort h (fun _ h2 => hk _ h2)

theorem State.wf.failLadle {t c reason} (h : s.wf) : (State.failLadle s t c reason).wf := by
  unfold State.failLadle
  dsimp only
  split
  · exact h.ladleEnd (fun _ h1 => h1.ownWrite.setLadle)
  · split
    · split
      · exact wf_ite h (h.atPort h (fun _ h1 => h1.ladleRiser.setLadle))
      · exact h.ladleRiser.setLadle
    · exact wf_ite (h.ladleEnd (fun _ h1 => h1.riserPoisoned.dropLadle)) h.dropLadle

theorem State.wf.joinRound {t c d counts bad} (h : s.wf) : (State.joinRound s t c d counts bad).wf := by
  unfold State.joinRound
  dsimp only
  split
  · exact h.modLadle.setLadle.of_same rfl rfl
  · exact h.modLadle.setLadle.of_same rfl rfl

theorem State.wf.execLadleCommandStart {tile} (h : s.wf) : GivesWf (execLadleCommandStart tile s) := by
  unfold Machine.execLadleCommandStart
  dsimp only
  refine h.onTile ?_
  split
  · exact .next h
  · split
    · exact .next h
    · split
      · exact .next h.setLadle
      · exact givesWf_ite (.next h.modLadle.setLadle) (.next h.setLadle)

theorem State.wf.failPlan {t c d reason} (h : s.wf) : (State.failPlan s t c d reason).wf := by
  unfold State.failPlan
  exact h.joinRound.setLadle

theorem State.wf.tabled {t c bs} (h : s.wf) : (State.tabled s t c bs).wf := by
  unfold State.tabled
  exact wf_ite h.joinRound h.setLadle

theorem State.wf.described {t c d} (h : s.wf) : (State.described s t c d).wf := by
  unfold State.described
  exact wf_ite (wf_ite h.failPlan h.setLadle) (wf_ite h.tabled h.setLadle)

theorem State.wf.descStep {t c blk} (h : s.wf) : (descStep s t c blk).wf := by
  unfold Machine.descStep
  split
  · exact h
  · split
    · exact h.setLadle
    · split
      · exact h.described
      · exact h.setLadle

theorem State.wf.tableStep {t c blk} (h : s.wf) : (tableStep s t c blk).wf := by
  unfold Machine.tableStep
  dsimp only
  split
  · exact h
  · split
    · exact wf_ite h.failPlan h.setLadle
    · split
      · exact h.tabled
      · exact h.setLadle

theorem State.wf.tookRound {r t} (h : s.wf) : (State.tookRound s r t).wf := by
  unfold State.tookRound
  exact wf_ite h h

theorem State.wf.execPlanScanComplete {tile} (h : s.wf) : GivesWf (execPlanScanComplete tile s) := by
  unfold Machine.execPlanScanComplete
  dsimp only
  refine h.onTile ?_
  split
  · exact .next h
  · split
    · exact .next h
    · split
      · exact .next h
      · split
        · exact .next h.tookRound
        · split
          · exact .next h.tookRound.setLadle
          · exact givesWf_ite (.next h.tookRound.setLadle) (.next h.tookRound.setLadle)

theorem State.wf.resultStep {t c off} (h : s.wf) : (resultStep s t c off).wf := by
  unfold Machine.resultStep
  split
  · exact h
  · exact h.atPort h (fun _ h1 => h1.ownWrite.setLadle)

theorem State.wf.setRow {t c r} (h : s.wf) : (State.setRow s t c r).wf := by
  unfold State.setRow
  exact h.setLadle

theorem State.wf.scatterEntry {t c j} (h : s.wf) : (scatterEntry s t c j).wf := by
  unfold Machine.scatterEntry
  dsimp only
  split
  · exact h
  · split
    · exact h
    · split
      · exact h.setLadle
      · split
        · exact h.setLadle
        · exact wf_ite h.setLadle h.setRow

theorem State.wf.recordStep {t c row k} (h : s.wf) : (recordStep s t c row k).wf := by
  unfold Machine.recordStep
  dsimp only
  split
  · exact h
  · split
    · exact h.setLadle
    · exact wf_ite h.setLadle h.setRow

theorem State.wf.gateStep {t c row k} (h : s.wf) : (gateStep s t c row k).wf := by
  unfold Machine.gateStep
  dsimp only
  split
  · exact h
  · split
    · exact h
    · split
      · exact h.setLadle
      · exact h.setRow

theorem State.wf.combineEntry {t c row k} (h : s.wf) : (combineEntry s t c row k).wf := by
  unfold Machine.combineEntry
  split
  · exact h
  · split
    · split
      · exact h.setLadle
      · exact h.setRow
    · exact h

theorem State.wf.scatterRead {t c r b} (h : s.wf) : (scatterRead s t c r b).wf := by
  unfold Machine.scatterRead
  dsimp only
  split
  · exact h
  · split
    · exact h
    · split
      · exact h.setLadle
      · exact h.setRow

theorem State.wf.takeAt {t c r b k n xn} (h : s.wf) : (takeAt s t c r b k n xn).wf := by
  unfold Machine.takeAt
  exact wf_ite h.setLadle h.setRow

theorem State.wf.combineRead {t c r b} (h : s.wf) : (combineRead s t c r b).wf := by
  unfold Machine.combineRead
  extract_lets len
  split
  · exact h
  · extract_lets a
    split
    · exact h
    · split
      · exact h
      · split <;> rename_i e <;> have h1 : State.wf _ := h.of_reach e
        · exact h1
        · exact h1.setLadle
        · extract_lets p
          refine wf_ite h1 ?_
          split
          · exact h1.logRejection.setLadle
          · exact h1.takeAt
        · exact wf_ite h1.takeAt h1.setLadle
        · exact h1.launch.setRow
        · exact h1.setLadle

theorem State.wf.scatterWrite {t c r b} (h : s.wf) : (scatterWrite s t c r b).wf := by
  unfold Machine.scatterWrite
  extract_lets a
  split
  · exact h
  · split
    · split <;> rename_i e <;> have h1 : State.wf _ := h.of_reach e
      · exact h1
      · exact h1.setLadle
      · extract_lets p w
        refine wf_ite h1 ?_
        split
        · exact h1.logRejection.setLadle
        · exact h1.atPort h1 fun _ h2 => h2.stepWrite.setRow
      · exact wf_ite h1.writeB.setRow h1.setLadle
      · exact h1.launch.setRow
      · exact h1.setLadle
    · exact h

theorem State.wf.combineWrite {t c r b} (h : s.wf) : (combineWrite s t c r b).wf := by
  unfold Machine.combineWrite
  dsimp only
  split
  · split
    · exact h
    · split
      · exact h.setLadle
      · split
        · exact h.logRejection.setLadle
        · exact h.atPort h (fun _ h1 => wf_ite h1.ownWrite.setLadle h1.ownWrite.setRow)
  · exact h

theorem State.wf.scatterRiser {t c r} (h : s.wf) : (scatterRiser s t c r).wf := by
  unfold Machine.scatterRiser
  dsimp only
  split
  · exact h
  · split
    · exact h.setLadle
    · split
      · exact wf_ite h (h.atPort h (fun _ h1 => h1.ladleRiser.setLadle))
      · exact h.launch.setLadle
      · exact h.setLadle

theorem State.wf.ladleStep {t c step} (h : s.wf) : (ladleStep s t c step).wf := by
  unfold Machine.ladleStep
  dsimp only
  split
  · exact h.descStep
  · exact h.tableStep
  · exact wf_ite h.recordStep h
  · exact wf_ite h.gateStep h
  · exact wf_ite h.scatterEntry h.combineEntry
  · split
    · exact wf_ite h.scatterRead h.combineRead
    · exact h
  · split
    · exact wf_ite h.scatterWrite h.combineWrite
    · exact h
  · split
    · exact wf_ite h.scatterRiser h
    · exact h
  · exact h.resultStep

theorem State.wf.execLadleEngineStep {tile turn} (h : s.wf) : GivesWf (execLadleEngineStep tile turn s) := by
  unfold Machine.execLadleEngineStep
  refine h.onTile ?_
  split
  · exact .next h
  · exact .next (wf_ite h.ladleStep h)

theorem State.wf.endLadle {t c f} (h : s.wf) (hf : ∀ u, u.wf → (f u).wf) : (State.endLadle s t c f).wf := by
  unfold State.endLadle
  split
  · exact h.ladleEnd (fun _ h2 => State.wf.dropLadle (State.wf.riserAdvance (hf _ h2)))
  · exact State.wf.dropLadle (hf _ h)

theorem State.wf.execLadleCompletionStep {tile} (h : s.wf) : GivesWf (execLadleCompletionStep tile s) := by
  unfold Machine.execLadleCompletionStep
  refine h.onTile ?_
  split
  · exact .next h
  · split
    · exact .next h
    · split
      · exact .next h.failLadle
      · exact .next (wf_ite (h.endLadle (fun _ h1 => h1)) h)

theorem State.wf.resetMember {pid d open_ t} (h : s.wf) : (resetMember s pid d open_ t).wf := by
  unfold Machine.resetMember
  exact h.modLadle

theorem State.wf.resetRounds {t d} (h : s.wf) : (State.resetRounds s t d).wf := by
  unfold State.resetRounds
  exact State.wf.of_same (h.foldl fun _ _ h1 => h1.resetMember) rfl rfl

theorem State.wf.execLadleReset {tile serial} (h : s.wf) : GivesWf (execLadleReset tile serial s) := by
  unfold Machine.execLadleReset
  refine h.onTile ?_
  split
  · exact .next h
  · split
    · exact .next h
    · split
      · exact .next h.setLadle
      · split
        · exact .next h.failLadle
        · exact .next (wf_ite h (h.endLadle (fun _ h1 => h1.resetRounds)))

/-! ### Sys2Proof/Machine/MatrixOps.lean -/

theorem State.wf.modMatrix {t f} (h : s.wf) : (State.modMatrix s t f).wf := by
  unfold State.modMatrix
  exact h.modTile

theorem State.wf.settleQueue {t} (h : s.wf) : (State.settleQueue s t).wf := by
  unfold State.settleQueue
  exact h.modMatrix

theorem State.wf.enqueueMatrix {op acc a b after} (hafter : ∀ u, u.wf → (after u).wf) (h : s.wf) :
    GivesWf (enqueueMatrix op acc a b after s) := by
  unfold Machine.enqueueMatrix
  dsimp only
  split
  · exact .next h.block
  · exact .next (State.wf.retire (hafter _ (State.wf.settleQueue (State.wf.modMatrix h))))

theorem State.wf.mma {op cap scales acc pa pb} (h : s.wf) : GivesWf (mma op cap scales acc pa pb s) := by
  unfold Machine.mma
  dsimp only
  refine h.needCap (fun _ h1 => ?_)
  split
  · exact .next h1.trap
  · split
    · exact .next h1.trap
    · exact h1.enqueueMatrix (fun _ h2 => h2)

theorem State.wf.execMld {acc p} (h : s.wf) : GivesWf (execMld acc p s) := by
  unfold Machine.execMld
  dsimp only
  split
  · exact .next h.trap
  · exact h.enqueueMatrix (fun _ h1 => h1)

theorem State.wf.mst {op len align scales acc p after} (hafter : ∀ u, u.wf → (after u).wf) (h : s.wf) :
    GivesWf (mst op len align scales acc p after s) := by
  unfold Machine.mst
  dsimp only
  split
  · exact .next h.trap
  · exact h.enqueueMatrix (fun _ h2 => hafter _ h2)

theorem State.wf.advanceSeed {n} (h : s.wf) : (State.advanceSeed s n).wf := by
  unfold State.advanceSeed
  exact h.modMe

theorem State.wf.execMstBf {acc p} (h : s.wf) : GivesWf (execMstBf acc p s) := by
  unfold Machine.execMstBf
  split
  · exact h.needCap (fun _ h1 => h1.mst (fun _ h2 => h2.advanceSeed))
  · exact h.mst (fun _ h1 => h1)

theorem State.wf.execMgate {rs1 rs2} (h : s.wf) : GivesWf (execMgate rs1 rs2 s) := by
  unfold Machine.execMgate
  dsimp only
  split
  · exact .next h.modMe.retire
  · split
    · exact givesWf_ite (.next h.trap) (.next h.modMe.retire)
    · exact .next h.trap

theorem State.wf.awaitQueue {p k} (h : s.wf) (hk : ∀ u, u.wf → GivesWf (k u)) : GivesWf (awaitQueue p s k) := by
  unfold Machine.awaitQueue
  exact givesWf_ite (.next h.modMe.block) (hk _ h.modMe)

theorem State.wf.execMfence (h : s.wf) : GivesWf (execMfence s) := by
  unfold Machine.execMfence
  exact h.awaitQueue (fun _ h1 => .next h1.retire)

theorem State.wf.wvLate {vd v n} (h : s.wf) : (State.wvLate s vd v n).wf := by
  unfold State.wvLate
  exact h.modMe

theorem State.wf.execMrowv {vd acc row} (h : s.wf) : GivesWf (execMrowv vd acc row s) := by
  unfold Machine.execMrowv
  exact h.awaitQueue (fun _ h1 => givesWf_ite (.next h1.trap) (.next h1.wvLate.retire))

/-! ### Sys2Proof/Machine/MatrixUnit.lean -/

theorem State.wf.dropEntry {t serial} (h : s.wf) : (State.dropEntry s t serial).wf := by
  unfold State.dropEntry
  exact h.modMatrix.settleQueue.modTile

theorem State.wf.setEntry {t e} (h : s.wf) : (State.setEntry s t e).wf := by
  unfold State.setEntry
  exact h.modMatrix

theorem State.wf.setAcc {t n a} (h : s.wf) : (State.setAcc s t n a).wf := by
  unfold State.setAcc
  exact h.modMatrix

theorem State.wf.execMatrixGateEvaluate {tile} (h : s.wf) : GivesWf (execMatrixGateEvaluate tile s) := by
  unfold Machine.execMatrixGateEvaluate
  dsimp only
  refine h.onTile ?_
  split
  · exact .next h
  · split
    · exact .next h
    · split
      · exact .next h.setAcc.dropEntry
      · exact givesWf_ite (.next h.setEntry.settleQueue) (.next h.setEntry)

theorem State.wf.execMatrixFetch {tile blk} (h : s.wf) : GivesWf (execMatrixFetch tile blk s) := by
  unfold Machine.execMatrixFetch
  refine h.onTile ?_
  split
  · exact .next h
  · exact givesWf_ite (.next h.setEntry) (.next h)

theorem State.wf.execMzeroCompute {tile} (h : s.wf) : GivesWf (execMzeroCompute tile s) := by
  unfold Machine.execMzeroCompute
  refine h.onTile ?_
  split
  · exact givesWf_ite (.next h.setAcc.dropEntry) (.next h)
  · exact .next h

theorem State.wf.execMldCompute {tile} (h : s.wf) : GivesWf (execMldCompute tile s) := by
  unfold Machine.execMldCompute
  dsimp only
  refine h.onTile ?_
  split
  · exact givesWf_ite (.next h.setAcc.dropEntry) (.next h)
  · exact .next h

theorem State.wf.execMmaCompute {tile} (h : s.wf) : GivesWf (execMmaCompute tile s) := by
  unfold Machine.execMmaCompute
  dsimp only
  refine h.onTile ?_
  split
  · split
    · exact .next h
    · exact givesWf_ite (.next h.setAcc.dropEntry) (.next h)
  · exact .next h

theorem State.wf.markBytes {t l} (h : s.wf) : (State.markBytes s t l).wf := by
  unfold State.markBytes
  exact h.foldl fun _ _ h1 => h1.markWord

theorem State.wf.execMstCompute {tile serial} (h : s.wf) : GivesWf (execMstCompute tile serial s) := by
  unfold Machine.execMstCompute
  dsimp only
  refine h.onTile ?_
  split
  · exact .next h
  · split
    · exact givesWf_ite (.next h.setEntry) (.next h)
    · exact .next h.dropEntry
    · exact .next (h.atPort h (fun _ h1 => wf_ite (State.wf.dropEntry
        (wf_ite h1.stepWrite.markBytes h1.stepWrite)) (State.wf.setEntry
          (wf_ite h1.stepWrite.markBytes h1.stepWrite))))

/-! ### Sys2Proof/Machine/Partition.lean -/

theorem State.wf.called {pkg op} (h : s.wf) : (State.called s pkg op).wf := by
  unfold State.called
  exact wf_ite h.event h

theorem State.wf.mailbox {pkg op seq bad k} (h : s.wf) (hk : ∀ u, u.wf → (k u).wf) :
    GivesWf (mailbox s pkg op seq bad k) := by
  unfold Machine.mailbox
  exact .next (wf_ite h (h.submit (fun _ h2 => wf_ite h2.called.respond (wf_ite h2.called.respond
    (hk _ h2.called)))))

theorem State.wf.served {pid result} (h : s.wf) : (State.served s pid result).wf := by
  unfold State.served
  exact h.foldl fun _ _ h1 => wf_ite h1.respond h1

theorem State.wf.paWriteBytes {pa l} (h : s.wf) : (s.paWriteBytes pa l).wf := by
  induction l generalizing s pa with
  | nil => exact h
  | cons b r ih => exact ih h.writeB

theorem State.wf.rcbSet {rcb st} (h : s.wf) : (State.rcbSet s rcb st).wf := by
  unfold State.rcbSet
  exact h.paWrite

theorem State.wf.rcbStore {q} (h : s.wf) : (State.rcbStore s q).wf := by
  unfold State.rcbStore
  exact h.paWrite.paWrite.paWrite.paWrite.paWrite.paWrite.paWrite.paWrite.paWrite.paWrite

theorem State.wf.handBack {q ts} (h : s.wf) : (State.handBack s q ts).wf := by
  unfold State.handBack
  exact h.foldl fun _ _ h1 => h1.modTile

theorem State.wf.clearSpad {t} (h : s.wf) : (s.clearSpad t).wf :=
  ⟨Memory.wf_filter _ _ h.1, h.2⟩

theorem State.wf.dropAsid {asid} (h : s.wf) : (s.dropAsid asid).wf := by
  unfold State.dropAsid
  extract_lets gone s1
  have h1 : s1.wf := h.foldl fun _ _ h2 => h2.endWalk
  exact ⟨h1.1, Assoc.rising_map _ (fun _ => by rfl) _ h1.2⟩

theorem State.wf.openCore {q t} (h : s.wf) : (State.openCore s q t).wf := by
  unfold State.openCore
  exact h.clearSpad.modTile

theorem State.wf.loadImage {q img root} (h : s.wf) : (State.loadImage s q img root).wf := by
  unfold State.loadImage
  exact h.writeB.writeB

theorem State.wf.wakeIsland {i} (h : s.wf) : (State.wakeIsland s i).wf := by
  unfold State.wakeIsland
  exact h.modIsland

theorem State.wf.wakeAll {ts} (h : s.wf) : (State.wakeAll s ts).wf := by
  unfold State.wakeAll
  exact h.foldl fun _ _ h1 => h1.wakeIsland

theorem State.wf.openServe {pkg} (h : s.wf) : (s.openServe pkg).wf := by
  unfold State.openServe
  split
  · exact h.respond
  · extract_lets ts s1 s2
    have h1 : s1.wf := h
    have h2 : s2.wf := State.wf.dropAsid (h1.rcbStore.foldl fun _ _ h => h.openCore)
    exact wf_ite h.wakeAll h2.loadImage.respond

theorem State.wf.execOpenPart {pkg seq} (h : s.wf) : GivesWf (execOpenPart pkg seq s) := by
  unfold Machine.execOpenPart
  exact h.mailbox (fun _ h1 => h1.openServe)

theorem State.wf.holdPart {q} (h : s.wf) : (State.holdPart s q).wf := by
  unfold State.holdPart
  exact h.foldl fun _ _ h1 => h1.modCore

theorem State.wf.endThreads {t} (h : s.wf) : (State.endThreads s t).wf := by
  unfold State.endThreads
  exact h.foldl fun _ _ h1 => wf_ite h1 h1.emptySlot

theorem State.wf.startClose {pid} (h : s.wf) : (State.startClose s pid).wf := by
  unfold State.startClose
  exact h.foldl fun _ _ h1 => State.wf.modPart (State.wf.rcbSet (h1.holdPart.foldl fun _ _ h2 =>
    h2.modTile.endThreads))

theorem State.wf.execClosePart {pkg seq} (h : s.wf) : GivesWf (execClosePart pkg seq s) := by
  unfold Machine.execClosePart
  refine h.mailbox (fun _ h1 => ?_)
  split
  · exact wf_ite h1.respond h1.startClose.modMail
  · exact h1.respond

theorem State.wf.seal {ts} (h : s.wf) : (State.seal s ts).wf := by
  unfold State.seal
  exact h.foldl fun _ _ h1 => h1.modTile

theorem State.wf.discardAll {t} (h : s.wf) : (State.discardAll s t).wf := by
  unfold State.discardAll
  exact h.modTile

theorem State.wf.closeCore {t} (h : s.wf) : (State.closeCore s t).wf := by
  unfold State.closeCore
  exact h.clearSpad.modTile

theorem State.wf.execCloseDrainComplete {pid} (h : s.wf) : GivesWf (execCloseDrainComplete pid s) := by
  unfold Machine.execCloseDrainComplete
  split
  · exact .next h
  · extract_lets fam ts above quietNow pids s1 s2 s3
    have h1 : s1.wf := (h.foldl fun _ _ h => h.closeCore).foldl fun _ _ h => h.rcbSet
    have h2 : s2.wf := h1
    have h3 : s3.wf := State.wf.handBack (s := { s2 with parts := _ }) h2
    have h4 := State.wf.screenFreed (ts := ts) (h3.foldl (l := fam) fun _ p h => h.dropAsid (asid := p.asid))
    refine givesWf_ite (.next h) (givesWf_ite (.next ?_) (givesWf_ite (.next h) (givesWf_ite (.next h.seal)
      (givesWf_ite (.next h) (givesWf_ite (.next ?_) (.next h4.served))))))
    · exact h.foldl fun _ _ h => h.endThreads
    · exact h.foldl fun _ _ h => h.discardAll

theorem State.wf.closeDomain {job fdom cause epc val} (h : s.wf) :
    (State.closeDomain s job fdom cause epc val).wf := by
  unfold State.closeDomain
  exact h.foldl fun _ _ h1 => h1.startClose.notice

/-! ### Sys2Proof/Machine/Suspension.lean -/

theorem State.wf.stopPart {q} (h : s.wf) : (State.stopPart s q).wf := by
  unfold State.stopPart
  exact State.wf.modPart (h.holdPart.foldl fun _ _ h1 => h1.modTile)

theorem State.wf.startSuspend {pid} (h : s.wf) : (State.startSuspend s pid).wf := by
  unfold State.startSuspend
  exact h.foldl fun _ _ h1 => h1.stopPart

theorem State.wf.execSuspend {pkg seq} (h : s.wf) : GivesWf (execSuspend pkg seq s) := by
  unfold Machine.execSuspend
  refine h.mailbox (fun _ h1 => ?_)
  split
  · exact wf_ite h1.respond (wf_ite h1.respond h1.startSuspend.modMail)
  · exact h1.respond

theorem State.wf.discardStalled {t} (h : s.wf) : (State.discardStalled s t).wf := by
  unfold State.discardStalled
  dsimp only
  split
  · exact h
  · split
    · exact h
    · exact wf_ite h.failRun.modChan.modTile.modPart h.failRun.modChan

theorem State.wf.saveWord {pa k} (h : s.wf) : (State.saveWord s pa k).wf := by
  unfold State.saveWord
  exact wf_ite h.paWrite.markWord h.paWrite

theorem State.wf.saveSpad {block t} (h : s.wf) : (State.saveSpad s block t).wf := by
  unfold State.saveSpad
  exact h.foldl fun _ _ h1 => h1.saveWord

theorem State.wf.loadSpad {block t} (h : s.wf) : (State.loadSpad s block t).wf := by
  unfold State.loadSpad
  exact h.foldl fun _ _ h1 => wf_ite h1.writeN.markWord h1.writeN

theorem State.wf.saveSlot {pa h'} (h : s.wf) : (State.saveSlot s pa h').wf := by
  unfold State.saveSlot
  exact h.paWrites.paWrites.paWrites

theorem State.wf.rejoin {r t} (h : s.wf) : (State.rejoin s r t).wf := by
  unfold State.rejoin
  exact h

theorem State.wf.saveCore {q c} (h : s.wf) : (s.saveCore q c).1.wf := by
  unfold State.saveCore
  extract_lets t block s1 x s2 s3 s4 s5 s6 s7 unjoined saved
  have h1 : s1.wf := h.modTile
  have h2 : s2.wf := h1.saveSpad
  have h3 : s3.wf := h2.foldl fun _ _ h => h.saveSlot
  have h4 : s4.wf := h3.foldl fun _ _ h => h.paWrites
  exact h4.paWrites.paWrites.paWrites

theorem State.wf.vacate {t} (h : s.wf) : (State.vacate s t).wf := by
  unfold State.vacate
  exact State.wf.modTile (h.foldl fun _ _ h1 => wf_ite h1 h1.emptySlot)

theorem State.wf.savePart {q} (h : s.wf) : (s.savePart q).wf := by
  unfold State.savePart
  extract_lets cores head r s1 s2
  clear_value head
  have hr : r.1.wf := by
    unfold r
    exact wf_foldl_fst (h.paWrites (l := head)) fun _ _ h => h.saveCore
  have h1 : s1.wf := hr.foldl fun _ _ h => h.vacate
  have h2 : s2.wf := h1
  exact h2.rcbSet.modPart.screenFreed

theorem State.wf.checkAll {t} (h : s.wf) : (State.checkAll s t).wf := by
  unfold State.checkAll
  exact h.foldl fun _ _ h1 => wf_ite h1 h1.asThread.sendChecks

theorem State.wf.execSuspendSave {pid} (h : s.wf) : GivesWf (execSuspendSave pid s) := by
  unfold Machine.execSuspendSave
  dsimp only
  split
  · exact .next h
  · split
    · exact .next h
    · split
      · exact .next h
      · split
        · exact .next (State.wf.of_same (h.foldl fun _ _ h1 => h1.checkAll) rfl rfl)
        · split
          · exact .next h.seal
          · split
            · exact .next (h.foldl fun _ _ h1 => h1.discardStalled)
            · split
              · exact .next h
              · exact .next (State.wf.served (h.foldl fun _ _ h1 => h1.savePart))

theorem State.wf.loadCore {q c t} (h : s.wf) : (State.loadCore s q c t).wf := by
  unfold State.loadCore
  exact State.wf.settleQueue (State.wf.modTile (h.loadSpad.modTile.foldl fun _ _ h1 => h1.rejoin))

theorem State.wf.resumeServe {pkg} (h : s.wf) : (s.resumeServe pkg).wf := by
  unfold State.resumeServe
  split
  · exact h.respond
  · extract_lets ts old left s1 s2 s3 s4
    have h1 : s1.wf := State.wf.handBack (s := { s with parts := _ }) h
    have h2 : s2.wf := h1.foldl fun _ _ h => h.modTile
    have h3 : s3.wf := State.wf.dropAsid (h2.foldl fun _ _ h => h.loadCore)
    have h4 : s4.wf := h3
    exact wf_ite h.wakeAll h4.rcbSet.respond

theorem State.wf.execResume {pkg seq} (h : s.wf) : GivesWf (execResume pkg seq s) := by
  unfold Machine.execResume
  exact h.mailbox (fun _ h1 => h1.resumeServe)

theorem State.wf.execQuiesceBoundExceeded {pid} (h : s.wf) : GivesWf (execQuiesceBoundExceeded pid s) := by
  unfold Machine.execQuiesceBoundExceeded
  dsimp only
  split
  · exact .next h
  · split
    · exact .next h
    · exact givesWf_ite (.next h) (.next h.closeDomain.served)

/-! ### Sys2Proof/Machine/Host.lean -/

theorem State.wf.execInval {pkg seq} (h : s.wf) : GivesWf (execInval pkg seq s) := by
  unfold Machine.execInval
  exact h.mailbox fun _ h1 => ⟨h1.1, Assoc.rising_map _ (fun _ => by rfl) _ h1.2⟩

theorem State.wf.execInvalComplete {pkg} (h : s.wf) : GivesWf (execInvalComplete pkg s) := by
  unfold Machine.execInvalComplete
  split
  · exact .next h
  · exact givesWf_ite (.next h) (.next (State.wf.respond h))

theorem State.wf.execHriser {pkg seq} (h : s.wf) : GivesWf (execHriser pkg seq s) := by
  unfold Machine.execHriser
  dsimp only
  refine h.mailbox (fun _ h1 => ?_)
  split
  · exact h1.respond
  · split
    · exact h1.respond
    · split
      · exact h1.respond
      · split
        · exact wf_ite h1.respond (wf_ite h1.respond h1.modTile.respond)
        · exact h1.modTile.respond

theorem State.wf.hostSend {pkg org op home off win} (h : s.wf) : (State.hostSend s pkg org op home off win).wf := by
  unfold State.hostSend
  exact h

theorem State.wf.dropWrite {pkg} (h : s.wf) : (State.dropWrite s pkg).wf := by
  unfold State.dropWrite
  exact h.modMail

theorem State.wf.execHostMeshRead {pkg off size} (h : s.wf) : GivesWf (execHostMeshRead pkg off size s) := by
  unfold Machine.execHostMeshRead
  refine .next (wf_ite h ?_)
  split
  · exact h.complete
  · exact h.hostSend

theorem State.wf.hostWrite {pkg off bs} (h : s.wf) : (hostWrite s pkg off bs).wf := by
  unfold Machine.hostWrite
  split
  · exact h.dropWrite
  · exact h.hostSend

theorem State.wf.execHostMeshWrite {pkg off data} (h : s.wf) : GivesWf (execHostMeshWrite pkg off data s) := by
  unfold Machine.execHostMeshWrite
  exact .next (wf_ite h (wf_ite (wf_ite h h.dropWrite) (wf_ite h.dropWrite (h.foldl fun _ _ h1 => h1.hostWrite))))

theorem State.wf.execHostSpawnWrite {pkg off data} (h : s.wf) : GivesWf (execHostSpawnWrite pkg off data s) := by
  unfold Machine.execHostSpawnWrite
  dsimp only
  refine .next (wf_ite h ?_)
  split
  · exact h.dropWrite
  · exact h

theorem State.wf.execHostSignalWrite {pkg off data} (h : s.wf) : GivesWf (execHostSignalWrite pkg off data s) := by
  unfold Machine.execHostSignalWrite
  dsimp only
  refine .next (wf_ite h ?_)
  split
  · exact h.dropWrite
  · exact h.hostSend

theorem State.wf.execHostMemoryAccess {pkg off size data} (h : s.wf) :
    GivesWf (execHostMemoryAccess pkg off size data s) := by
  unfold Machine.execHostMemoryAccess
  dsimp only
  refine .next (wf_ite h ?_)
  split
  · exact wf_ite h.complete h.hostSend
  · exact wf_ite h (h.foldl fun _ _ h1 => h1.hostSend)

theorem State.wf.readWindow {pkg off size} (h : s.wf) : (State.readWindow s pkg off size).wf := by
  unfold State.readWindow
  exact wf_ite h (wf_ite h.complete h.complete)

/-! ### Sys2Proof/Machine/Fabric.lean -/

theorem State.wf.setLink {port l} (h : s.wf) : (State.setLink s port l).wf := by
  unfold State.setLink
  exact h

theorem State.wf.fromFabric {port p} (h : s.wf) : (State.fromFabric s port p).wf := by
  unfold State.fromFabric
  dsimp only
  split
  · exact h.sendPkt
  · split
    · exact State.wf.sendPkt h
    · exact wf_ite (State.wf.sendPkt h) (State.wf.gateway h)

theorem State.wf.failEngines {port t} (h : s.wf) : (State.failEngines s port t).wf := by
  unfold State.failEngines
  exact h.modTile

theorem State.wf.dropRoute {port} (h : s.wf) : (State.dropRoute s port).wf := by
  unfold State.dropRoute
  exact h

theorem State.wf.failLink {port} (h : s.wf) : (State.failLink s port).wf := by
  unfold State.failLink
  exact (State.wf.dropRoute (State.wf.setLink (h.foldl fun _ _ h1 => h1.failEngines))).foldl fun _ _ h1 =>
    h1.closeDomain

theorem State.wf.loseMessage {p} (h : s.wf) : (State.loseMessage s p).wf := by
  unfold State.loseMessage
  split
  · exact h
  · split
    · exact h.modRun
    · exact h.sendPkt
    · exact wf_ite h.sendPkt h

theorem State.wf.placed {p} (h : s.wf) : (State.placed s p).wf := by
  unfold State.placed
  exact wf_ite h.sendPkt h

theorem State.wf.placeFlit {port n credits} (h : s.wf) : (s.placeFlit port n credits).wf := by
  unfold State.placeFlit
  refine wf_ite h (State.wf.foldl ?_ fun _ _ h1 => h1.placed)
  exact h

theorem State.wf.losePaths (h : s.wf) : s.losePaths.wf := by
  unfold State.losePaths
  refine State.wf.foldl ?_ fun _ _ h1 => h1.loseMessage
  exact h

theorem State.wf.placeFlits {n} (h : s.wf) : (State.placeFlits s n).wf := by
  unfold State.placeFlits
  exact h.losePaths.foldl fun _ _ h1 => h1.placeFlit

theorem State.wf.acknowledged {port ack again} (h : s.wf) : (State.acknowledged s port ack again).wf := by
  unfold State.acknowledged
  exact wf_ite (wf_ite h.setLink.failLink h.setLink) h.setLink

theorem State.wf.execFabricFlitReceive {port header crcOk payload} (h : s.wf) :
    GivesWf (execFabricFlitReceive port header crcOk payload s) := by
  unfold Machine.execFabricFlitReceive
  exact .next (wf_ite h (wf_ite (wf_ite h.setLink.failLink h.setLink) (State.wf.acknowledged (h.setLink.foldl
    fun _ _ h1 => h1.fromFabric))))

theorem State.wf.noAnswer {t id} (h : s.wf) : (State.noAnswer s t id).wf := by
  unfold State.noAnswer
  dsimp only
  split
  · exact State.wf.threadReply h
  · exact State.wf.modTile (State.wf.modTile h)

theorem State.wf.execLinkFailureTimeout {port} (h : s.wf) : GivesWf (execLinkFailureTimeout port s) := by
  unfold Machine.execLinkFailureTimeout
  dsimp only
  split
  · exact .next h
  · exact givesWf_ite (.next h) (.next (h.setLink.foldl fun _ _ h1 => h1.noAnswer))

/-! ### Sys2Proof/Machine/Health.lean -/

theorem State.wf.fence {t cls} (h : s.wf) : (s.fence t cls).wf := by
  unfold State.fence
  extract_lets s1 s2
  have h1 : s1.wf := h.modCore
  have h2 : s2.wf := by
    unfold s2
    split
    · exact h1.of_deconf ‹_›
    · exact h1.notice
  exact h2.fenceLog.event

theorem State.wf.testFailed {t cls again} (h : s.wf) : (State.testFailed s t cls again).wf := by
  unfold State.testFailed
  exact wf_ite h (wf_ite h.fence h.fenceLog.modTile)

theorem State.wf.execPeriodicTest {tile fails} (h : s.wf) : GivesWf (execPeriodicTest tile fails s) := by
  unfold Machine.execPeriodicTest
  exact h.onTile (givesWf_ite (.next h) (.next (State.wf.modTile (h.foldl fun _ _ h1 => h1.testFailed))))

theorem State.wf.wornOut {island} (h : s.wf) : (s.wornOut island).wf := by
  unfold State.wornOut
  refine h.mapTiles fun p => ?_
  split <;> rfl

theorem State.wf.execGuardAdjust {island fails} (h : s.wf) : GivesWf (execGuardAdjust island fails s) := by
  unfold Machine.execGuardAdjust
  exact .next (wf_ite h (wf_ite h.screened (State.wf.screened (wf_ite h.modIsland.wornOut h.modIsland))))

theorem State.wf.execEolFit {island} (h : s.wf) : GivesWf (execEolFit island s) := by
  unfold Machine.execEolFit
  exact .next (wf_ite h h.modIsland)

theorem State.wf.upset {e} (h : s.wf) : (State.upset s e).wf := by
  unfold State.upset
  exact wf_ite h (wf_ite h.markWord h.modIsland)

theorem State.wf.execPatrolScrubStep {chan addr error} (h : s.wf) :
    GivesWf (execPatrolScrubStep chan addr error s) := by
  unfold Machine.execPatrolScrubStep
  exact h.onTile (givesWf_ite (.next h) (givesWf_ite (.next h.modTile.modIsland) (givesWf_ite
    (.next h.modTile.markWord.modTile.logError) (.next h.modTile))))

/-! ### Sys2Proof/Machine/Power.lean -/

theorem State.wf.powerOff {t} (h : s.wf) : (State.powerOff s t).wf := by
  unfold State.powerOff
  exact h.clearSpad.modTile

theorem State.wf.execIslandPowerDown {island} (h : s.wf) : GivesWf (execIslandPowerDown island s) := by
  unfold Machine.execIslandPowerDown
  exact .next (wf_ite h (State.wf.modIsland (wf_ite (h.foldl fun _ _ h1 => h1.powerOff) h)))

theorem State.wf.serveWaiting (h : s.wf) : (State.serveWaiting s).wf := by
  unfold State.serveWaiting
  exact h.foldl fun _ _ h1 => wf_ite h1 (wf_ite h1.respond (wf_ite h1.openServe h1.resumeServe))

theorem State.wf.execIslandWakeComplete {island} (h : s.wf) : GivesWf (execIslandWakeComplete island s) := by
  unfold Machine.execIslandWakeComplete
  split
  · exact .next h
  · exact givesWf_ite (.next h) (.next h.modIsland.serveWaiting)

theorem State.wf.execShareGrant {pkg power} (h : s.wf) : GivesWf (execShareGrant pkg power s) := by
  unfold Machine.execShareGrant
  exact .next (wf_ite h (State.wf.modPack ((h.foldl fun _ _ h1 => h1.modIsland).foldl fun _ _ h1 => h1.modIsland)))

theorem State.wf.execEnvelopeCheck {power} (h : s.wf) : GivesWf (execEnvelopeCheck power s) := by
  unfold Machine.execEnvelopeCheck
  exact .next (wf_ite h (State.wf.of_same (h.foldl fun _ _ h1 => wf_ite h1.modPack h1) rfl rfl))

/-! ### Sys2Proof/Machine/Boot.lean -/

theorem State.wf.verifyFlash (h : s.wf) : (State.verifyFlash s).wf := by
  unfold State.verifyFlash
  exact wf_ite h h

theorem State.wf.execImageUpdate {pkg seq} (h : s.wf) : GivesWf (execImageUpdate pkg seq s) := by
  unfold Machine.execImageUpdate
  exact .next (wf_ite h (wf_ite (h.submit (fun _ h1 => h1.respond)) (h.submit (fun _ h1 => State.wf.respond
    (wf_ite (h1.draw.of_same rfl rfl) h1.draw)))))

theorem State.wf.execAttest {pkg seq} (h : s.wf) : GivesWf (execAttest pkg seq s) := by
  unfold Machine.execAttest
  exact h.mailbox (fun _ h1 => h1.writeB.respond)

theorem State.wf.execSvncommit {pkg seq} (h : s.wf) : GivesWf (execSvncommit pkg seq s) := by
  unfold Machine.execSvncommit
  exact h.mailbox (fun _ h1 => State.wf.respond h1)

theorem State.wf.buildMap (h : s.wf) : (State.buildMap s).wf := by
  unfold State.buildMap
  exact h.foldl fun _ _ h1 => h1.foldl fun _ _ h2 => h2.modTile

theorem State.wf.setGeometry {now} (h : s.wf) : (State.setGeometry s now).wf := by
  unfold State.setGeometry
  exact h

theorem State.wf.hbmCleared (h : s.wf) : s.hbmCleared.wf := by
  unfold State.hbmCleared
  split
  · exact h
  · exact ⟨Memory.wf_filter _ _ h.1, h.2⟩

theorem State.wf.clearHeaders {t} (h : s.wf) : (State.clearHeaders s t).wf := by
  unfold State.clearHeaders
  exact h.writeB

theorem State.wf.powerUp {c ts} (h : s.wf) : (s.powerUp c ts).wf := by
  unfold State.powerUp
  extract_lets old s1 s2
  have h1 : s1.wf := ⟨h.1, Assoc.rising_map _ (fun _ => by rfl) _ (Assoc.rising_filter _ _ h.2)⟩
  have h2 : s2.wf := h1.foldl fun _ _ h => h.clearSpad.clearHeaders.setTile
  refine State.wf.foldl ?_ fun _ _ h => h.modIsland
  exact h2.hbmCleared

theorem State.wf.bootTests {c} (h : s.wf) : (State.bootTests s c).wf := by
  unfold State.bootTests
  exact (h.paWriteBytes.foldl fun _ _ h1 => h1.writeB.modTile).foldl fun _ _ h1 => wf_ite h1.testFailed h1

theorem State.wf.publish (h : s.wf) : (State.publish s).wf := by
  unfold State.publish
  exact h.foldl fun _ _ h1 => h1.writeN.foldl fun _ _ h2 => h2.writeN

theorem State.wf.calibrateFailed {step} (h : s.wf) : (State.calibrateFailed s step).wf := by
  unfold State.calibrateFailed
  exact State.wf.notice h

theorem State.wf.ready (h : s.wf) : (State.ready s).wf := by
  unfold State.ready
  exact h

theorem State.wf.latticeBoot (h : s.wf) : s.latticeBoot.wf := by
  unfold State.latticeBoot
  extract_lets s1 s2
  have h1 : s1.wf := h
  have h2 : s2.wf := h1.writeB
  exact h2.foldl fun _ _ h => wf_ite h h.modTile

theorem State.wf.calibrate {c} (h : s.wf) : (s.calibrate c).wf := by
  unfold State.calibrate
  extract_lets cr s0 p s1 now s2 s3 s3' u
  have h0 : s0.wf := h
  have hp : p.wf := h0.powerUp
  have h1 : s1.wf := hp
  have h2 : s2.wf := h1.buildMap
  have h3 : s3.wf := h2.bootTests
  have h3' : s3'.wf := h3
  have hu : u.wf := h3'.setGeometry.publish
  exact wf_ite (wf_ite h0.calibrateFailed h1.latticeBoot.ready)
    (wf_ite h0.calibrateFailed (wf_ite h1.calibrateFailed (wf_ite h2.calibrateFailed
      (wf_ite h3'.calibrateFailed (State.wf.ready hu)))))

theorem State.wf.latAfterEast {t r b status} (h : s.wf) : (latAfterEast s t r b status).wf := by
  unfold Machine.latAfterEast
  exact wf_ite (wf_ite h.modTile.modTh h.modTile.emptySlot) (wf_ite h.modTile h)

theorem State.wf.latSend {t b dir k} (h : s.wf) (hk : ∀ u a1, u.wf → (k u a1).wf) : (latSend s t b dir k).wf := by
  unfold Machine.latSend
  split
  · exact hk _ _ h
  · split
    · exact h
    · exact wf_ite h (h.atPort h (fun _ h2 => hk _ _ h2.storePacket))

theorem State.wf.latTrap {t d} (h : s.wf) : (s.latTrap t d).wf := by
  unfold State.latTrap
  extract_lets r u
  have hr : r.2.wf := h
  have hu : u.wf := hr.modTile.asThread.takeTrap
  exact hu

theorem State.wf.execLatticeResponder {tile} (h : s.wf) : GivesWf (execLatticeResponder tile s) := by
  unfold Machine.execLatticeResponder
  dsimp only
  refine h.onTile ?_
  split
  · exact .next h
  · split
    · exact givesWf_ite (.next h.latTrap) (.next h.modTile.modTile)
    · exact .next (h.latSend (fun _ _ h1 => wf_ite h1.modTile.latAfterEast h1.modTile))
    · split
      · exact .next h
      · exact .next (h.atPort h (fun _ h1 => h1.stepWrite.modTile))

/-! ### Sys2Proof/Machine/Cryo.lean -/

theorem State.wf.unpowered (h : s.wf) : s.unpowered.wf :=
  ⟨Memory.wf_filter _ _ h.1, Assoc.rising_map _ (fun _ => by rfl) _ (Assoc.rising_filter _ _ h.2)⟩

theorem State.wf.managedIslands (h : s.wf) : s.managedIslands.wf := by
  unfold State.managedIslands
  refine State.wf.foldl ?_ fun _ _ h1 => h1.modIsland
  exact h

theorem State.wf.islandSample {e} (h : s.wf) : (State.islandSample s e).wf := by
  unfold State.islandSample
  exact h.modIsland

theorem State.wf.islandClocks (h : s.wf) : (State.islandClocks s).wf := by
  unfold State.islandClocks
  exact h

theorem State.wf.stopAll (h : s.wf) : (State.stopAll s).wf := by
  unfold State.stopAll
  dsimp only
  refine (h.foldl fun _ _ h1 => ?_).foldl fun _ _ h1 => ?_
  · split
    · exact wf_ite h1.startClose h1
    · exact h1
  · split
    · exact wf_ite h1.startSuspend h1
    · exact h1

theorem State.wf.islandsOff (h : s.wf) : (State.islandsOff s).wf := by
  unfold State.islandsOff
  exact wf_ite (State.wf.managedIslands (h.foldl fun _ _ h1 => h1.powerOff)) h

theorem State.wf.hbmOff (h : s.wf) : s.hbmOff.wf :=
  ⟨Memory.wf_filter _ _ h.1, Assoc.rising_map _ (fun _ => by rfl) _ h.2⟩

theorem State.wf.enter {st} (h : s.wf) : (State.enter s st).wf := by
  unfold State.enter
  exact h

theorem State.wf.warmService (h : s.wf) : s.warmService.wf :=
  h.islandsOff.hbmOff

theorem State.wf.precoolFailed {why val} (h : s.wf) : (State.precoolFailed s why val).wf := by
  unfold State.precoolFailed
  exact h.enter.notice

theorem State.wf.enterSoak (h : s.wf) : (State.enterSoak s).wf := by
  unfold State.enterSoak
  exact h

theorem State.wf.transition {x} (h : s.wf) : (s.transition x).wf := by
  unfold State.transition
  extract_lets c
  split
  · exact h
  · exact wf_ite h h
  · exact wf_ite h.enter (wf_ite h.precoolFailed (wf_ite h.precoolFailed h))
  · exact wf_ite h.enterSoak h
  · exact wf_ite h h
  · exact wf_ite h.enterSoak (wf_ite h.enter h)
  · refine wf_ite h.enter (wf_ite h.enter ?_)
    split
    · exact wf_ite (State.wf.calibrate h) h
    · exact h
  · exact wf_ite h.enter (wf_ite h.enter h)
  · exact wf_ite h.warmService h

theorem State.wf.execTmaxSample {readings} (h : s.wf) : GivesWf (execTmaxSample readings s) := by
  unfold Machine.execTmaxSample
  extract_lets x s1 s2 s3
  have h0 : State.wf { s with cryo := s.cryo.sampled x s.tick } := h
  have h1 : s1.wf := State.wf.islandClocks (h0.foldl fun _ _ h => h.islandSample)
  have h2 : s2.wf := h1.transition
  have h3 : s3.wf := wf_ite h2.stopAll h2
  exact .next (wf_ite h (State.wf.serveWaiting (wf_ite h3.islandsOff h3)))

theorem State.wf.execPrecoolTimeout (h : s.wf) : GivesWf (execPrecoolTimeout s) := by
  unfold Machine.execPrecoolTimeout
  exact .next (wf_ite h.precoolFailed h)

theorem State.wf.execSoakTimerExpiry {c} (h : s.wf) : GivesWf (execSoakTimerExpiry c s) := by
  unfold Machine.execSoakTimerExpiry
  exact .next (wf_ite h.calibrate h)

theorem State.wf.execCryoCool {pkg seq} (h : s.wf) : GivesWf (execCryoCool pkg seq s) := by
  unfold Machine.execCryoCool
  dsimp only
  split
  · exact .next h
  · exact h.mailbox (fun _ h1 => wf_ite (State.wf.respond h1) h1.respond)

theorem State.wf.execCryoWarm {pkg seq} (h : s.wf) : GivesWf (execCryoWarm pkg seq s) := by
  unfold Machine.execCryoWarm
  dsimp only
  split
  · exact .next h
  · exact h.mailbox (fun _ h1 => wf_ite (State.wf.respond h1) h1.respond)

theorem State.wf.execCryoRecal {pkg seq c} (h : s.wf) : GivesWf (execCryoRecal pkg seq c s) := by
  unfold Machine.execCryoRecal
  dsimp only
  split
  · exact .next h
  · exact h.mailbox (fun _ h1 => wf_ite (State.wf.respond h1) h1.respond)

theorem State.wf.execMailboxSubmission {pkg v} (h : s.wf) : GivesWf (execMailboxSubmission pkg v s) := by
  unfold Machine.execMailboxSubmission
  dsimp only
  split
  · exact h.execOpenPart
  · exact h.execClosePart
  · exact h.execSuspend
  · exact h.execResume
  · exact h.execInval
  · exact h.execHriser
  · split
    · exact h.mailbox (fun _ h1 => h1)
    · exact givesWf_ite h.execCryoCool (givesWf_ite h.execCryoWarm (.next h))
  · exact h.execAttest
  · exact h.execSvncommit
  · exact h.execImageUpdate
  · exact h.mailbox (fun _ h1 => h1)

/-! ### Sys2Proof/Machine/VectorOps.lean -/

theorem State.wf.vresult {vd v lat} (h : s.wf) : GivesWf (vresult vd v lat s) := by
  unfold Machine.vresult
  exact .next h.wvLate.retire

theorem State.wf.vec1 {f lat vd vs1 g} (h : s.wf) : GivesWf (vec1 f lat vd vs1 g s) := by
  unfold Machine.vec1
  exact h.needCap (fun _ h1 => h1.vresult)

theorem State.wf.vec2 {f lat vd vs1 vs2 g} (h : s.wf) : GivesWf (vec2 f lat vd vs1 vs2 g s) := by
  unfold Machine.vec2
  exact h.needCap (fun _ h1 => h1.vresult)

theorem State.wf.execVfma {f vd vs1 vs2} (h : s.wf) : GivesWf (execVfma f vd vs1 vs2 s) := by
  unfold Machine.execVfma
  exact h.needCap (fun _ h1 => h1.vresult)

theorem State.wf.special {g vd vs1} (h : s.wf) : GivesWf (special g vd vs1 s) := by
  unfold Machine.special
  exact h.needCap (fun _ h1 => givesWf_ite (.next h1.block) h1.modHere.vresult)

theorem State.wf.needCaps {l k} (h : s.wf) (hk : ∀ u, u.wf → GivesWf (k u)) : GivesWf (needCaps l s k) := by
  induction l generalizing s with
  | nil => exact hk _ h
  | cons c r ih => exact h.needCap fun _ h1 => ih h1

theorem State.wf.execVpack {f m vd vs1} (h : s.wf) : GivesWf (execVpack f m vd vs1 s) := by
  unfold Machine.execVpack
  exact h.needCap (fun _ h1 => .next h1.wvLate.wvLate.retire)

theorem State.wf.writeGroup {w l vs} (h : s.wf) : (writeGroup w l vs s).wf := by
  induction l generalizing s vs with
  | nil => exact h
  | cons v r ih => exact ih h.wvLate

theorem State.wf.execVunpack {f m vd vs1} (h : s.wf) : GivesWf (execVunpack f m vd vs1 s) := by
  unfold Machine.execVunpack
  exact h.needCap (fun _ h1 => .next h1.writeGroup.retire)

theorem State.wf.execVredsum {f vd vs1} (h : s.wf) : GivesWf (execVredsum f vd vs1 s) := by
  unfold Machine.execVredsum
  exact h.vec1

theorem State.wf.execVredmax {f vd vs1} (h : s.wf) : GivesWf (execVredmax f vd vs1 s) := by
  unfold Machine.execVredmax
  exact h.vec1

theorem State.wf.execVscan {f excl vd vs1} (h : s.wf) : GivesWf (execVscan f excl vd vs1 s) := by
  unfold Machine.execVscan
  exact h.vec1

theorem State.wf.resolve {write size a k} (h : s.wf) (hk : ∀ a0 u1, u1.wf → GivesWf (k a0 u1)) :
    GivesWf (resolve write size a s k) := by
  unfold Machine.resolve
  refine h.checked (fun _ => ?_)
  split
  · exact hk _ _ h
  · split
    · exact .next h.trap
    · exact h.withHome (fun _ _ _ _ h2 => hk _ _ h2)

theorem State.wf.resolveAll {write size l ps k} (h : s.wf) (hk : ∀ ps u, u.wf → GivesWf (k ps u)) :
    GivesWf (resolveAll write size l ps s k) := by
  induction l generalizing s ps with
  | nil => exact hk _ _ h
  | cons a r ih => exact h.resolve fun _ _ h1 => ih h1

theorem State.wf.needEntries {n k} (h : s.wf) (hk : ∀ u, u.wf → GivesWf (k u)) : GivesWf (needEntries n s k) := by
  unfold Machine.needEntries
  exact givesWf_ite (hk _ h) (.next h.block)

theorem State.wf.sendLoads {size gid l} (h : s.wf) : (sendLoads size gid l s).wf := by
  induction l generalizing s with
  | nil => exact h
  | cons p r ih =>
    obtain ⟨i, a, place⟩ := p
    cases place with
    | near off => exact ih h
    | far home off cls => exact ih h.issue

theorem State.wf.dropGroup {r} (h : s.wf) : (State.dropGroup s r).wf := by
  unfold State.dropGroup
  split
  · exact h
  · exact h.modHere

theorem State.wf.cutVec {t i} (h : s.wf) : (State.cutVec s t i).wf := by
  unfold State.cutVec
  dsimp only
  split
  · exact h
  · split
    · exact h.groupStep
    · exact h

theorem State.wf.endVec {first r} (h : s.wf) : (endVec first r s).wf := by
  unfold Machine.endVec
  dsimp only
  split
  · refine State.wf.retire (wf_ite h.modMe ?_)
    split
    · exact h.modMe.wvLate
    · exact h.modMe.groupStep
  · refine State.wf.modMe (wf_ite h.modMe ?_)
    split
    · exact h.modMe.wvLate
    · exact h.modMe.groupStep

theorem State.wf.vecNext {first r} (h : s.wf) : (vecNext first r s).wf := by
  unfold Machine.vecNext
  exact wf_ite h.endVec (State.wf.block (State.wf.modMe (wf_ite h.noteIssue h)))

theorem State.wf.vecWaits {first r} (h : s.wf) : (vecWaits first r s).wf := by
  unfold Machine.vecWaits
  exact wf_ite h (wf_ite h.block h.noteIssue.modMe.block)

theorem State.wf.vecStep {first r} (h : s.wf) : GivesWf (vecStep first r s) := by
  unfold Machine.vecStep
  split
  · exact .next h.endVec
  · split
    · exact .next h.vecWaits
    · split
      · exact givesWf_ite (.next h.vecWaits) (.next h.storeLocal.vecNext)
      · exact State.wf.localMark (wf_ite h.dropGroup h) (fun _ h1 => .next h1.vecNext)

theorem State.wf.unmarked {near size k} (h : s.wf) (hk : ∀ u, u.wf → GivesWf (k u)) :
    GivesWf (unmarked near size s k) := by
  unfold Machine.unmarked
  split
  · exact .next h.trap
  · exact hk _ h

theorem State.wf.vload {size vd addrs} (h : s.wf) : GivesWf (vload size vd addrs s) := by
  unfold Machine.vload
  refine h.resolveAll fun _ _ h1 => h1.needEntries fun _ h2 => givesWf_ite h2.vecStep (h2.unmarked fun _ h3 => ?_)
  extract_lets g s1 s2
  have h4 : s1.wf := State.wf.modHere h3
  have h5 : s2.wf := h4.sendLoads
  exact givesWf_ite (.next h5.retire) h5.vecStep

theorem State.wf.sendStores {size gid v k l} (h : s.wf) (hk : ∀ u, u.wf → GivesWf (k u)) :
    GivesWf (sendStores size gid v k l s) := by
  induction l generalizing s with
  | nil => exact hk _ h
  | cons p r ih =>
    obtain ⟨i, a, place⟩ := p
    cases place with
    | near off => exact ih h
    | far home off cls =>
      unfold Machine.sendStores
      dsimp only
      split
      · exact h.countFabric fun _ h1 => ih h1.modHere.issue.modMe
      · exact ih h.modHere.issue.modMe

theorem State.wf.withGroup {size} (h : s.wf) : (withGroup s size).wf := by
  unfold Machine.withGroup
  exact State.wf.modHere (wf_ite (State.wf.modMe h) h)

theorem State.wf.vstore {size v addrs} (h : s.wf) : GivesWf (vstore size v addrs s) := by
  unfold Machine.vstore
  refine h.resolveAll fun _ _ h1 => h1.needEntries fun _ h2 => ?_
  exact State.wf.sendStores (wf_ite h2 h2.withGroup) fun _ h3 => h3.vecStep

/-! ### Sys2Proof/Machine/Issue.lean -/

theorem State.wf.fetchedBad (h : s.wf) : (State.fetchedBad s).wf := by
  unfold State.fetchedBad
  exact wf_ite h.ramFound h

theorem State.wf.faultNotice (h : s.wf) : (State.faultNotice s).wf := by
  unfold State.faultNotice
  exact h.notice

theorem State.wf.endByFirmware {cause notice} (h : s.wf) : (State.endByFirmware s cause notice).wf := by
  unfold State.endByFirmware
  exact State.wf.emptySlot (State.wf.noteIssue (wf_ite h.logError.faultNotice h.logError))

theorem State.wf.resumeAt {pc} (h : s.wf) : (State.resumeAt s pc).wf := by
  unfold State.resumeAt
  exact h.modMe.noteIssue

theorem State.wf.stallNotices {t} (h : s.wf) : (State.stallNotices s t).wf := by
  unfold State.stallNotices
  exact h.foldl fun _ _ h1 => h1.notice.modPart

theorem State.wf.serviceEvents {t} (h : s.wf) : (State.serviceEvents s t).wf := by
  unfold State.serviceEvents
  dsimp only
  refine State.wf.modTile (wf_ite ?_ (wf_ite h.stallNotices h))
  split
  · exact State.wf.closeDomain (wf_ite h.stallNotices h)
  · exact wf_ite h.stallNotices h

theorem State.wf.dispose {cause int} (h : s.wf) : (dispose s cause int).wf := by
  unfold Machine.dispose
  dsimp only
  split
  · exact h.endByFirmware
  · exact wf_ite h.serviceEvents.resumeAt (wf_ite h.wx.resumeAt h.endByFirmware)

theorem State.wf.issueSlot {t i} (h : s.wf) : (issueSlot s t i).wf := by
  unfold Machine.issueSlot
  dsimp only
  split
  · exact h.asThread.dispose
  · split
    · exact h.asThread.serviceEvents.noteIssue.emptySlot
    · split
      · exact wf_ite h.asThread.block h.asThread.modMe.cutVec.takeTrap
      · split
        · exact h.asThread.takeTrap
        · split
          · exact h.asThread.trap
          · split
            · exact State.wf.trap (wf_ite h.asThread.fetchedBad h.asThread)
            · exact h.asThread.modMe.of_same rfl rfl

theorem State.wf.vecSteps {t slots} (h : s.wf) : (s.vecSteps t slots).wf := by
  unfold State.vecSteps
  refine h.foldl fun u i h1 => ?_
  dsimp only
  split
  · exact h1
  · split
    · rename_i e
      have h2 := GivesWf.of_next h1.asThread.vecStep e
      exact h2
    · exact h1

theorem State.wf.issueCycle {t} (h : s.wf) : (issueCycle s t).wf := by
  unfold Machine.issueCycle
  dsimp only
  split
  · exact h.modTile.setTile.vecSteps
  · split
    · exact h.modTile.setTile.vecSteps.issueSlot
    · exact h.modTile.setTile.vecSteps.issueSlot.vecSteps

/-! ### Sys2Proof/Machine/Schedule.lean -/

theorem State.wf.noteBusy (h : s.wf) : s.noteBusy.wf := by
  unfold State.noteBusy
  exact ⟨h.1, Assoc.rising_map _ (fun p => by dsimp only; split <;> rfl) _ h.2⟩

theorem State.wf.prefetch {n} (h : s.wf) : (s.prefetch n).wf :=
  h.mapTiles fun _ => rfl

theorem State.wf.after {f} (h : s.wf) (hf : ∀ u, u.wf → GivesWf (f u)) : (s.after f).wf := by
  unfold State.after
  split
  · exact (hf _ h).of_next ‹_›
  · exact h

theorem State.wf.instants {n} (h : s.wf) : (State.instants s n).wf := by
  unfold State.instants
  extract_lets s1 s2 s3 s4 s5 s6 s7 s8
  have h1 : s1.wf := h.foldl fun _ _ hu => hu.upset
  have h2 : s2.wf := State.wf.placeFlits (h1.foldl fun _ _ hu => hu.readWindow)
  have h3 : s3.wf := h2.after fun _ hu => hu.execTmaxSample
  have h4 : s4.wf := State.wf.after (h3.after fun _ hu => hu.execSoakTimerExpiry) fun _ hu => hu.execPrecoolTimeout
  have h5 : s5.wf := h4.foldl fun _ _ hu => hu.after fun _ hv => hv.execLinkFailureTimeout
  have h6 : s6.wf := h5.foldl fun _ _ hu =>
    State.wf.after (hu.after fun _ hv => hv.execQuietSample) fun _ hv => hv.execQuiesceBoundExceeded
  have h7 : s7.wf := h6.foldl fun _ _ hu =>
    State.wf.after (State.wf.after (hu.after fun _ hv => hv.execGuardAdjust) fun _ hv => hv.execEolFit)
      fun _ hv => hv.execIslandWakeComplete
  have h8 : s8.wf := h7.foldl fun _ _ hu => hu.after fun _ hv => hv.execPeriodicTest
  exact State.wf.after (h8.foldl fun _ _ hu => hu.after fun _ hv => hv.execShareGrant) fun _ hu =>
    hu.execEnvelopeCheck

theorem State.wf.takeTurns (h : s.wf) : s.takeTurns.wf := by
  unfold State.takeTurns
  exact h.mapTiles fun p => by dsimp only; split <;> rfl

theorem State.wf.nextTick (h : s.wf) : s.nextTick.wf := by
  unfold State.nextTick
  extract_lets n src s1 s2 u
  have hsrc : src.wf := h.noteBusy
  have h1 : s1.wf := hsrc
  have h2 : s2.wf := h1.instants.prefetch
  have hu : u.wf := h2.takeTurns
  clear_value s2 u
  exact hu

theorem State.wf.exec {i} (h : s.wf) : GivesWf (exec i s) := by
  cases i with
  | lui => exact h.result
  | auipc => exact h.result
  | jal => exact h.jump
  | jalr => exact h.jump
  | beq => exact h.branch
  | bne => exact h.branch
  | blt => exact h.branch
  | bge => exact h.branch
  | bltu => exact h.branch
  | bgeu => exact h.branch
  | lb => exact h.load
  | lh => exact h.load
  | lw => exact h.load
  | ld => exact h.load
  | lbu => exact h.load
  | lhu => exact h.load
  | lwu => exact h.load
  | sb => exact h.store
  | sh => exact h.store
  | sw => exact h.store
  | sd => exact h.store
  | addi => exact h.result
  | slti => exact h.result
  | sltiu => exact h.result
  | xori => exact h.result
  | ori => exact h.result
  | andi => exact h.result
  | slli => exact h.result
  | srli => exact h.result
  | srai => exact h.result
  | add => exact h.result
  | sub => exact h.result
  | sll => exact h.result
  | slt => exact h.result
  | sltu => exact h.result
  | xor => exact h.result
  | srl => exact h.result
  | sra => exact h.result
  | or => exact h.result
  | and => exact h.result
  | addiw => exact h.result
  | slliw => exact h.result
  | srliw => exact h.result
  | sraiw => exact h.result
  | addw => exact h.result
  | subw => exact h.result
  | sllw => exact h.result
  | srlw => exact h.result
  | sraw => exact h.result
  | mul => exact h.multiply
  | mulh => exact h.multiply
  | mulhsu => exact h.multiply
  | mulhu => exact h.multiply
  | div => exact h.divide
  | divu => exact h.divide
  | rem => exact h.divide
  | remu => exact h.divide
  | mulw => exact h.multiply
  | divw => exact h.divide
  | divuw => exact h.divide
  | remw => exact h.divide
  | remuw => exact h.divide
  | lrW => exact h.loadReserved
  | lrD => exact h.loadReserved
  | scW => exact h.storeConditional
  | scD => exact h.storeConditional
  | amoswapW => exact h.amo
  | amoswapD => exact h.amo
  | amoaddW => exact h.amo
  | amoaddD => exact h.amo
  | amoxorW => exact h.amo
  | amoxorD => exact h.amo
  | amoandW => exact h.amo
  | amoandD => exact h.amo
  | amoorW => exact h.amo
  | amoorD => exact h.amo
  | amominW => exact h.amo
  | amominD => exact h.amo
  | amomaxW => exact h.amo
  | amomaxD => exact h.amo
  | amominuW => exact h.amo
  | amominuD => exact h.amo
  | amomaxuW => exact h.amo
  | amomaxuD => exact h.amo
  | fence p q => exact h.execFence p q
  | fenceTso p q => exact h.execFenceTso p q
  | csrrw => exact h.execCsrrw
  | csrrs => exact h.execCsrrs
  | csrrc => exact h.execCsrrc
  | csrrwi => exact h.execCsrrwi
  | csrrsi => exact h.execCsrrsi
  | csrrci => exact h.execCsrrci
  | setprio => exact givesWf_ite (.next h.retire) (.next h.retire.modMe)
  | spawna => exact h.execSpawna
  | capq => exact h.execCapq
  | utrap => exact .next h.trap
  | rmark => exact h.execRmark
  | rwaitImm => exact h.riserWait
  | rwait => exact h.riserWait
  | radd => exact h.execRadd
  | rpoison => exact h.execRpoison
  | binit => exact h.barrierPost
  | barv => exact h.riserChecked (fun _ => h.awaitAll (fun _ h1 => h1.barrierAsk))
  | bexp => exact h.riserChecked (fun _ => h.barrierAsk)
  | bpoison => exact h.barrierPost
  | spawn => exact h.coreOf (fun _ _ => h.needEntry (fun _ h1 => .next h1.send.retire))
  | spawnm => exact h.execSpawnm
  | amsg => exact h.coreOf (fun _ _ => h.needEntry (fun _ h1 => .next h1.send.retire))
  | rwaitt => exact h.riserWait
  | nbsend => exact h.execNbsend
  | rcfg => exact h.execRcfg
  | capset => exact h.execCapset
  | sdc => exact h.countedStore
  | swc => exact h.countedStore
  | amofaddS => exact h.deviceAmo
  | amofaddBf => exact h.deviceAmo
  | amofmaxS => exact h.deviceAmo
  | amofminS => exact h.deviceAmo
  | amoincbW => exact h.execAmoincbW
  | amoincbD => exact h.execAmoincbD
  | amocasD => exact h.execAmocasD
  | rsig => exact h.execRsig
  | fencef => exact h.execFencef
  | cpq => exact h.enqueue
  | cpqn => exact h.enqueue
  | cpwait => exact h.execCpwait
  | ldlq => exact h.execLdlq
  | mmaE4e4 => exact h.mma
  | mmaE4e5 => exact h.mma
  | mmaE5e4 => exact h.mma
  | mmaE5e5 => exact h.mma
  | mmaBf => exact h.mma
  | mzero => exact h.enqueueMatrix (fun _ h1 => h1)
  | mld => exact h.execMld
  | mstF32 => exact h.mst (fun _ h1 => h1)
  | mstBf => exact h.execMstBf
  | mstE4m3 => exact h.needCap (fun _ h1 => h1.mst (fun _ h2 => h2))
  | mstE5m2 => exact h.needCap (fun _ h1 => h1.mst (fun _ h2 => h2))
  | mgate => exact h.execMgate
  | mburst => exact .next h.modMatrix.retire
  | mrowv => exact h.execMrowv
  | vadd => exact h.vec2
  | vsub => exact h.vec2
  | vmul => exact h.vec2
  | vfma => exact h.execVfma
  | vmax => exact h.vec2
  | vmin => exact h.vec2
  | vabs => exact h.vec1
  | vneg => exact h.vec1
  | vand => exact h.vresult
  | vor => exact h.vresult
  | vxor => exact h.vresult
  | vsll => exact h.vec2
  | vsrl => exact h.vec2
  | vsra => exact h.vec2
  | vcmpeq => exact h.vec2
  | vcmplt => exact h.vec2
  | vcmple => exact h.vec2
  | vsel => exact h.vresult
  | vrcp => exact h.special
  | vrsq => exact h.special
  | vexp2 => exact h.special
  | vlog2 => exact h.special
  | vcvt => exact h.needCaps (fun _ h1 => givesWf_ite h1.modMe.vresult h1.vresult)
  | vpack => exact h.execVpack
  | vunpack => exact h.execVunpack
  | vredsum => exact h.execVredsum
  | vredmax => exact h.execVredmax
  | vscan => exact h.execVscan
  | vperm => exact h.vresult
  | vslide => exact h.vresult
  | vbcast => exact h.vresult
  | vmvx => exact .next h.wxIn.retire
  | vld => exact h.vload
  | vlds => exact h.vload
  | vldx => exact h.vload
  | vst => exact h.vstore
  | vsts => exact h.vstore
  | vstx => exact h.vstore
  | vstc => exact h.countedBytes
  | issueSelect => exact h.onTile (.next (wf_ite h h.issueCycle))
  | firmwareThreadFill => exact h.execFirmwareThreadFill
  | divideComplete => exact h.execDivideComplete
  | lrHoldExpiry => exact h.execLrHoldExpiry
  | spawnRequestArrival => exact h.execSpawnRequestArrival
  | spawnIntakeDrain => exact h.execSpawnIntakeDrain
  | spawnRefusalReturn => exact h.execSpawnRefusalReturn
  | spawnResend => exact h.execSpawnResend
  | spawnStatusReturn => exact h.execSpawnStatusReturn
  | messageArrival => exact h.execMessageArrival
  | handlerDispatch => exact h.execHandlerDispatch
  | routedLoadArrival => exact h.execRoutedLoadArrival
  | routedStoreArrival => exact h.execRoutedStoreArrival
  | routedAmoArrival => exact h.execRoutedAmoArrival
  | riserStepArrival => exact h.execRiserStepArrival
  | countedStoreArrival => exact h.execCountedStoreArrival
  | barrierStepArrival => exact h.execBarrierStepArrival
  | transferCompletionStep => exact h.execTransferCompletionStep
  | releaseSignalArrival => exact h.execReleaseSignalArrival
  | capqArrival => exact h.execCapqArrival
  | responseReturn => exact h.returned
  | storeCompletionReturn => exact h.returned
  | impreciseFaultArrival => exact h.returned
  | rwaitWake => exact h.execRwaitWake
  | rwaittTimeout => exact h.execRwaittTimeout
  | jcloadRefresh => exact h.onTile (.next h.modCore)
  | intervalCheckArrival => exact h.execIntervalCheckArrival
  | intervalCheckAnswer => exact h.execIntervalCheckAnswer
  | fabricStoreReceive => exact h.execFabricStoreReceive
  | pageWalkComplete => exact .next h.walkComplete
  | copyCommandStart => exact h.execCopyCommandStart
  | copyEngineStep => exact h.execCopyEngineStep
  | copyDestinationRiserStep => exact h.execCopyDestinationRiserStep
  | copyCompletionStep => exact h.execCopyCompletionStep
  | mcastFlitForward => exact h.execMcastFlitForward
  | mcastAckCombine => exact h.execMcastAckCombine
  | pftimeout => exact h.execPftimeout
  | uioCompletion => exact h.execUioCompletion
  | ladleCommandStart => exact h.execLadleCommandStart
  | planScanComplete => exact h.execPlanScanComplete
  | ladleEngineStep => exact h.execLadleEngineStep
  | ladleCompletionStep => exact h.execLadleCompletionStep
  | ladleReset => exact h.execLadleReset
  | matrixGateEvaluate => exact h.execMatrixGateEvaluate
  | matrixFetch => exact h.execMatrixFetch
  | mmaCompute => exact h.execMmaCompute
  | mzeroCompute => exact h.execMzeroCompute
  | mldCompute => exact h.execMldCompute
  | mstCompute => exact h.execMstCompute
  | matrixRampUpDone => exact h.onTile (givesWf_ite (.next h.modMatrix) (.next h))
  | matrixRampDownDone => exact h.onTile (givesWf_ite (.next h.modMatrix) (.next h))
  | burstGapExpiry => exact h.onTile (givesWf_ite (.next h.modMatrix) (.next h))
  | nbsendReceive => exact h.execNbsendReceive
  | nbsendStatusReturn => exact h.execNbsendStatusReturn
  | rcfgAck => exact h.execRcfgAck
  | closeDrainComplete => exact h.execCloseDrainComplete
  | suspendSave => exact h.execSuspendSave
  | invalComplete => exact h.execInvalComplete
  | latticeResponder => exact h.execLatticeResponder
  | patrolScrubStep => exact h.execPatrolScrubStep
  | islandPowerDown => exact h.execIslandPowerDown
  | islandWake => exact .next (wf_ite h.wakeIsland h)
  | fenceI => exact h.execFenceI
  | ecall => exact .next h.trap
  | ebreak => exact .next h.trap
  | mret => exact h.execMret
  | wfi => exact .next h.retire
  | quit => exact givesWf_ite (.next h.illegal) h.endMine
  | yield => exact .next h.retire
  | hret => exact givesWf_ite h.endMine (.next h.illegal)
  | mfence => exact h.execMfence
  | routerConfigWrite => exact h.onTile (.next (wf_ite h h.modTile))
  | evpendWrite => exact h.onTile (.next h.modTile)
  | jcodewinWrite => exact h.onTile (.next h.writeCodewin)
  | jsrseedWrite => exact h.onThread (fun _ => h.writeSeed)
  | jrmarkWrite => exact h.onThread (fun _ => h.writeMark)
  | jmgateWrite => exact h.onThread (fun _ => wf_ite h.writeGate (wf_ite h.writeGateTarget h))
  | jutcauseWrite => exact h.onThread (fun _ => h.writeUcause)
  | jmpartWrite => exact h.onTile (.next (wf_ite h.writePart h))
  | registerWrite => exact h.execRegisterWrite
  | openPart => exact h.execOpenPart
  | closePart => exact h.execClosePart
  | suspend => exact h.execSuspend
  | resume => exact h.execResume
  | inval => exact h.execInval
  | hriser => exact h.execHriser
  | cryoCool => exact h.execCryoCool
  | cryoWarm => exact h.execCryoWarm
  | cryoRecal => exact h.execCryoRecal
  | attest => exact h.execAttest
  | svncommit => exact h.execSvncommit
  | imageUpdate => exact h.execImageUpdate
  | hostMeshRead => exact h.execHostMeshRead
  | hostMeshWrite => exact h.execHostMeshWrite
  | hostSpawnWrite => exact h.execHostSpawnWrite
  | hostSignalWrite => exact h.execHostSignalWrite
  | hostMemoryAccess => exact h.execHostMemoryAccess
  | fabricFlitReceive => exact h.execFabricFlitReceive
  | atsTranslationResponse => exact h.execAtsTranslationResponse
  | atsInvalidationRequest => exact .next h.modPack.settlePurges
  | pageRequestResponseFailure => exact h.execPageRequestResponseFailure
  | pooledPageResident => exact h.execPooledPageResident
  | carrierPowerOn => exact .next (wf_ite h (State.wf.verifyFlash (State.wf.managedIslands h)))
  | carrierPowerOff => exact .next h.unpowered
  | mailboxSubmission => exact h.execMailboxSubmission
  | tmaxSample => exact h.execTmaxSample
  | soakTimerExpiry => exact h.execSoakTimerExpiry
  | precoolTimeout => exact h.execPrecoolTimeout
  | guardAdjust => exact h.execGuardAdjust
  | eolFit => exact h.execEolFit
  | shareGrant => exact h.execShareGrant
  | envelopeCheck => exact h.execEnvelopeCheck
  | islandWakeComplete => exact h.execIslandWakeComplete
  | periodicTest => exact h.execPeriodicTest
  | linkFailureTimeout => exact h.execLinkFailureTimeout
  | quiesceBoundExceeded => exact h.execQuiesceBoundExceeded
  | quietSample => exact h.execQuietSample

/-! ### Sys2Proof/Machine/Step.lean -/

theorem State.wf.thenAbove {c o} (h : GivesWf o) : GivesWf (thenAbove c o) := by
  unfold Machine.thenAbove
  split
  · cases h with | next h => exact .next h.vecSteps
  · exact .fault
  · exact .refused

theorem State.wf.runWord (h : s.wf) : GivesWf (runWord s) := by
  unfold Machine.runWord
  dsimp only
  split
  · refine State.wf.thenAbove ?_
    split
    · exact State.wf.exec h
    · exact .next (State.wf.illegal h)
  · exact .next h

theorem State.wf.step (h : s.wf) : GivesWf (Machine.step s) := by
  unfold Machine.step
  split
  · exact .next h.nextTick
  · rename_i e rest _
    have h1 : State.wf { s with agenda := rest } := h
    split
    · exact State.wf.runWord (h1.exec.of_next ‹_›)
    · exact .fault
    · exact .refused

/-- Settles O58: the agenda's event, or the next tick's, keeps the form, and so does the word then fetched. -/
theorem stepKeepsForm : Obligations.StepKeepsForm :=
  fun _ _ h e => h.step.of_next e
end
end Sys2Proof.Machine
end

section
/-! # Writes of registers with a rule of their own (O46)

Every one of these writes is one update of one tile (`tileIs_of_modTile`) or leaves the state as it is; what remains is
the value each register takes. -/

namespace Sys2Proof.Machine

/-- The event leads to a state that differs in tile t alone, which is y. -/
def TileIs (s : State) (t : Nat) (e : Instr) (y : Tile) : Prop :=
  ∃ u, exec e s = .next u ∧ sameButTiles s u ∧ (∀ n, n ≠ t → u.tile n = s.tile n) ∧ u.tile t = y

theorem tileIs_of_modTile {s : State} {t : Nat} {e : Instr} (f : Tile → Tile)
    (h : exec e s = .next (s.modTile t f)) : TileIs s t e (f (s.tile t)) :=
  ⟨_, h, rfl, fun _ hn => State.tile_modTile_other s f hn, State.tile_modTile s t f⟩

theorem onTile_of_inFrame {s : State} {t : Nat} (hf : s.inFrame t = true) (k : Outcome) : onTile s t k = k :=
  if_pos hf

/-! ### The values stored -/

theorem bits_lt {n : Nat} (v : BitVec n) (lo len : Nat) : bits v lo len < 2 ^ len :=
  Nat.mod_lt _ (by positivity)

theorem bits_putBits_low (v : Dword) : bits (putBits v 0 2 3) 0 2 = 3 := by
  simp only [putBits, bits, BitVec.toNat_ofNat]
  omega

theorem writeRouter_enable (x : Tile) (v : Dword) (h1 : bits (keep routerMask v) 0 2 = 1) (hf : x.fused = false) :
    writeRouter x v =
      { x with router := keep routerMask v
               core := { x.core with gy := bits (keep routerMask v) 50 10, gx := bits (keep routerMask v) 20 10 } } := by
  simp [writeRouter, h1, hf]

theorem writeRouter_plain (x : Tile) (v : Dword) (h1 : bits (keep routerMask v) 0 2 ≠ 1)
    (h2 : bits (keep routerMask v) 0 2 = 2 → x.fused = false) :
    writeRouter x v = { x with router := keep routerMask v } := by
  have h : ¬(x.fused = true ∧ (bits (keep routerMask v) 0 2 = 1 ∨ bits (keep routerMask v) 0 2 = 2)) := by
    rintro ⟨hf, e | e⟩
    · exact h1 e
    · rw [h2 e] at hf; cases hf
  unfold writeRouter
  dsimp only
  rw [if_neg h, if_neg h1]

theorem writeRouter_fused (x : Tile) (v : Dword)
    (hv : bits (keep routerMask v) 0 2 = 1 ∨ bits (keep routerMask v) 0 2 = 2) (hf : x.fused = true) :
    writeRouter x v = { x with router := putBits (keep routerMask v) 0 2 3 } := by
  simp [writeRouter, hf, hv, bits_putBits_low]

theorem codewinValue_eq (v : Dword) : codewinValue v =
    BitVec.ofNat 64 (bits v 63 1 * 2 ^ 63 + min (bits v 32 8) (128 - bits v 0 7) * 2 ^ 32 + bits v 0 7) := by
  have h1 := bits_lt v 63 1
  have h2 : min (bits v 32 8) (128 - bits v 0 7) < 2 ^ 8 := (Nat.min_le_left _ _).trans_lt (bits_lt v 32 8)
  rw [codewinValue, field, field, Nat.mod_eq_of_lt h1, Nat.mod_eq_of_lt h2, nd]

theorem partOnes_dword (r : Nat) (hr : r % 8 = 0) (v : Dword) : partOnes r 8 (v.toNat % 2 ^ (8 * 8)) = v := by
  apply BitVec.eq_of_toNat_eq
  simp only [partOnes, nd, field, hr, BitVec.toNat_ofNat]
  omega

theorem partValue_dword (old : Dword) (r : Nat) (hr : r % 8 = 0) (v : Dword) :
    partValue old r 8 (v.toNat % 2 ^ (8 * 8)) = v := by
  have hm : partMask r 8 = BitVec.allOnes 64 := by
    simp [partMask, nd, field, hr]
  have hv := partOnes_dword r hr v
  rw [partOnes] at hv
  rw [partValue, hm, hv]
  simp

theorem partValue_word (old : Dword) (r : Nat) (hr : r % 8 = 0) (v : Dword) :
    (partValue old r 4 (v.toNat % 2 ^ (8 * 4))).setWidth 32 = v.setWidth 32 := by
  have hm : (~~~partMask r 4).setWidth 32 = 0#32 := by
    simp [partMask, nd, field, hr]
  rw [partValue, BitVec.setWidth_or, BitVec.setWidth_and, hm, BitVec.and_zero, BitVec.zero_or]
  apply BitVec.eq_of_toNat_eq
  simp only [nd, field, hr, BitVec.toNat_setWidth, BitVec.toNat_ofNat]
  omega

theorem bits_low_testBit (v : Dword) (n : Fin 32) : bits v 0 32 / 2 ^ n.val % 2 = 1 ↔ v.getLsbD n.val = true := by
  have h : (bits v 0 32).testBit n.val = v.getLsbD n.val := by
    rw [bits, Nat.pow_zero, Nat.div_one, Nat.testBit_mod_two_pow]
    simp [BitVec.getLsbD]
  rw [← h, Nat.testBit_eq_decide_div_mod_eq, decide_eq_true_eq]

theorem Thread.snapshot_snap (h : Thread) (v : Dword) (n : Fin 32) :
    (h.snapshot (bits v 0 32)).snap[n] = if v.getLsbD n.val ∧ n ≠ 0 then h.x[n] else h.snap[n] := by
  have h0 : n.val ≠ 0 ↔ n ≠ 0 := by rw [ne_eq, ne_eq, Fin.ext_iff]; rfl
  simp only [Thread.snapshot, Fin.getElem_fin, Vector.getElem_ofFn, bits_low_testBit, h0]

/-- jrmark after a write: the mark's fields, and the snapshot where VALID is set (R165). -/
def Thread.marked (h : Thread) (v : Dword) : Thread :=
  { (if bitAt v 63 then h.snapshot (bits v 0 32) else h) with jrmark := keep 0x8007FFFFFFFFFFFE v }

theorem Thread.marked_rest (h : Thread) (v : Dword) :
    { h.marked v with snap := h.snap, jrmark := h.jrmark } = h := by
  unfold Thread.marked
  by_cases hv : bitAt v 63 = true
  · rw [if_pos hv, Thread.snapshot]
  · rw [if_neg hv]

theorem Thread.marked_snap (h : Thread) (v : Dword) (n : Fin 32) :
    (h.marked v).snap[n] = if v.getLsbD 63 ∧ v.getLsbD n.val ∧ n ≠ 0 then h.x[n] else h.snap[n] := by
  unfold Thread.marked bitAt
  cases v.getLsbD 63 with
  | false => simp
  | true => simpa using h.snapshot_snap v n

/-- Entry k of the host risers takes the fields of an access of 8 bytes; the others stay. -/
theorem writeTileReg_hriser (x : Tile) (k : Fin 4) (v : Dword) :
    writeTileReg x (0xC0300 + 8 * k.val) 8 (v.toNat % 2 ^ (8 * 8)) =
      { x with hriser := x.hriser.mapFinIdx fun i e _ => if i = k.val then hriserValue v else e } := by
  have hk := k.isLt
  have hr : (0xC0300 + 8 * k.val) / 8 * 8 = 0xC0300 + 8 * k.val := by omega
  have hi : (0xC0300 + 8 * k.val - 0xC0300) / 8 = k.val := by omega
  unfold writeTileReg
  dsimp only
  rw [hr, if_neg (by omega), if_neg (by omega), if_pos (by omega), hi]
  simp only [partValue_dword _ (0xC0300 + 8 * k.val) (by omega)]

theorem hriser_written (w : Vector Dword 4) (k j : Fin 4) (v : Dword) :
    (w.mapFinIdx fun i e _ => if i = k.val then hriserValue v else e)[j] =
      if j = k then v &&& 0x800007FF0000FFFF else w[j] := by
  simp only [Fin.getElem_fin, Vector.getElem_mapFinIdx, Fin.val_inj, hriserValue, keep]

theorem writeTileReg_evpend (x : Tile) (v : Dword) :
    writeTileReg x 0xC0100 8 (v.toNat % 2 ^ (8 * 8)) = x.clearEvents v :=
  congrArg x.clearEvents (partOnes_dword 0xC0100 rfl v)

theorem mgmtWrite_modBudget (s : State) (v : Dword) :
    mgmtWrite s 0 0x28 4 (v.toNat % 2 ^ (8 * 4)) = some { s with modBudget := bits v 0 32 } := by
  have hm : mgmtMask 0 0x28 &&& partMask 0x28 4 ≠ 0 := by decide
  have hv : (partValue (nd s.modBudget) 0x28 4 (v.toNat % 2 ^ (8 * 4))).toNat % 2 ^ 32 = bits v 0 32 := by
    have h := congrArg BitVec.toNat (partValue_word (nd s.modBudget) 0x28 rfl v)
    rwa [bits, Nat.pow_zero, Nat.div_one, ← BitVec.toNat_setWidth, ← BitVec.toNat_setWidth]
  have hr : mgmtReg s 0 0x28 = some (nd (field 0 32 s.modBudget)) := rfl
  unfold mgmtWrite
  dsimp only
  rw [hr]
  dsimp only
  rw [if_neg hm, if_neg (by decide), if_pos rfl, hv]

/-! ### The events -/

section
variable (s : State) (t i : Nat) (v : Dword)

theorem exec_jsrseedWrite : exec (.jsrseedWrite t i v) s = onThread s t i fun j => s.writeSeed t j v := rfl
theorem exec_jmgateWrite : exec (.jmgateWrite t i 0x8C7 v) s = onThread s t i fun j => s.writeGate t j v := rfl
theorem exec_jmgatevWrite : exec (.jmgateWrite t i 0x8C8 v) s = onThread s t i fun j => s.writeGateTarget t j v := rfl
theorem exec_jutcauseWrite : exec (.jutcauseWrite t i v) s = onThread s t i fun j => s.writeUcause t j v := rfl
theorem exec_jrmarkWrite : exec (.jrmarkWrite t i v) s = onThread s t i fun j => s.writeMark t j v := rfl

end

section
variable {s : State} {t : Nat} (hf : s.inFrame t = true) (v : Dword)
include hf

theorem exec_routerConfigWrite_locked (hl : (s.tile t).router.getLsbD 63 = true) :
    exec (.routerConfigWrite t v) s = .next s :=
  (onTile_of_inFrame hf _).trans (congrArg _ (if_pos hl))

theorem tileIs_routerConfigWrite (hl : (s.tile t).router.getLsbD 63 = false) :
    TileIs s t (.routerConfigWrite t v) (writeRouter (s.tile t) v) :=
  tileIs_of_modTile (writeRouter · v)
    ((onTile_of_inFrame hf _).trans (congrArg _ (if_neg (by rw [routerLocked, bitAt, hl]; decide))))

theorem tileIs_evpendWrite : TileIs s t (.evpendWrite t v) ((s.tile t).clearEvents v) :=
  tileIs_of_modTile (·.clearEvents v) (onTile_of_inFrame hf _)

/-- A write of a register of the core: the port goes by the registers from before. -/
theorem tileIs_of_modPortCore {e : Instr} (f : CoreRegs → CoreRegs)
    (h : exec e s = onTile s t (.next (s.modPortCore t f))) :
    TileIs s t e { s.tile t with core := f (s.tile t).core, was := some (s.tile t).portCore } :=
  tileIs_of_modTile (fun x => { x with core := f x.core, was := some x.portCore }) (h.trans (onTile_of_inFrame hf _))

theorem tileIs_jcodewinWrite {w : Dword} (hw : codewinValue v = w) : TileIs s t (.jcodewinWrite t v)
    { s.tile t with core := { (s.tile t).core with jcodewin := w }, was := some (s.tile t).portCore } :=
  hw ▸ tileIs_of_modPortCore hf (fun c => { c with jcodewin := codewinValue v }) rfl

variable {i : Fin 8}

theorem onThread_used {f : Fin 8 → State} (hu : ((s.tile t).th i).st ≠ .empty) :
    onThread s t i.val f = .next (f i) := by
  have hi : slotIx i.val = i := Fin.ext (Nat.mod_eq_of_lt i.isLt)
  rw [onThread, onTile_of_inFrame hf, hi, if_neg (by exact hu)]

theorem onThread_empty {f : Fin 8 → State} (he : ((s.tile t).th i).st = .empty) : onThread s t i.val f = .next s := by
  have hi : slotIx i.val = i := Fin.ext (Nat.mod_eq_of_lt i.isLt)
  rw [onThread, onTile_of_inFrame hf, hi, if_pos (by exact he)]

theorem tileIs_of_modTh {e : Instr} {g : Fin 8 → State} (hu : ((s.tile t).th i).st ≠ .empty)
    (h : exec e s = onThread s t i.val g) {f : Thread → Thread} (hg : g i = s.modTh t i f) :
    TileIs s t e ((s.tile t).setTh i (f ((s.tile t).th i))) :=
  tileIs_of_modTile (·.modTh i f) (by rw [h, onThread_used hf hu, hg]; rfl)

/-! ### Accesses by address (R34, R291, R307) -/

theorem tileIs_registerWrite {off : Nat} (h : regShape off 8 = true) (hr : off / 8 * 8 ≠ 0xC0000) :
    TileIs s t (.registerWrite (.tile t) off 8 v) (writeTileReg (s.tile t) off 8 (v.toNat % 2 ^ (8 * 8))) :=
  tileIs_of_modTile (fun x => writeTileReg x off 8 (v.toNat % 2 ^ (8 * 8)))
    ((onTile_of_inFrame hf _).trans (congrArg _ (if_pos (by simp [h, hr]))))

theorem tileIs_hriserWrite (k : Fin 4) :
    ∃ y, TileIs s t (.registerWrite (.tile t) (0xC0300 + 8 * k.val) 8 v) y
      ∧ { y with hriser := (s.tile t).hriser } = s.tile t
      ∧ ∀ j : Fin 4, y.hriser[j] = if j = k then v &&& 0x800007FF0000FFFF else (s.tile t).hriser[j] := by
  have hk := k.isLt
  have hs : regShape (0xC0300 + 8 * k.val) 8 = true := by
    simp [regShape]
  have hr : (0xC0300 + 8 * k.val) / 8 * 8 = 0xC0300 + 8 * k.val := by omega
  have hw := writeTileReg_hriser (s.tile t) k v
  exact ⟨_, tileIs_registerWrite hf v hs (by omega), by rw [hw], fun j => by rw [hw]; exact hriser_written _ k j v⟩

theorem tileIs_registerWrite_evpend :
    TileIs s t (.registerWrite (.tile t) 0xC0100 8 v) ((s.tile t).clearEvents v) :=
  writeTileReg_evpend (s.tile t) v ▸ tileIs_registerWrite hf v rfl (by decide)

theorem exec_registerWrite_two (off : Nat) : exec (.registerWrite (.tile t) off 2 v) s = .next s :=
  (onTile_of_inFrame hf _).trans (congrArg _ (if_neg (by simp [regShape])))

end

theorem exec_mgmtWrite_modBudget (s : State) (v : Dword) :
    exec (.registerWrite (.mgmt 0) 0x28 4 v) s = .next { s with modBudget := bits v 0 32 } :=
  congrArg (fun o => Host.Outcome.next (Option.getD o s)) (mgmtWrite_modBudget s v)

theorem exec_windowWrite_two (s : State) (pkg off : Nat) (v : Dword) :
    exec (.registerWrite (.host pkg) off 2 v) s = .next s := by
  refine congrArg Host.Outcome.next ?_
  simp [windowWrite, windowShape, leBytes]

theorem exec_windowWrite_arg (s : State) {pkg k : Nat} (v : Dword) (hp : pkg < s.packages) (hb : s.bootRom = false)
    (hk : k < 8) : exec (.registerWrite (.host pkg) (8 + 8 * k) 8 v) s =
      .next (s.writeB (windowKey pkg (8 + 8 * k)) (leBytes 8 v.toNat)) := by
  refine congrArg Host.Outcome.next ?_
  have hs : windowShape (8 + 8 * k) 8 = true := by
    simp [windowShape]; omega
  have hl : (leBytes 8 v.toNat).length = 8 := rfl
  unfold windowWrite
  dsimp only
  have ha : ¬((!windowShape (8 + 8 * k) (leBytes 8 v.toNat).length) = true ∨ s.packages ≤ pkg) := by
    rw [hl, hs]; simp [hp]
  rw [Nat.min_self, if_neg ha, hb, if_neg Bool.false_ne_true, if_neg (by omega), if_pos (by omega)]

/-- Settles O46: each write is an update of one tile, whose values the lemmas above give, or changes nothing. -/
theorem registerWrites : Obligations.RegisterWrites := by
  unfold Obligations.RegisterWrites
  intro s t i v x h tileIs threadIs w window hf
  refine ⟨exec_routerConfigWrite_locked hf v, fun hl h1 hu => ?_, fun hl h1 h2 => ?_, fun hl h1 hu => ?_,
    tileIs_evpendWrite hf v, ?_, ?_, ?_, ?_, fun hu => ⟨?_, ?_, ?_, ?_, ?_⟩, fun he e hm => ?_, ?_, ?_,
    tileIs_hriserWrite hf v, ?_, ?_, ?_⟩
  · exact writeRouter_enable x v h1 hu ▸ tileIs_routerConfigWrite hf v hl
  · exact writeRouter_plain x v h1 h2 ▸ tileIs_routerConfigWrite hf v hl
  · exact writeRouter_fused x v h1 hu ▸ tileIs_routerConfigWrite hf v hl
  · exact tileIs_jcodewinWrite hf v (codewinValue_eq v)
  · exact tileIs_of_modPortCore hf (fun c => { c with jmpart0 := keep 0x0FFFFF00003FFFFF v }) rfl
  · exact tileIs_of_modPortCore hf (fun c => { c with jmpart1 := keep 0xFFFFFFFF00007113 v }) rfl
  · exact tileIs_of_modPortCore hf (fun c => { c with jmrcb := keep 0xFFFFFFFFFFFFFF00 v }) rfl
  · exact tileIs_of_modTh hf hu (exec_jsrseedWrite ..) rfl
  · exact tileIs_of_modTh hf hu (exec_jmgateWrite ..) rfl
  · exact tileIs_of_modTh hf hu (exec_jmgatevWrite ..) rfl
  · exact tileIs_of_modTh hf hu (exec_jutcauseWrite ..) rfl
  · exact ⟨h.marked v, tileIs_of_modTh hf hu (exec_jrmarkWrite ..) rfl, h.marked_rest v, rfl, h.marked_snap v⟩
  · simp only [List.mem_cons, List.not_mem_nil, or_false] at hm
    rcases hm with rfl | rfl | rfl | rfl | rfl
    · exact (exec_jsrseedWrite ..).trans (onThread_empty hf he)
    · exact (exec_jmgateWrite ..).trans (onThread_empty hf he)
    · exact (exec_jmgatevWrite ..).trans (onThread_empty hf he)
    · exact (exec_jutcauseWrite ..).trans (onThread_empty hf he)
    · exact (exec_jrmarkWrite ..).trans (onThread_empty hf he)
  · exact tileIs_registerWrite_evpend hf v
  · exact tileIs_registerWrite (off := 0xC0200) hf v rfl (by decide)
  · exact ⟨_, exec_mgmtWrite_modBudget s v, rfl⟩
  · exact fun off => ⟨exec_registerWrite_two hf v off, fun pkg => exec_windowWrite_two s pkg off v⟩
  · exact fun pkg k hp hb hk => ⟨_, exec_windowWrite_arg s v hp hb hk, rfl, rfl⟩

end Sys2Proof.Machine
end

section
/-! # Health and power (O52)

Each clause is about one event. Its lemma first says what state the event leads to (`exec_…`), then what that state holds,
by the rules for the updates of tiles, islands and packages below. -/

namespace Sys2Proof.Machine

/-! ### Updates of tiles, islands and packages -/

@[simp] theorem State.island_modIsland (s : State) (n : Nat) (f : Island → Island) :
    (s.modIsland n f).island n = f (s.island n) :=
  Assoc.get_put_same ..

theorem State.island_modIsland_other (s : State) {n m : Nat} (f : Island → Island) (h : m ≠ n) :
    (s.modIsland n f).island m = s.island m :=
  Assoc.get_put_other _ _ _ h

@[simp] theorem State.pack_modPack (s : State) (p : Nat) (f : Package → Package) :
    (s.modPack p f).pack p = f (s.pack p) :=
  Assoc.get_put_same ..

theorem Assoc.get_map {α : Type} {d : α} {f : Nat × α → Nat × α} {a : Nat} (hf : ∀ p, (f p).1 = p.1)
    (hd : (f (a, d)).2 = d) (l : List (Nat × α)) : Assoc.get d (l.map f) a = (f (a, Assoc.get d l a)).2 := by
  induction l with
  | nil => exact hd.symm
  | cons p r ih =>
    have e : f p = (p.1, (f p).2) := Prod.ext (hf p) rfl
    rw [List.map_cons, e]
    by_cases h : p.1 = a
    · rw [Assoc.get, if_pos h, Assoc.get, if_pos h, ← h]
    · rw [Assoc.get, if_neg h, Assoc.get, if_neg h, ih]

theorem State.tile_mapTiles {s : State} {f : Nat × Tile → Nat × Tile} {t : Nat} (hf : ∀ p, (f p).1 = p.1)
    (hd : (f (t, {})).2 = {}) : State.tile { s with tiles := s.tiles.map f } t = (f (t, s.tile t)).2 :=
  Assoc.get_map hf hd s.tiles

theorem foldl_keeps {α β : Type} (proj : State → β) {f : State → α → State} (hf : ∀ u a, proj (f u a) = proj u)
    (l : List α) (s : State) : proj (l.foldl f s) = proj s := by
  induction l generalizing s with
  | nil => rfl
  | cons a l ih => rw [List.foldl_cons, ih, hf]

/-! ### Guard bands -/

theorem Island.adjust_eq (i : Island) :
    let m := leastOf i.margins
    let g := if m < 40 ∧ i.guard < 80 then min 80 (i.guard + 5) else i.guard
    let wears := m < 20 ∧ g = 80 ∧ i.worn = false
    i.adjust = if wears then { i with guard := g, worn := true } else { i with guard := g } := by
  intro m g wears
  have hg : (if m < 40 ∧ i.guard < 80 then { i with guard := min 80 (i.guard + 5) } else i) = { i with guard := g } := by
    unfold g; split <;> rfl
  unfold Island.adjust
  dsimp only
  rw [hg]
  refine if_congr ?_ rfl rfl
  simp only [wears, Bool.not_eq_true']
  exact Iff.rfl

/-- A tile with other values of the screen it owes and of its events. -/
def Tile.owing (x : Tile) (owed : Bool) (ev : Dword) : Tile := { x with unscreened := owed, evpend := ev }

theorem Tile.owing_self (x : Tile) : x.owing x.unscreened x.evpend = x := rfl

theorem State.wornOut_tile (s : State) (n t : Nat) :
    (s.wornOut n).tile t = if islandOf t = n ∧ (s.tile t).enabled = true then
      (s.tile t).owing true ((s.tile t).evpend ||| 0x20) else s.tile t := by
  unfold State.wornOut
  rw [State.tile_mapTiles (fun p => by dsimp only; split <;> rfl)]
  · dsimp only; split <;> rfl
  · have h : ({} : Tile).enabled = false := rfl
    simp only [h, Bool.false_eq_true, and_false, if_false]

/-- With no failures the screen of an island clears what its enabled cores in no open partition owe. -/
theorem State.screened_tile (s : State) (n t : Nat) :
    (s.screened n []).tile t = if islandOf t = n ∧ (s.tile t).enabled = true then
      (s.tile t).owing ((s.tile t).unscreened && s.inOpen t) (s.tile t).evpend else s.tile t := by
  unfold State.screened
  dsimp only [List.filter_nil, List.foldl_nil]
  rw [State.tile_mapTiles (fun p => by split <;> rfl) (by split <;> rfl)]
  dsimp only
  by_cases h : islandOf t = n ∧ (s.tile t).enabled = true
  · rw [if_pos h]
    by_cases hd : (s.tile t).unscreened = true ∧ s.inOpen t = false
    · rw [if_pos (by simp [h, hd]), hd.2, Bool.and_false]
      rfl
    · have ho : ((s.tile t).unscreened && s.inOpen t) = (s.tile t).unscreened := by
        revert hd
        cases (s.tile t).unscreened <;> cases s.inOpen t <;> decide
      rw [if_neg (by simpa [h] using hd), ho, Tile.owing_self]
  · rw [if_neg h, if_neg (fun hd => h (by simp only [Bool.and_eq_true, beq_iff_eq] at hd; exact hd.1.1))]

theorem State.inOpen_congr {s u : State} {t : Nat} (hp : u.parts = s.parts) (hc : (u.tile t).core = (s.tile t).core) :
    u.inOpen t = s.inOpen t := by
  rw [State.inOpen, State.inOpen, hp, hc]

theorem State.screened_wornOut_tile (s : State) (n t : Nat) :
    ((s.wornOut n).screened n []).tile t = if islandOf t = n ∧ (s.tile t).enabled = true then
      (s.tile t).owing (s.inOpen t) ((s.tile t).evpend ||| 0x20) else s.tile t := by
  have ht := s.wornOut_tile n t
  rw [State.screened_tile]
  by_cases h : islandOf t = n ∧ (s.tile t).enabled = true
  · rw [if_pos h] at ht
    have ho : (s.wornOut n).inOpen t = s.inOpen t := State.inOpen_congr rfl (by rw [ht]; rfl)
    rw [ho, ht, if_pos h, if_pos (by exact h)]
    rfl
  · rw [if_neg h] at ht
    rw [ht, if_neg h, if_neg h]

/-- GUARD_ADJUST of one island, before the screens: its registers after AdjustGuard, with the supply. -/
def State.adjusted (s : State) (n : Nat) : State :=
  s.modIsland n fun i => let i := i.adjust; { i with vdd := s.supply i }

theorem exec_guardAdjust_cold (s : State) (n : Nat) (hb : s.cryo.band ≤ 1) (ht : s.tick % 1250000000 = 0)
    (hs : s.strap = false) (hc : s.cryo.st ≠ .warmOff) :
    exec (.guardAdjust n []) s = .next
      ((if ((s.adjusted n).island n).worn ∧ !(s.island n).worn then (s.adjusted n).wornOut n else s.adjusted n).screened
        n []) := by
  refine congrArg Host.Outcome.next ?_
  have h : ¬(s.tick % second ≠ 0 ∨ s.strap = true ∨ s.cryo.st = .warmOff) := by
    rw [second, ht, hs]; simp [hc]
  rw [if_neg h, if_neg (by omega)]
  rfl

theorem guardAdjust_cold (s : State) (n : Nat) (hb : s.cryo.band ≤ 1) (ht : s.tick % 1250000000 = 0)
    (hs : s.strap = false) (hc : s.cryo.st ≠ .warmOff) :
    let i := s.island n
    let m := leastOf i.margins
    let g := if m < 40 ∧ i.guard < 80 then min 80 (i.guard + 5) else i.guard
    let wears := m < 20 ∧ g = 80 ∧ i.worn = false
    let k := { i with guard := g, vdd := 380 + g + (if s.cryo.band = 0 then 0 else 20) }
    ∃ u, exec (.guardAdjust n []) s = .next u ∧ { u with islands := s.islands, tiles := s.tiles } = s
      ∧ u.island n = (if wears then { k with worn := true } else k)
      ∧ ∀ t, let x := s.tile t
        u.tile t = if islandOf t = n ∧ x.enabled = true then
          { x with
            unscreened := (x.unscreened || decide wears) && s.inOpen t
            evpend := if wears then x.evpend ||| 0x20 else x.evpend }
        else x := by
  intro i m g wears k
  have hi : (s.adjusted n).island n = if wears then { k with worn := true } else k := by
    rw [State.adjusted, State.island_modIsland]
    dsimp only
    rw [Island.adjust_eq]
    by_cases h : wears
    · rw [if_pos h, if_pos h]; rfl
    · rw [if_neg h, if_neg h]; rfl
  refine ⟨_, exec_guardAdjust_cold s n hb ht hs hc, ?_⟩
  by_cases h : wears
  · rw [if_pos h] at hi ⊢
    rw [hi, if_pos ⟨rfl, by rw [h.2.2]; rfl⟩]
    refine ⟨rfl, hi, fun t => ?_⟩
    dsimp only
    rw [State.screened_wornOut_tile, decide_eq_true h, Bool.or_true, Bool.true_and, if_pos h]
    rfl
  · rw [if_neg h] at hi ⊢
    have hw : ¬(k.worn = true ∧ (!i.worn) = true) := by simp [k]
    rw [hi, if_neg hw]
    refine ⟨rfl, hi, fun t => ?_⟩
    dsimp only
    rw [State.screened_tile, decide_eq_false h, Bool.or_false, if_neg h]
    rfl

/-! ### End of life -/

theorem Island.fit_short (i : Island) (h : i.daily.length < 90) : i.fit.eolDays = 0xFFFFFFFF := by
  unfold Island.fit
  exact if_pos (Or.inl h)

theorem eolFit_daily (s : State) (n : Nat) (ht : s.tick % 108000000000000 = 0) (hs : s.strap = false)
    (hc : s.cryo.st ≠ .warmOff) :
    let i := s.island n
    ∃ u, exec (.eolFit n) s = .next u ∧ { u with islands := s.islands } = s
      ∧ (u.island n).daily = (i.guard :: i.daily).take 90 ∧ (u.island n).guard = i.guard
      ∧ (i.daily.length < 89 → (u.island n).eolDays = 0xFFFFFFFF) := by
  intro i
  have h : ¬(s.tick % (86400 * second) ≠ 0 ∨ s.strap = true ∨ s.cryo.st = .warmOff) := by
    rw [second, ht, hs]; simp [hc]
  refine ⟨_, congrArg Host.Outcome.next (if_neg h), rfl, ?_⟩
  rw [State.island_modIsland]
  refine ⟨rfl, rfl, fun hd => Island.fit_short _ ?_⟩
  rw [List.length_take, List.length_cons]
  exact (Nat.min_le_right ..).trans_lt (Nat.succ_lt_succ hd)

/-! ### Shares and the envelope -/

theorem drawersGo_modIsland (s : State) (n : Nat) (f : Island → Island) (k : Nat) (l : List Part) :
    drawersGo (s.modIsland n f) k l = drawersGo s k l := by
  induction k generalizing l with
  | zero => rfl
  | succ k ih => rw [drawersGo, drawersGo, ih]; rfl

theorem budgetTiles_modIsland (s : State) (n : Nat) (f : Island → Island) (q : Part) :
    budgetTiles (s.modIsland n f) q = budgetTiles s q := by
  unfold budgetTiles
  rw [drawersGo_modIsland]
  rfl

/-- A share depends on no register of an island. -/
theorem shareOf_modIsland (s : State) (n : Nat) (f : Island → Island) (m : Nat) :
    shareOf (s.modIsland n f) m = shareOf s m := by
  unfold shareOf
  simp only [budgetTiles_modIsland]
  rfl

/-- One island given its share. -/
def State.granted (s : State) (n : Nat) : State := s.modIsland n fun i => { i with share := shareOf s n }

theorem granted_foldl_island {l : List Nat} (hl : l.Nodup) (s : State) (m : Nat) :
    (l.foldl State.granted s).island m =
      if m ∈ l then { s.island m with share := shareOf s m } else s.island m := by
  induction l generalizing s with
  | nil => rfl
  | cons a l ih =>
    obtain ⟨ha, hl⟩ := List.nodup_cons.1 hl
    have hs : shareOf (s.granted a) m = shareOf s m := shareOf_modIsland ..
    rw [List.foldl_cons, ih hl, hs]
    by_cases e : m = a
    · subst e
      rw [if_neg ha, if_pos (List.mem_cons_self ..)]
      exact State.island_modIsland ..
    · have ho : (s.granted a).island m = s.island m := State.island_modIsland_other s _ e
      simp only [ho, List.mem_cons, e, false_or]

theorem Island.throttled_eq (i : Island) (power : Nat) : i.throttled power = { i with
    throttle := if i.share < power then max 4 (i.throttle - 1)
      else if 10 * power < 9 * i.share then min 16 (i.throttle + 1) else i.throttle } := by
  unfold Island.throttled
  split
  · rfl
  · split <;> rfl

/-- The islands of a package. -/
def packIsles (pkg : Nat) : List Nat := (upTo 256).map (256 * pkg + ·)

theorem nodup_packIsles (pkg : Nat) : (packIsles pkg).Nodup :=
  List.Nodup.map (fun _ _ h => Nat.add_left_cancel h) List.nodup_range

theorem mem_packIsles {pkg m : Nat} : m ∈ packIsles pkg ↔ m / 256 = pkg := by
  simp only [packIsles, upTo, List.mem_map, List.mem_range]
  constructor
  · rintro ⟨j, hj, rfl⟩; omega
  · intro h; exact ⟨m % 256, by omega, by omega⟩

theorem sum_packIsles {s u : State} {pkg : Nat} (h : ∀ m, m / 256 = pkg → (u.island m).share = shareOf s m) :
    (packIsles pkg).foldl (fun a p => a + (u.island p).share) 0 =
      (upTo 256).foldl (fun a j => a + shareOf s (pkg * 256 + j)) 0 := by
  rw [List.foldl_ext _ (fun a p => a + shareOf s p) 0 fun a p hp => by rw [h p (mem_packIsles.1 hp)]]
  rw [packIsles, List.foldl_map, Nat.mul_comm 256]

/-- Of the package of islands l, whose shares are granted, island n is throttled, and the sums are kept. -/
def State.measured (v : State) (l : List Nat) (pkg n power : Nat) : State :=
  (v.modIsland n (·.throttled power)).modPack pkg fun k =>
    { k with power := 0 + power, share := l.foldl (fun a p => a + ((v.modIsland n (·.throttled power)).island p).share) 0 }

section
variable (v : State) (l : List Nat) (pkg n power : Nat)

theorem State.measured_tiles : (v.measured l pkg n power).tiles = v.tiles := rfl
theorem State.measured_mem : (v.measured l pkg n power).mem = v.mem := rfl

theorem State.measured_island : (v.measured l pkg n power).island n = (v.island n).throttled power :=
  State.island_modIsland v n (·.throttled power)

theorem State.measured_island_other {m : Nat} (h : m ≠ n) : (v.measured l pkg n power).island m = v.island m :=
  State.island_modIsland_other v (·.throttled power) h

theorem State.measured_power : ((v.measured l pkg n power).pack pkg).power = power := by
  rw [State.measured, State.pack_modPack]
  exact Nat.zero_add power

theorem State.measured_share : ((v.measured l pkg n power).pack pkg).share =
    l.foldl (fun a p => a + ((v.measured l pkg n power).island p).share) 0 := by
  rw [State.measured, State.pack_modPack]
  rfl

end

theorem exec_shareGrant_one (s : State) (n power : Nat) (hp : n / 256 < s.packages) (ht : s.tick % 12500 = 0) :
    exec (.shareGrant (n / 256) [(n, power)]) s = .next
      (((packIsles (n / 256)).foldl State.granted s).measured (packIsles (n / 256)) (n / 256) n power) := by
  refine congrArg Host.Outcome.next ?_
  have h : ¬(s.packages ≤ n / 256 ∨ s.tick % 12500 ≠ 0) := by omega
  have hm : ([(n, power)].filter fun p => p.1 / 256 == n / 256) = [(n, power)] := by simp
  rw [if_neg h]
  dsimp only
  rw [hm]
  rfl

theorem shareGrant_one (s : State) (n power : Nat) (hp : n / 256 < s.packages) (ht : s.tick % 12500 = 0) :
    let i := s.island n
    let share := shareOf s n
    let k := if share < power then max 4 (i.throttle - 1)
      else if 10 * power < 9 * share then min 16 (i.throttle + 1) else i.throttle
    ∃ u, exec (.shareGrant (n / 256) [(n, power)]) s = .next u ∧ u.island n = { i with share := share, throttle := k }
      ∧ (∀ j, j < 256 → j ≠ n % 256 →
        u.island (n / 256 * 256 + j) = { s.island (n / 256 * 256 + j) with share := shareOf s (n / 256 * 256 + j) })
      ∧ (u.pack (n / 256)).power = power
      ∧ (u.pack (n / 256)).share = (upTo 256).foldl (fun a j => a + shareOf s (n / 256 * 256 + j)) 0
      ∧ u.tiles = s.tiles ∧ u.mem = s.mem := by
  intro i share k
  have he := exec_shareGrant_one s n power hp ht
  have hsum : ∀ u : State, _ → _ := fun u => sum_packIsles (s := s) (u := u) (pkg := n / 256)
  have hv : ∀ m, m / 256 = n / 256 →
      ((packIsles (n / 256)).foldl State.granted s).island m = { s.island m with share := shareOf s m } := fun m hm => by
    rw [granted_foldl_island (nodup_packIsles _), if_pos (mem_packIsles.2 hm)]
  generalize packIsles (n / 256) = l at he hsum hv
  have htiles : (l.foldl State.granted s).tiles = s.tiles := foldl_keeps State.tiles (f := State.granted) (fun _ _ => rfl) l s
  have hmem : (l.foldl State.granted s).mem = s.mem := foldl_keeps State.mem (f := State.granted) (fun _ _ => rfl) l s
  generalize l.foldl State.granted s = v at he hv htiles hmem
  have hn : (v.measured l (n / 256) n power).island n = { i with share := share, throttle := k } := by
    rw [State.measured_island, hv n rfl, Island.throttled_eq]
  have hj : ∀ m, m / 256 = n / 256 → m ≠ n →
      (v.measured l (n / 256) n power).island m = { s.island m with share := shareOf s m } := fun m hm e => by
    rw [State.measured_island_other _ _ _ _ _ e, hv m hm]
  refine ⟨_, he, hn, fun j hj1 hj2 => hj _ (by omega) (by omega), State.measured_power .., ?_,
    (State.measured_tiles ..).trans htiles, (State.measured_mem ..).trans hmem⟩
  rw [State.measured_share]
  refine hsum _ fun m hm => ?_
  by_cases e : m = n
  · rw [e, hn]
  · rw [hj m hm e]

/-- A package's power as it is measured, where the module has the package. -/
def State.metered (s : State) (p : Nat × Nat) : State :=
  if p.1 < s.packages then s.modPack p.1 fun k => { k with power := p.2 } else s

theorem metered_foldl_keeps {β : Type} (proj : State → β) (h : ∀ u p f, proj (State.modPack u p f) = proj u)
    (l : List (Nat × Nat)) (s : State) : proj (l.foldl State.metered s) = proj s :=
  foldl_keeps proj (f := State.metered) (fun u p => by unfold State.metered; split; exacts [h .., rfl]) l s

theorem metered_one_power (s : State) {p v : Nat} (hp : p < s.packages) :
    (([(p, v)].foldl State.metered s).pack p).power = v := by
  rw [List.foldl_cons, List.foldl_nil, State.metered, if_pos hp, State.pack_modPack]

/-- The scale after a sum of power within an envelope (R327). -/
def scaleAfter (envelope scale sum : Nat) : Nat :=
  if 36 * sum < 33 * envelope then 0 else if scale ≠ 0 ∨ 35 * envelope < 36 * sum then scale + 1 else 0

theorem scaleAfter_large (scale sum : Nat) : scaleAfter 18000000 scale sum =
    if sum < 16500000 then 0 else if scale ≠ 0 ∨ 17500000 < sum then scale + 1 else 0 := by
  have h1 : 36 * sum < 33 * 18000000 ↔ sum < 16500000 := by omega
  have h2 : 35 * 18000000 < 36 * sum ↔ 17500000 < sum := by omega
  simp only [scaleAfter, h1, h2]

theorem exec_envelopeCheck (s : State) (power : List (Nat × Nat)) (ht : s.tick % 125000 = 0) :
    exec (.envelopeCheck power) s = .next
      (let v := power.foldl State.metered s
      { v with scale := scaleAfter v.envelope v.scale ((upTo v.packages).foldl (fun a p => a + (v.pack p).power) 0) }) :=
  congrArg Host.Outcome.next (if_neg (by omega))

theorem envelopeCheck_scales (s : State) (power : List (Nat × Nat)) (ht : s.tick % 125000 = 0) :
    ∃ u, exec (.envelopeCheck power) s = .next u ∧ u.tiles = s.tiles ∧ u.mem = s.mem
      ∧ (∀ p v, power = [(p, v)] → p < s.packages → (u.pack p).power = v)
      ∧ let sum := (upTo s.packages).foldl (fun a p => a + (u.pack p).power) 0
        let scaled (low high : Nat) : Nat := if sum < low then 0 else if s.scale ≠ 0 ∨ high < sum then s.scale + 1 else 0
        (s.code = .lk1024n → u.scale = scaled 16500000 17500000)
          ∧ (s.code = .lk64q → u.scale = if 36 * sum < 33 * 1200000 then 0
            else if s.scale ≠ 0 ∨ 35 * 1200000 < 36 * sum then s.scale + 1 else 0) := by
  have he := exec_envelopeCheck s power ht
  have hcode := metered_foldl_keeps State.code (fun _ _ _ => rfl) power s
  have hscale := metered_foldl_keeps State.scale (fun _ _ _ => rfl) power s
  have htiles := metered_foldl_keeps State.tiles (fun _ _ _ => rfl) power s
  have hmem := metered_foldl_keeps State.mem (fun _ _ _ => rfl) power s
  have hone : ∀ p v, power = [(p, v)] → p < s.packages → ((power.foldl State.metered s).pack p).power = v :=
    fun p v e hp => e ▸ metered_one_power s hp
  generalize power.foldl State.metered s = v at he hcode hscale htiles hmem hone
  have hpack : v.packages = s.packages := by rw [State.packages, State.packages, hcode]
  dsimp only at he
  rw [hpack, hscale] at he
  refine ⟨_, he, htiles, hmem, hone, fun hc => ?_, fun hc => ?_⟩
  · have hv : v.envelope = 18000000 := by rw [State.envelope, hcode, hc]
    rw [hv]
    exact scaleAfter_large ..
  · have hv : v.envelope = 1200000 := by rw [State.envelope, hcode, hc]
    rw [hv]
    rfl

/-! ### The power states of an island -/

theorem le_foldl_min (a b : Nat) (l : List Part) :
    a ≤ l.foldl (fun n q => min n q.hostlat) b ↔ a ≤ b ∧ ∀ q ∈ l, a ≤ q.hostlat := by
  induction l generalizing b with
  | nil => simp
  | cons q l ih => rw [List.foldl_cons, ih, Nat.le_min, and_assoc, List.forall_mem_cons]

theorem leastLat_le {l : List Part} {q : Part} (h : q ∈ l) : leastLat l ≤ q.hostlat :=
  ((le_foldl_min (leastLat l) (2 ^ 32) l).1 (Nat.le_refl _)).2 q h

theorem le_leastLat {l : List Part} {a : Nat} (ha : a ≤ 2 ^ 32) (h : ∀ q ∈ l, a ≤ q.hostlat) : a ≤ leastLat l :=
  (le_foldl_min a (2 ^ 32) l).2 ⟨ha, h⟩

theorem deepest_cases (s : State) (n : Nat) (ts : List Nat) :
    let owners := s.parts.filter fun q => ts.any fun t => (s.tile t).core.pid == q.pid
    let corner := (upTo s.packages).any fun p => islandOf (cornerTile p) == n
    (owners = [] → deepest s n ts = if ts.any fun t => waitsHere (s.tile t) then 1 else if corner then 2 else 3)
      ∧ ((∃ q ∈ owners, q.hostlat < 40) → deepest s n ts = 0)
      ∧ (owners ≠ [] → (∀ q ∈ owners, 4000 ≤ q.hostlat ∧ q.hostlat < 2 ^ 32) → deepest s n ts =
        if ts.any fun t => waitsHere (s.tile t) then 1 else 2) := by
  intro owners corner
  have hd : deepest s n ts = min (if ts.any fun t => waitsHere (s.tile t) then 1 else 3)
      (if owners.isEmpty then (if corner then 2 else 3) else if 4000 ≤ leastLat owners then 2
        else if 40 ≤ leastLat owners then 1 else 0) := rfl
  rw [hd]
  refine ⟨fun h => ?_, fun ⟨q, hq, hl⟩ => ?_, fun h hl => ?_⟩
  · rw [h, List.isEmpty_nil, if_pos rfl]
    split
    · split <;> rfl
    · split <;> rfl
  · have hle : leastLat owners < 40 := (leastLat_le hq).trans_lt hl
    have h4000 : ¬4000 ≤ leastLat owners := by omega
    have hne : owners.isEmpty = false := List.isEmpty_eq_false_iff.2 (List.ne_nil_of_mem hq)
    rw [hne, if_neg Bool.false_ne_true, if_neg h4000, if_neg (Nat.not_le.2 hle), Nat.min_zero]
  · have hle : 4000 ≤ leastLat owners := le_leastLat (by decide) fun q hq => (hl q hq).1
    have hne : owners.isEmpty = false := List.isEmpty_eq_false_iff.2 h
    rw [hne, if_neg Bool.false_ne_true, if_pos hle]
    split <;> rfl

theorem State.powerOff_tile (s : State) (a t : Nat) :
    (s.powerOff a).tile t = if t = a then (s.tile a).off else s.tile t := by
  by_cases h : t = a
  · rw [if_pos h, h]
    exact State.tile_modTile ..
  · rw [if_neg h]
    exact State.tile_modTile_other _ _ h

theorem powerOff_foldl_tile (ts : List Nat) (s : State) (t : Nat) :
    (ts.foldl State.powerOff s).tile t = if t ∈ ts then (s.tile t).off else s.tile t := by
  induction ts generalizing s with
  | nil => rfl
  | cons a ts ih =>
    rw [List.foldl_cons, ih, State.powerOff_tile]
    by_cases e : t = a
    · subst e
      rw [if_pos rfl, if_pos (List.mem_cons_self ..)]
      exact ite_id _
    · simp only [e, if_false, List.mem_cons, false_or]

theorem islandPowerDown_idle (s : State) (n : Nat) :
    let i := s.island n
    let ts := islandCores s n
    let p := deepest s n ts
    i.waking = none → ts ≠ [] → islandIdle s ts = true → i.pstate < p →
      ∃ u, exec (.islandPowerDown n) s = .next u ∧ u.island n = { i with pstate := p }
        ∧ (p ≠ 3 → u.tiles = s.tiles ∧ u.mem = s.mem)
        ∧ (p = 3 → ∀ t ∈ ts, (u.tile t).threads = Vector.replicate 8 {} ∧ (u.tile t).router = (s.tile t).router) := by
  intro i ts p hw ht hi hp
  have he : ts.isEmpty = false := List.isEmpty_eq_false_iff.2 ht
  have hg : ¬(p ≤ i.pstate ∨ i.waking.isSome = true ∨ ts.isEmpty = true ∨ (!islandIdle s ts) = true) := by
    rw [hw, he, hi]
    simpa using hp
  refine ⟨_, congrArg Host.Outcome.next (if_neg hg), ?_, fun h => ?_, fun h t hm => ?_⟩
  · have hs : (if p = 3 then ts.foldl State.powerOff s else s).island n = i := by
      split
      · exact foldl_keeps (State.island · n) (f := State.powerOff) (fun _ _ => rfl) ts s
      · rfl
    refine (State.island_modIsland ..).trans ?_
    rw [hs, ← hw]
  · dsimp only
    rw [if_neg h]
    exact ⟨rfl, rfl⟩
  · have hs : ∀ u f, (State.modIsland u n f).tile t = u.tile t := fun _ _ => rfl
    dsimp only
    rw [hs, if_pos h, powerOff_foldl_tile, if_pos hm]
    exact ⟨rfl, rfl⟩

theorem wakeTicks_eq (p : Nat) : wakeTicks p = if p = 1 then 50 else if p = 2 then 5000 else 500000 := by
  unfold wakeTicks
  split
  · rfl
  · rfl
  · rename_i h1 h2
    rw [if_neg h1, if_neg h2]

theorem islandWake_begins (s : State) (n : Nat) (hp : (s.island n).pstate ≠ 0) (hw : (s.island n).waking = none)
    (hd : (islandCores s n).any (deliveryWaits s) = true) :
    let i := s.island n
    let ticks := if i.pstate = 1 then 50 else if i.pstate = 2 then 5000 else 500000
    ∃ u, exec (.islandWake n) s = .next u ∧ { u with islands := s.islands } = s
      ∧ u.island n = { i with waking := some (s.tick + ticks) } := by
  intro i ticks
  refine ⟨_, congrArg Host.Outcome.next (if_pos ⟨hp, hd⟩), rfl, ?_⟩
  rw [State.wakeIsland, State.island_modIsland, if_pos ⟨hp, by rw [hw]; rfl⟩, wakeTicks_eq]

theorem serveWaiting_done {s : State} (h : ∀ p, p < s.packages → (s.pack p).mail.done = true) :
    s.serveWaiting = s := by
  have hl : ∀ p ∈ upTo s.packages, (s.pack p).mail.done = true := fun p hp => h p (List.mem_range.1 hp)
  unfold State.serveWaiting
  generalize upTo s.packages = l at hl
  induction l with
  | nil => rfl
  | cons a l ih =>
    rw [List.foldl_cons]
    dsimp only
    rw [if_pos (Or.inl (hl a (List.mem_cons_self ..)))]
    exact ih fun p hp => hl p (List.mem_cons_of_mem _ hp)

theorem islandWakeComplete_done (s : State) (n w : Nat) (hw : (s.island n).waking = some w) (ht : w ≤ s.tick)
    (hm : ∀ p, p < s.packages → (s.pack p).mail.done = true) :
    ∃ u, exec (.islandWakeComplete n) s = .next u ∧ { u with islands := s.islands } = s
      ∧ u.island n = { s.island n with pstate := 0, waking := none } := by
  have he : exec (.islandWakeComplete n) s =
      .next (s.modIsland n fun i => { i with pstate := 0, waking := none }).serveWaiting := by
    show execIslandWakeComplete n s = _
    rw [execIslandWakeComplete, hw]
    exact if_neg (Nat.not_lt.2 ht)
  refine ⟨_, he, ?_⟩
  rw [serveWaiting_done (by exact hm)]
  exact ⟨rfl, State.island_modIsland ..⟩

/-! ### The patrol scrub -/

theorem memNat_insertNat (a : Nat) (l : List Nat) : memNat a (insertNat a l) = true := by
  induction l with
  | nil => simp [insertNat, memNat]
  | cons b l ih =>
    unfold insertNat
    split
    · rename_i h; simp [memNat, h]
    · split
      · simp [memNat]
      · simp [memNat, ih]

theorem State.marked_markWord (s : State) (k : Nat) : (s.markWord k).marked k = true :=
  memNat_insertNat ..

/-- The tile of a pseudo-channel's controller at the next word. -/
def State.scrubbed (s : State) (t addr : Nat) : State := s.modTile t fun x => { x with scrubPtr := (addr + 8) % 2 ^ 30 }

theorem State.scrubbed_tile (s : State) (t addr : Nat) :
    (s.scrubbed t addr).tile t = { s.tile t with scrubPtr := (addr + 8) % 2 ^ 30 } :=
  State.tile_modTile ..

section
variable {s : State} {chan addr : Nat} (hf : s.inFrame (chanTile chan) = true)
  (ha : (s.tile (chanTile chan)).scrubPtr = addr) (hp : (s.tile (chanTile chan)).pcPowered = true)
include hf ha hp

theorem exec_patrolScrubStep (e : BitVec 2) : exec (.patrolScrubStep chan addr e) s =
    (if e = 1 then .next ((s.scrubbed (chanTile chan) addr).modIsland (islandOf (chanTile chan)) fun i =>
        { i with ceCount := (i.ceCount + 1) % 2 ^ 32 })
      else if e = 2 then .next ((((s.scrubbed (chanTile chan) addr).markWord (hbmKey chan addr)).modTile (chanTile chan)
        fun x => { x with ueCount := (x.ueCount + 1) % 2 ^ 32 }).logError (chanTile chan) 4
          (s.tile (chanTile chan)).lidx false 0 0 (nd addr) 0)
      else .next (s.scrubbed (chanTile chan) addr)) := by
  have hg : ¬((s.tile (chanTile chan)).scrubPtr ≠ addr ∨ (!(s.tile (chanTile chan)).pcPowered) = true) := by
    rw [ha, hp]; simp
  exact (if_pos hf).trans (if_neg hg)

theorem patrolScrubStep_sound : ∃ u, exec (.patrolScrubStep chan addr 0) s = .next u
    ∧ u.tile (chanTile chan) = { s.tile (chanTile chan) with scrubPtr := (addr + 8) % 2 ^ 30 }
    ∧ u.mem = s.mem ∧ u.marks = s.marks :=
  ⟨_, exec_patrolScrubStep hf ha hp 0, State.scrubbed_tile .., rfl, rfl⟩

theorem patrolScrubStep_corrected : ∃ u, exec (.patrolScrubStep chan addr 1) s = .next u
    ∧ u.tile (chanTile chan) = { s.tile (chanTile chan) with scrubPtr := (addr + 8) % 2 ^ 30 }
    ∧ u.island (islandOf (chanTile chan)) = { s.island (islandOf (chanTile chan)) with
        ceCount := ((s.island (islandOf (chanTile chan))).ceCount + 1) % 2 ^ 32 }
    ∧ u.marks = s.marks :=
  ⟨_, exec_patrolScrubStep hf ha hp 1, State.scrubbed_tile s (chanTile chan) addr, State.island_modIsland .., rfl⟩

theorem patrolScrubStep_uncorrectable : ∃ u, exec (.patrolScrubStep chan addr 2) s = .next u
    ∧ u.marked (hbmKey chan addr) = true ∧ u.mem = s.mem
    ∧ (u.tile (chanTile chan)).ueCount = ((s.tile (chanTile chan)).ueCount + 1) % 2 ^ 32
    ∧ (u.tile (chanTile chan)).elhead = ((s.tile (chanTile chan)).elhead + 1) % 2 ^ 64
    ∧ (u.tile (chanTile chan)).scrubPtr = (addr + 8) % 2 ^ 30 ∧ (u.tile (chanTile chan)).evpend.getLsbD 2 = true := by
  refine ⟨_, exec_patrolScrubStep hf ha hp 2, State.marked_markWord .., rfl, ?_⟩
  have ht : ((s.scrubbed (chanTile chan) addr).markWord (hbmKey chan addr)).tile (chanTile chan) =
      { s.tile (chanTile chan) with scrubPtr := (addr + 8) % 2 ^ 30 } := State.scrubbed_tile s (chanTile chan) addr
  rw [State.logError, State.tile_modTile, State.tile_modTile, ht]
  refine ⟨rfl, rfl, rfl, ?_⟩
  rw [BitVec.getLsbD_or]
  exact Bool.or_true _

end

/-! ### Known-answer tests -/

section
variable {s : State} {t cls : Nat}

theorem exec_periodicTest (hf : s.inFrame t = true) (he : (s.tile t).enabled = true) (hs : s.strap = false)
    (ho : s.inOpen t = false) (hp : (s.tile t).partTick + 60 * 1250000000 ≤ s.tick)
    (ht : (s.tile t).tested + 86400 * 1250000000 < s.tick) (fails : List (Nat × Bool)) :
    exec (.periodicTest t fails) s = .next
      ((fails.foldl (fun s f => s.testFailed t f.1 f.2) s).modTile t fun x => { x with tested := s.tick }) := by
  have hg : ¬((!(s.tile t).enabled) = true ∨ s.strap = true ∨ s.inOpen t = true
      ∨ s.tick < (s.tile t).partTick + 60 * second ∨ s.tick ≤ (s.tile t).tested + 86400 * second) := by
    rw [he, hs, ho, second]
    simp only [Bool.not_true, Bool.false_eq_true, false_or]
    omega
  exact (if_pos hf).trans (if_neg hg)

variable (hc : cls < 18) (hb : (s.tile t).core.jcaps.getLsbD cls = true)
include hc hb

theorem testFailed_guard : ¬(18 ≤ cls ∨ (!bitAt (s.tile t).core.jcaps cls) = true) := by
  rw [bitAt, hb]
  simpa using hc

/-- A first failure: recorded in the fence log, and counted. -/
theorem testFailed_once (hn : Assoc.get 0 (s.tile t).transient cls < 2) :
    (s.testFailed t cls false).tile t = { s.tile t with
      transient := Assoc.put cls (Assoc.get 0 (s.tile t).transient cls + 1) (s.tile t).transient } := by
  have h2 : ¬(false = true ∨ Assoc.get 0 (s.tile t).transient cls = 2) := by
    rintro (h | h)
    · exact Bool.false_ne_true h
    · omega
  unfold State.testFailed
  dsimp only
  rw [if_neg (testFailed_guard hc hb), if_neg h2]
  exact State.tile_modTile ..

theorem testFailed_again : s.testFailed t cls true = s.fence t cls := by
  unfold State.testFailed
  dsimp only
  rw [if_neg (testFailed_guard hc hb), if_pos (Or.inl rfl)]

end

theorem State.pack_fenceLog_deconf (s : State) (kind cls t : Nat) :
    ((s.fenceLog kind cls t).pack (pkgOf t)).deconf = (s.pack (pkgOf t)).deconf := by
  rw [State.fenceLog, State.pack_modPack]

/-- Fencing a class with room in the list: its bit cleared, a HEALTH event, and an entry. -/
theorem fence_listed {s : State} {t : Nat} (cls : Nat) (hl : (s.pack (pkgOf t)).deconf.length < 1023) :
    (s.fence t cls).tile t = { s.tile t with
        core := { (s.tile t).core with jcaps := (s.tile t).core.jcaps &&& ~~~(nd (2 ^ cls)) }
        evpend := (s.tile t).evpend ||| 0x20 }
      ∧ ((s.fence t cls).pack (pkgOf t)).deconf = (s.pack (pkgOf t)).deconf ++ [deconfEntry 2 cls t] := by
  have hd : (s.modCore t fun c => { c with jcaps := c.jcaps &&& ~~~(nd (2 ^ cls)) }).deconf t (deconfEntry 2 cls t) = some
      ((s.modCore t fun c => { c with jcaps := c.jcaps &&& ~~~(nd (2 ^ cls)) }).modPack (pkgOf t) fun k =>
        { k with deconf := k.deconf ++ [deconfEntry 2 cls t] }) := if_pos hl
  unfold State.fence
  dsimp only
  rw [hd]
  refine ⟨?_, ?_⟩
  · rw [State.event, State.tile_modTile]
    exact congrArg (fun x : Tile => { x with evpend := x.evpend ||| 0x20 })
      (s.tile_modTile t fun x => { x with core := { x.core with jcaps := x.core.jcaps &&& ~~~(nd (2 ^ cls)) } })
  · refine (State.pack_fenceLog_deconf _ 2 cls t).trans ?_
    rw [State.pack_modPack]
    rfl

theorem periodicTest_outcomes {s : State} {t : Nat} (cls : Nat) (hf : s.inFrame t = true)
    (he : (s.tile t).enabled = true) (hs : s.strap = false) (ho : s.inOpen t = false)
    (hp : (s.tile t).partTick + 60 * 1250000000 ≤ s.tick) (ht : (s.tile t).tested + 86400 * 1250000000 < s.tick) :
    let x := s.tile t
    (∃ u, exec (.periodicTest t []) s = .next u ∧ u.tile t = { x with tested := s.tick })
      ∧ (cls < 18 → x.core.jcaps.getLsbD cls = true → Assoc.get 0 x.transient cls < 2 →
        ∃ u, exec (.periodicTest t [(cls, false)]) s = .next u ∧ (u.tile t).core = x.core ∧ (u.tile t).tested = s.tick
          ∧ Assoc.get 0 (u.tile t).transient cls = Assoc.get 0 x.transient cls + 1)
      ∧ (cls < 18 → x.core.jcaps.getLsbD cls = true → (s.pack (pkgOf t)).deconf.length < 1023 →
        ∃ u, exec (.periodicTest t [(cls, true)]) s = .next u
          ∧ (u.tile t).core = { x.core with jcaps := x.core.jcaps &&& ~~~(BitVec.ofNat 64 (2 ^ cls)) }
          ∧ (u.tile t).evpend = x.evpend ||| 0x20
          ∧ (u.pack (pkgOf t)).deconf = (s.pack (pkgOf t)).deconf ++ [deconfEntry 2 cls t]) := by
  intro x
  have hx := exec_periodicTest hf he hs ho hp ht
  refine ⟨⟨_, hx [], State.tile_modTile ..⟩, fun hc hb hn => ⟨_, hx _, ?_⟩, fun hc hb hl => ⟨_, hx _, ?_⟩⟩
  · rw [State.tile_modTile, List.foldl_cons, List.foldl_nil, testFailed_once hc hb hn]
    exact ⟨rfl, rfl, Assoc.get_put_same ..⟩
  · rw [State.tile_modTile, List.foldl_cons, List.foldl_nil, testFailed_again hc hb]
    obtain ⟨htile, hpack⟩ := fence_listed (s := s) cls hl
    rw [htile]
    exact ⟨rfl, rfl, hpack⟩

/-! ### All clauses -/

/-- Settles O52: clause by clause, in the statement's order. -/
theorem healthAndPower : Obligations.HealthAndPower := by
  unfold Obligations.HealthAndPower
  intro s n i isles
  refine ⟨guardAdjust_cold s n, eolFit_daily s n, shareGrant_one s n, envelopeCheck_scales s, islandPowerDown_idle s n,
    deepest_cases s n (islandCores s n), islandWake_begins s n, islandWakeComplete_done s n, ?_, ?_⟩
  · intro chan addr t x y hf ha hp
    refine ⟨patrolScrubStep_sound hf ha hp, fun hn => ?_, patrolScrubStep_uncorrectable hf ha hp⟩
    have h := patrolScrubStep_corrected hf ha hp
    rw [← hn] at h
    exact h
  · exact fun t cls hf he hs ho hp ht => periodicTest_outcomes cls hf he hs ho hp ht

end Sys2Proof.Machine
end

section
/-! # The address spaces (O11)

A space's checks 1 and 2 are one condition on the address (`locate_…`), and check 3 compares the end of the access with
the end of the space (`Loc.fits`). `checkAddr_rule` draws the four clauses of R32 from these two facts. -/

namespace Sys2Proof.Machine
variable {s : State} {m : Mode} {a : Dword}

theorem locate_own (h : bits a 60 4 = 0) :
    locate s m a = if bits a 19 41 = 0 then some (.own (bits a 0 19)) else none := by
  rw [locate, h]
  rfl

theorem locate_mesh (h : bits a 60 4 = 1) :
    locate s m a = if bits a 40 20 = 0 ∧ bits a 19 1 = 0 ∧ bits a 30 10 < s.here.core.height
        ∧ bits a 20 10 < s.here.core.width
      then some (.mesh (bits a 30 10) (bits a 20 10) (bits a 0 19)) else none := by
  rw [locate, h]
  rfl

theorem locate_global (h : bits a 60 4 = 2) :
    locate s m a = if bits a 52 8 = 0 then some (.global (bits a 0 52)) else none := by
  rw [locate, h]
  rfl

theorem locate_ownModule (h : bits a 60 4 = 3) (hm : bits a 48 12 = s.here.core.jmod) :
    locate s m a = if bits a 19 9 = 0 ∧ s.here.core.jmod ≤ s.here.core.jmods ∧ bits a 38 10 < s.here.core.height
        ∧ bits a 28 10 < s.here.core.width
      then some (.mesh (bits a 38 10) (bits a 28 10) (bits a 0 19)) else none := by
  rw [locate, h]
  have hp : (bits a 19 9 ≠ 0 ∨ s.here.core.jmods < s.here.core.jmod)
      ↔ ¬(bits a 19 9 = 0 ∧ s.here.core.jmod ≤ s.here.core.jmods) := by rw [not_and_or, Nat.not_le]
  simp only [hm, hp, ite_not, if_true, ← ite_and, and_assoc]

theorem locate_otherModule (h : bits a 60 4 = 3) (hm : bits a 48 12 ≠ s.here.core.jmod) :
    locate s m a = if bits a 19 9 = 0 ∧ bits a 48 12 ≤ s.here.core.jmods
      then some (.fabric (bits a 48 12) (bits a 38 10) (bits a 28 10) (bits a 0 19)) else none := by
  rw [locate, h]
  have hp : (bits a 19 9 ≠ 0 ∨ s.here.core.jmods < bits a 48 12)
      ↔ ¬(bits a 19 9 = 0 ∧ bits a 48 12 ≤ s.here.core.jmods) := by rw [not_and_or, Nat.not_le]
  simp only [hm, hp, ite_not, if_false]

theorem locate_abs (h : bits a 60 4 = 4) :
    locate s m a = if m = .machine ∧ bits a 40 20 = 0 ∧ bits a 30 10 < s.side ∧ bits a 20 10 < s.side
      then some (.abs (bits a 30 10) (bits a 20 10) (bits a 0 20)) else none := by
  rw [locate, h]
  simp only [beq_iff_eq]

theorem locate_mram (h : bits a 60 4 = 5) :
    locate s m a = if m = .machine ∧ bits a 15 45 = 0 then some (.mram (bits a 0 15)) else none := by
  rw [locate, h]
  simp only [beq_iff_eq]

theorem locate_mgmt (h : bits a 60 4 = 6) :
    locate s m a = if m = .machine ∧ bits a 20 40 = 0 ∧ bits a 16 4 < s.packages
      then some (.mgmt (bits a 16 4) (bits a 0 16)) else none := by
  rw [locate, h]
  simp only [beq_iff_eq]

theorem locate_host (h : bits a 60 4 = 7) :
    locate s m a = if m = .machine ∧ bits a 56 4 < s.packages
      then some (.host (bits a 56 4) (bits a 0 56)) else none := by
  rw [locate, h]
  simp only [beq_iff_eq]

/-- No place lies in a space from 0x8 on (R30). -/
theorem locate_reserved (h : 8 ≤ bits a 60 4) : locate s m a = none := by
  obtain ⟨n, hn⟩ : ∃ n, bits a 60 4 = n + 8 := ⟨_, (Nat.sub_add_cancel h).symm⟩
  rw [locate, hn]
  rfl

/-- The end of the part of a tile in which a TOFF lies; one in no region has no end at this check (R32, R34). -/
theorem fits_abs (y x toff size : Nat) :
    (Loc.abs y x toff).fits size = decide (toff + size ≤
      if toff < 0x80000 then 0x80000 else if toff < 0x88000 then 0x88000
      else if 0xC0000 ≤ toff ∧ toff < 0xC1000 then 0xC1000 else toff + size) := by
  unfold Loc.fits regionEnd
  by_cases h1 : toff < 0x80000
  · simp only [h1, if_true]
  by_cases h2 : toff < 0x88000
  · simp only [h1, h2, if_true, if_false]
  by_cases h3 : 0xC0000 ≤ toff ∧ toff < 0xC1000
  · simp only [h1, h2, if_pos h3, if_false]
  · simp only [h1, h2, h3, if_false, Nat.le_refl, decide_true]

theorem checkAddr_none {size align : Nat} (h : locate s m a = none) : checkAddr s m a size align = .error .access := by
  rw [checkAddr, h]

theorem checkAddr_some {size align : Nat} {l : Loc} (h : locate s m a = some l) :
    checkAddr s m a size align =
      if !l.fits size then .error .access else if a.toNat % align ≠ 0 then .error .misaligned else .ok l := by
  rw [checkAddr, h]

/-- The checks of R32 in their order, for a space whose checks 1 and 2 are `place` and whose end is at `len`. -/
theorem checkAddr_rule {size align off len : Nat} {place : Prop} [Decidable place] {l : Loc}
    (hp : locate s m a = if place then some l else none) (hf : l.fits size = decide (off + size ≤ len)) :
    (¬place → checkAddr s m a size align = .error .access)
      ∧ (place → len < off + size → checkAddr s m a size align = .error .access)
      ∧ (place → off + size ≤ len → a.toNat % align ≠ 0 → checkAddr s m a size align = .error .misaligned)
      ∧ (place → off + size ≤ len → a.toNat % align = 0 → checkAddr s m a size align = .ok l) := by
  have hin (h : place) := checkAddr_some (size := size) (align := align) (hp.trans (if_pos h))
  refine ⟨fun h => checkAddr_none (hp.trans (if_neg h)), fun h hl => ?_, fun h hl ha => ?_, fun h hl ha => ?_⟩
  · rw [hin h, hf, decide_eq_false (Nat.not_le.2 hl)]
    rfl
  · rw [hin h, hf, decide_eq_true hl]
    exact if_pos ha
  · rw [hin h, hf, decide_eq_true hl]
    exact if_neg (not_not.2 ha)

/-- Settles O11: each space's place and end, through the rule of R32. -/
theorem addressSpaces : Obligations.AddressSpaces := by
  unfold Obligations.AddressSpaces
  intro s m a size align _ _
  exact ⟨fun h => checkAddr_rule (locate_own h) rfl, fun h => checkAddr_rule (locate_mesh h) rfl,
    fun h => checkAddr_rule (locate_global h) rfl, fun h hm => checkAddr_rule (locate_ownModule h hm) rfl,
    fun h hm => checkAddr_rule (locate_otherModule h hm) rfl, fun h => checkAddr_rule (locate_abs h) (fits_abs ..),
    fun h => checkAddr_rule (locate_mram h) rfl, fun h => checkAddr_rule (locate_mgmt h) rfl,
    fun h => checkAddr_rule (locate_host h) rfl, fun h => checkAddr_none (locate_reserved h)⟩

end Sys2Proof.Machine
end

section
/-! # Accesses that fail a check, or meet an uncorrectable word (O12)

Every access of a thread goes through `checked`, so a family of instructions has one lemma, `…_faults`, which
each of its instructions cites. What a marked word does is said once of `localMark`. -/

namespace Sys2Proof.Machine

/-! ### Accesses that fail a check (R32) -/

/-- The access of size bytes at `at_` traps, with the causes of its kind, where it fails a check of R32. -/
def Faults (s : State) (write : Bool) (i : Instr) (at_ : Dword) (size : Nat) : Prop :=
  (checkAddr s s.me.mode at_ size size = .error .access → Traps i s (if write then 7 else 5) at_)
    ∧ (checkAddr s s.me.mode at_ size size = .error .misaligned → Traps i s (if write then 6 else 4) at_)

section
variable {s : State} {i : Instr} {size : Nat}

theorem checked_access {w : Bool} {a : Dword} {n : Nat} {k : Loc → Outcome}
    (h : checkAddr s s.me.mode a size n = .error .access) :
    checked s w a size n k = .next (s.trap (if w then 7 else 5) a) := by
  rw [checked, h]

theorem checked_misaligned {w : Bool} {a : Dword} {n : Nat} {k : Loc → Outcome}
    (h : checkAddr s s.me.mode a size n = .error .misaligned) :
    checked s w a size n k = .next (s.trap (if w then 6 else 4) a) := by
  rw [checked, h]

theorem checked_ok {w : Bool} {a : Dword} {n : Nat} {k : Loc → Outcome} {l : Loc}
    (h : checkAddr s s.me.mode a size n = .ok l) : checked s w a size n k = k l := by
  rw [checked, h]

theorem faults_of_checked {w : Bool} {a : Dword} {k : Loc → Outcome} (hi : exec i s = checked s w a size size k) :
    Faults s w i a size :=
  ⟨fun h => traps_of_trap _ _ _ _ (hi.trans (checked_access h)),
    fun h => traps_of_trap _ _ _ _ (hi.trans (checked_misaligned h))⟩

theorem load_faults {signed : Bool} {rd rs1 : Reg} {imm : BitVec 12} (hi : exec i s = load size signed rd rs1 imm s) :
    Faults s false i (s.rx rs1 + sext imm) size :=
  faults_of_checked hi

theorem store_faults {rs1 rs2 : Reg} {imm : BitVec 12} (hi : exec i s = store size rs1 rs2 imm s) :
    Faults s true i (s.rx rs1 + sext imm) size :=
  faults_of_checked hi

theorem loadReserved_faults {rd rs1 : Reg} {aq rl : Bool} (hi : exec i s = loadReserved size rd rs1 aq rl s) :
    Faults s false i (s.rx rs1) size :=
  faults_of_checked hi

theorem storeConditional_faults {rd rs1 rs2 : Reg} {aq rl : Bool}
    (hi : exec i s = storeConditional size rd rs1 rs2 aq rl s) : Faults s true i (s.rx rs1) size :=
  faults_of_checked hi

theorem amo_faults {op : AmoOp} {rd rs1 rs2 : Reg} {aq rl : Bool} (hi : exec i s = amo op size rd rs1 rs2 aq rl s) :
    Faults s true i (s.rx rs1) size :=
  faults_of_checked hi

/-- A device atomic whose class is not fenced goes on to the checks of its address (R59, R102). -/
theorem deviceAmo_checked {op : AmoOp} {rd rs1 rs2 : Reg} {cmp : Dword} (hc : amoIsFp op = true → s.cap 17 = true) :
    deviceAmo op size rd rs1 rs2 cmp s = riserChecked s (s.rx rs1) size size fun l =>
      match l with
      | .own off => localAmo op size rd (s.rx rs1) (s.rx rs2) cmp off false s
      | _ => request s (.amo op size (s.rx rs2) cmp) (s.rx rs1) l true rd size true (·.retire) := by
  have hg : ¬(amoIsFp op = true ∧ bits (s.rx rs1) 60 4 = 0 ∧ (!s.cap 17) = true) := by
    rintro ⟨hfp, -, hn⟩
    rw [hc hfp] at hn
    exact Bool.false_ne_true hn
  exact (if_neg hg).trans rfl

theorem deviceAmo_faults {op : AmoOp} {rd rs1 rs2 : Reg} {cmp : Dword} (hi : exec i s = deviceAmo op size rd rs1 rs2 cmp s)
    (hc : amoIsFp op = true → s.cap 17 = true) : Faults s true i (s.rx rs1) size :=
  faults_of_checked (hi.trans (deviceAmo_checked hc))

theorem riserChecked_faults {a : Dword} {k : Loc → Outcome} (hi : exec i s = riserChecked s a size size k) :
    Faults s true i a size :=
  faults_of_checked hi

theorem countedBytes_faults {v : Nat} {a r : Dword} (hi : exec i s = countedBytes size v a r s) : Faults s true i a size :=
  riserChecked_faults hi

end

section
variable (s : State) (rd rs1 rs2 rs3 : Reg) (imm : BitVec 12) (aq rl : Bool)

theorem words_fault : ∀ i ∈ [Instr.scW rd rs1 rs2 aq rl, .amoswapW rd rs1 rs2 aq rl, .amoaddW rd rs1 rs2 aq rl,
      .amoxorW rd rs1 rs2 aq rl, .amoandW rd rs1 rs2 aq rl, .amoorW rd rs1 rs2 aq rl, .amominW rd rs1 rs2 aq rl,
      .amomaxW rd rs1 rs2 aq rl, .amominuW rd rs1 rs2 aq rl, .amomaxuW rd rs1 rs2 aq rl, .amoincbW rd rs1 rs2,
      .swc rs1 rs2 rs3], Faults s true i (s.rx rs1) 4 := by
  simp only [List.forall_mem_cons]
  exact ⟨storeConditional_faults rfl, amo_faults rfl, amo_faults rfl, amo_faults rfl, amo_faults rfl, amo_faults rfl,
    amo_faults rfl, amo_faults rfl, amo_faults rfl, amo_faults rfl, deviceAmo_faults (op := .incb) rfl nofun,
    countedBytes_faults rfl, List.forall_mem_nil _⟩

theorem doublewords_fault : ∀ i ∈ [Instr.scD rd rs1 rs2 aq rl, .amoswapD rd rs1 rs2 aq rl, .amoaddD rd rs1 rs2 aq rl,
      .amoxorD rd rs1 rs2 aq rl, .amoandD rd rs1 rs2 aq rl, .amoorD rd rs1 rs2 aq rl, .amominD rd rs1 rs2 aq rl,
      .amomaxD rd rs1 rs2 aq rl, .amominuD rd rs1 rs2 aq rl, .amomaxuD rd rs1 rs2 aq rl, .amoincbD rd rs1 rs2,
      .amocasD rd rs1 rs2, .radd rd rs1 rs2, .rsig rs1 rs2, .rpoison rs1 rs2, .sdc rs1 rs2 rs3],
    Faults s true i (s.rx rs1) 8 := by
  simp only [List.forall_mem_cons]
  exact ⟨storeConditional_faults rfl, amo_faults rfl, amo_faults rfl, amo_faults rfl, amo_faults rfl, amo_faults rfl,
    amo_faults rfl, amo_faults rfl, amo_faults rfl, amo_faults rfl, deviceAmo_faults (op := .incb) rfl nofun,
    deviceAmo_faults (op := .cas) rfl nofun, riserChecked_faults rfl, riserChecked_faults rfl, riserChecked_faults rfl,
    countedBytes_faults rfl, List.forall_mem_nil _⟩

theorem barriers_fault : ∀ i ∈ [Instr.binit rs1 rs2, .bexp rd rs1 rs2, .bpoison rs1 rs2],
    Faults s true i (s.rx rs1) 16 := by
  simp only [List.forall_mem_cons]
  exact ⟨riserChecked_faults rfl, riserChecked_faults rfl, riserChecked_faults rfl, List.forall_mem_nil _⟩

theorem floatAtomics_fault (hc : s.cap 17 = true) :
    ∀ i ∈ [Instr.amofaddS rd rs1 rs2, .amofaddBf rd rs1 rs2, .amofmaxS rd rs1 rs2, .amofminS rd rs1 rs2],
      Faults s true i (s.rx rs1) 4 := by
  simp only [List.forall_mem_cons]
  exact ⟨deviceAmo_faults (op := .fadd) rfl fun _ => hc, deviceAmo_faults (op := .faddBf) rfl fun _ => hc,
    deviceAmo_faults (op := .fmax) rfl fun _ => hc, deviceAmo_faults (op := .fmin) rfl fun _ => hc, List.forall_mem_nil _⟩

/-- BARV names its barrier by its operand without the generation tag (R167). -/
theorem barv_faults : Faults s true (.barv rd rs1) (s.rx rs1 &&& 0xFFFFFFFFFFFFFFF0) 16 :=
  riserChecked_faults rfl

end

/-! ### Uncorrectable words (R131) -/

/-- The access of size bytes at b is to the own scratchpad, at off, where a word of it is marked. -/
def MarkedAt (s : State) (b : Dword) (size off : Nat) : Prop :=
  checkAddr s s.me.mode b size size = .ok (.own off) ∧ off < 0x80000 ∧ s.markedIn (s.myKey off) size = true

section
variable {s : State} {i : Instr} {size off : Nat}

theorem localMark_traps {a b : Dword} {k : State → Outcome} (h : MarkedAt s b size off) :
    localMark s a off size k = .next (s.trap 32 a) := by
  obtain ⟨-, hlow, hmark⟩ := h
  exact (if_pos hmark).trans (if_pos hlow)

theorem release_false (k : State → Outcome) : release false s k = k s := rfl

theorem portFree_open {k : State → Outcome} (hf : s.here.held s.cur.tile (s.localWriter size) off size = false) :
    portFree s off size k = k s := by
  rw [portFree, hf]
  exact if_neg Bool.false_ne_true

theorem load_marked {signed : Bool} {rd rs1 : Reg} {imm : BitVec 12} (hi : exec i s = load size signed rd rs1 imm s)
    (h : MarkedAt s (s.rx rs1 + sext imm) size off) : Traps i s 32 (s.rx rs1 + sext imm) :=
  traps_of_trap _ _ _ _ (hi.trans ((checked_ok h.1).trans (localMark_traps h)))

theorem loadReserved_marked {rd rs1 : Reg} {aq : Bool} (hi : exec i s = loadReserved size rd rs1 aq false s)
    (h : MarkedAt s (s.rx rs1) size off) : Traps i s 32 (s.rx rs1) :=
  traps_of_trap _ _ _ _ (hi.trans ((checked_ok h.1).trans ((release_false _).trans (localMark_traps h))))

/-- A local atomic looks for a hold first (log 52). -/
theorem localAmo_marked {op : AmoOp} {rd : Reg} {a src cmp : Dword} {aq : Bool} (h : MarkedAt s a size off)
    (hf : s.here.held s.cur.tile (s.localWriter size) off size = false) :
    localAmo op size rd a src cmp off aq s = .next (s.trap 32 a) :=
  (portFree_open hf).trans (localMark_traps h)

theorem amo_marked {op : AmoOp} {rd rs1 rs2 : Reg} {aq : Bool} (hi : exec i s = amo op size rd rs1 rs2 aq false s)
    (h : MarkedAt s (s.rx rs1) size off) (hf : s.here.held s.cur.tile (s.localWriter size) off size = false) :
    Traps i s 32 (s.rx rs1) :=
  traps_of_trap _ _ _ _ (hi.trans ((checked_ok h.1).trans ((release_false _).trans (localAmo_marked h hf))))

theorem deviceAmo_marked {op : AmoOp} {rd rs1 rs2 : Reg} {cmp : Dword} (hi : exec i s = deviceAmo op size rd rs1 rs2 cmp s)
    (hc : amoIsFp op = true → s.cap 17 = true) (h : MarkedAt s (s.rx rs1) size off)
    (hf : s.here.held s.cur.tile (s.localWriter size) off size = false) : Traps i s 32 (s.rx rs1) :=
  traps_of_trap _ _ _ _ (hi.trans ((deviceAmo_checked hc).trans ((checked_ok h.1).trans (localAmo_marked h hf))))

end

section
variable (s : State) (rd rs1 rs2 : Reg) {off : Nat}

theorem doublewords_marked (h : MarkedAt s (s.rx rs1) 8 off)
    (hf : s.here.held s.cur.tile (s.localWriter 8) off 8 = false) :
    ∀ i ∈ [Instr.amoswapD rd rs1 rs2 false false, .amoaddD rd rs1 rs2 false false, .amoxorD rd rs1 rs2 false false,
      .amoandD rd rs1 rs2 false false, .amoorD rd rs1 rs2 false false, .amominD rd rs1 rs2 false false,
      .amomaxD rd rs1 rs2 false false, .amominuD rd rs1 rs2 false false, .amomaxuD rd rs1 rs2 false false,
      .amoincbD rd rs1 rs2, .amocasD rd rs1 rs2], Traps i s 32 (s.rx rs1) := by
  simp only [List.forall_mem_cons]
  exact ⟨amo_marked rfl h hf, amo_marked rfl h hf, amo_marked rfl h hf, amo_marked rfl h hf, amo_marked rfl h hf,
    amo_marked rfl h hf, amo_marked rfl h hf, amo_marked rfl h hf, amo_marked rfl h hf,
    deviceAmo_marked (op := .incb) rfl nofun h hf, deviceAmo_marked (op := .cas) rfl nofun h hf, List.forall_mem_nil _⟩

theorem words_marked (h : MarkedAt s (s.rx rs1) 4 off)
    (hf : s.here.held s.cur.tile (s.localWriter 4) off 4 = false) :
    ∀ i ∈ [Instr.amoswapW rd rs1 rs2 false false, .amoaddW rd rs1 rs2 false false, .amoxorW rd rs1 rs2 false false,
      .amoandW rd rs1 rs2 false false, .amoorW rd rs1 rs2 false false, .amominW rd rs1 rs2 false false,
      .amomaxW rd rs1 rs2 false false, .amominuW rd rs1 rs2 false false, .amomaxuW rd rs1 rs2 false false,
      .amoincbW rd rs1 rs2], Traps i s 32 (s.rx rs1) := by
  simp only [List.forall_mem_cons]
  exact ⟨amo_marked rfl h hf, amo_marked rfl h hf, amo_marked rfl h hf, amo_marked rfl h hf, amo_marked rfl h hf,
    amo_marked rfl h hf, amo_marked rfl h hf, amo_marked rfl h hf, amo_marked rfl h hf,
    deviceAmo_marked (op := .incb) rfl nofun h hf, List.forall_mem_nil _⟩

end

/-- Settles O12: family by family, in the statement's order. -/
theorem accessFaults : Obligations.AccessFaults := by
  unfold Obligations.AccessFaults
  refine ⟨fun s rd rs1 rs2 rs3 vs imm aq rl => ?_, fun s rd rs1 rs2 imm off => ?_⟩
  · exact ⟨load_faults rfl, load_faults rfl, load_faults rfl, load_faults rfl, load_faults rfl, load_faults rfl,
      load_faults rfl, store_faults rfl, store_faults rfl, store_faults rfl, store_faults rfl, loadReserved_faults rfl,
      loadReserved_faults rfl, words_fault s rd rs1 rs2 rs3 aq rl, doublewords_fault s rd rs1 rs2 rs3 aq rl,
      barriers_fault s rd rs1 rs2, (barv_faults s rd rs1).1, countedBytes_faults rfl, floatAtomics_fault s rd rs1 rs2⟩
  · exact ⟨load_marked rfl, fun h => ⟨load_marked rfl h, load_marked rfl h⟩, fun h => ⟨load_marked rfl h, load_marked rfl h⟩,
      fun h => ⟨load_marked rfl h, load_marked rfl h⟩, loadReserved_marked rfl, loadReserved_marked rfl,
      doublewords_marked s rd rs1 rs2, words_marked s rd rs1 rs2⟩

end Sys2Proof.Machine
end

section
/-! # Loads, stores and atomics at an HBM pseudo-channel (O40)

A packet in its turn arrives (`arrive_chan`), the channel performs its request or not (`perform…_chan`), and the answer
goes to the sender's tile (`reply_answered`). -/

namespace Sys2Proof.Machine

/-- The answer to a request of this module's own threads or engines takes the request's place in the network. -/
theorem reply_answered {s : State} {p : Packet} (hf : p.org.fab = false) (hh : p.org.party ≠ .host) (op : Op) :
    (s.dropPkt p.id).reply p op = { s with net := answered s p op } := by
  have h1 : ¬(p.org.party = .host ∧ (!isSpawn p.op) = true) := fun h => hh h.1
  have h2 : ¬p.org.fab = true := by rw [hf]; exact Bool.false_ne_true
  exact (if_neg h1).trans (if_neg h2)

/-- So it does after bytes of the memory were written. -/
theorem reply_writeN {s : State} {p : Packet} (hf : p.org.fab = false) (hh : p.org.party ≠ .host) (k n v : Nat) (op : Op) :
    ((s.dropPkt p.id).writeN k n v).reply p op = { s.writeN k n v with net := answered s p op } :=
  reply_answered (s := s.writeN k n v) hf hh op

/-- A rejection at a pseudo-channel is logged nowhere; its answer names the channel's tile (R270, R272). -/
theorem refuse_chan {s : State} {p : Packet} {g : Nat} (hc : p.home = .chan g) (hf : p.org.fab = false)
    (hh : p.org.party ≠ .host) (r : Nat) :
    (s.dropPkt p.id).refuse p r = { s with net := answered s p (.reject r (s.tile (chanTile g)).lidx false) } := by
  have hu : (s.dropPkt p.id).uncount p = s.dropPkt p.id := if_neg fun h => by simp [hf] at h
  unfold State.refuse
  rw [hc]
  dsimp only
  rw [hu, hf, reply_answered hf hh]
  rfl

theorem poisonOf_chan (s : State) (g k n : Nat) : poisonOf s (.chan g) k n = if s.markedIn k n then 1 else 0 := rfl

section
variable {s : State} {p : Packet} {g : Nat} (hc : p.home = .chan g)
include hc

theorem arrive_chan {ok : Op → Bool} {k : Packet → State → State} (hp : s.pkt p.id = some p) (ht : s.inTurn p = true)
    (ho : ok p.op = true) : arrive s p.id ok k = .next (k p (s.dropPkt p.id)) := by
  rw [arrive, hp]
  dsimp only
  rw [if_pos ⟨ho, ht⟩, hc]

theorem performLoad_chan {u : State} {size : Nat} (h : u.serves p g = true) :
    performLoad p size u = u.reply p
      (.result (u.readN (hbmKey g p.off) size) (if u.markedIn (hbmKey g p.off) size then 1 else 0)) := by
  unfold performLoad
  rw [hc]
  dsimp only
  rw [h, poisonOf_chan]
  rfl

theorem performLoad_chan_off {u : State} {size : Nat} (h : u.serves p g = false) :
    performLoad p size u = u.refuse p 3 := by
  unfold performLoad
  rw [hc]
  dsimp only
  rw [h]
  rfl

theorem performStore_chan {u : State} {size data : Nat} (h : u.serves p g = true) :
    performStore s p size data u = (u.writeN (hbmKey g p.off) size data).reply p .complete := by
  unfold performStore
  rw [hc]
  dsimp only
  rw [h]
  rfl

theorem performStore_chan_off {u : State} {size data : Nat} (h : u.serves p g = false) :
    performStore s p size data u = u.refuse p 3 := by
  unfold performStore
  rw [hc]
  dsimp only
  rw [h]
  rfl

/-- An atomic writes its result, unless the word is marked (R131, R133). -/
theorem performAmo_chan {u : State} {op : AmoOp} {size : Nat} {src cmp : Dword} (h : u.serves p g = true) :
    let k := hbmKey g p.off
    let r := amoCalc op size (u.readN k size) src cmp
    performAmo s p op size src cmp u =
      if u.markedIn k size then u.reply p (.result (u.readN k size) 1)
      else (u.writeN k size r.1).reply p (.result r.2.toNat 0) := by
  intro k r
  unfold performAmo
  rw [hc]
  dsimp only
  rw [h, poisonOf_chan]
  by_cases hm : u.markedIn (hbmKey g p.off) size = true <;> simp [k, r, hm]

theorem performAmo_chan_off {u : State} {op : AmoOp} {size : Nat} {src cmp : Dword} (h : u.serves p g = false) :
    performAmo s p op size src cmp u = u.refuse p 3 := by
  unfold performAmo
  rw [hc]
  dsimp only
  rw [h]
  rfl

end

theorem dropPkt_markedIn (s : State) (id k n : Nat) : (s.dropPkt id).markedIn k n = s.markedIn k n := by
  induction n with
  | zero => rfl
  | succ n ih => rw [State.markedIn, State.markedIn, ih]; rfl

section
variable {s : State} {p : Packet} (hp : s.pkt p.id = some p) (ht : s.inTurn p = true) {g : Nat} (hc : p.home = .chan g)
include hp ht hc

theorem exec_load_chan {size : Nat} (ho : p.op = .load size) :
    exec (.routedLoadArrival p.id) s = .next (performLoad p size (s.dropPkt p.id)) := by
  show execRoutedLoadArrival p.id s = _
  rw [execRoutedLoadArrival, arrive_chan hc hp ht, ho]
  rw [ho]

theorem exec_store_chan {size data : Nat} (ho : p.op = .store size data) :
    exec (.routedStoreArrival p.id) s = .next (performStore s p size data (s.dropPkt p.id)) := by
  show execRoutedStoreArrival p.id s = _
  rw [execRoutedStoreArrival, arrive_chan hc hp ht, ho]
  rw [ho]

theorem exec_amo_chan {op : AmoOp} {size : Nat} {src cmp : Dword} (ho : p.op = .amo op size src cmp) :
    exec (.routedAmoArrival p.id) s = .next (performAmo s p op size src cmp (s.dropPkt p.id)) := by
  show execRoutedAmoArrival p.id s = _
  rw [execRoutedAmoArrival, arrive_chan hc hp ht, ho]
  rw [ho]

end

/-- Settles O40: the arrival of each request, then what the channel answers. -/
theorem memoryPerformed : Obligations.MemoryPerformed := by
  unfold Obligations.MemoryPerformed
  intro s p g key hp hc ht hf hh
  refine ⟨fun hr hw => ?_, fun hn => ?_⟩
  · have hs : (s.dropPkt p.id).serves p g = true := Bool.and_eq_true_iff.2 ⟨hr, hw⟩
    refine ⟨fun size ho hm => ?_, fun size ho hm => ?_, fun size data ho => ?_, fun op size src cmp ho hm => ?_,
      fun op size src cmp ho hm => ?_⟩
    · rw [exec_load_chan hp ht hc ho, performLoad_chan hc hs, dropPkt_markedIn, hm, reply_answered hf hh]
      rfl
    · rw [exec_load_chan hp ht hc ho, performLoad_chan hc hs, dropPkt_markedIn, hm, reply_answered hf hh]
      rfl
    · rw [exec_store_chan hp ht hc ho, performStore_chan hc hs, reply_writeN hf hh]
    · rw [exec_amo_chan hp ht hc ho, performAmo_chan hc hs, dropPkt_markedIn, hm, if_neg Bool.false_ne_true,
        reply_writeN hf hh]
      rfl
    · rw [exec_amo_chan hp ht hc ho, performAmo_chan hc hs, dropPkt_markedIn, hm, if_pos rfl, reply_answered hf hh]
      rfl
  · have hs : (s.dropPkt p.id).serves p g = false := Bool.eq_false_iff.2 fun h => hn (Bool.and_eq_true_iff.1 h)
    refine ⟨fun size ho => ?_, fun size data ho => ?_, fun op size src cmp ho => ?_⟩
    · rw [exec_load_chan hp ht hc ho, performLoad_chan_off hc hs, refuse_chan hc hf hh]
    · rw [exec_store_chan hp ht hc ho, performStore_chan_off hc hs, refuse_chan hc hf hh]
    · rw [exec_amo_chan hp ht hc ho, performAmo_chan_off hc hs, refuse_chan hc hf hh]

end Sys2Proof.Machine
end

section
/-! # A step and the instruction it fetches (O59)

`step` runs the agenda's event and then the word that the event has left at the cursor (`step_runs`). For the issue of a
core with one READY thread that nothing holds (`Tile.OnlyReady`), the cycle is followed function by function: what
`classify`, `select` and `issueSlot` give there, and then the step. -/

namespace Sys2Proof.Machine

/-! ### The step (log 4) -/

section
variable {s u : State} {e : Instr} {rest : List Instr} (ha : s.agenda = e :: rest)
  (he : exec e { s with agenda := rest } = .next u)
include ha he

theorem step_runs : step s = runWord u := by
  rw [step, ha]
  dsimp only
  rw [he]

theorem step_event (hl : u.latch = false) : step s = .next u := by
  rw [step_runs ha he, runWord, hl]
  exact if_neg Bool.false_ne_true

theorem step_word (hl : u.latch = true) :
    step s = thenAbove u.cur (match decodeWord u.cur.word with
      | .ok i => exec i { u with latch := false }
      | .error _ => .next { u with latch := false }.illegal) := by
  rw [step_runs ha he, runWord, hl]
  exact if_pos rfl

theorem step_instr {i : Instr} (hl : u.latch = true) (hd : decodeWord u.cur.word = .ok i) :
    step s = thenAbove u.cur (exec i { u with latch := false }) := by
  rw [step_word ha he hl, hd]

theorem step_illegal {er} (hl : u.latch = true) (hd : decodeWord u.cur.word = .error er) :
    step s = thenAbove u.cur (.next { u with latch := false }.illegal) := by
  rw [step_word ha he hl, hd]

end

theorem State.vecSteps_idle {s : State} {t : Nat} {l : List Nat}
    (h : ∀ i ∈ l, (s.th t (slotIx i)).st = .unit → (s.th t (slotIx i)).vec = none) : s.vecSteps t l = s := by
  unfold State.vecSteps
  induction l with
  | nil => rfl
  | cons i l ih =>
    have hn : (if (s.th t (slotIx i)).st = .unit then (s.th t (slotIx i)).vec else none) = none := by
      split
      · exact h i (List.mem_cons_self ..) ‹_›
      · rfl
    rw [List.foldl_cons]
    dsimp only
    rw [hn]
    exact ih fun j hj => h j (List.mem_cons_of_mem _ hj)

/-! ### A core with one READY thread -/

/-- The thread is READY, with no fault, trap or result to come and no word fetched ahead. -/
structure Thread.Unheld (h : Thread) : Prop where
  ready : h.st = .ready
  need : h.need = .none
  pend : h.pend = []
  fwTrap : h.fwTrap = none
  firmware : h.firmware = false
  budget : 0 < h.budget
  wait : h.wait = 0
  lat : h.lat = []
  vlat : h.vlat = []
  acquire : h.acquire = false
  fbuf : h.fbuf = []

/-- Slot k holds the tile's only thread, and neither it nor the core holds the thread's next instruction. -/
structure Tile.OnlyReady (x : Tile) (k : Fin 8) : Prop where
  halted : x.halted = false
  lattice : x.lattice = none
  evpend : x.evpend = 0
  reqs : x.reqs = []
  groups : x.groups = []
  divider : x.divider = none
  others : ∀ j, j ≠ k → (x.th j).st = .empty
  thread : (x.th k).Unheld

theorem slotIx_val (k : Fin 8) : slotIx k.val = k := Fin.ext (Nat.mod_eq_of_lt k.isLt)

theorem slotIx_eq {n : Nat} (hn : n < 8) (k : Fin 8) : slotIx n = k ↔ n = k.val := by
  refine Fin.ext_iff.trans ?_
  show n % 8 = k.val ↔ _
  rw [Nat.mod_eq_of_lt hn]

theorem upTo_filter_slot : ∀ k : Fin 8, (upTo 8).filter (· == k.val) = [k.val] := by decide

theorem classify_empty {s : State} {t n : Nat} {x : Tile} {j : Fin 8} (h : (x.th j).st = .empty) :
    classify s t n x j = x.th j := by
  unfold classify
  simp only [h, true_or, if_true]

theorem nextWord_stored {s : State} {t off : Nat} {h : Thread} (hp : fetchPlace (s.tile t).core h = .ok off)
    (hb : h.fbuf = []) (hm : s.markedIn (tileKey t off) 4 = false) :
    nextWord s t h = .ok (BitVec.ofNat 32 (s.readN (tileKey t off) 4)) := by
  rw [nextWord, hp, hb]
  dsimp only [List.find?_nil]
  rw [hm]
  rfl

/-- The tile with its threads as the cycle finds them. -/
def Tile.classified (x : Tile) (s : State) (t throttle : Nat) : Tile :=
  { x with threads := Vector.ofFn fun i => classify s t throttle x i }

/-- The slots that are READY and may issue. -/
def Tile.readySlots (x : Tile) : List Nat :=
  (upTo 8).filter fun i => (x.th (slotIx i)).st == .ready && x.mayIssue (slotIx i) (x.th (slotIx i))

namespace Tile.OnlyReady
variable {x : Tile} {k : Fin 8} (h : x.OnlyReady k)
include h

theorem mayIssue : x.mayIssue k (x.th k) = true := by
  simp [Tile.mayIssue, h.halted, h.lattice]

theorem dueFault : (x.th k).dueFault x k = none := by
  rw [Thread.dueFault, h.thread.pend]

theorem eventSlot : x.eventSlot = none := if_pos h.evpend

/-- No result is owed, none is late, and an island that is not throttled delays nothing (R44, R326). -/
theorem holdOf_eq (s : State) (i : Instr) : holdOf s x k (x.th k) 16 i = none := by
  have hc : ¬16 ≤ x.cycle % 16 := Nat.not_le.2 (Nat.mod_lt _ (by decide))
  simp [holdOf, Tile.entriesOf, h.reqs, h.groups, h.divider, h.thread.acquire, h.thread.lat, h.thread.vlat, hc]

theorem classify_eq {s : State} {t : Nat} {w : Word} {i : Instr} (hw : nextWord s t (x.th k) = .ok w)
    (hd : decodeWord w = .ok i) (j : Fin 8) : classify s t 16 x j = x.th j := by
  by_cases hj : j = k
  · subst hj
    have ht := h.thread
    have hb : ((x.th j).budget == 0) = false := beq_false_of_ne (Nat.ne_of_gt ht.budget)
    unfold classify
    simp [ht.ready, ht.need, h.mayIssue, h.dueFault, h.eventSlot, ht.fwTrap, ht.firmware, hb, hw, hd, h.holdOf_eq]
  · exact classify_empty (h.others j hj)

theorem classified_eq {s : State} {t : Nat} {w : Word} {i : Instr} (hw : nextWord s t (x.th k) = .ok w)
    (hd : decodeWord w = .ok i) : x.classified s t 16 = x := by
  have hv : (Vector.ofFn fun j => classify s t 16 x j) = x.threads := by
    ext j hj
    rw [Vector.getElem_ofFn, h.classify_eq hw hd]
    rfl
  rw [Tile.classified, hv]

theorem readySlots_eq : x.readySlots = [k.val] := by
  have hp : ∀ n ∈ upTo 8, ((x.th (slotIx n)).st == .ready && x.mayIssue (slotIx n) (x.th (slotIx n))) = (n == k.val) := by
    intro n hn
    by_cases e : n = k.val
    · subst e
      rw [slotIx_val, h.thread.ready, h.mayIssue]
      simp
    · have hs : slotIx n ≠ k := fun he => e ((slotIx_eq (List.mem_range.1 hn) k).1 he)
      rw [h.others _ hs, beq_false_of_ne e]
      rfl
  rw [Tile.readySlots, List.filter_congr hp, upTo_filter_slot]

end Tile.OnlyReady

/-! ### Selection (R47) -/

/-- A turn of six slots from anywhere comes to each of them. -/
theorem roundRobin_only {k : Nat} (hk : k < 6) (l : Nat) :
    (((upTo 6).map fun n => (l + 1 + n) % 6).find? fun i => memNat i [k]) = some k := by
  have hmem (i : Nat) : memNat i [k] = true ↔ i = k := by simp [memNat]
  obtain ⟨i, hi⟩ := Option.isSome_iff_exists.1 (List.find?_isSome (p := fun i => memNat i [k])
    (xs := (upTo 6).map fun n => (l + 1 + n) % 6) |>.2
    ⟨k, List.mem_map.2 ⟨(k + 5 * (l + 1)) % 6, List.mem_range.2 (Nat.mod_lt _ (by decide)), by omega⟩, (hmem k).2 rfl⟩)
  have he := List.find?_some hi
  rw [hi, (hmem i).1 he]

/-- The one READY slot is selected, at any level. -/
theorem select_only {x : Tile} {k : Fin 8} (hw : (x.th k).wait = 0) : x.select [k.val] = some k.val := by
  unfold Tile.select
  by_cases hk : k.val < 6
  · have h6 : ¬6 ≤ k.val := Nat.not_le.2 hk
    simp [hk, h6, slotIx_val, hw, roundRobin_only hk, -List.find?_map]
  · have h6 : 6 ≤ k.val := Nat.not_lt.1 hk
    simp [hk, h6, leastRecent]

/-! ### The cycle -/

/-- The tile in its next cycle. -/
def Tile.nextCycle (x : Tile) (throttle : Nat) : Tile :=
  let c := x.cycle + 1
  { x with cycle := c, was := none, matrix := x.matrix.cycle c (decide (c % 16 < throttle)) }

/-- The tile as a slot that is selected finds it. -/
def Tile.busyAt (x : Tile) (tick : Nat) : Tile := { x with busyTick := tick + 1 }

@[simp] theorem Tile.nextCycle_core (x : Tile) (n : Nat) : (x.nextCycle n).core = x.core := rfl
@[simp] theorem Tile.nextCycle_th (x : Tile) (n : Nat) (k : Fin 8) : (x.nextCycle n).th k = x.th k := rfl

theorem Tile.OnlyReady.nextCycle {x : Tile} {k : Fin 8} (h : x.OnlyReady k) : (x.nextCycle 16).OnlyReady k :=
  { h with }

theorem Tile.OnlyReady.busyAt {x : Tile} {k : Fin 8} (h : x.OnlyReady k) (tick : Nat) : (x.busyAt tick).OnlyReady k :=
  { h with }

/-- The rest of a cycle, once the threads have been looked at. -/
def issueFrom (s : State) (t : Nat) (x : Tile) : State :=
  match x.select x.readySlots with
  | none => (s.setTile t x).vecSteps t (upTo 8)
  | some i =>
    let x := (x.readySlots.filter (· != i)).foldl (fun x j => x.modTh (slotIx j) fun h => { h with wait := h.wait + 1 }) x
    let s := issueSlot ((s.setTile t (x.busyAt s.tick)).vecSteps t (upTo i)) t (slotIx i)
    if s.latch then s else s.vecSteps t (slotsAbove i)

theorem issueCycle_eq (s : State) (t : Nat) :
    issueCycle s t =
      let n := (s.island (islandOf t)).throttle
      let u := s.modTile t (·.nextCycle n)
      issueFrom u t ((u.tile t).classified u t n) := rfl

theorem nextWord_setTile {s : State} {t : Nat} {x : Tile} (h : Thread) (hc : x.core = (s.tile t).core) :
    nextWord (s.setTile t x) t h = nextWord s t h := by
  rw [nextWord, nextWord, State.tile_setTile, hc]
  rfl

/-- The word at the cursor, with slot k of tile t, about to execute. -/
def State.fetched (s : State) (t : Nat) (k : Fin 8) (w : Word) : State :=
  { (s.asThread t k).modMe (·.trimmed) with cur := { s.cur with tile := t, slot := k, word := w }, latch := true }

theorem issueSlot_fetches {s : State} {t : Nat} {k : Fin 8} {w : Word} (h : (s.tile t).OnlyReady k)
    (hw : nextWord s t ((s.tile t).th k) = .ok w) : issueSlot s t k = s.fetched t k w := by
  have ht := h.thread
  have hx : (s.asThread t k).here = s.tile t := rfl
  have hm : (s.asThread t k).me = (s.tile t).th k := rfl
  have hb : ¬(6 ≤ k.val ∧ (!false) = true ∧ ((s.tile t).th k).budget = 0) :=
    fun e => Nat.ne_of_gt ht.budget e.2.2
  have hw' : nextWord (s.asThread t k) t ((s.tile t).th k) = .ok w := hw
  unfold issueSlot
  simp only [hx, hm, ht.fwTrap, ite_self, ht.firmware, Bool.false_eq_true, and_false, if_false, h.dueFault, h.eventSlot,
    reduceCtorEq, false_and]
  rw [if_neg hb, hw']
  rfl

/-- The one READY slot is selected, no slot below it has a vector access, and it fetches. -/
theorem issueFrom_fetches {s : State} {t : Nat} {k : Fin 8} {w : Word} {x : Tile} (h : x.OnlyReady k)
    (hw : nextWord (s.setTile t (x.busyAt s.tick)) t (x.th k) = .ok w) :
    issueFrom s t x = (s.setTile t (x.busyAt s.tick)).fetched t k w := by
  have hb := h.busyAt s.tick
  have ht : (s.setTile t (x.busyAt s.tick)).tile t = x.busyAt s.tick := State.tile_setTile ..
  have hidle : (s.setTile t (x.busyAt s.tick)).vecSteps t (upTo k) = s.setTile t (x.busyAt s.tick) := by
    refine State.vecSteps_idle fun j hj hu => ?_
    have hj : j < k.val := List.mem_range.1 hj
    have hne : slotIx j ≠ k := fun e => Nat.ne_of_lt hj ((slotIx_eq (hj.trans k.isLt) k).1 e)
    rw [State.th, ht, hb.others _ hne] at hu
    exact SlotState.noConfusion hu
  have hs := issueSlot_fetches (s := s.setTile t (x.busyAt s.tick)) (ht.symm ▸ hb) (by rw [ht]; exact hw)
  have hf : [k.val].filter (· != k.val) = [] := by simp
  unfold issueFrom
  rw [h.readySlots_eq, select_only h.thread.wait]
  dsimp only
  rw [hf, List.foldl_nil, hidle, slotIx_val, hs]
  rfl

theorem issueCycle_fetches {s : State} {t : Nat} {k : Fin 8} {w : Word} {i : Instr} (h : (s.tile t).OnlyReady k)
    (hi : (s.island (islandOf t)).throttle = 16) (hw : nextWord s t ((s.tile t).th k) = .ok w)
    (hd : decodeWord w = .ok i) :
    issueCycle s t = (s.setTile t (((s.tile t).nextCycle 16).busyAt s.tick)).fetched t k w := by
  have hs : (s.modTile t (·.nextCycle 16)).setTile t (((s.tile t).nextCycle 16).busyAt s.tick) =
      s.setTile t (((s.tile t).nextCycle 16).busyAt s.tick) := State.setTile_setTile ..
  have hw1 : nextWord (s.modTile t (·.nextCycle 16)) t (((s.tile t).nextCycle 16).th k) = .ok w := by
    rw [State.modTile, nextWord_setTile _ (Tile.nextCycle_core ..), Tile.nextCycle_th, hw]
  have hw2 : nextWord ((s.modTile t (·.nextCycle 16)).setTile t (((s.tile t).nextCycle 16).busyAt s.tick)) t
      (((s.tile t).nextCycle 16).th k) = .ok w := by
    have hc : (((s.tile t).nextCycle 16).busyAt s.tick).core = (s.tile t).core := rfl
    rw [hs, nextWord_setTile _ hc, Tile.nextCycle_th, hw]
  rw [issueCycle_eq]
  dsimp only
  rw [hi, State.tile_modTile, h.nextCycle.classified_eq hw1 hd, issueFrom_fetches h.nextCycle hw2, State.modTile_tick, hs]

theorem Thread.trimmed_of_nil {h : Thread} (hb : h.fbuf = []) : h.trimmed = h := by
  rw [Thread.trimmed, hb, List.filter_nil, ← hb]

theorem State.here_fetched (s : State) (t : Nat) (k : Fin 8) (w : Word) :
    (s.fetched t k w).here = (s.tile t).modTh k (·.trimmed) :=
  State.here_modMe (s.asThread t k) _

theorem State.me_fetched (s : State) (t : Nat) (k : Fin 8) (w : Word) :
    (s.fetched t k w).me = ((s.tile t).th k).trimmed :=
  State.me_modMe (s.asThread t k) _

/-- What the cycle leaves: the word at the cursor, the thread as it was, and the core one cycle on. -/
theorem issueCycle_leaves {s : State} {t : Nat} {k : Fin 8} {w : Word} {i : Instr} (h : (s.tile t).OnlyReady k)
    (hi : (s.island (islandOf t)).throttle = 16) (hw : nextWord s t ((s.tile t).th k) = .ok w)
    (hd : decodeWord w = .ok i) :
    let u := issueCycle s t
    u.latch = true ∧ u.cur = { s.cur with tile := t, slot := k, word := w } ∧ u.me = (s.tile t).th k ∧ u.mem = s.mem
      ∧ u.agenda = s.agenda ∧ u.here.core = (s.tile t).core ∧ u.here.cycle = (s.tile t).cycle + 1 := by
  intro u
  have hu : u = (s.setTile t (((s.tile t).nextCycle 16).busyAt s.tick)).fetched t k w := issueCycle_fetches h hi hw hd
  rw [hu, State.here_fetched, State.me_fetched, State.tile_setTile]
  exact ⟨rfl, rfl, Thread.trimmed_of_nil h.thread.fbuf, rfl, rfl, rfl, rfl⟩

/-- The issue of such a core runs the instruction at its pc, on its thread as it stands. -/
theorem step_issues {s : State} {t : Nat} {k : Fin 8} {off : Nat} {i : Instr} {rest : List Instr}
    (ha : s.agenda = .issueSelect t :: rest) (hf : s.inFrame t = true) (hw : s.awake t = true)
    (he : (s.tile t).tstate = 1) (hi : (s.island (islandOf t)).throttle = 16) (h : (s.tile t).OnlyReady k)
    (hp : fetchPlace (s.tile t).core ((s.tile t).th k) = .ok off) (hm : s.markedIn (tileKey t off) 4 = false)
    (hd : decodeWord (BitVec.ofNat 32 (s.readN (tileKey t off) 4)) = .ok i) :
    ∃ u, step s = thenAbove u.cur (exec i u) ∧ u.cur.tile = t ∧ u.cur.slot = k ∧ u.me = (s.tile t).th k ∧ u.mem = s.mem
      ∧ u.agenda = rest ∧ u.here.core = (s.tile t).core ∧ u.here.cycle = (s.tile t).cycle + 1 := by
  have hn := nextWord_stored hp h.thread.fbuf hm
  have hg : ¬(1 < (s.tile t).tstate ∨ (!s.awake t) = true) := by rw [he, hw]; decide
  have hx : exec (.issueSelect t) { s with agenda := rest } = .next (issueCycle { s with agenda := rest } t) :=
    (if_pos hf).trans (congrArg Host.Outcome.next (if_neg hg))
  have hv := issueCycle_leaves (s := { s with agenda := rest }) h hi hn hd
  generalize issueCycle { s with agenda := rest } t = u at hx hv
  obtain ⟨hl, hcur, hme, hmem, hag, hcore, hcyc⟩ := hv
  have hword : u.cur.word = BitVec.ofNat 32 (s.readN (tileKey t off) 4) := congrArg Cursor.word hcur
  have hstep := step_instr ha hx hl (hword ▸ hd)
  exact ⟨_, hstep, congrArg Cursor.tile hcur, congrArg Cursor.slot hcur, hme, hmem, hag, hcore, hcyc⟩

/-- Settles O59: the clauses on the step, on idle vector slots, and on the issue of one thread. -/
theorem stepRunsDecoded : Obligations.StepRunsDecoded := by
  unfold Obligations.StepRunsDecoded
  refine ⟨fun s h => by rw [step, h], fun s u e rest ha he => ⟨step_event ha he, fun i => step_instr ha he,
    fun er => step_illegal ha he⟩, fun c v => rfl, fun s t l => State.vecSteps_idle, ?_⟩
  intro s t k off i rest x h ha hf hw he hi hhalted hlattice hevpend hreqs hgroups hdivider hothers hready hneed hpend
    hfwTrap hfirmware hbudget hwait hlat hvlat hacquire hfbuf hp hm hd
  exact step_issues ha hf hw he hi ⟨hhalted, hlattice, hevpend, hreqs, hgroups, hdivider, hothers, hready, hneed, hpend,
    hfwTrap, hfirmware, hbudget, hwait, hlat, hvlat, hacquire, hfbuf⟩ hp hm hd

end Sys2Proof.Machine
end

section
/-! # Threads end, and set their priority and mark (O20) -/
namespace Sys2Proof.Machine

theorem afterHold_of_need_none {h : Thread} (hn : h.need = .none) : afterHold h = h := if_neg (by rw [hn]; decide)

/-! ### A slot is emptied (R46) -/

theorem emptySlot_th (s : State) (t : Nat) (i : Fin 8) :
    (s.emptySlot t i).th t i = { epoch := (s.th t i).epoch + 1, lastIssue := (s.th t i).lastIssue } := by
  simp only [State.emptySlot, State.th, State.tile_modTile, Tile.wakeHold_th]
  exact (congrArg afterHold (Tile.th_setTh _ _ _)).trans (afterHold_of_need_none rfl)

theorem emptySlot_th_other (s : State) (t : Nat) {i j : Fin 8} (h : j ≠ i) :
    (s.emptySlot t i).th t j = afterHold (s.th t j) := by
  simp only [State.emptySlot, State.th, State.tile_modTile, Tile.wakeHold_th]
  exact congrArg afterHold (Tile.th_setTh_other _ _ h)

theorem emptySlot_tile_rest (s : State) (t : Nat) (i : Fin 8) :
    { (s.emptySlot t i).tile t with threads := (s.tile t).threads, lateChecks := (s.tile t).lateChecks } = s.tile t := by
  rw [State.emptySlot, State.tile_modTile]
  rfl

section
variable {s u : State} (h : sameButMe s u)
include h

theorem sameButMe.cur : u.cur = s.cur := by
  have := congrArg State.cur h.1
  exact this

theorem sameButMe.mem : u.mem = s.mem := by
  have := congrArg State.mem h.1
  exact this

theorem sameButMe.here_core : u.here.core = s.here.core := by
  have := congrArg Tile.core h.2.2.1
  exact this

theorem sameButMe.here_reqs : u.here.reqs = s.here.reqs := by
  have := congrArg Tile.reqs h.2.2.1
  exact this

theorem sameButMe.here_matrix : u.here.matrix = s.here.matrix := by
  have := congrArg Tile.matrix h.2.2.1
  exact this

theorem sameButMe.modMe (f : Thread → Thread) : sameButMe s (u.modMe f) := by
  obtain ⟨hs, ht, hh, ho⟩ := h
  have hc : u.cur = s.cur := sameButMe.cur ⟨hs, ht, hh, ho⟩
  refine ⟨hs, fun n hn => ?_, ?_, fun i hi => ?_⟩
  · exact (State.tile_modTile_other u _ (hc ▸ hn)).trans (ht n hn)
  · rw [State.here_modMe]
    exact hh
  · rw [← hc] at hi ⊢
    refine Eq.trans ?_ (hc ▸ ho i (hc ▸ hi))
    simp only [State.modMe, State.modTh, State.th, State.tile_modTile]
    exact Tile.th_setTh_other _ _ hi
end

/-- A division of the thread at the cursor is in progress. -/
def State.dividing (s : State) : Prop := ∃ c rd v, s.here.divider = some (c, s.cur.slot.val, s.me.epoch, rd, v)

theorem endMine_dividing {s : State} (h : s.dividing) : endMine s = .next (s.block .unit .divider) := by
  obtain ⟨c, rd, v, hd⟩ := h
  rw [endMine, hd]
  exact if_pos ⟨rfl, rfl⟩

theorem endMine_free {s : State} (h : ¬s.dividing) : endMine s = .next (s.retire.emptySlot s.cur.tile s.cur.slot) := by
  rw [endMine]
  split
  next c sl ep rd v hd =>
    refine if_neg fun ⟨e1, e2⟩ => h ⟨c, rd, v, ?_⟩
    rw [hd, e1, e2]
  next => rfl

/-- The slot that an ending thread leaves, and all else as it was. -/
theorem endMine_empties {s t : State} (ht : t = s.retire.emptySlot s.cur.tile s.cur.slot) :
    t.me = { epoch := s.me.epoch + 1, lastIssue := s.here.cycle } ∧ t.mem = s.mem ∧ t.here.core = s.here.core
      ∧ t.here.reqs = s.here.reqs ∧ t.here.matrix = s.here.matrix
      ∧ (∀ i, i ≠ s.cur.slot → t.th s.cur.tile i = afterHold (s.th s.cur.tile i))
      ∧ ∀ u, u ≠ s.cur.tile → t.tile u = s.tile u := by
  obtain ⟨hme, hsame⟩ := retired_of_retire s (s.me.pc + 4)
  change s.retire.me = _ at hme
  change sameButMe s s.retire at hsame
  have hcur : t.cur = s.cur := by rw [ht]; exact hsame.cur
  have htile := emptySlot_tile_rest s.retire s.cur.tile s.cur.slot
  rw [← ht] at htile
  have hme' : s.retire.th s.cur.tile s.cur.slot = s.retire.me := by rw [State.me, hsame.cur]
  have hhere : s.retire.tile s.cur.tile = s.retire.here := by rw [State.here, hsame.cur]
  have hhere' : t.tile s.cur.tile = t.here := by rw [State.here, hcur]
  rw [hhere, hhere'] at htile
  refine ⟨?_, ?_, ?_, ?_, ?_, fun i hi => ?_, fun u hu => ?_⟩
  · rw [State.me, hcur, ht, emptySlot_th, hme', hme]
    rfl
  · rw [ht]; exact hsame.mem
  · exact (congrArg Tile.core htile).trans hsame.here_core
  · exact (congrArg Tile.reqs htile).trans hsame.here_reqs
  · exact (congrArg Tile.matrix htile).trans hsame.here_matrix
  · rw [ht, emptySlot_th_other _ _ hi, hsame.2.2.2 i hi]
  · rw [ht]
    exact (State.tile_modTile_other _ _ hu).trans (hsame.2.1 u hu)

/-! ### QUIT and HRET -/

section
variable {s : State}

theorem handler_of_le (h : 6 ≤ s.cur.slot.val) : s.handler = true := decide_eq_true h
theorem handler_of_lt (h : s.cur.slot.val < 6) : s.handler = false := decide_eq_false (Nat.not_le.2 h)

theorem exec_quit_general (h : s.cur.slot.val < 6) : exec .quit s = endMine s :=
  if_neg (by rw [handler_of_lt h]; decide)
theorem exec_quit_handler (h : 6 ≤ s.cur.slot.val) : exec .quit s = .next s.illegal := if_pos (handler_of_le h)
theorem exec_hret_handler (h : 6 ≤ s.cur.slot.val) : exec .hret s = endMine s := if_pos (handler_of_le h)
theorem exec_hret_general (h : s.cur.slot.val < 6) : exec .hret s = .next s.illegal :=
  if_neg (by rw [handler_of_lt h]; decide)

theorem exec_setprio_general (rs1 : Reg) (h : s.cur.slot.val < 6) :
    exec (.setprio rs1) s = .next (s.retire.modMe fun k => { k with prio := min 3 (s.rx rs1).toNat }) :=
  if_neg (by rw [handler_of_lt h]; decide)
theorem exec_setprio_handler (rs1 : Reg) (h : 6 ≤ s.cur.slot.val) : exec (.setprio rs1) s = .next s.retire :=
  if_pos (handler_of_le h)

theorem exec_rmark_idle (rs1 : Reg) (h : s.me.mode = .machine ∨ s.handler = true) :
    exec (.rmark rs1) s = .next s.retire := if_pos h
end

theorem setprio_sets (s : State) (p : Nat) :
    (s.retire.modMe fun k => { k with prio := p }).me = retiredThread s { s.me with prio := p } (s.me.pc + 4)
      ∧ sameButMe s (s.retire.modMe fun k => { k with prio := p }) := by
  obtain ⟨hme, hsame⟩ := retired_of_retire s (s.me.pc + 4)
  change s.retire.me = _ at hme
  refine ⟨?_, sameButMe.modMe hsame _⟩
  rw [State.me_modMe, hme]
  rfl

/-! ### RMARK (R165) -/

/-- The thread with the mark that a RMARK of mask m sets, or with its mark cleared where m is 0. -/
def Thread.remarked (h : Thread) (m : Nat) : Thread :=
  if m = 0 then { h with jrmark := putBits h.jrmark 63 1 0 }
  else { h.snapshot m with jrmark := BitVec.ofNat 64 (field 63 1 1 + field 32 19 (h.pc + 4).toNat + m / 2 * 2) }

theorem exec_rmark_general {s : State} (rs1 : Reg) (hm : s.me.mode = .user) (h : s.cur.slot.val < 6) :
    exec (.rmark rs1) s = .next (s.modMe (·.remarked (bits (s.rx rs1) 0 32))).retire := by
  have hn : ¬(s.me.mode = .machine ∨ s.handler = true) := by rw [hm, handler_of_lt h]; decide
  refine (if_neg hn).trans ?_
  unfold Thread.remarked
  split <;> rfl

theorem putBits_63_0 (v : Dword) : (putBits v 63 1 0).getLsbD 63 = false := by
  have : v.toNat < 2 ^ 64 := v.isLt
  rw [BitVec.getLsbD, Nat.testBit_eq_decide_div_mod_eq]
  simp only [putBits, bits, BitVec.toNat_ofNat, decide_eq_false_iff_not]
  omega

/-- The word of a set mark: VALID, the resume point, and the mask without its bit 0. -/
theorem markWord_fields {m p : Nat} (hm : m < 2 ^ 32) :
    let w : Dword := BitVec.ofNat 64 (field 63 1 1 + field 32 19 p + m / 2 * 2)
    w.getLsbD 63 = true ∧ bits w 32 19 = p % 2 ^ 19
      ∧ ∀ n : Fin 32, n.val ≠ 0 → w.getLsbD n.val = m.testBit n.val := by
  intro w
  have hw : w.toNat = 2 ^ 63 + p % 2 ^ 19 * 2 ^ 32 + m / 2 * 2 := by
    simp only [w, field, BitVec.toNat_ofNat]
    omega
  refine ⟨?_, ?_, fun n hn => ?_⟩
  · rw [BitVec.getLsbD, Nat.testBit_eq_decide_div_mod_eq, hw, decide_eq_true_eq]
    omega
  · rw [bits, hw]
    omega
  · obtain ⟨k, hk⟩ := Nat.exists_eq_succ_of_ne_zero hn
    have e : w.toNat = 2 ^ 32 * (2 ^ 31 + p % 2 ^ 19) + m / 2 * 2 := by omega
    rw [BitVec.getLsbD, e, Nat.testBit_two_pow_mul_add _ (by omega), if_pos n.isLt, hk, Nat.testBit_succ, Nat.testBit_succ]
    congr 1
    omega

theorem bits_testBit (v : Dword) (n : Fin 32) : (bits v 0 32).testBit n.val = v.getLsbD n.val := by
  rw [Bool.eq_iff_iff, Nat.testBit_eq_decide_div_mod_eq, decide_eq_true_eq, bits_low_testBit]

theorem remarked_rest (h : Thread) (m : Nat) :
    (h.remarked m).pc = h.pc ∧ (h.remarked m).x = h.x := by
  unfold Thread.remarked Thread.snapshot
  split
  · exact ⟨rfl, rfl⟩
  · exact ⟨rfl, rfl⟩

theorem remarked_valid (h : Thread) (v : Dword) :
    (h.remarked (bits v 0 32)).jrmark.getLsbD 63 = (bits v 0 32 != 0) := by
  unfold Thread.remarked
  split
  next hm => rw [hm]; exact putBits_63_0 _
  next hm => rw [(markWord_fields (bits_lt v 0 32)).1, bne_iff_ne.2 hm]

theorem remarked_none (h : Thread) {m : Nat} (hm : m = 0) : (h.remarked m).snap = h.snap := by
  rw [Thread.remarked, if_pos hm]

theorem remarked_set (h : Thread) {v : Dword} (hm : bits v 0 32 ≠ 0) :
    bits (h.remarked (bits v 0 32)).jrmark 32 19 = (h.pc + 4).toNat % 2 ^ 19
      ∧ (∀ n : Fin 32, n.val ≠ 0 → (h.remarked (bits v 0 32)).jrmark.getLsbD n.val = v.getLsbD n.val)
      ∧ ∀ n : Fin 32, n.val ≠ 0 →
        (h.remarked (bits v 0 32)).snap[n] = if v.getLsbD n.val then h.x[n] else h.snap[n] := by
  obtain ⟨-, hpc, hmask⟩ := markWord_fields (p := (h.pc + 4).toNat) (bits_lt v 0 32)
  rw [Thread.remarked, if_neg hm]
  refine ⟨hpc, fun n hn => (hmask n hn).trans (bits_testBit v n), fun n hn => ?_⟩
  refine (h.snapshot_snap v n).trans ?_
  have : n ≠ 0 := fun e => hn (congrArg Fin.val e)
  simp only [this, ne_eq, not_false_eq_true, and_true]

theorem retire_modMe {s : State} {f : Thread → Thread} (h : (f s.me).pc = s.me.pc) :
    (s.modMe f).retire = (s.modMe f).retireTo (s.me.pc + 4) := by
  rw [State.retire, State.me_modMe, h]

/-- Settles O20: the ends of QUIT and HRET are those of `endMine`, SETPRIO changes the priority after it retires, and
RMARK's word is taken apart by `markWord_fields`. -/
theorem threadControl : Obligations.ThreadControl := by
  unfold Obligations.ThreadControl
  refine ⟨?_, ?_⟩
  · intro s own ends
    have hfree (e : Instr) (he : exec e s = endMine s) : ends e :=
      ⟨fun hn => ⟨_, he.trans (endMine_free hn), endMine_empties rfl⟩,
        fun ho => blocks_of_block _ _ _ _ (he.trans (endMine_dividing ho))⟩
    exact ⟨fun h => ⟨hfree _ (exec_quit_general h), traps_of_trap _ _ _ _ (exec_hret_general h)⟩,
      fun h => ⟨hfree _ (exec_hret_handler h), traps_of_trap _ _ _ _ (exec_quit_handler h)⟩⟩
  · intro s rs1 m
    refine ⟨fun h => ⟨_, exec_setprio_general rs1 h, setprio_sets s _⟩, fun h => ⟨?_, ?_⟩, fun h => ?_, fun hu h => ?_⟩
    · exact goesTo_of_retireTo _ _ _ (exec_setprio_handler rs1 h)
    · exact goesTo_of_retireTo _ _ _ (exec_rmark_idle rs1 (.inr (handler_of_le h)))
    · exact goesTo_of_retireTo _ _ _ (exec_rmark_idle rs1 (.inl h))
    · obtain ⟨hme, hsame⟩ := retired_of_retireTo s (·.remarked m) (s.me.pc + 4)
      obtain ⟨hpc, hx⟩ := remarked_rest s.me m
      refine ⟨_, (exec_rmark_general rs1 hu h).trans (congrArg _ (retire_modMe hpc)), ?_, ?_, hsame.mem, ?_, ?_, ?_⟩
      · rw [hme]; rfl
      · rw [hme]; exact hx
      · rw [hme]; exact remarked_valid s.me _
      · intro hm
        rw [hme]
        exact remarked_set s.me hm
      · intro hm
        rw [hme]
        exact remarked_none s.me hm

end Sys2Proof.Machine
end

section
/-! # Spawns and messages are sent (O21)

`issue_eq` says once what a routed request leaves: an entry at the core, a packet on its way, and the thread as it was. -/
namespace Sys2Proof.Machine

/-! ### Requests -/

/-- The packet and the entry of a request of the thread at the cursor. -/
def State.packetOf (s : State) (op : Op) (home : Home) (off cls : Nat) (a : Dword) (e : ReqEntry) : Packet :=
  { id := s.nextId, op := op, org := s.meOrigin, home := home, off := off, addr := a, cls := cls, req := s.nextId
    absolute := cls == 4, opc := s.me.pc, group := e.group }
def State.entryOf (s : State) (a : Dword) (e : ReqEntry) : ReqEntry :=
  { e with
    id := s.nextId, slot := s.cur.slot, epoch := s.me.epoch, opc := s.me.pc, target := a, quiet := s.quietFaults }

/-- The core with one entry more. -/
def State.withEntry (s : State) (e : ReqEntry) : State :=
  { s with nextId := s.nextId + 1 }.modHere fun x => { x with reqs := x.reqs ++ [e] }

theorem issue_eq (s : State) (op : Op) (home : Home) (off cls : Nat) (a : Dword) (e : ReqEntry) :
    s.issue op home off cls a e =
      { s.withEntry (s.entryOf a e) with
        net := if crosses home then s.net else s.net ++ [s.packetOf op home off cls a e]
        fabricOut := if crosses home then s.fabricOut ++ [s.packetOf op home off cls a e] else s.fabricOut } := by
  cases home <;> rfl

theorem withEntry_here (s : State) (e : ReqEntry) : (s.withEntry e).here = { s.here with reqs := s.here.reqs ++ [e] } :=
  State.here_modHere { s with nextId := s.nextId + 1 } _

theorem withEntry_me (s : State) (e : ReqEntry) : (s.withEntry e).me = s.me :=
  congrArg (·.th s.cur.slot) (withEntry_here s e)

section
variable (s : State) (op : Op) (home : Home) (off cls : Nat) (a : Dword) (e : ReqEntry)

theorem issue_here : (s.issue op home off cls a e).here = { s.here with reqs := s.here.reqs ++ [s.entryOf a e] } := by
  rw [issue_eq]
  exact withEntry_here s _

theorem issue_me : (s.issue op home off cls a e).me = s.me := by
  rw [issue_eq]
  exact withEntry_me s _

theorem issue_mem : (s.issue op home off cls a e).mem = s.mem := by rw [issue_eq]; rfl
theorem issue_spawns : (s.issue op home off cls a e).spawns = s.spawns := by rw [issue_eq]; rfl
theorem issue_net : (s.issue op home off cls a e).net =
    if crosses home then s.net else s.net ++ [s.packetOf op home off cls a e] := by rw [issue_eq]
theorem issue_fabricOut : (s.issue op home off cls a e).fabricOut =
    if crosses home then s.fabricOut ++ [s.packetOf op home off cls a e] else s.fabricOut := by rw [issue_eq]
end

theorem needEntry_free {s : State} (h : s.entryFree = true) (k : State → Outcome) : needEntry s k = k s := if_pos h
theorem needEntry_full {s : State} (h : s.entryFree = false) (k : State → Outcome) :
    needEntry s k = .next (s.block .queue .entry) := if_neg (by rw [h]; decide)

/-- An effect that leaves the thread as it was, and its retirement. -/
theorem retired_of_me_eq {s u : State} (h : u.me = s.me) : Retired u u.retire u.me (s.me.pc + 4) := by
  have hr := retired_of_retire u (u.me.pc + 4)
  rw [State.retire]
  rwa [h] at hr ⊢

theorem rgroup_zero (s : State) (r : Reg) : s.rgroup r 0 = s.rx r := by
  rw [State.rgroup]
  exact congrArg s.rx (BitVec.add_zero r)

theorem message_eq (s : State) (entry : Dword) (quad : Reg) (fab : Bool) :
    s.message entry quad fab =
      { entry := entry, a0 := s.rx quad, a1 := s.rx (quad + 1), a2 := s.rx (quad + 2), a3 := s.rx (quad + 3)
        ident := s.identity fab, prio := min s.me.prio s.here.core.pcap } := by
  rw [State.message, rgroup_zero]
  rfl

/-! ### The core that an address names (R159) -/

/-- Places in space 0x0, 0x1 or 0x3. -/
def Loc.ofCore : Loc → Bool
  | .own _ | .mesh .. | .fabric .. => true
  | _ => false

theorem ofCore_of_riserSpace {l : Loc} (hr : l.riserSpace = true) (ha : ∀ y x o, l ≠ .abs y x o) : l.ofCore = true := by
  cases l with
  | own | mesh | fabric => rfl
  | abs y x o => exact absurd rfl (ha y x o)
  | global | mram | mgmt | host => cases hr

theorem not_ofCore {l : Loc} (h : l.riserSpace = false ∨ ∃ y x o, l = .abs y x o) : l.ofCore = false := by
  rcases h with h | ⟨y, x, o, rfl⟩
  · cases l with
    | own | mesh | fabric => cases h
    | abs | global | mram | mgmt | host => rfl
  · rfl

theorem coreOf_core {s : State} {a : Dword} {l : Loc} {home : Home} {off cls : Nat} (hl : locate s s.me.mode a = some l)
    (hc : l.ofCore = true) (hr : routeOf s s.cur.tile l = some (home, off, cls)) (k : Loc → Home → Outcome) :
    coreOf s a k = k l home := by
  rw [coreOf, hl]
  cases l with
  | own | mesh | fabric => dsimp only; rw [hr]
  | abs | global | mram | mgmt | host => cases hc

theorem coreOf_traps {s : State} {a : Dword} (h : ∀ l, locate s s.me.mode a = some l → l.ofCore = false)
    (k : Loc → Home → Outcome) : coreOf s a k = .next (s.trap 5 a) := by
  rw [coreOf]
  cases hl : locate s s.me.mode a with
  | none => rfl
  | some l =>
    have hc := h l hl
    cases l with
    | own | mesh | fabric => cases hc
    | abs | global | mram | mgmt | host => rfl

/-! ### SPAWN and AMSG -/

/-- What sending leaves: the record, the packet and the entry, all of one number. -/
theorem send_effects (s : State) (op : Message → Op) (m : Bool → Message) (home : Home) (a : Dword) (rd : Reg) (tag : Nat) :
    let u := s.send op m home a rd tag
    let o := op (m (crosses home))
    u.me = s.me ∧ u.mem = s.mem
      ∧ u.spawns = s.spawns ++ [{ id := s.nextId, org := s.meOrigin, home := home, op := o, addr := a, req := s.nextId }]
      ∧ u.net = (if crosses home then s.net else s.net ++ [s.packetOf o home 0 0 a { rd := scoreOf rd, tag := tag }])
      ∧ u.fabricOut =
        (if crosses home then s.fabricOut ++ [s.packetOf o home 0 0 a { rd := scoreOf rd, tag := tag }] else s.fabricOut)
      ∧ u.here.reqs = s.here.reqs ++ [s.entryOf a { rd := scoreOf rd, tag := tag }] := by
  intro u o
  refine ⟨issue_me .., issue_mem .., ?_, issue_net .., issue_fabricOut .., congrArg Tile.reqs (issue_here ..)⟩
  exact congrArg (· ++ [_]) (issue_spawns s o home 0 0 a { rd := scoreOf rd, tag := tag })

section
variable {s : State} {home : Home} {m : Message} {rd : Reg} {a : Dword}

/-- A message to one core, sent when an entry is free, as SPAWN and AMSG send it. -/
theorem sends_of_send {i : Instr} {o : Message → Op} {mf : Bool → Message} (hm : mf (crosses home) = m)
    (hi : exec i s = needEntry s fun s => .next (s.send o mf home a rd 0).retire) :
    (s.entryFree = true → ∃ u t p, exec i s = .next t ∧ Retired u t u.me (s.me.pc + 4) ∧ u.me = s.me ∧ u.mem = s.mem
      ∧ u.spawns = s.spawns ++ [{ id := s.nextId, org := s.meOrigin, home := home, op := o m, addr := a, req := s.nextId }]
      ∧ u.net = (if crosses home then s.net else s.net ++ [p])
      ∧ u.fabricOut = (if crosses home then s.fabricOut ++ [p] else s.fabricOut)
      ∧ p.op = o m ∧ p.home = home ∧ p.id = s.nextId ∧ p.org = s.meOrigin ∧ p.req = s.nextId
      ∧ ∃ e, u.here.reqs = s.here.reqs ++ [e] ∧ e.id = s.nextId ∧ e.rd = (if rd = 0 then none else some rd)
        ∧ e.slot = s.cur.slot.val)
    ∧ (s.entryFree = false → Blocks i s .queue .entry) := by
  refine ⟨fun hf => ?_, fun hf => blocks_of_block _ _ _ _ (hi.trans (needEntry_full hf _))⟩
  obtain ⟨hme, hmem, hsp, hnet, hfab, hreqs⟩ := send_effects s o mf home a rd 0
  rw [hm] at hsp hnet hfab
  exact ⟨_, _, _, hi.trans (needEntry_free hf _), retired_of_me_eq hme, hme, hmem, hsp, hnet, hfab, rfl, rfl, rfl, rfl, rfl,
    _, hreqs, rfl, rfl, rfl⟩
end

/-- Settles O21: `coreOf` finds the core or traps, and `sends_of_send` says what is sent. -/
theorem spawnAndMessage : Obligations.SpawnAndMessage := by
  unfold Obligations.SpawnAndMessage
  intro s rd rs1 rs2 rs3 l home off cls a fab m sends
  have hfab : fab = crosses home := by cases home <;> rfl
  refine ⟨fun hl ⟨hr, ha⟩ hroute => ?_, fun h => ?_⟩
  · have hc := ofCore_of_riserSpace hr ha
    have hm : s.message (s.rx rs3) rs1 (crosses home) = m := (message_eq ..).trans (hfab ▸ rfl)
    have hs {i : Instr} {o : Message → Op}
        (hi : exec i s = needEntry s fun s => .next (s.send o (s.message (s.rx rs3) rs1) home a rd 0).retire) :
        sends i (o m) := by
      dsimp only [sends]
      rw [hfab]
      exact sends_of_send hm hi
    exact ⟨hs (coreOf_core hl hc hroute _), hs (coreOf_core hl hc hroute _)⟩
  · have ht (k : Loc → Home → Outcome) : coreOf s a k = .next (s.trap 5 a) :=
      coreOf_traps (fun l hl => not_ofCore (h l hl)) k
    exact ⟨traps_of_trap _ _ _ _ (ht _), traps_of_trap _ _ _ _ (ht _), traps_of_trap _ _ _ _ (ht _)⟩

end Sys2Proof.Machine
end

section
/-! # SPAWNM in a state whose tiles are listed out of order (O22)

SPAWNM takes its request entry first and looks the cores of its rectangle up after it, in a list of tiles that the entry
has changed. In a state whose tiles are listed in order that list names the same cores; out of order, with two tiles of one
row that hold one logical column, it names another core than before. -/
namespace Sys2Proof.Machine

/-- A working tile of logical column 0, in a partition of one core. -/
def columnZero : Tile := { router := 1, core := { jmpart0 := 0x801 } }
/-- Two tiles of row 0 that hold the same logical column, listed out of order; the cursor is at the second. -/
def outOfOrder : State := { tiles := [(5, columnZero), (3, columnZero)], cur := { tile := 3 } }

/-- Where the packets go that a step leaves on their way. -/
def homesAfter : Outcome → List Home
  | .next t => t.net.map (·.home)
  | _ => []

theorem outOfOrder_meshTile : outOfOrder.meshTile outOfOrder.cur.tile 0 0 = 5 := by decide
theorem outOfOrder_spawnm : homesAfter (exec (.spawnm 0 0 0 0) outOfOrder) = [.tile 3] := by decide

theorem sameButTiles.net {s t : State} (h : sameButTiles s t) : t.net = s.net := by
  have := congrArg State.net h
  exact this

/-- Refutes O22: with the tiles out of order, SPAWNM's one spawn goes to tile 3, and the core that its rectangle names in
the state before is at tile 5. -/
theorem not_spawnSelection : ¬ Obligations.SpawnSelection := by
  unfold Obligations.SpawnSelection
  intro h
  obtain ⟨u, t, e, ps, rs, hx, ⟨-, hsame, -⟩, -, -, hnet, -, hps, hrs, hk, -⟩ :=
    (h.2 outOfOrder 0 0 0 0).2.2.1 (by decide) (by decide) (by decide)
  obtain ⟨p, rfl⟩ := List.length_eq_one_iff.1 (hps.trans (by decide))
  obtain ⟨r, rfl⟩ := List.length_eq_one_iff.1 (hrs.trans (by decide))
  have hhome : p.home = .tile 5 := outOfOrder_meshTile ▸ (hk 0 p r rfl rfl).2.1
  have ht : t.net = [p] := hsame.net.trans hnet
  have h3 : homesAfter (exec (.spawnm 0 0 0 0) outOfOrder) = [p.home] := by
    rw [hx, homesAfter, ht]
    rfl
  rw [outOfOrder_spawnm, hhome] at h3
  exact absurd h3 (by decide)

end Sys2Proof.Machine
end

section
/-! # The engines' queues (O31)

`Judged` reads a list of conditions as the checks of R208 are read: the first that holds refuses, with the word it names.
The four parts of `copyRefusal` are judged one by one. -/
namespace Sys2Proof.Machine

/-! ### Checks in their order -/

/-- The answer r is that of the first condition of the list that holds. -/
def Judged : List (Prop × Dword) → Option Dword → Prop
  | [], r => r = none
  | (p, w) :: l, r => (p → r = some w) ∧ (¬p → Judged l r)

theorem Judged.skip {p : Prop} {w : Dword} {l : List (Prop × Dword)} {r : Option Dword} (hp : ¬p) (h : Judged l r) :
    Judged ((p, w) :: l) r :=
  ⟨fun h => absurd h hp, fun _ => h⟩

theorem Judged.cons {p c : Prop} [Decidable c] {w : Dword} {l : List (Prop × Dword)} {r : Option Dword} (hc : p ↔ c)
    (h : ¬p → Judged l r) : Judged ((p, w) :: l) (if c then some w else r) := by
  refine ⟨fun hp => if_pos (hc.1 hp), fun hp => ?_⟩
  rw [if_neg (mt hc.2 hp)]
  exact h hp

theorem Judged.append {l l' : List (Prop × Dword)} {r r' : Option Dword} (h : Judged l r)
    (h' : r = none → Judged l' r') : Judged (l ++ l') (r.or r') := by
  induction l with
  | nil =>
    cases h
    exact h' rfl
  | cons c l ih => exact ⟨fun hp => by rw [h.1 hp, Option.some_or], fun hp => ih (h.2 hp)⟩

/-- The answer names the word of the first condition that holds. -/
theorem Judged.eq_some {l : List (Prop × Dword)} {r : Option Dword} (h : Judged l r) {x : Dword}
    (hx : ∃ (k : Nat) (p : Prop), l[k]? = some (p, x) ∧ p
      ∧ ∀ (j : Nat) (q : Prop) (y : Dword), j < k → l[j]? = some (q, y) → ¬q) : r = some x := by
  obtain ⟨k, p, hk, hp, hlt⟩ := hx
  induction l generalizing k with
  | nil => cases hk
  | cons c l ih =>
    cases k with
    | zero =>
      obtain rfl : c = (p, x) := Option.some.inj hk
      exact h.1 hp
    | succ k =>
      have hc : ¬c.1 := hlt 0 c.1 c.2 (Nat.succ_pos k) rfl
      exact ih (h.2 hc) k hk fun j q y hj => hlt (j + 1) q y (Nat.succ_lt_succ hj)

theorem Judged.eq_none {l : List (Prop × Dword)} {r : Option Dword} (h : Judged l r) (hl : ∀ c ∈ l, ¬c.1) : r = none := by
  induction l with
  | nil => exact h
  | cons c l ih =>
    obtain ⟨hc, hl⟩ := List.forall_mem_cons.1 hl
    exact ih (h.2 hc) hl

theorem not_iff_of_iff {p : Prop} {b : Bool} (h : p ↔ b = true) : ¬p ↔ (!b) = true := by
  rw [h, Bool.not_eq_true', Bool.not_eq_true]

theorem and_iff_of_iff {p q : Prop} {a b : Bool} (hp : p ↔ a = true) (hq : q ↔ b = true) : p ∧ q ↔ (a && b) = true := by
  rw [hp, hq, Bool.and_eq_true]

/-! ### The parts of R208 -/

section
variable {op ch : Nat} {w0 w1 w2 w3 : Dword}

theorem judged_badWord : Judged [(8 < op, w0), (op = 2 ∧ w1 ≠ 0, w1),
    ((op = 0 ∨ op = 6 ∨ op = 7 ∨ op = 8) ∧ bits w3 32 32 ≠ 0, w3), ((op = 3 ∨ op = 4) ∧ bits w3 0 16 ≠ 0, w3),
    (op = 5 ∧ bits w3 32 12 ≠ 0, w3)] (badWord op w0 w1 w3) := by
  by_cases h8 : 8 < op
  · exact ⟨fun _ => if_pos h8, fun h => absurd h8 h⟩
  · unfold badWord
    simp only [Judged, if_neg h8]
    interval_cases op <;> simp

theorem op_le_of_badWord (h : badWord op w0 w1 w3 = none) : op ≤ 8 := by
  by_contra h8
  have h' : badWord op w0 w1 w3 = some w0 := if_pos (Nat.not_le.1 h8)
  rw [h] at h'
  cases h'

/-- Check 2 of R208, from what each of its conditions says. -/
theorem judged_badPlace {s : State} {src dst map rect suits : Prop}
    (hsrc : op ≠ 2 → op ≠ 8 → (src ↔ (srcTakes op ch (s.me.mode == .machine) (spaceOf w1)
      && wordReaches s w1 (srcSpan op w3)) = true))
    (hdst : dst ↔ (dstTakes op ch (s.me.mode == .machine) (spaceOf w2)
      && wordReaches s w2 (if op = 2 then 0 else dstSpan op w3)) = true)
    (hmap : map ↔ ((spaceOf w3 == 0 || spaceOf w3 == 2) && channelTakes ch (s.me.mode == .machine) (spaceOf w3)
      && wordReaches s w3 64) = true)
    (hrect : dst → (rect ↔ rectOk s w2 w3 = true))
    (hsuits : suits ↔ channelCondition op ch (spaceOf w1) (spaceOf w2) = true) :
    Judged [(op ≠ 2 ∧ op ≠ 8 ∧ ¬src, w1), (¬dst, w2), (op = 2 ∧ ¬map, w3), (op = 5 ∧ ¬rect, w2), (op ≠ 2 ∧ ¬suits, w2),
      ((op = 3 ∨ op = 4) ∧ 0x80000 < wIdxOff w3 + 4 * wNidx w3, w3)] (badPlace s op ch w1 w2 w3) := by
  unfold badPlace
  dsimp only
  by_cases h2 : op = 2
  · rw [if_pos h2]
    rw [if_pos h2] at hdst
    refine .skip (fun h => h.1 h2) (.cons (not_iff_of_iff hdst) fun _ =>
      .cons ((and_iff_right h2).trans (not_iff_of_iff hmap)) fun _ => ?_)
    exact .skip (fun h => by omega) (.skip (fun h => h.1 h2) (.skip (fun h => by omega) rfl))
  · rw [if_neg h2]
    rw [if_neg h2] at hdst
    refine .cons ?_ fun _ => .cons (not_iff_of_iff hdst) fun hd => .skip (fun h => h2 h.1)
      (.cons ?_ fun _ => .cons ?_ fun _ => .cons Iff.rfl fun _ => rfl)
    · rw [and_iff_right h2]
      exact and_congr_right fun h8 => not_iff_of_iff (hsrc h2 h8)
    · exact and_congr_right fun _ => not_iff_of_iff (hrect (not_not.1 hd))
    · exact (and_iff_right h2).trans (not_iff_of_iff hsuits)

theorem judged_badAlign : Judged [(op = 2 ∧ w3.toNat % 64 ≠ 0, w3), ((op = 3 ∨ op = 4) ∧ wIdxOff w3 % 4 ≠ 0, w3),
    (op = 6 ∧ w1.toNat % 4 ≠ 0 ∨ op = 7 ∧ w1.toNat % 2 ≠ 0, w1), (op = 6 ∧ w2.toNat % 4 ≠ 0 ∨ op = 7 ∧ w2.toNat % 2 ≠ 0, w2),
    (op = 6 ∧ wLen w3 % 4 ≠ 0 ∨ op = 7 ∧ wLen w3 % 2 ≠ 0, w3)] (badAlign op w1 w2 w3) := by
  unfold badAlign
  split
  · exact .cons (by simp) fun _ => .skip (by simp) (.skip (by simp) (.skip (by simp) (.skip (by simp) rfl)))
  · exact .skip (by simp) (.cons (by simp) fun _ => .skip (by simp) (.skip (by simp) (.skip (by simp) rfl)))
  · exact .skip (by simp) (.cons (by simp) fun _ => .skip (by simp) (.skip (by simp) (.skip (by simp) rfl)))
  · exact .skip (by simp) (.skip (by simp) (.cons (by simp) fun _ => .cons (by simp) fun _ => .cons (by simp) fun _ => rfl))
  · exact .skip (by simp) (.skip (by simp) (.cons (by simp) fun _ => .cons (by simp) fun _ => .cons (by simp) fun _ => rfl))
  next n2 n3 n4 n6 n7 =>
    have n67 {p q : Prop} (h : op = 6 ∧ p ∨ op = 7 ∧ q) : False := h.elim (n6 ·.1) (n7 ·.1)
    exact .skip (n2 ·.1) (.skip (·.1.elim n3 n4) (.skip n67 (.skip n67 (.skip n67 rfl))))

/-- Checks 4 to 6 name one word. -/
theorem judged_of_any {w : Dword} {l : List Prop} {b : Bool} (h : b = true ↔ ∃ p ∈ l, p) :
    Judged (l.map (·, w)) (if b then some w else none) := by
  induction l generalizing b with
  | nil =>
    have hb : ¬b = true := fun hb => by obtain ⟨p, hp, -⟩ := h.1 hb; cases hp
    rw [if_neg hb]
    rfl
  | cons p l ih =>
    refine ⟨fun hp => if_pos (h.2 ⟨p, List.mem_cons_self, hp⟩), fun hp => ih (h.trans ?_)⟩
    rw [List.exists_mem_cons_iff, or_iff_right hp]

theorem judged_badRiser {place other : Prop} (hother : other ↔ ch ≠ 0)
    (hplace : place ↔ spaceOf w2 = 0 ∨ spaceOf w2 = 1 ∨ spaceOf w2 = 3 ∨ spaceOf w2 = 4 ∧ bits w2 0 20 < 0x80000) :
    Judged [((bits w0 0 16 ≠ 0 ∨ w0.getLsbD 59 = true) ∧ ¬place, w0),
      (w0.getLsbD 59 = true ∧ (bits w0 0 16 = 0 ∨ bits w0 0 16 % 2 = 1), w0),
      (w0.getLsbD 58 = true ∧ bits w0 16 13 = 0, w0), (op = 5 ∧ other, w0), (op = 2 ∧ 2 ≤ ch, w0)]
      (if badRiser op ch w0 w2 then some w0 else none) := by
  have hp : place ↔ (spaceOf w2 == 0 || spaceOf w2 == 1 || spaceOf w2 == 3
      || (spaceOf w2 == 4 && decide (bits w2 0 20 < 0x80000))) = true := by
    simp only [hplace, Bool.or_eq_true, Bool.and_eq_true, beq_iff_eq, decide_eq_true_eq, or_assoc]
  refine judged_of_any (l := [_, _, _, _, _]) ?_
  simp only [badRiser, not_iff_of_iff hp, hother, wDbar, wCbar, bitAt, List.exists_mem_cons_iff, List.not_mem_nil, false_and,
    exists_false, or_false, Bool.or_eq_true, Bool.and_eq_true, bne_iff_ne, beq_iff_eq, decide_eq_true_eq, or_assoc]

theorem copyRefusal_eq (s : State) : copyRefusal s ch w0 w1 w2 w3 =
    (badWord (CopyCmd.opc4 w0) w0 w1 w3).or ((badPlace s (CopyCmd.opc4 w0) ch w1 w2 w3).or
      ((badAlign (CopyCmd.opc4 w0) w1 w2 w3).or (if badRiser (CopyCmd.opc4 w0) ch w0 w2 then some w0 else none))) := by
  unfold copyRefusal
  dsimp only
  cases badWord (CopyCmd.opc4 w0) w0 w1 w3 with
  | some w => rfl
  | none =>
    cases badPlace s (CopyCmd.opc4 w0) ch w1 w2 w3 with
    | some w => rfl
    | none => cases badAlign (CopyCmd.opc4 w0) w1 w2 w3 <;> rfl

/-! ### What the conditions say -/

theorem wordReaches_iff (s : State) (a : Dword) (n : Nat) :
    (∃ l, checkAddr s s.me.mode a n 1 = .ok l) ↔ wordReaches s a n = true := by
  rw [wordReaches]
  cases hl : locate s s.me.mode a with
  | none => simp [checkAddr_none hl]
  | some l =>
    rw [checkAddr_some hl, Nat.mod_one]
    cases hf : l.fits n <;> simp [hf]

theorem locate_of_checkAddr {s : State} {m : Mode} {a : Dword} {n k : Nat} (h : ∃ l, checkAddr s m a n k = .ok l) :
    ∃ l, locate s m a = some l := by
  cases hl : locate s m a with
  | some l => exact ⟨l, rfl⟩
  | none =>
    obtain ⟨l, h⟩ := h
    rw [checkAddr_none hl] at h
    cases h

/-- A place of space 0x4 is named by an address of space 0x4 (R30). -/
theorem space_of_locate_abs {s : State} {m : Mode} {a : Dword} {y x o : Nat} (h : locate s m a = some (.abs y x o)) :
    bits a 60 4 = 4 := by
  by_contra h4
  obtain h0 | h1 | h2 | h3 | h5 | h6 | h7 | h8 : bits a 60 4 = 0 ∨ bits a 60 4 = 1 ∨ bits a 60 4 = 2 ∨ bits a 60 4 = 3
      ∨ bits a 60 4 = 5 ∨ bits a 60 4 = 6 ∨ bits a 60 4 = 7 ∨ 8 ≤ bits a 60 4 := by omega
  · cases (Option.ite_none_right_eq_some.1 (locate_own h0 ▸ h)).2
  · cases (Option.ite_none_right_eq_some.1 (locate_mesh h1 ▸ h)).2
  · cases (Option.ite_none_right_eq_some.1 (locate_global h2 ▸ h)).2
  · by_cases hm : bits a 48 12 = s.here.core.jmod
    · cases (Option.ite_none_right_eq_some.1 (locate_ownModule h3 hm ▸ h)).2
    · cases (Option.ite_none_right_eq_some.1 (locate_otherModule h3 hm ▸ h)).2
  · cases (Option.ite_none_right_eq_some.1 (locate_mram h5 ▸ h)).2
  · cases (Option.ite_none_right_eq_some.1 (locate_mgmt h6 ▸ h)).2
  · cases (Option.ite_none_right_eq_some.1 (locate_host h7 ▸ h)).2
  · cases (locate_reserved h8).symm.trans h

/-- The rectangle of a multicast, from the fields of its words (R217, log 94). -/
theorem rectOk_iff {s : State} {w2 w3 : Dword} {l : Loc} (hl : locate s s.me.mode w2 = some l) :
    rectOk s w2 w3 = true ↔
      (spaceOf w2 = 1 → bits w2 30 10 + wHeight w3 ≤ s.here.core.height ∧ bits w2 20 10 + wWidth w3 ≤ s.here.core.width
        ∧ bits w2 0 19 + wLen w3 ≤ 0x80000)
      ∧ (spaceOf w2 = 4 → bits w2 30 10 + wHeight w3 ≤ s.side ∧ bits w2 20 10 + wWidth w3 ≤ s.side
        ∧ (bits w2 0 20 + wLen w3 ≤ 0x80000 ∨ 0x80000 ≤ bits w2 0 20 ∧ bits w2 0 20 + wLen w3 ≤ 0x88000)) := by
  rw [rectOk, hl]
  by_cases h1 : spaceOf w2 = 1
  · cases (Option.ite_none_right_eq_some.1 ((locate_mesh h1).symm.trans hl)).2
    simp [h1, and_assoc]
  by_cases h4 : spaceOf w2 = 4
  · cases (Option.ite_none_right_eq_some.1 ((locate_abs h4).symm.trans hl)).2
    simp only [h4, Bool.and_eq_true, Bool.or_eq_true, decide_eq_true_eq, and_assoc, Nat.reduceEqDiff, false_implies,
      true_and, true_implies]
    rfl
  cases l with
  | abs => exact absurd (space_of_locate_abs hl) h4
  | mesh => simp [h1, h4]
  | own | global | fabric | mram | mgmt | host => simp [h1, h4]

theorem srcSpan_eq {op : Nat} {w3 : Dword} (hop : op ≤ 8) (h2 : op ≠ 2) (h8 : op ≠ 8) :
    srcSpan op w3 = if op = 1 then bits w3 16 12 * (16 * bits w3 28 18) + (bits w3 0 16 + 1)
      else if op = 3 ∨ op = 4 then 0 else bits w3 0 32 := by
  unfold srcSpan
  interval_cases op <;> simp_all [wLen, wRows, wSpitch, wRowLen]

theorem dstSpan_eq {op : Nat} {w3 : Dword} (hop : op ≤ 8) (h2 : op ≠ 2) :
    dstSpan op w3 = if op = 1 then bits w3 16 12 * (16 * bits w3 46 18) + (bits w3 0 16 + 1)
      else if op = 3 ∨ op = 4 then 0 else bits w3 0 32 := by
  unfold dstSpan
  interval_cases op <;> simp_all [wLen, wRows, wDpitch, wRowLen]

section
variable {op ch p : Nat} {md : Mode} {takes : Nat → Prop} {own : Prop} [Decidable own]

theorem srcTakes_iff (hown : own ↔ ch = 0) (h : takes p ↔ channelTakes ch (md == .machine) p = true) :
    (if op = 5 ∧ own then p = 0 ∨ md = .machine ∧ p = 5 else takes p) ↔ srcTakes op ch (md == .machine) p = true := by
  unfold srcTakes
  simp only [hown]
  split
  · simp
  · exact h

theorem dstTakes_iff (hown : own ↔ ch = 0) (h : takes p ↔ channelTakes ch (md == .machine) p = true) :
    (if op = 5 ∧ own then p = 1 ∨ md = .machine ∧ p = 4
      else if op = 6 ∨ op = 7 then takes p ∧ (p = 0 ∨ p = 1 ∨ p = 3) else takes p)
        ↔ dstTakes op ch (md == .machine) p = true := by
  unfold dstTakes
  by_cases h5 : op = 5
  · by_cases hc : ch = 0 <;> simp [h5, hown, hc, h]
  by_cases h6 : op = 6
  · simp [h6, h, or_assoc]
  by_cases h7 : op = 7
  · simp [h7, h, or_assoc]
  · simp [h5, h6, h7, h]
end

/-- The spaces of R203, channel by channel. -/
theorem channelTakes_iff {ch p : Nat} {md : Mode} :
    (match ch with
      | 0 => p ≤ 1 ∨ md = .machine ∧ (p = 4 ∨ p = 5)
      | 2 => p ≤ 3
      | _ => p ≤ 2) ↔ channelTakes ch (md == .machine) p = true := by
  match ch with
  | 0 => simp [channelTakes]
  | 1 => simp [channelTakes]
  | 2 => simp [channelTakes]
  | n + 3 => simp [channelTakes]

theorem channelCondition_iff {op ch p q : Nat} :
    (match ch with
      | 0 => True
      | 1 => q = 2 ∨ op ≠ 8 ∧ p = 2
      | 2 => q = 2 ∨ q = 3 ∨ op ≠ 8 ∧ (p = 2 ∨ p = 3)
      | _ => if op = 8 then q = 2 else ¬(p = 2 ↔ q = 2)) ↔ channelCondition op ch p q = true := by
  match ch with
  | 0 => simp [channelCondition]
  | 1 => simp [channelCondition]
  | 2 => simp [channelCondition, or_assoc]
  | n + 3 =>
    by_cases h8 : op = 8
    · simp [channelCondition, h8]
    · by_cases hp : p = 2 <;> by_cases hq : q = 2 <;> simp [channelCondition, h8, hp, hq]

end

/-! ### Queuing -/

theorem retired_of_wx {s u : State} (h : u.me = s.me) (rd : Reg) (v : Dword) :
    Retired u (u.wx rd v).retire (u.me.wx rd v) (s.me.pc + 4) := by
  have hpc : (u.me.wx rd v).pc = u.me.pc := by unfold Thread.wx; split <;> rfl
  rw [State.wx, retire_modMe hpc, h]
  exact h ▸ retired_of_retireTo u (·.wx rd v) _

section
variable {s : State} {rd rs1 : Reg} {ch : Ch} {stalling : Bool}

/-- The command that the words of a quad make, and the state with it queued in its channel. -/
def State.copyCmd (s : State) (rs1 : Reg) (ch : Ch) : CopyCmd :=
  { serial := s.nextId, id := s.here.chans[ch.toFin].jcpnext.toNat, w0 := s.rgroup rs1 0, w1 := s.rgroup rs1 1
    w2 := s.rgroup rs1 2, w3 := s.rgroup rs1 3, slot := s.cur.slot, epoch := s.me.epoch, opc := s.me.pc
    machine := s.me.mode == .machine, quiet := s.quietFaults }
def State.queued (s : State) (rs1 : Reg) (ch : Ch) : State :=
  { s with nextId := s.nextId + 1 }.modChan s.cur.tile ch.toFin fun c =>
    let c' := { c with fifo := c.fifo ++ [s.copyCmd rs1 ch], jcpnext := c.jcpnext + 1 }
    if c.fifo.isEmpty then c'.newHead s s.cur.tile else c'

theorem newHead_keeps (c : Channel) (s : State) (t : Nat) :
    (c.newHead s t).fifo = c.fifo ∧ (c.newHead s t).jcpnext = c.jcpnext ∧ (c.newHead s t).jcpdone = c.jcpdone := by
  unfold Channel.newHead
  split <;> exact ⟨rfl, rfl, rfl⟩

theorem queued_here : ∃ c, (s.queued rs1 ch).here = s.here.setChan ch.toFin c
    ∧ c.fifo = s.here.chans[ch.toFin].fifo ++ [s.copyCmd rs1 ch] ∧ c.jcpnext = s.here.chans[ch.toFin].jcpnext + 1
    ∧ c.jcpdone = s.here.chans[ch.toFin].jcpdone := by
  refine ⟨_, State.tile_modTile { s with nextId := s.nextId + 1 } s.cur.tile _, ?_⟩
  dsimp only
  split
  · exact newHead_keeps _ _ _
  · exact ⟨rfl, rfl, rfl⟩

theorem queued_me : (s.queued rs1 ch).me = s.me := by
  obtain ⟨c, hc, -⟩ := queued_here (s := s) (rs1 := rs1) (ch := ch)
  exact congrArg (·.th s.cur.slot) hc

theorem enqueue_fenced (hc : s.cap (12 + ch.toNat) = false) : enqueue stalling rd rs1 ch s = .next s.fenced :=
  if_neg (by rw [hc]; decide)

variable (hc : s.cap (12 + ch.toNat) = true)
include hc

theorem enqueue_refused {w : Dword} (hr : copyRefusal s ch.toNat (s.rgroup rs1 0) (s.rgroup rs1 1) (s.rgroup rs1 2)
    (s.rgroup rs1 3) = some w) : enqueue stalling rd rs1 ch s = .next (s.trap 7 w) := by
  refine (if_pos hc).trans ?_
  dsimp only
  rw [hr]

variable (hr : copyRefusal s ch.toNat (s.rgroup rs1 0) (s.rgroup rs1 1) (s.rgroup rs1 2) (s.rgroup rs1 3) = none)
include hr

theorem enqueue_full (hl : 16 ≤ s.here.chans[ch.toFin].fifo.length) : enqueue stalling rd rs1 ch s =
    if stalling then .next (s.block .queue (.channel ch.toNat)) else .next (s.wx rd 0xFFFFFFFFFFFFFFFF).retire := by
  refine (if_pos hc).trans ?_
  dsimp only
  rw [hr]
  exact if_pos hl

theorem enqueue_room (hl : s.here.chans[ch.toFin].fifo.length < 16) : enqueue stalling rd rs1 ch s =
    .next ((s.queued rs1 ch).wx rd (zext s.here.chans[ch.toFin].jcpnext)).retire := by
  refine (if_pos hc).trans ?_
  dsimp only
  rw [hr]
  exact if_neg (Nat.not_le.2 hl)
end

/-! ### CPWAIT (R209) -/

section
variable {s : State} {rs1 : Reg} {ch : Ch}

theorem exec_cpwait_handler (h : 6 ≤ s.cur.slot.val) : exec (.cpwait rs1 ch) s = .next s.illegal := if_pos (handler_of_le h)

variable (h : s.cur.slot.val < 6)
include h

theorem exec_cpwait_reached (hm : (s.here.chans[ch.toFin].jcpdone - (s.rx rs1).extractLsb' 0 32).toNat < 2 ^ 31) :
    exec (.cpwait rs1 ch) s = .next s.retire :=
  (if_neg (by rw [handler_of_lt h]; decide)).trans (if_pos (decide_eq_true hm))

theorem cpwait_sleeps (hm : 2 ^ 31 ≤ (s.here.chans[ch.toFin].jcpdone - (s.rx rs1).extractLsb' 0 32).toNat) :
    Sleeps (.cpwait rs1 ch) s (.copy ch.toNat ((s.rx rs1).extractLsb' 0 32)) := by
  have hn : ¬reachedMark s.here.chans[ch.toFin].jcpdone (low32 (s.rx rs1)) = true :=
    fun e => absurd (of_decide_eq_true e) (Nat.not_lt.2 hm)
  obtain ⟨hme, hsame⟩ := noteIssue_modMe s fun k =>
    { k with st := .sleep, sleep := some (.copy ch.toNat (low32 (s.rx rs1))), sleepTs := s.tsc }
  exact ⟨_, (if_neg (by rw [handler_of_lt h]; decide)).trans (if_neg hn), hsame, hme⟩
end

/-! ### LDLQ (R223) -/

theorem bits_low_eq (v : Dword) : bits v 0 7 = v.toNat % 128 :=
  congrArg (· % 128) (Nat.div_one v.toNat)
theorem bits_high_ne (v : Dword) : bits v 19 45 ≠ 0 ↔ 2 ^ 19 ≤ v.toNat := by
  have := v.isLt
  rw [bits]
  omega

section
variable {s : State} {rd rs1 : Reg}

def State.ladleCmd (s : State) (rs1 : Reg) : LadleCmd :=
  let watching := s.here.ladle.queue.isEmpty || wLop (s.rgroup rs1 0) == 3
  { serial := s.nextId, w0 := s.rgroup rs1 0, w1 := s.rgroup rs1 1, slot := s.cur.slot, epoch := s.me.epoch, opc := s.me.pc
    machine := s.me.mode == .machine, watching := watching
    gate := if watching then gateNow s s.cur.tile (s.rgroup rs1 0) else 0, gateTs := s.tsc }
def State.ladleQueued (s : State) (rs1 : Reg) : State :=
  { s with nextId := s.nextId + 1 }.modHere fun x =>
    { x with ladle := { x.ladle with queue := x.ladle.queue ++ [s.ladleCmd rs1] } }

theorem ladleQueued_here : (s.ladleQueued rs1).here =
    { s.here with ladle := { s.here.ladle with queue := s.here.ladle.queue ++ [s.ladleCmd rs1] } } :=
  State.here_modHere { s with nextId := s.nextId + 1 } _

theorem exec_ldlq_fenced (hc : s.cap 16 = false) : exec (.ldlq rd rs1) s = .next s.fenced := if_neg (by rw [hc]; decide)

variable (hc : s.cap 16 = true)
include hc

theorem exec_ldlq_refused {x : Dword}
    (hr : ladleRefusal (s.rgroup rs1 0) (s.rgroup rs1 1) (s.rgroup rs1 2) (s.rgroup rs1 3) = some x) :
    exec (.ldlq rd rs1) s = .next (s.trap 7 x) := by
  refine (if_pos hc).trans ?_
  dsimp only
  rw [hr]

variable (hr : ladleRefusal (s.rgroup rs1 0) (s.rgroup rs1 1) (s.rgroup rs1 2) (s.rgroup rs1 3) = none)
include hr

theorem exec_ldlq_full (hl : 4 ≤ s.here.ladle.queue.length) : exec (.ldlq rd rs1) s = .next (s.wx rd 1).retire := by
  refine (if_pos hc).trans ?_
  dsimp only
  rw [hr]
  exact if_pos hl

theorem exec_ldlq_room (hl : s.here.ladle.queue.length < 4) :
    exec (.ldlq rd rs1) s = .next ((s.ladleQueued rs1).wx rd 0).retire := by
  refine (if_pos hc).trans ?_
  dsimp only
  rw [hr]
  exact if_neg (Nat.not_le.2 hl)
end

/-- Settles O31: the list of checks is judged by `copyRefusal`, part by part; then each outcome of `enqueue`, of CPWAIT and
of LDLQ. -/
theorem engineQueues : Obligations.EngineQueues := by
  unfold Obligations.EngineQueues
  refine ⟨?_, ?_⟩
  · intro s rd rs1 ch c w m op sp reaches takes takesSrc takesDst suits len rows across span high wide inRect index riser
      place checks fails passes mark appends
    have htakes (p : Nat) : takes p ↔ channelTakes ch.toNat (s.me.mode == .machine) p = true := channelTakes_iff
    have hown : ch = 0 ↔ ch.toNat = 0 := BitVec.toNat_inj.symm
    have hj : Judged checks (copyRefusal s ch.toNat (w 0) (w 1) (w 2) (w 3)) := by
      have h1 : Judged _ (badWord op (w 0) (w 1) (w 3)) := judged_badWord
      have h3 : Judged _ (badAlign op (w 1) (w 2) (w 3)) := judged_badAlign
      have h4 : Judged _ (if badRiser op ch.toNat (w 0) (w 2) then some (w 0) else none) :=
        judged_badRiser (not_congr hown) (place := place) Iff.rfl
      rw [copyRefusal_eq]
      refine h1.append fun hw => Judged.append (judged_badPlace ?_ ?_ ?_ ?_ ?_) fun _ => h3.append fun _ => h4
      · exact fun h2 h8 => and_iff_of_iff (srcTakes_iff hown (htakes _))
          (srcSpan_eq (op_le_of_badWord hw) h2 h8 ▸ wordReaches_iff s (w 1) _)
      · have hspan : (if op = 2 then 0 else dstSpan op (w 3)) = if op = 2 then 0 else span (bits (w 3) 46 18) :=
          if_ctx_congr Iff.rfl (fun _ => rfl) fun h2 => dstSpan_eq (op_le_of_badWord hw) h2
        exact and_iff_of_iff (dstTakes_iff hown (htakes _)) (hspan ▸ wordReaches_iff s (w 2) _)
      · have h02 : sp (w 3) = 0 ∨ sp (w 3) = 2 ↔ (spaceOf (w 3) == 0 || spaceOf (w 3) == 2) = true := by
          rw [Bool.or_eq_true, beq_iff_eq, beq_iff_eq]
          rfl
        exact and_assoc.symm.trans (and_iff_of_iff (and_iff_of_iff h02 (htakes _)) (wordReaches_iff s (w 3) 64))
      · intro hd
        obtain ⟨l, hl⟩ := locate_of_checkAddr hd.2
        exact (rectOk_iff hl).symm
      · exact channelCondition_iff
    have hsome {x : Dword} (h : fails x) := hj.eq_some h
    have hnone (h : passes) := hj.eq_none h
    refine ⟨fun hc => ?_, fun hc => ⟨fun x hx => ?_, fun hp hl => ⟨?_, ?_⟩, fun hp hl => ?_⟩, fun h => ?_, fun h hm => ?_,
      fun h hm => cpwait_sleeps h hm⟩
    · exact ⟨traps_of_trap _ _ _ _ (enqueue_fenced hc), traps_of_trap _ _ _ _ (enqueue_fenced hc)⟩
    · exact ⟨traps_of_trap _ _ _ _ (enqueue_refused hc (hsome hx)), traps_of_trap _ _ _ _ (enqueue_refused hc (hsome hx))⟩
    · exact blocks_of_block _ _ _ _ (enqueue_full hc (hnone hp) hl)
    · exact writes_of_result _ _ _ _ (enqueue_full hc (hnone hp) hl)
    · have happ {i : Instr} {stalling : Bool} (hi : exec i s = enqueue stalling rd rs1 ch s) : appends i := by
        obtain ⟨q, hq, hfifo, hnext, hdone⟩ := queued_here (s := s) (rs1 := rs1) (ch := ch)
        have hch : (s.queued rs1 ch).here.chans[ch.toFin] = q := by rw [hq]; exact Vector.getElem_set_self _
        refine ⟨_, _, hi.trans (enqueue_room hc (hnone hp) hl), retired_of_wx queued_me rd _, queued_me, rfl,
          (congrArg Tile.core hq).trans rfl, ?_, ?_, s.copyCmd rs1 ch, ?_, rfl, rfl, rfl, rfl, rfl, rfl, rfl⟩
        · rw [hch, hnext]
        · rw [hch, hdone]
        · rw [hch, hfifo]
      exact ⟨happ rfl, happ rfl⟩
    · exact traps_of_trap _ _ _ _ (exec_cpwait_handler h)
    · exact goesTo_of_retireTo _ _ _ (exec_cpwait_reached h hm)
  · intro s rd rs1 w q refusal
    have hr : refusal = ladleRefusal (w 0) (w 1) (w 2) (w 3) := by
      unfold ladleRefusal
      simp only [bits_high_ne, bits_low_eq]
      rfl
    rw [hr]
    refine ⟨fun hc => ?_, fun hc x hx => ?_, fun hc hx hl => ?_, fun hc hx hl => ?_⟩
    · exact traps_of_trap _ _ _ _ (exec_ldlq_fenced hc)
    · exact traps_of_trap _ _ _ _ (exec_ldlq_refused hc hx)
    · exact writes_of_result _ _ _ _ (exec_ldlq_full hc hx hl)
    · have hme : (s.ladleQueued rs1).me = s.me := congrArg (·.th s.cur.slot) ladleQueued_here
      exact ⟨_, _, exec_ldlq_room hc hx hl, retired_of_wx hme rd 0, hme, rfl,
        (congrArg Tile.core ladleQueued_here).trans rfl, s.ladleCmd rs1,
        (congrArg (·.ladle.queue) ladleQueued_here).trans rfl, rfl, rfl, rfl, rfl, rfl⟩

end Sys2Proof.Machine
end

section
/-! # Spawns and messages on their way (O37) -/
namespace Sys2Proof.Machine

/-! ### Arrival (R51, R55) -/

section
variable {s : State} {p : Packet} {t : Nat}

theorem arrive_tile (h : Arrives s p t) {ok : Op → Bool} (ho : ok p.op = true) (k : Packet → State → State) :
    arrive s p.id ok k = .next (k p (s.dropPkt p.id)) := by
  obtain ⟨hp, hh, ht, hw⟩ := h
  rw [arrive, hp]
  dsimp only
  rw [if_pos ⟨ho, ht⟩, hh]
  exact if_pos hw

/-- The answer to a spawn or a message of this module goes to the sender's tile. -/
theorem reply_spawn (hs : isSpawn p.op = true) (hf : p.org.fab = false) (op : Op) :
    s.reply p op = s.sendPkt { p with op := op, home := .tile p.org.tile, src := homeIndex s p.home } := by
  have h1 : ¬(p.org.party = .host ∧ (!isSpawn p.op) = true) := by simp [hs]
  have h2 : ¬p.org.fab = true := by simp [hf]
  exact (if_neg h1).trans (if_neg h2)

section
variable (h : Arrives s p t) {m : Message} (ho : p.op = .spawn m)
include h ho

theorem exec_spawnRequestArrival : exec (.spawnRequestArrival p.id) s = .next (
    if !admits s p t then (s.dropPkt p.id).reply p (.status 3)
    else if 4 ≤ (s.tile t).intake.length then (s.dropPkt p.id).reply p .refused
    else (s.dropPkt p.id).modTile t fun x =>
      { x with intake := x.intake ++ [{ recId := p.req, msg := m, org := p.org, req := p.req }] }) := by
  show execSpawnRequestArrival p.id s = _
  rw [execSpawnRequestArrival, arrive_tile h, h.2.1, ho]
  · rfl
  · rw [ho]
end

section
variable (h : Arrives s p t) {m : Message} (ho : p.op = .message m)
include h ho

theorem exec_messageArrival : exec (.messageArrival p.id) s = .next (
    if !admits s p t then (s.dropPkt p.id).reply p (.status 3)
    else if 32 ≤ (s.tile t).inbox.length then (s.dropPkt p.id).reply p .refused
    else ((s.dropPkt p.id).modTile t fun x => { x with inbox := x.inbox ++ [m] }).reply p (.status 0)) := by
  show execMessageArrival p.id s = _
  rw [execMessageArrival, arrive_tile h, h.2.1, ho]
  · rfl
  · rw [ho]
end

/-- The answer to a request that changes nothing at its tile. -/
theorem answers_only (hs : isSpawn p.op = true) (hf : p.org.fab = false) (op : Op) :
    let u := (s.dropPkt p.id).reply p op
    OnlyTileAndNet s u t ∧ u.tile t = s.tile t ∧ u.net = answered s p op := by
  intro u
  have hu : u = { s with net := answered s p op } := reply_spawn hs hf op
  rw [hu]
  exact ⟨⟨rfl, fun _ _ => rfl⟩, rfl, rfl⟩

end

/-! ### Slots that are filled (R45, R51, R56) -/

theorem isEmpty_iff {x : Tile} {n : Nat} {i : Fin 8} (h : n = i.val) : x.isEmpty n = true ↔ (x.th i).st = .empty := by
  rw [Tile.isEmpty, h, slotIx_val, beq_iff_eq]

theorem generalSlot_eq {x : Tile} {i : Fin 8} (hg : i.val < x.core.gslots) (h6 : i.val < 6) (he : (x.th i).st = .empty)
    (hl : ∀ j, j < i → (x.th j).st ≠ .empty) : x.generalSlot = some i.val := by
  refine List.find?_range_eq_some.2 ⟨(isEmpty_iff rfl).2 he, List.mem_range.2 (lt_min h6 hg), fun j hj => ?_⟩
  have hji : j < 8 := hj.trans i.isLt
  rw [Bool.not_eq_true', Bool.eq_false_iff]
  exact fun hc => hl ⟨j, hji⟩ hj ((isEmpty_iff rfl).1 hc)

theorem handlerSlot_eq {x : Tile} {i : Fin 8} (h6 : 6 ≤ i.val) (he : (x.th i).st = .empty)
    (hl : ∀ j : Fin 8, 6 ≤ j.val → j < i → (x.th j).st ≠ .empty) : x.handlerSlot = some i.val := by
  rw [Tile.handlerSlot]
  obtain h | h : i.val = 6 ∨ i.val = 7 := by omega
  · rw [List.find?_cons_of_pos ((isEmpty_iff h.symm).2 he), h]
  · have h6 : ¬x.isEmpty 6 = true := fun hc =>
      hl 6 (Nat.le_refl 6) (by rw [Fin.lt_def, h]; decide) ((isEmpty_iff (i := 6) rfl).1 hc)
    rw [List.find?_cons_of_neg h6, List.find?_cons_of_pos ((isEmpty_iff h.symm).2 he), h]

/-- The thread that a message starts. -/
def Thread.startedBy (h : Thread) (m : Message) (prio : Nat) : Prop :=
  h.st = .ready ∧ h.mode = .user ∧ h.pc = m.entry ∧ h.prio = prio ∧ h.budget = 4096 ∧ h.rx 10 = m.a0 ∧ h.rx 11 = m.a1
    ∧ h.rx 12 = m.a2 ∧ h.rx 13 = m.a3 ∧ h.rx 14 = m.ident ∧ ∀ r : Reg, r.toNat ≤ 9 ∨ 15 ≤ r.toNat → h.rx r = 0

theorem rx_of_zeros {h : Thread} (hx : h.x = Vector.replicate 32 0) (r : Reg) : h.rx r = 0 := by
  rw [Thread.rx]
  split
  · rfl
  · simp [hx]

theorem fill_th_other (x : Tile) {i j : Fin 8} (m : Message) (prio : Nat) (h : j ≠ i) : (x.fill i m prio).th j = x.th j :=
  Tile.th_setTh_other _ _ h

theorem fill_starts (x : Tile) (i : Fin 8) (m : Message) (prio : Nat) :
    ((x.fill i m prio).th i).startedBy m prio := by
  rw [Tile.fill, Tile.th_setTh]
  refine ⟨rfl, rfl, rfl, rfl, rfl, ?_, ?_, ?_, ?_, ?_, fun r hr => ?_⟩
  all_goals simp only [Thread.rx_wx]
  · rfl
  · rfl
  · rfl
  · rfl
  · rfl
  · have hne (k : Reg) (hk : 9 < k.toNat ∧ k.toNat < 15) : ¬(r = k ∧ r ≠ 0) := fun ⟨e, _⟩ => by rw [e] at hr; omega
    rw [if_neg (hne 14 (by decide)), if_neg (hne 13 (by decide)), if_neg (hne 12 (by decide)),
      if_neg (hne 11 (by decide)), if_neg (hne 10 (by decide))]
    exact rx_of_zeros rfl r

/-! ### The intake and the inbox (R51, R56) -/

section
variable {s : State} {t : Nat} (hf : s.inFrame t = true)
include hf

/-- The intake's oldest request leaves it, with the status and the tile that `drained` gives. -/
theorem intakeDrain_answers {q : Intake} {rest : List Intake} (hi : (s.tile t).intake = q :: rest) (hq : q.org.fab = false)
    {n : Nat} {y : Tile} (hd : drained (s.tile t) q.msg = (n, y)) :
    ∃ u, exec (.spawnIntakeDrain t) s = .next u ∧ OnlyTileAndNet s u t ∧ u.tile t = { y with intake := rest }
      ∧ ∃ a, u.net = s.net ++ [a] ∧ a.op = .status n ∧ a.home = .tile q.org.tile ∧ a.req = q.req := by
  have hx : exec (.spawnIntakeDrain t) s = .next ((s.setTile t { y with intake := rest }).reply
      { id := q.recId, op := .spawn q.msg, org := q.org, home := .tile t, req := q.req } (.status n)) := by
    refine (onTile_of_inFrame hf _).trans ?_
    dsimp only
    rw [hi]
    dsimp only
    rw [hd]
  rw [reply_spawn rfl hq] at hx
  exact ⟨_, hx, ⟨rfl, fun _ h => State.tile_setTile_other s _ h⟩, State.tile_setTile s t _, _, rfl, rfl, rfl, rfl⟩

theorem exec_handlerDispatch {m : Message} {rest : List Message} {i : Fin 8} (hm : (s.tile t).inbox = m :: rest)
    (hs : (s.tile t).handlerSlot = some i.val) (hh : (s.tile t).halted = false) (hn : (s.tile t).needsFirmware = false) :
    exec (.handlerDispatch t) s = .next (s.setTile t { (s.tile t).fill i m 0 with inbox := rest }) := by
  refine (onTile_of_inFrame hf _).trans ?_
  dsimp only
  rw [hm, hs]
  dsimp only
  rw [hh, hn, slotIx_val]
  rfl
end

section
variable {x : Tile} (m : Message)

theorem drained_held (hh : x.portCore.hold = true) : drained x m = (3, x) := if_pos hh

variable (hh : x.portCore.hold = false)
include hh

theorem drained_fenced (hc : x.portCore.jkcaps &&& ~~~x.portCore.jcaps ≠ 0) : drained x m = (2, x) :=
  (if_neg (by rw [hh]; decide)).trans (if_pos hc)

variable (hc : x.portCore.jkcaps &&& ~~~x.portCore.jcaps = 0)
include hc

theorem drained_full (ho : x.core.gslots ≤ x.occupied) : drained x m = (1, x) :=
  (if_neg (by rw [hh]; decide)).trans ((if_neg (not_not.2 hc)).trans (if_pos ho))

theorem drained_fills (ho : x.occupied < x.core.gslots) {i : Fin 8} (hs : x.generalSlot = some i.val) :
    drained x m = (0, x.fill i m (min m.prio x.core.pcap)) := by
  refine (if_neg (by rw [hh]; decide)).trans ((if_neg (not_not.2 hc)).trans ((if_neg (Nat.not_le.2 ho)).trans ?_))
  rw [hs]
  dsimp only
  rw [slotIx_val]
end

/-! ### Refusals and further attempts (R51) -/

/-- A change of the record of one number, which keeps its number, is the change of the record found. -/
theorem find_map_record {l : List SpawnRec} {k : Nat} {r : SpawnRec} (f : SpawnRec → SpawnRec)
    (hf : ∀ q, (f q).id = q.id) (hr : l.find? (·.id == k) = some r) :
    (l.map fun q => if q.id = r.id then f q else q).find? (·.id == k) = some (f r) := by
  have hp : (fun q : SpawnRec => q.id == k) ∘ (fun q => if q.id = r.id then f q else q) = fun q => q.id == k := by
    funext q
    dsimp only [Function.comp_apply]
    split
    · rw [hf]
    · rfl
  rw [List.find?_map, hp, hr, Option.map_some, if_pos rfl]

section
variable {s : State} {p : Packet} {r : SpawnRec} (hp : s.pkt p.id = some p)
include hp

theorem exec_spawnRefusalReturn (ho : p.op = .refused) (hr : s.spawns.find? (·.id == p.req) = some r) :
    exec (.spawnRefusalReturn p.id) s = .next (
      if 8 ≤ r.refusals + 1 then (s.dropPkt p.id).sendPkt { p with op := .status 4 }
      else { s.dropPkt p.id with
        spawns := s.spawns.map fun (q : SpawnRec) =>
          if q.id = r.id then { q with refusals := r.refusals + 1, due := some (s.tick + backOff (r.refusals + 1)) }
          else q }) := by
  show execSpawnRefusalReturn p.id s = _
  rw [execSpawnRefusalReturn, hp]
  dsimp only
  rw [ho, hr]
  dsimp only
  split <;> rfl

end

theorem exec_spawnResend {s : State} {r : SpawnRec} {d home : Nat} (hr : s.spawns.find? (·.id == r.id) = some r)
    (hd : r.due = some d) (hle : d ≤ s.tick) (hh : r.home = .tile home) :
    exec (.spawnResend r.id) s = .next
      ({ s with spawns := s.spawns.map fun (q : SpawnRec) => if q.id = r.id then { q with due := none } else q }.sendPkt
        { id := r.id, op := r.op, org := r.org, home := r.home, addr := r.addr, req := r.id }) := by
  show execSpawnResend r.id s = _
  rw [execSpawnResend, hr]
  dsimp only
  rw [hd]
  dsimp only
  rw [if_neg (Nat.not_lt.2 hle), hh]
  rfl

/-! ### The status (R52) -/

theorem wakeEntries_th (x : Tile) (i : Fin 8) :
    (x.wakeEntries.th i).x = (x.th i).x ∧ (x.wakeEntries.th i).pc = (x.th i).pc := by
  simp only [Tile.wakeEntries, Tile.mapTh, Tile.th, mapV, Fin.getElem_fin, Vector.getElem_ofFn]
  split <;> exact ⟨rfl, rfl⟩

/-- The tile with an entry freed. -/
def Tile.freed (x : Tile) (id : Nat) : Tile :=
  let y := { x with reqs := x.reqs.filter (·.id != id) }
  { y with threads := y.threads.mapFinIdx fun i h hi =>
      if (y.entriesOf ⟨i, hi⟩).isEmpty then { h with acquire := false } else h }.wakeEntries

theorem freed_th (x : Tile) (id : Nat) (i : Fin 8) :
    ((x.freed id).th i).x = (x.th i).x ∧ ((x.freed id).th i).pc = (x.th i).pc := by
  obtain ⟨hx, hpc⟩ := wakeEntries_th { x with
    reqs := x.reqs.filter (·.id != id)
    threads := x.threads.mapFinIdx fun i h hi =>
      if ({ x with reqs := x.reqs.filter (·.id != id) }.entriesOf ⟨i, hi⟩).isEmpty then { h with acquire := false } else h } i
  refine ⟨hx.trans ?_, hpc.trans ?_⟩ <;>
  · simp only [Tile.th, Fin.getElem_fin, Vector.getElem_mapFinIdx]
    split <;> rfl

theorem Thread.wx_pc (h : Thread) (r : Reg) (v : Dword) : (h.wx r v).pc = h.pc := by
  unfold Thread.wx
  split <;> rfl

theorem writeResult_live {s : State} {t : Nat} {e : ReqEntry} {rd : Reg} {i : Fin 8} (hs : e.slot = i.val)
    (hrd : e.rd = some rd) (hd : e.discard = false) (he : e.epoch = (s.th t i).epoch) (v : Dword) :
    s.writeResult t e v = s.modTh t i (·.wx rd v) := by
  rw [State.writeResult, hs, slotIx_val, hrd]
  exact if_pos ⟨he.symm, by rw [hd]; rfl⟩

/-- A result that finds its thread is written to its register alone, and its entry is freed. -/
theorem statusWritten {w : State} {t : Nat} {e : ReqEntry} {rd : Reg} {i : Fin 8} (hs : e.slot = i.val)
    (hrd : e.rd = some rd) (hd : e.discard = false) (he : e.epoch = (w.th t i).epoch) (h0 : rd ≠ 0) (v : Dword) :
    let u := (w.writeResult t e v).freeEntry t e.id
    ((u.tile t).th i).rx rd = v ∧ (∀ r, r ≠ rd → ((u.tile t).th i).rx r = ((w.tile t).th i).rx r)
      ∧ ((u.tile t).th i).pc = ((w.tile t).th i).pc ∧ (u.tile t).reqs = (w.tile t).reqs.filter (·.id != e.id)
      ∧ u.spawns = w.spawns := by
  intro u
  have hu : u = (w.modTh t i (·.wx rd v)).freeEntry t e.id := by rw [← writeResult_live hs hrd hd he]
  have ht : u.tile t = ((w.tile t).modTh i (·.wx rd v)).freed e.id := by
    rw [hu, State.freeEntry, State.tile_modTile, State.modTh, State.tile_modTile]
    rfl
  obtain ⟨hx, hpc⟩ := freed_th ((w.tile t).modTh i (·.wx rd v)) e.id i
  rw [Tile.modTh, Tile.th_setTh] at hx hpc
  have hrx (r : Reg) : ((u.tile t).th i).rx r = (((w.tile t).th i).wx rd v).rx r := by
    rw [ht, Thread.rx, Tile.modTh, hx, Thread.rx]
  refine ⟨?_, fun r hr => ?_, ?_, ?_, ?_⟩
  · rw [hrx, Thread.rx_wx, if_pos ⟨rfl, h0⟩]
  · rw [hrx, Thread.rx_wx, if_neg fun h => hr h.1]
  · rw [ht, Tile.modTh, hpc, Thread.wx_pc]
  · rw [ht]
    rfl
  · rw [hu]
    rfl

theorem exec_spawnStatusReturn {s : State} {p : Packet} {r : SpawnRec} {e : ReqEntry} {v : Nat}
    (hp : s.pkt p.id = some p) (ho : p.op = .status v)
    (hr : s.spawns.find? (·.id == p.req) = some r) (hh : r.host = none) (hm : r.many = false)
    (he : (s.tile r.org.tile).reqs.find? (·.id == r.req) = some e) :
    exec (.spawnStatusReturn p.id) s = .next
      (({ s.dropPkt p.id with spawns := s.spawns.filter (·.id != r.id) }.writeResult r.org.tile e
        (nd (field 8 4 e.tag + v))).freeEntry r.org.tile e.id) := by
  show execSpawnStatusReturn p.id s = _
  rw [execSpawnStatusReturn, hp]
  dsimp only
  rw [ho, hr]
  dsimp only
  rw [hh]
  dsimp only
  rw [hm, if_neg Bool.false_ne_true]
  have he' : ((State.tile { s.dropPkt p.id with spawns := s.spawns.filter (·.id != r.id) } r.org.tile).reqs.find?
      (·.id == r.req)) = some e := he
  rw [he']

/-- Settles O37: each event's outcome, from the lemma of its name. -/
theorem spawnTraffic : Obligations.SpawnTraffic := by
  unfold Obligations.SpawnTraffic
  intro s p m t i x filled
  refine ⟨fun h ho hf => ?_, fun h ho hf => ?_, fun q rest hf hi hm hq => ?_, fun rest hf hm hh hn h6 he hl => ?_,
    fun r hp ho hr => ?_, fun r d home hr hd hle hh => ?_, ?_⟩
  · have hx := exec_spawnRequestArrival h ho
    have hs : isSpawn p.op = true := by rw [ho]; rfl
    refine ⟨fun ha hl => ?_, fun ha hl => ?_, fun ha => ?_⟩
    · rw [ha, if_neg (by decide), if_neg (Nat.not_le.2 hl)] at hx
      exact ⟨_, hx, ⟨rfl, fun _ h => State.tile_modTile_other _ _ h⟩, rfl, State.tile_modTile _ _ _⟩
    · rw [ha, if_neg (by decide), if_pos hl] at hx
      exact ⟨_, hx, answers_only hs hf _⟩
    · rw [ha, if_pos (by decide)] at hx
      exact ⟨_, hx, answers_only hs hf _⟩
  · have hx := exec_messageArrival h ho
    have hs : isSpawn p.op = true := by rw [ho]; rfl
    have hhome : p.home = .tile t := h.2.1
    refine ⟨fun ha hl => ?_, fun ha hl => ?_, fun ha => ?_⟩
    · rw [ha, if_neg (by decide), if_neg (Nat.not_le.2 hl), reply_spawn hs hf] at hx
      have ht (n : Nat) (hn : n ≠ t) := State.tile_modTile_other s (fun x => { x with inbox := x.inbox ++ [m] }) hn
      refine ⟨_, hx, ⟨rfl, ht⟩, ?_, State.tile_modTile s t fun x => { x with inbox := x.inbox ++ [m] }⟩
      have hidx :
          homeIndex ((s.dropPkt p.id).modTile t fun x => { x with inbox := x.inbox ++ [m] }) p.home = homeIndex s p.home := by
        rw [hhome, homeIndex, State.tile_modTile]
        rfl
      rw [answered, ← hidx]
      rfl
    · rw [ha, if_neg (by decide), if_pos hl] at hx
      exact ⟨_, hx, answers_only hs hf _⟩
    · rw [ha, if_pos (by decide)] at hx
      exact ⟨_, hx, answers_only hs hf _⟩
  · intro drains
    subst hm
    have hdrains {n : Nat} {y : Tile} {f : Tile → Prop} (hd : drained x q.msg = (n, y)) (hy : f { y with intake := rest }) :
        drains n f := by
      obtain ⟨u, hx, hu, ht, ha⟩ := intakeDrain_answers hf hi hq hd
      exact ⟨u, hx, hu, by rw [ht], ht ▸ hy, ha⟩
    refine ⟨fun hh => ?_, fun hh hc => ?_, fun hh hc ho => ?_, fun hh hc ho hg h6 he hl => ?_⟩
    · exact hdrains (f := fun y => y.threads = x.threads) (drained_held _ hh) rfl
    · exact hdrains (f := fun y => y.threads = x.threads) (drained_fenced _ hh hc) rfl
    · exact hdrains (f := fun y => y.threads = x.threads) (drained_full _ hh hc ho) rfl
    · refine hdrains (f := fun y => filled (y.th i) (min q.msg.prio x.core.pcap) ∧ ∀ j, j ≠ i → y.th j = x.th j)
        (drained_fills _ hh hc ho (generalSlot_eq hg h6 he hl)) ?_
      exact ⟨fill_starts x i q.msg _, fun j hj => fill_th_other x q.msg _ hj⟩
  · have hx := exec_handlerDispatch hf hm (handlerSlot_eq h6 he hl) hh hn
    have ht := State.tile_setTile s t { x.fill i m 0 with inbox := rest }
    refine ⟨_, hx, ⟨rfl, fun _ h => State.tile_setTile_other s _ h⟩, rfl, ?_⟩
    rw [ht]
    exact ⟨rfl, fill_starts x i m 0, fun j hj => fill_th_other x m 0 hj⟩
  · have hx := exec_spawnRefusalReturn hp ho hr
    refine ⟨fun hn => ?_, fun hn => ?_⟩
    · rw [if_neg (by omega)] at hx
      exact ⟨_, hx, rfl, find_map_record (fun q => { q with refusals := _, due := _ }) (fun _ => rfl) hr⟩
    · rw [if_pos (by omega)] at hx
      exact ⟨_, hx, rfl⟩
  · exact ⟨_, exec_spawnResend hr hd hle hh, ⟨_, rfl, rfl, rfl, rfl, rfl⟩,
      find_map_record (fun q => { q with due := none }) (fun _ => rfl) hr⟩
  · intro r e rd v hp ho hr hh hm ht he hs hrd hd hep h0 htag
    subst ht
    have hx := exec_spawnStatusReturn hp ho hr hh hm he
    have hv : nd (field 8 4 e.tag + v) = BitVec.ofNat 64 (e.tag * 2 ^ 8 + v) := by
      rw [field, Nat.mod_eq_of_lt (show e.tag < 2 ^ 4 from htag)]
      rfl
    rw [hv] at hx
    obtain ⟨hres, hoth, hpc, hreqs, hsp⟩ :=
      statusWritten (w := { s.dropPkt p.id with spawns := s.spawns.filter (·.id != r.id) })
      (t := r.org.tile) hs hrd hd hep h0 (BitVec.ofNat 64 (e.tag * 2 ^ 8 + v))
    exact ⟨_, hx, hres, hoth, hpc, hreqs, hsp⟩

end Sys2Proof.Machine
end

section
/-! # Threads wake, and firmware starts (O38) -/
namespace Sys2Proof.Machine

section
variable {s : State} {t : Nat} {i : Fin 8}

/-- The event changes nothing of the module but thread i of tile t, which comes to meet f, and what no statement here reads
of the tile's other threads. -/
def WakesTo (s : State) (t : Nat) (i : Fin 8) (u : State) (f : Thread → Prop) : Prop :=
  { u with tiles := s.tiles } = s ∧ (∀ v, v ≠ t → u.tile v = s.tile v) ∧ f ((u.tile t).th i)
    ∧ (u.tile t).core = (s.tile t).core ∧ (u.tile t).reqs = (s.tile t).reqs

theorem wakesTo_setTile {y : Tile} {f : Thread → Prop} (hy : f (y.th i)) (hc : y.core = (s.tile t).core)
    (hr : y.reqs = (s.tile t).reqs) : WakesTo s t i (s.setTile t y) f := by
  refine ⟨rfl, fun v hv => State.tile_setTile_other s y hv, ?_⟩
  rw [State.tile_setTile]
  exact ⟨hy, hc, hr⟩

theorem wakesTo_modTh {g : Thread → Thread} {f : Thread → Prop} (h : f (g ((s.tile t).th i))) :
    WakesTo s t i (s.modTh t i g) f :=
  wakesTo_setTile (y := (s.tile t).modTh i g) (by rwa [Tile.modTh, Tile.th_setTh]) rfl rfl

variable (hf : s.inFrame t = true)
include hf

theorem exec_rwaitWake {w : Wait} {v : Dword} {c : Nat} (hs : ((s.tile t).th i).sleep = some w)
    (hw : ((s.tile t).th i).woken = some (v, c)) (hc : c ≤ (s.tile t).cycle + 1) (hh : (s.tile t).halted = false) :
    exec (.rwaitWake t i.val) s = .next (s.modTh t i fun h =>
      { (h.wx w.dest v).finish (h.pc + 4) false with sleep := none, woken := none }) := by
  refine (onTile_of_inFrame hf _).trans ?_
  rw [slotIx_val]
  dsimp only [State.th]
  rw [hs, hw]
  exact if_pos ⟨hc, by rw [hh]; rfl⟩

theorem exec_rwaittTimeout {off tgt e : Nat} {rd : Reg} {v : Dword}
    (hs : ((s.tile t).th i).sleep = some (.riser off tgt (some e) rd)) (hw : ((s.tile t).th i).woken = none)
    (he : e ≤ s.tick) (hh : (s.tile t).halted = false) (hv : waitResult (s.readD (tileKey t off)) tgt true = some v) :
    exec (.rwaittTimeout t i.val) s =
      .next (s.modTile t fun x => x.modTh i fun h => { h with woken := some (v, x.cycle + 2) }) := by
  refine (onTile_of_inFrame hf _).trans ?_
  rw [slotIx_val]
  dsimp only [State.th]
  rw [hs, hw]
  dsimp only
  rw [if_pos ⟨he, by rw [hh]; rfl⟩, hv]

theorem exec_lrHoldExpiry {e : Nat} (hh : ((s.tile t).th i).holdEnd = some e) (he : e ≤ (s.tile t).cycle + 1) :
    exec (.lrHoldExpiry t i.val) s =
      .next (s.setTile t ((s.tile t).modTh i fun h => { h with holdEnd := none, lastHold := some e }).wakeHold) := by
  refine (onTile_of_inFrame hf _).trans ?_
  rw [slotIx_val, hh]
  exact if_pos he

theorem exec_firmwareThreadFill (hn : (s.tile t).needsFirmware = true) (hs : (s.tile t).handlerSlot = some i.val) :
    exec (.firmwareThreadFill t) s =
      .next (s.setTile t (((s.tile t).fill i { entry := 0x5000000000000040 } 0).modTh i fun h =>
        { h with mode := .machine, firmware := true })) := by
  refine (onTile_of_inFrame hf _).trans ?_
  rw [hs]
  dsimp only
  rw [if_pos hn, slotIx_val]

end

/-- At the end of its time a wait always has a result; 2 where the word has neither reached its target nor been
poisoned (R154). -/
theorem waitResult_expired (w : Dword) (tgt : Nat) :
    ∃ v, waitResult w tgt true = some v ∧ (w.getLsbD 63 = false → bits w 0 40 < tgt → v = 2) := by
  unfold waitResult
  split
  next hb => exact ⟨_, rfl, fun h => absurd hb (by rw [riserBad, bitAt, h]; decide)⟩
  next =>
    split
    next ht => exact ⟨_, rfl, fun _ h => absurd ht (Nat.not_le.2 h)⟩
    next => exact ⟨_, rfl, fun _ _ => rfl⟩

theorem afterHold_expired (h : Thread) (e : Nat) :
    let k := afterHold { h with holdEnd := none, lastHold := some e }
    k.holdEnd = none ∧ k.lastHold = some e ∧ k.resv = h.resv ∧ k.x = h.x ∧ k.pc = h.pc := by
  unfold afterHold
  split <;> exact ⟨rfl, rfl, rfl, rfl, rfl⟩

/-! ### COUNTs of the cluster (R53) -/

/-- Fields of four bits, placed side by side. -/
def packed (f : Nat → Nat) (n : Nat) : Nat := (upTo n).foldl (fun v i => v + field (4 * i) 4 (f i)) 0

theorem packed_succ (f : Nat → Nat) (n : Nat) : packed f (n + 1) = packed f n + f n % 2 ^ 4 * 2 ^ (4 * n) := by
  rw [packed, upTo, List.range_succ, List.foldl_append]
  rfl

theorem packed_lt (f : Nat → Nat) (n : Nat) : packed f n < 2 ^ (4 * n) := by
  induction n with
  | zero => exact Nat.one_pos
  | succ n ih =>
    have hlt : f n % 2 ^ 4 + 1 ≤ 2 ^ 4 := Nat.mod_lt _ (by decide)
    calc packed f (n + 1) < 2 ^ (4 * n) + f n % 2 ^ 4 * 2 ^ (4 * n) := by rw [packed_succ]; exact Nat.add_lt_add_right ih _
      _ = (f n % 2 ^ 4 + 1) * 2 ^ (4 * n) := by ring
      _ ≤ 2 ^ 4 * 2 ^ (4 * n) := Nat.mul_le_mul_right _ hlt
      _ = 2 ^ (4 * (n + 1)) := by rw [← Nat.pow_add]; congr 1; omega

theorem packed_field (f : Nat → Nat) {n k : Nat} (hk : k < n) : packed f n / 2 ^ (4 * k) % 2 ^ 4 = f k % 2 ^ 4 := by
  induction n with
  | zero => cases hk
  | succ n ih =>
    rw [packed_succ]
    obtain rfl | hlt := Nat.eq_or_lt_of_le (Nat.le_of_lt_succ hk)
    · rw [Nat.add_mul_div_right _ _ (by positivity), Nat.div_eq_of_lt (packed_lt f k), Nat.zero_add, Nat.mod_mod]
    · obtain ⟨d, rfl⟩ := Nat.exists_eq_add_of_lt hlt
      have hp : f (k + d + 1) % 2 ^ 4 * 2 ^ (4 * (k + d + 1)) =
          2 ^ (4 * k) * (2 ^ 4 * (f (k + d + 1) % 2 ^ 4 * 2 ^ (4 * d))) := by
        rw [show 4 * (k + d + 1) = 4 * k + (4 + 4 * d) by omega, Nat.pow_add, Nat.pow_add]
        ring
      rw [hp, Nat.add_mul_div_left _ _ (by positivity), Nat.add_mul_mod_self_left]
      exact ih hlt

theorem bits_packed (f : Nat → Nat) {n : Nat} (hn : n < 16) : bits (nd (packed f 16)) (4 * n) 4 = f n % 2 ^ 4 := by
  rw [bits, nd, BitVec.toNat_ofNat, Nat.mod_eq_of_lt (packed_lt f 16), packed_field f hn]

theorem freeSlots_le (x : Tile) : x.freeSlots ≤ 6 := by
  refine (List.length_filter_le _ _).trans ?_
  rw [upTo, List.length_range]
  exact Nat.min_le_left _ _

theorem countOf_lt (s : State) (t i : Nat) : countOf s t i < 2 ^ 4 := by
  unfold countOf
  dsimp only
  split
  · exact Nat.lt_of_le_of_lt (freeSlots_le _) (by decide)
  · decide

theorem exec_jcloadRefresh {s : State} {t : Nat} (hf : s.inFrame t = true) :
    exec (.jcloadRefresh t) s = .next (s.modCore t fun c => { c with jcload := nd (packed (countOf s t) 16) }) :=
  onTile_of_inFrame hf _

/-- A core that works and is awake issues. -/
theorem exec_issueSelect {s : State} {t : Nat} (hf : s.inFrame t = true) (he : (s.tile t).tstate = 1)
    (hw : s.awake t = true) : exec (.issueSelect t) s = .next (issueCycle s t) := by
  have hg : ¬(1 < (s.tile t).tstate ∨ (!s.awake t) = true) := by rw [he, hw]; decide
  exact (if_pos hf).trans (congrArg Host.Outcome.next (if_neg hg))

/-- Settles O38: the cycle of one READY thread from `issueCycle_leaves`, and each end of a wait from the lemma of its
event. -/
theorem threadsWake : Obligations.ThreadsWake := by
  unfold Obligations.ThreadsWake
  intro s t i x h only hf
  have honly {u : State} {f : Thread → Prop} (hu : WakesTo s t i u f) : only u f := hu
  clear_value only
  refine ⟨?_, fun w v c hs hw hc hh => ?_, fun off tgt e rd hs hw he hh => ?_, fun e hh he => ?_, fun hn h6 he hl => ?_, ?_⟩
  · intro off ins hw he hi hhalted hlattice hevpend hreqs hgroups hdivider hothers hready hneed hpend hfwTrap hfirmware
      hbudget hwait hlat hvlat hacquire hfbuf hp hm w hd
    have ho : x.OnlyReady i := ⟨hhalted, hlattice, hevpend, hreqs, hgroups, hdivider, hothers, hready, hneed, hpend,
      hfwTrap, hfirmware, hbudget, hwait, hlat, hvlat, hacquire, hfbuf⟩
    obtain ⟨hl, hcur, hme, hmem, -, hcore, hcyc⟩ := issueCycle_leaves ho hi (nextWord_stored hp hfbuf hm) hd
    exact ⟨_, exec_issueSelect hf he hw, hl, hcur, hme, hmem, hcore, hcyc⟩
  · refine ⟨_, exec_rwaitWake hf hs hw hc hh, honly ?_⟩
    exact wakesTo_modTh ⟨rfl, rfl, rfl, rfl, fun r => Thread.rx_wx h r w.dest v⟩
  · obtain ⟨v, hv, hv2⟩ := waitResult_expired (s.readD (tileKey t off)) tgt
    refine ⟨v, _, exec_rwaittTimeout hf hs hw he hh hv, honly ?_, hv, hv2⟩
    exact wakesTo_setTile (Tile.th_setTh _ _ _) rfl rfl
  · refine ⟨_, exec_lrHoldExpiry hf hh he, honly ?_⟩
    refine wakesTo_setTile ?_ rfl rfl
    rw [Tile.wakeHold_th, Tile.modTh, Tile.th_setTh]
    exact afterHold_expired _ e
  · refine ⟨_, exec_firmwareThreadFill hf hn (handlerSlot_eq h6 he hl), honly ?_⟩
    refine wakesTo_setTile ?_ rfl rfl
    obtain ⟨hst, -, hpc, -⟩ := fill_starts x i { entry := 0x5000000000000040 } 0
    rw [Tile.modTh, Tile.th_setTh]
    exact ⟨hst, rfl, rfl, hpc⟩
  · refine ⟨_, exec_jcloadRefresh hf, rfl, fun v hv => State.tile_modTile_other _ _ hv, ?_, fun n hn => ?_⟩
    · rw [State.modCore, State.tile_modTile]
    · rw [State.modCore, State.tile_modTile]
      exact (bits_packed _ hn).trans ((Nat.mod_eq_of_lt (countOf_lt s t n)).trans rfl)

end Sys2Proof.Machine
end

section
/-! # CLOSE in a state whose tiles are listed out of order (O47)

A request raises MAILBOX at the corner core of its package before it is served, and the cores of its partition are looked
up after that. In a state whose tiles are listed out of order, the list that the event leaves names other cores. -/
namespace Sys2Proof.Machine

/-- A working tile of logical column 0, in a partition of number 1. -/
def memberTile : Tile := { router := 1, core := { jmpart1 := 0x1000000000000 } }
/-- A partition of one core. -/
def oneCorePart : Part := { pid := 1, height := 1, width := 1 }
/-- Firmware serves the mailbox; of two tiles of row 0 that hold the same logical column the corner is listed last. -/
def cornerLast : State :=
  { tiles := [(5, memberTile), (0, memberTile)], parts := [oneCorePart], cryo := { st := .coldReady }, fwResident := true }

/-- HOLD of a tile after a step. -/
def holdAfter (t : Nat) : Outcome → Bool
  | .next u => (u.tile t).core.hold
  | _ => true

theorem cornerLast_ready : MailReady cornerLast 0 := ⟨by decide, rfl, rfl, rfl, rfl⟩
theorem cornerLast_tilesOf : cornerLast.tilesOf oneCorePart = [5] := by decide
theorem cornerLast_close : holdAfter 5 (exec (.closePart 0 0) cornerLast) = false := by decide

/-- Refutes O47: CLOSE of the partition whose core is tile 5 holds tile 0, which the list names once MAILBOX is raised
there, and leaves tile 5 without HOLD. -/
theorem not_partitionsOpenAndClose : ¬ Obligations.PartitionsOpenAndClose := by
  unfold Obligations.PartitionsOpenAndClose
  intro h
  obtain ⟨-, -, -, -, -, hclose, -⟩ := h cornerLast 0 0 oneCorePart cornerLast_ready
  obtain ⟨u, hx, -, hstopped, -⟩ := hclose (by decide) (by decide) (by decide)
  have h5 : holdAfter 5 (exec (.closePart 0 0) cornerLast) = true := by
    rw [hx]
    exact hstopped 5 (cornerLast_tilesOf ▸ List.mem_singleton_self 5)
  exact Bool.false_ne_true (cornerLast_close.symm.trans h5)

end Sys2Proof.Machine
end

section
/-! # HBM by physical address

An aligned word of HBM lies in eight keys of its own, which no other physical address and no tile has. `HbmWrites W s u`
says that the step from s to u wrote HBM at addresses of W only, and nothing of the tiles' memories. -/
namespace Sys2Proof.Machine

variable {s u v : State}

theorem leVal_leBytes (n v : Nat) : leVal (leBytes n v) = v % 256 ^ n := by
  induction n generalizing v with
  | zero => simp [leBytes, leVal, Nat.mod_one]
  | succ n ih =>
    have hb : (BitVec.ofNat 8 v).toNat = v % 256 := by simp
    rw [leBytes, leVal, ih, hb, Nat.pow_succ', Nat.mod_mul]

theorem leBytes_length (n v : Nat) : (leBytes n v).length = n := by
  induction n generalizing v with
  | zero => rfl
  | succ n ih => rw [leBytes, List.length_cons, ih]

theorem Memory.read_congr {m m' : List Host.Cell} {k n : Nat} (h : ∀ j, k ≤ j → j < k + n → Memory.get m j = Memory.get m' j) :
    Memory.read m k n = Memory.read m' k n := by
  induction n generalizing k with
  | zero => rfl
  | succ n ih =>
    rw [Memory.read, Memory.read, h k (by omega) (by omega), ih fun j h1 h2 => h j (by omega) (by omega)]

theorem Memory.read_eq {m : List Host.Cell} {bs : List Byte} {k : Nat}
    (h : ∀ j (hj : j < bs.length), Memory.get m (k + j) = bs[j]) : Memory.read m k bs.length = bs := by
  induction bs generalizing k with
  | nil => rfl
  | cons b bs ih =>
    rw [List.length_cons, Memory.read, ih fun j hj => ?_]
    · exact congrArg (· :: bs) (h 0 (Nat.succ_pos _))
    · rw [Nat.add_assoc, Nat.add_comm 1]
      exact h (j + 1) (Nat.succ_lt_succ hj)

theorem Memory.read_write (m : List Host.Cell) (k : Nat) (bs : List Byte) :
    Memory.read (Memory.write m k bs) k bs.length = bs := by
  refine Memory.read_eq fun j hj => ?_
  rw [Memory.get_write, dif_pos ⟨Nat.le_add_right .., Nat.add_lt_add_left hj k⟩]
  simp only [Nat.add_sub_cancel_left]

theorem State.readD_congr {k : Nat} (h : ∀ j, k ≤ j → j < k + 8 → u.byte j = s.byte j) : u.readD k = s.readD k := by
  unfold State.readD State.readN
  rw [Memory.read_congr h]

theorem State.readD_writeN (s : State) (k : Nat) (w : Dword) : (s.writeN k 8 w.toNat).readD k = w := by
  have h : Memory.read (s.writeN k 8 w.toNat).mem k 8 = leBytes 8 w.toNat := Memory.read_write s.mem k (leBytes 8 w.toNat)
  unfold State.readD State.readN
  rw [h, leVal_leBytes, show 256 ^ 8 = 2 ^ 64 from rfl, Nat.mod_eq_of_lt w.isLt, BitVec.ofNat_toNat, BitVec.setWidth_eq]

/-! ### Keys -/

theorem paKey_far (s : State) (pa : Nat) : 2 ^ 44 ≤ s.paKey pa := by
  show 2 ^ 44 ≤ 2 ^ 44 + _ + _
  omega

theorem dBits_eq (s : State) : s.dBits = 6 ∨ s.dBits = 2 := by
  unfold State.dBits
  split <;> simp

/-- The key of an address, with D put in. -/
theorem paKey_eq (s : State) (pa : Nat) :
    s.paKey pa = 2 ^ 44 + pa / 2 ^ 8 % 2 ^ (7 + s.dBits) * 2 ^ 30 + (pa / 2 ^ (15 + s.dBits) % 2 ^ 22 * 256 + pa % 256) := rfl

theorem paKey_add (s : State) {pa j : Nat} (ha : pa % 8 = 0) (hj : j < 8) : s.paKey (pa + j) = s.paKey pa + j := by
  rw [paKey_eq, paKey_eq]
  rcases dBits_eq s with h | h <;> rw [h] <;> omega

theorem paKey_inj (s : State) {a b : Nat} (ha : a < s.hbmEnd) (hb : b < s.hbmEnd) (h : s.paKey a = s.paKey b) : a = b := by
  rw [paKey_eq, paKey_eq] at h
  unfold State.hbmEnd at ha hb
  have hoff : a % 256 = b % 256 := by omega
  have hchan : a / 2 ^ 8 % 2 ^ (7 + s.dBits) = b / 2 ^ 8 % 2 ^ (7 + s.dBits) := by omega
  have hrow : a / 2 ^ (15 + s.dBits) % 2 ^ 22 = b / 2 ^ (15 + s.dBits) % 2 ^ 22 := by omega
  rcases dBits_eq s with hd | hd <;> rw [hd] at hchan hrow ha hb <;> norm_num at hchan hrow ha hb <;> omega

theorem paKey_window (s : State) (pa : Nat) : s.paKey pa < 2 ^ 62 := by
  rw [paKey_eq]
  rcases dBits_eq s with h | h <;> rw [h] <;> omega

/-! ### Steps that write HBM -/

/-- The n addresses from a. -/
def within (a n : Nat) (x : Nat) : Prop := a ≤ x ∧ x < a + n

/-- HBM changes at addresses of W at most; the tiles' memories, the counter and the geometry do not. -/
structure HbmWrites (W : Nat → Prop) (s u : State) : Prop where
  code : u.code = s.code
  gen : u.gen = s.gen
  tick : u.tick = s.tick
  near : ∀ k, k < 2 ^ 44 → u.byte k = s.byte k
  far : ∀ a, a < s.hbmEnd → ¬W a → u.byte (s.paKey a) = s.byte (s.paKey a)

theorem paKey_of_code (h : u.code = s.code) (a : Nat) : u.paKey a = s.paKey a := by
  unfold State.paKey interleave State.dBits
  rw [h]

theorem hbmEnd_of_code (h : u.code = s.code) : u.hbmEnd = s.hbmEnd := by
  unfold State.hbmEnd State.dBits
  rw [h]

namespace HbmWrites

variable {W W' : Nat → Prop}

theorem of_mem (hc : u.code = s.code) (hg : u.gen = s.gen) (ht : u.tick = s.tick) (hm : u.mem = s.mem) : HbmWrites W s u :=
  ⟨hc, hg, ht, fun k _ => congrArg (Memory.get · k) hm, fun a _ _ => congrArg (Memory.get · (s.paKey a)) hm⟩

theorem refl (s : State) : HbmWrites W s s := of_mem rfl rfl rfl rfl

theorem trans (h : HbmWrites W s u) (h' : HbmWrites W u v) : HbmWrites W s v where
  code := h'.code.trans h.code
  gen := h'.gen.trans h.gen
  tick := h'.tick.trans h.tick
  near k hk := (h'.near k hk).trans (h.near k hk)
  far a ha hw := by
    have h2 := h'.far a (hbmEnd_of_code h.code ▸ ha) hw
    rw [paKey_of_code h.code] at h2
    exact h2.trans (h.far a ha hw)

theorem mono (h : HbmWrites W s u) (hw : ∀ a, W a → W' a) : HbmWrites W' s u :=
  ⟨h.code, h.gen, h.tick, h.near, fun a ha hn => h.far a ha fun hx => hn (hw a hx)⟩

theorem foldl {α : Type} {f : State → α → State} {l : List α} (hf : ∀ w a, a ∈ l → w.code = s.code → HbmWrites W w (f w a)) :
    HbmWrites W s (l.foldl f s) := by
  suffices ∀ w, HbmWrites W s w → HbmWrites W s (l.foldl f w) from this s (refl s)
  induction l with
  | nil => exact fun w h => h
  | cons a l ih =>
    intro w h
    exact ih (fun w b hb => hf w b (List.mem_cons_of_mem a hb)) _ (h.trans (hf w a (List.mem_cons_self ..) h.code))

theorem paRead {a : Nat} (h : HbmWrites W s u) (h8 : a % 8 = 0) (he : a + 8 ≤ s.hbmEnd) (hw : ∀ x, within a 8 x → ¬W x) :
    u.paRead a = s.paRead a := by
  unfold State.paRead
  rw [paKey_of_code h.code]
  refine State.readD_congr fun j h1 h2 => ?_
  obtain ⟨i, rfl⟩ := Nat.exists_eq_add_of_le h1
  have hi : i < 8 := Nat.lt_of_add_lt_add_left h2
  rw [← paKey_add s h8 hi]
  exact h.far _ (by omega) (hw _ ⟨by omega, by omega⟩)

theorem readD {k : Nat} (h : HbmWrites W s u) (hk : k + 8 ≤ 2 ^ 44) : u.readD k = s.readD k :=
  State.readD_congr fun j _ h2 => h.near j (by omega)

theorem tsc (h : HbmWrites W s u) : u.tsc = s.tsc := by
  unfold State.tsc
  rw [h.tick]

end HbmWrites

theorem byte_writeN_other {k n x j : Nat} (h : j < k ∨ k + n ≤ j) : (s.writeN k n x).byte j = s.byte j := by
  refine (Memory.get_write ..).trans (dif_neg ?_)
  rw [leBytes_length]
  omega

theorem hbmWrites_paWrite {pa : Nat} (h8 : pa % 8 = 0) (he : pa + 8 ≤ s.hbmEnd) (w : Dword) :
    HbmWrites (within pa 8) s (s.paWrite pa w) where
  code := rfl
  gen := rfl
  tick := rfl
  near k hk := byte_writeN_other (.inl (Nat.lt_of_lt_of_le hk (paKey_far s pa)))
  far a ha hw := by
    refine byte_writeN_other ?_
    by_contra hin
    obtain ⟨i, hi⟩ : ∃ i, s.paKey a = s.paKey pa + i := Nat.exists_eq_add_of_le (by omega)
    have hi8 : i < 8 := by omega
    rw [← paKey_add s h8 hi8] at hi
    have := paKey_inj s ha (by omega) hi
    exact hw ⟨by omega, by omega⟩

theorem paRead_paWrite (s : State) (pa : Nat) (w : Dword) : (s.paWrite pa w).paRead pa = w :=
  State.readD_writeN ..

/-! ### Runs of words -/

/-- HBM holds a list of words from an address on. -/
def Holds (u : State) (a : Nat) (l : List Dword) : Prop := ∀ (n : Nat) (w : Dword), l[n]? = some w → u.paRead (a + 8 * n) = w

theorem Holds.kept {W : Nat → Prop} {a : Nat} {l : List Dword} (h : Holds s a l) (hw : HbmWrites W s u) (h8 : a % 8 = 0)
    (he : a + 8 * l.length ≤ s.hbmEnd) (ho : ∀ x, within a (8 * l.length) x → ¬W x) : Holds u a l := by
  intro n w hn
  have hl : n < l.length := (List.getElem?_eq_some_iff.1 hn).1
  rw [hw.paRead (by omega) (by omega) fun x hx => ho x ⟨by have := hx.1; omega, by have := hx.2; omega⟩]
  exact h n w hn

theorem paWrites_spec {a : Nat} {l : List Dword} (h8 : a % 8 = 0) (he : a + 8 * l.length ≤ s.hbmEnd) :
    HbmWrites (within a (8 * l.length)) s (s.paWrites a l) ∧ Holds (s.paWrites a l) a l := by
  induction l generalizing s a with
  | nil => exact ⟨.refl s, fun n w hn => nomatch hn⟩
  | cons w l ih =>
    rw [List.length_cons] at he
    have h1 : HbmWrites (within a 8) s (s.paWrite a w) := hbmWrites_paWrite h8 (by omega) w
    have he1 : a + 8 + 8 * l.length ≤ (s.paWrite a w).hbmEnd := by rw [hbmEnd_of_code h1.code]; omega
    obtain ⟨h2, h3⟩ := ih (s := s.paWrite a w) (a := a + 8) (by omega) he1
    refine ⟨(h1.mono fun x hx => ?_).trans (h2.mono fun x hx => ?_), fun n v hn => ?_⟩
    · exact ⟨hx.1, by have := hx.2; rw [List.length_cons]; omega⟩
    · exact ⟨by have := hx.1; omega, by have := hx.2; rw [List.length_cons]; omega⟩
    · cases n with
      | zero =>
        obtain rfl : w = v := by simpa using hn
        refine (h2.paRead h8 (by rw [hbmEnd_of_code h1.code]; omega) fun x hx hx' => ?_).trans (paRead_paWrite ..)
        have := hx.2
        have := hx'.1
        omega
      | succ n =>
        have := h3 n v (by simpa using hn)
        rwa [show a + 8 + 8 * n = a + 8 * (n + 1) by omega] at this

theorem hbmWrites_paWrites {a : Nat} {l : List Dword} (h8 : a % 8 = 0) (he : a + 8 * l.length ≤ s.hbmEnd) :
    HbmWrites (within a (8 * l.length)) s (s.paWrites a l) := (paWrites_spec h8 he).1

theorem holds_paWrites {a : Nat} {l : List Dword} (h8 : a % 8 = 0) (he : a + 8 * l.length ≤ s.hbmEnd) :
    Holds (s.paWrites a l) a l := (paWrites_spec h8 he).2

end Sys2Proof.Machine
end

section
/-! # What stands while partitions are closed and saved

The grid of cores and the cores' registers, the mail of the packages, and the cores of other partitions. A MarginScreen
of freed cores (R313) changes nothing of these: it notes which cores have been screened and lists those that fail. -/
namespace Sys2Proof.Machine

variable {s u v : State}

/-! ### The grid -/

theorem Assoc.get_of_above {α : Type} {d : α} {a : Nat} {l : List (Nat × α)} (h : l.all (fun p => a < p.1) = true) :
    Assoc.get d l a = d := by
  induction l with
  | nil => rfl
  | cons p r ih =>
    simp only [List.all_cons, Bool.and_eq_true, decide_eq_true_eq] at h
    rw [Assoc.get, if_neg (Nat.ne_of_gt h.1), ih h.2]

theorem findCore_cons_congr {row col t : Nat} {x y : Tile} {l : List (Nat × Tile)} (h : x.router = y.router) :
    findCore row col ((t, x) :: l) = findCore row col ((t, y) :: l) := by
  have he : x.enabled = y.enabled := congrArg (fun r : Dword => bits r 0 2 == 1) h
  have hb : x.bound = y.bound := congrArg (bits · 20 10) h
  simp only [findCore, he, hb]

/-- A tile that goes on with its router leaves the cores of the grid where they are. -/
theorem findCore_put {row col t : Nat} {x : Tile} {l : List (Nat × Tile)} (hl : Assoc.rising l = true)
    (hx : x.router = (Assoc.get {} l t).router) : findCore row col (Assoc.put t x l) = findCore row col l := by
  have unlisted (r : List (Nat × Tile)) (h0 : x.router = ({} : Tile).router) :
      findCore row col ((t, x) :: r) = findCore row col r := by
    refine if_neg fun h => ?_
    have he : x.enabled = false := by
      unfold Tile.enabled Tile.tstate
      rw [h0]
      decide
    exact Bool.false_ne_true (he.symm.trans h.2.1)
  induction l with
  | nil => exact unlisted [] hx
  | cons p r ih =>
    obtain ⟨k, w⟩ := p
    simp only [Assoc.rising, Bool.and_eq_true] at hl
    simp only [Assoc.put]
    split
    next e =>
      subst e
      rw [Assoc.get, if_pos rfl] at hx
      exact findCore_cons_congr hx
    next hne =>
      split
      next hlt =>
        refine unlisted _ (hx.trans ?_)
        rw [Assoc.get, if_neg (Ne.symm hne), Assoc.get_of_above]
        refine List.all_eq_true.2 fun p hp => ?_
        have := List.all_eq_true.1 hl.1 p hp
        simp only [decide_eq_true_eq] at this ⊢
        omega
      next =>
        rw [Assoc.get, if_neg (Ne.symm hne)] at hx
        simp only [findCore, ih hl.2 hx]

theorem findCore_map {row col : Nat} {f : Nat × Tile → Nat × Tile} (hf : ∀ p, (f p).1 = p.1)
    (hr : ∀ p, (f p).2.router = p.2.router) (l : List (Nat × Tile)) : findCore row col (l.map f) = findCore row col l := by
  induction l with
  | nil => rfl
  | cons p r ih =>
    rw [List.map_cons, show f p = (p.1, (f p).2) from Prod.ext (hf p) rfl, findCore_cons_congr (hr p)]
    simp only [findCore, ih]

/-! ### The frame -/

/-- The tiles agree but for the note that a MarginScreen is owed. -/
def Tile.agrees (x y : Tile) : Prop := { x with unscreened := false } = { y with unscreened := false }

theorem Tile.agrees.core {x y : Tile} (h : x.agrees y) : x.core = y.core := (congrArg Tile.core h :)
theorem Tile.agrees.threads {x y : Tile} (h : x.agrees y) : x.threads = y.threads := (congrArg Tile.threads h :)
theorem Tile.agrees.matrix {x y : Tile} (h : x.agrees y) : x.matrix = y.matrix := (congrArg Tile.matrix h :)
theorem Tile.agrees.inbox {x y : Tile} (h : x.agrees y) : x.inbox = y.inbox := (congrArg Tile.inbox h :)
theorem Tile.agrees.ladle {x y : Tile} (h : x.agrees y) : x.ladle = y.ladle := (congrArg Tile.ladle h :)
theorem Tile.agrees.router {x y : Tile} (h : x.agrees y) : x.router = y.router := (congrArg Tile.router h :)

/-- From s to u the mail of the packages, the grid and the cores' registers stand, and of tiles outside T everything but
the note that a MarginScreen is owed. -/
structure Frame (T : Nat → Prop) (s u : State) : Prop where
  wf : u.wf
  code : u.code = s.code
  mail : ∀ p, (u.pack p).mail = (s.pack p).mail
  grid : ∀ gy gx, u.core gy gx = s.core gy gx
  regs : ∀ t, (u.tile t).core = (s.tile t).core
  tiles : ∀ t, ¬T t → (u.tile t).agrees (s.tile t)

namespace Frame

variable {T T' : Nat → Prop}

/-- A step that changes no tile and no package. -/
theorem of_same (h : u.wf) (hc : u.code = s.code) (hp : u.packs = s.packs) (ht : u.tiles = s.tiles) : Frame T s u where
  wf := h
  code := hc
  mail p := congrArg (fun l => (Assoc.get {} l p : Package).mail) hp
  grid gy gx := congrArg (findCore gy gx) ht
  regs t := congrArg (fun l => (Assoc.get {} l t : Tile).core) ht
  tiles t _ := congrArg (fun l => ({ (Assoc.get {} l t : Tile) with unscreened := false } : Tile)) ht

theorem refl (h : s.wf) : Frame T s s := of_same h rfl rfl rfl

theorem trans (h : Frame T s u) (h' : Frame T u v) : Frame T s v where
  wf := h'.wf
  code := h'.code.trans h.code
  mail p := (h'.mail p).trans (h.mail p)
  grid gy gx := (h'.grid gy gx).trans (h.grid gy gx)
  regs t := (h'.regs t).trans (h.regs t)
  tiles t ht := (h'.tiles t ht).trans (h.tiles t ht)

theorem mono (h : Frame T s u) (ht : ∀ t, T t → T' t) : Frame T' s u :=
  ⟨h.wf, h.code, h.mail, h.grid, h.regs, fun t hn => h.tiles t fun ht' => hn (ht t ht')⟩

theorem foldl {α : Type} {f : State → α → State} {l : List α} (hs : s.wf)
    (hf : ∀ w a, a ∈ l → Frame T s w → Frame T w (f w a)) : Frame T s (l.foldl f s) := by
  suffices ∀ w, Frame T s w → Frame T s (l.foldl f w) from this s (refl hs)
  induction l with
  | nil => exact fun w h => h
  | cons a l ih =>
    intro w h
    exact ih (fun w b hb => hf w b (List.mem_cons_of_mem a hb)) _ (h.trans (hf w a (List.mem_cons_self ..) h))

theorem modTile {t : Nat} {f : Tile → Tile} (h : s.wf) (ht : T t) (hr : (f (s.tile t)).router = (s.tile t).router)
    (hc : (f (s.tile t)).core = (s.tile t).core) : Frame T s (s.modTile t f) where
  wf := h.modTile
  code := rfl
  mail _ := rfl
  grid gy gx := findCore_put h.2 hr
  regs k := by
    by_cases e : k = t
    · subst e; rw [State.tile_modTile, hc]
    · rw [State.tile_modTile_other _ _ e]
  tiles k hk := by
    have hne : k ≠ t := fun e => hk (e ▸ ht)
    rw [State.tile_modTile_other _ _ hne]
    rfl

theorem partCores (h : Frame T s u) (q : Part) : u.partCores q = s.partCores q := by
  unfold State.partCores
  simp only [h.grid, h.regs]

theorem tilesOf (h : Frame T s u) (q : Part) : u.tilesOf q = s.tilesOf q := congrArg (List.map _) (h.partCores q)

theorem packages (h : Frame T s u) : u.packages = s.packages := by
  unfold State.packages
  rw [h.code]

end Frame

/-! ### MarginScreen of freed cores -/

/-- What a MarginScreen leaves as it was. -/
structure Screened (s u : State) : Prop where
  frame : Frame (fun _ => False) s u
  rest : { u with tiles := s.tiles, packs := s.packs } = s

namespace Screened

theorem refl (h : s.wf) : Screened s s := ⟨.refl h, rfl⟩

theorem trans (h : Screened s u) (h' : Screened u v) : Screened s v := by
  refine ⟨h.frame.trans h'.frame, ?_⟩
  have e : { v with tiles := s.tiles, packs := s.packs }
      = { ({ v with tiles := u.tiles, packs := u.packs } : State) with tiles := s.tiles, packs := s.packs } := rfl
  rw [e, h'.rest, h.rest]

theorem tile (h : Screened s u) (t : Nat) : (u.tile t).agrees (s.tile t) := h.frame.tiles t id
theorem mem (h : Screened s u) : u.mem = s.mem := (congrArg State.mem h.rest :)
theorem marks (h : Screened s u) : u.marks = s.marks := (congrArg State.marks h.rest :)
theorem parts (h : Screened s u) : u.parts = s.parts := (congrArg State.parts h.rest :)
theorem saves (h : Screened s u) : u.saves = s.saves := (congrArg State.saves h.rest :)
theorem hbm (h : Screened s u) {W : Nat → Prop} : HbmWrites W s u :=
  .of_mem h.frame.code (congrArg State.gen h.rest :) (congrArg State.tick h.rest :) h.mem

theorem foldl {α : Type} {f : State → α → State} {l : List α} (hs : s.wf) (hf : ∀ w a, w.wf → Screened w (f w a)) :
    Screened s (l.foldl f s) := by
  induction l generalizing s with
  | nil => exact refl hs
  | cons a l ih => exact (hf s a hs).trans (ih (hf s a hs).frame.wf)

theorem modPack {p : Nat} {f : Package → Package} (h : s.wf) (hf : (f (s.pack p)).mail = (s.pack p).mail) :
    Screened s (s.modPack p f) where
  frame := {
    wf := h
    code := rfl
    mail k := by
      by_cases e : k = p
      · subst e; rw [State.pack_modPack, hf]
      · exact congrArg Package.mail (Assoc.get_put_other _ _ _ e)
    grid _ _ := rfl
    regs _ := rfl
    tiles _ _ := rfl }
  rest := rfl

theorem retireCore (h : s.wf) (t : Nat) : Screened s (s.retireCore t) := by
  unfold State.retireCore State.deconf
  dsimp only
  split
  · exact refl h
  · split
    · exact modPack (f := fun k => { k with deconf := k.deconf ++ [deconfEntry 1 0 t] }) h rfl
    · exact modPack (f := fun k => { k with retired := k.retired ++ [t] }) h rfl

theorem screened (h : s.wf) (i : Nat) (fails : List (Nat × Nat)) : Screened s (s.screened i fails) := by
  unfold State.screened
  extract_lets due w
  have hw : Screened s w := .foldl h fun w f hw => retireCore hw f.1
  clear_value w
  let f (p : Nat × Tile) : Nat × Tile := if due p.1 then (p.1, { p.2 with unscreened := false }) else p
  have hf (p : Nat × Tile) : (f p).1 = p.1 := by unfold f; split <;> rfl
  have hx (p : Nat × Tile) : (f p).2.agrees p.2 := by unfold f; split <;> rfl
  have hd (t : Nat) : (f (t, {})).2 = {} := by unfold f; split <;> rfl
  have ht (t : Nat) : State.tile { w with tiles := w.tiles.map f } t = (f (t, w.tile t)).2 := State.tile_mapTiles hf (hd t)
  refine hw.trans ⟨⟨hw.frame.wf.mapTiles hf, rfl, fun _ => rfl, fun gy gx => ?_, fun t => ?_, fun t _ => ?_⟩, rfl⟩
  · exact findCore_map hf (fun p => (hx p).router) _
  · exact (congrArg Tile.core (ht t)).trans (hx _).core
  · exact (congrArg (fun x : Tile => x.agrees (w.tile t)) (ht t)).mpr (hx _)

theorem screenFreed (h : s.wf) (ts : List Nat) : Screened s (s.screenFreed ts) := by
  unfold State.screenFreed
  refine foldl h fun w t hw => ?_
  split
  · exact screened hw ..
  · exact refl hw

end Screened

/-! ### The answer to a request about a partition -/

theorem pack_sendMsix (s : State) (pkg vec p : Nat) : (s.sendMsix pkg vec).pack p = s.pack p := by
  unfold State.sendMsix
  split <;> rfl

theorem sendMsix_parts (s : State) (pkg vec : Nat) : (s.sendMsix pkg vec).parts = s.parts := by
  unfold State.sendMsix
  split <;> rfl

theorem pack_respond (s : State) (pkg result : Nat) (data : Dword) : ((s.respond pkg result data).pack pkg).mail =
    { (s.pack pkg).mail with
      data0 := data, done := true, seq := bits (s.pack pkg).mail.req 48 8, result := result, serving := none } := by
  rw [State.respond, pack_sendMsix, State.modMail, State.pack_modPack]

theorem pack_respond_other (s : State) {pkg p : Nat} (result : Nat) (data : Dword) (h : p ≠ pkg) :
    (s.respond pkg result data).pack p = s.pack p := by
  rw [State.respond, pack_sendMsix]
  exact Assoc.get_put_other _ _ _ h

/-- What an answer leaves as it was: everything but the packages, MSI-X messages and pending bits. -/
structure Replied (s u : State) : Prop where
  code : u.code = s.code
  gen : u.gen = s.gen
  tick : u.tick = s.tick
  tiles : u.tiles = s.tiles
  parts : u.parts = s.parts
  saves : u.saves = s.saves
  byte : ∀ k, k < 2 ^ 62 → u.byte k = s.byte k
  marks : ∀ k, s.marked k = false → u.marked k = false

namespace Replied

theorem refl (s : State) : Replied s s := ⟨rfl, rfl, rfl, rfl, rfl, rfl, fun _ _ => rfl, fun _ h => h⟩

theorem trans (h : Replied s u) (h' : Replied u v) : Replied s v :=
  ⟨h'.code.trans h.code, h'.gen.trans h.gen, h'.tick.trans h.tick, h'.tiles.trans h.tiles, h'.parts.trans h.parts,
    h'.saves.trans h.saves, fun k hk => (h'.byte k hk).trans (h.byte k hk), fun k hk => h'.marks k (h.marks k hk)⟩

theorem hbm (h : Replied s u) {W : Nat → Prop} : HbmWrites W s u :=
  ⟨h.code, h.gen, h.tick, fun k hk => h.byte k (by omega), fun a _ _ => h.byte _ (paKey_window s a)⟩

theorem tile (h : Replied s u) (t : Nat) : u.tile t = s.tile t := congrArg (fun l => (Assoc.get {} l t : Tile)) h.tiles

end Replied

theorem memNat_iff {a : Nat} {l : List Nat} : memNat a l = true ↔ a ∈ l := by
  induction l with
  | nil => simp [memNat]
  | cons b l ih => simp [memNat, ih]

theorem marked_clear {k n j : Nat} (h : s.marked j = false) (hm : u.marks = clearMarks s.marks k n) : u.marked j = false := by
  unfold State.marked at h ⊢
  rw [Bool.eq_false_iff, Ne, memNat_iff] at h ⊢
  rw [hm]
  exact fun hj => h (List.mem_filter.1 hj).1

theorem sendMsix_replied (s : State) (pkg vec : Nat) : Replied s (s.sendMsix pkg vec) := by
  unfold State.sendMsix
  split
  · refine ⟨rfl, rfl, rfl, rfl, rfl, rfl, fun k hk => byte_writeN_other (.inl ?_), fun k hk => marked_clear hk rfl⟩
    unfold pendingKey windowKey
    omega
  · exact ⟨rfl, rfl, rfl, rfl, rfl, rfl, fun _ _ => rfl, fun _ h => h⟩

theorem modPack_replied (s : State) (p : Nat) (f : Package → Package) : Replied s (s.modPack p f) :=
  ⟨rfl, rfl, rfl, rfl, rfl, rfl, fun _ _ => rfl, fun _ h => h⟩

theorem respond_replied (s : State) (pkg result : Nat) (data : Dword) : Replied s (s.respond pkg result data) := by
  have h := sendMsix_replied (s.modMail pkg fun m =>
    { m with data0 := data, done := true, seq := bits m.req 48 8, result := result, serving := none }) pkg 0
  exact (modPack_replied s pkg _).trans h

theorem served_replied (s : State) (pid result : Nat) : Replied s (s.served pid result) := by
  unfold State.served
  generalize upTo s.packages = l
  induction l generalizing s with
  | nil => exact .refl s
  | cons p l ih =>
    refine Replied.trans ?_ (ih _)
    dsimp only
    split
    · exact respond_replied ..
    · exact .refl s

/-- The packages whose requests about the partition are in service, and no others, are answered. -/
theorem served_mail (s : State) (pid result : Nat) {p : Nat} (hp : p < s.packages)
    (hs : (s.pack p).mail.serving = some pid) :
    Answered (s.served pid result) p (bits (s.pack p).mail.req 48 8) result 0 := by
  let f (w : State) (k : Nat) : State := if (w.pack k).mail.serving = some pid then w.respond k result 0 else w
  have other (w : State) {k : Nat} (h : p ≠ k) : (f w k).pack p = w.pack p := by
    unfold f
    split
    · exact pack_respond_other _ _ _ h
    · rfl
  have others (l : List Nat) (h : p ∉ l) (w : State) : (l.foldl f w).pack p = w.pack p := by
    induction l generalizing w with
    | nil => rfl
    | cons k l ih =>
      rw [List.mem_cons, not_or] at h
      exact (ih h.2 _).trans (other w h.1)
  obtain ⟨a, b, hab⟩ := List.append_of_mem (List.mem_range.2 hp)
  have hn : (a ++ p :: b).Nodup := hab ▸ List.nodup_range
  have ha : p ∉ a := fun h => List.disjoint_of_nodup_append hn h (List.mem_cons_self ..)
  have hb : p ∉ b := (List.nodup_cons.1 (List.nodup_append.1 hn).2.1).1
  have hmid : (a.foldl f s).pack p = s.pack p := others a ha s
  have e : (s.served pid result).pack p = (f (a.foldl f s) p).pack p := by
    show ((List.range s.packages).foldl f s).pack p = _
    rw [hab, List.foldl_append, List.foldl_cons, others b hb]
  have hm : ((s.served pid result).pack p).mail = _ := (congrArg Package.mail e).trans
    ((congrArg (fun w : State => (w.pack p).mail) (if_pos (hmid ▸ hs))).trans (pack_respond ..))
  unfold Answered
  rw [hm, hmid]
  exact ⟨rfl, (Nat.mod_eq_of_lt (bits_lt ..)).symm, rfl, rfl⟩

end Sys2Proof.Machine
end

section
/-! # The drain of a close (R66, R222) -/
namespace Sys2Proof.Machine

variable {s u v w : State}

/-! ### Families of partitions -/

theorem mem_familyGo {ps : List Part} {a n : Nat} {l : List Nat} (h : a ∈ l) : a ∈ familyGo ps n l := by
  induction n generalizing l with
  | zero => exact h
  | succ n ih => exact ih (List.mem_append_left _ h)

theorem mem_family {p : Part} (hp : p ∈ s.parts) : p ∈ s.family p.pid :=
  List.mem_filter.2 ⟨hp, memNat_iff.2 (mem_familyGo (List.mem_singleton_self _))⟩

theorem mem_parts_of_family {p : Part} {pid : Nat} (h : p ∈ s.family pid) : p ∈ s.parts := (List.mem_filter.1 h).1

/-! ### Steps at the tiles of a list -/

theorem tile_foldl_modTile {ts : List Nat} (hn : ts.Nodup) (f : Tile → Tile) (s : State) (t : Nat) :
    (ts.foldl (fun s t => s.modTile t f) s).tile t = if t ∈ ts then f (s.tile t) else s.tile t := by
  induction ts generalizing s with
  | nil => rfl
  | cons a ts ih =>
    obtain ⟨ha, hn⟩ := List.nodup_cons.1 hn
    rw [List.foldl_cons, ih hn]
    by_cases e : t = a
    · subst e
      rw [if_neg ha, if_pos (List.mem_cons_self ..), State.tile_modTile]
    · simp only [State.tile_modTile_other _ _ e, List.mem_cons, e, false_or]

/-- What a step at one tile gives it, and no step of the list takes away, the list gives to each of its tiles. -/
theorem foldl_gives {α : Type} {P : State → Prop} {f : State → α → State} {a : α} (hgive : ∀ w, P (f w a))
    (hkeep : ∀ w b, P w → P (f w b)) {l : List α} (ha : a ∈ l) (s : State) : P (l.foldl f s) := by
  obtain ⟨b, c, rfl⟩ := List.append_of_mem ha
  rw [List.foldl_append, List.foldl_cons]
  generalize hw : f (b.foldl f s) a = w
  have hP : P w := hw ▸ hgive _
  clear hw ha
  induction c generalizing w with
  | nil => exact hP
  | cons d c ih => exact ih _ (hkeep w d hP)

theorem seal_sameButTiles (s : State) (ts : List Nat) : sameButTiles s (s.seal ts) := by
  unfold sameButTiles State.seal
  induction ts generalizing s with
  | nil => rfl
  | cons t ts ih =>
    exact (congrArg (fun w : State => { w with tiles := s.tiles }) (ih _)).trans rfl

theorem tile_seal_mem (s : State) (ts : List Nat) (t : Nat) :
    (s.seal ts).tile t = if t ∈ ts then { s.tile t with sealed := true } else s.tile t := by
  rw [State.tile_seal]
  by_cases h : t ∈ ts
  · rw [if_pos h, memNat_iff.2 h, Bool.or_true]
  · rw [if_neg h, Bool.eq_false_iff.2 (mt memNat_iff.1 h), Bool.or_false]

/-! ### The steps of the drain -/

/-- The drained partitions' cores cleared, their RCBs closed, and the partitions gone. -/
def State.cleared (s : State) (fam : List Part) (ts : List Nat) : State :=
  let pids := fam.map (·.pid)
  let u := fam.foldl (fun s p => s.rcbSet p.rcb 4) (ts.foldl (·.closeCore) s)
  { u with
    rounds := u.rounds.filter fun r => !memNat r.pid pids
    saves := u.saves.filter fun p => !memNat p.1 pids
    parts := u.parts.filter fun p => !memNat p.pid pids }

/-- The cores of a cleared partition handed back, and their translations dropped. -/
def State.released (s : State) (q : Part) (ts : List Nat) : State :=
  (s.family q.pid).foldl (fun u p => u.dropAsid p.asid) ((s.cleared (s.family q.pid) ts).handBack q ts)

/-- What the last step of a close comes to. -/
def State.closedDown (s : State) (q : Part) (ts : List Nat) : State :=
  ((s.released q ts).screenFreed ts).served q.pid 0

section
variable {q : Part} (hq : s.parts.find? (·.pid == q.pid) = some q) (hst : q.state = 3)
  (htop : (s.parts.any fun p => q.parent != 0 && p.rcb == q.parent && p.state == 3) = false)
include hq hst htop

theorem closeDrain_seals {ts : List Nat} (hts : ts = (s.family q.pid).flatMap s.tilesOf)
    (he : (ts.all fun t => (upTo 8).all (s.tile t).isEmpty) = true) (hs : (ts.any fun t => !(s.tile t).sealed) = true) :
    exec (.closeDrainComplete q.pid) s = .next (s.seal ts) := by
  subst hts
  show execCloseDrainComplete q.pid s = _
  have h6 : (((s.family q.pid).flatMap s.tilesOf).any fun t => (upTo 6).any fun i => !(s.tile t).isEmpty i) = false := by
    simp only [List.any_eq_false, List.all_eq_true, Bool.not_eq_true, upTo, List.mem_range, Bool.not_eq_false'] at he ⊢
    exact fun t ht i hi => he t ht i (Nat.lt_trans hi (by decide))
  unfold execCloseDrainComplete
  simp only [hq]
  rw [if_neg (by simp [hst, htop]), if_neg (by simp [h6]), if_neg (by simp [he]), if_pos hs]

section
variable {ts : List Nat} (hts : ts = (s.family q.pid).flatMap s.tilesOf)
  (hidle : (ts.all fun t => (s.tile t).drained && (upTo 8).all (s.tile t).isEmpty
    && enginesIdle s t && (s.tile t).sealed) = true)
  (hnet : netDrained s ts = true) (hin : noneInward s ts = true)
include hts hidle hnet hin

/-- With everything of the partition drained its waiting commands are discarded, and then it is gone. -/
theorem closeDrain_drained : exec (.closeDrainComplete q.pid) s = .next
    (if (ts.any fun t => (s.tile t).queued) = true then ts.foldl (·.discardAll) s else s.closedDown q ts) := by
  subst hts
  show execCloseDrainComplete q.pid s = _
  simp only [List.all_eq_true, Bool.and_eq_true] at hidle
  have h6 : (((s.family q.pid).flatMap s.tilesOf).any fun t => (upTo 6).any fun i => !(s.tile t).isEmpty i) = false := by
    simp only [List.any_eq_false, Bool.not_eq_true, upTo, List.mem_range, Bool.not_eq_false'] at hidle ⊢
    exact fun t ht i hi => (hidle t ht).1.1.2 i (Nat.lt_trans hi (by decide))
  have h8 : (((s.family q.pid).flatMap s.tilesOf).all fun t => (upTo 8).all (s.tile t).isEmpty) = true := by
    simp only [List.all_eq_true]
    exact fun t ht => (hidle t ht).1.1.2
  have hs : (((s.family q.pid).flatMap s.tilesOf).any fun t => !(s.tile t).sealed) = false := by
    simp only [List.any_eq_false, Bool.not_eq_true, Bool.not_eq_false']
    exact fun t ht => (hidle t ht).2
  have hquiet : (((s.family q.pid).flatMap s.tilesOf).all fun t => (s.tile t).drained && enginesIdle s t) = true := by
    simp only [List.all_eq_true, Bool.and_eq_true]
    exact fun t ht => ⟨(hidle t ht).1.1.1, (hidle t ht).1.2⟩
  unfold execCloseDrainComplete
  simp only [hq]
  rw [if_neg (by simp [hst, htop]), if_neg (by simp [h6]), if_neg (by simp [h8]), if_neg (by simp [hs]),
    if_neg (by simp [hquiet, hnet, hin])]
  split <;> rfl

end
end

/-! ### Waiting commands discarded -/

theorem discardAll_parts (s : State) (ts : List Nat) : (ts.foldl (·.discardAll) s).parts = s.parts :=
  foldl_keeps State.parts (f := fun s t => s.discardAll t) (fun _ _ => rfl) ts s

theorem tile_discardAll {ts : List Nat} (hn : ts.Nodup) {t : Nat} (ht : t ∈ ts) :
    (ts.foldl (·.discardAll) s).tile t = (s.tile t).discarded :=
  (tile_foldl_modTile hn (·.discarded) s t).trans (if_pos ht)

theorem discarded_chans {x : Tile} {n : Fin 4} (h : x.chans[n].started = []) :
    x.discarded.chans[n].fifo = []
      ∧ x.discarded.chans[n].started = x.chans[n].fifo.map fun m => ({ cmd := m, bad := some (8, 6) } : CopyRun) := by
  have e : x.discarded.chans[n] = x.chans[n].discarded := by
    simp only [Tile.discarded, mapV, Fin.getElem_fin, Vector.getElem_ofFn]
  rw [e]
  exact ⟨rfl, (congrArg (· ++ _) h).trans (List.nil_append _)⟩

theorem discarded_ladle {x : Tile} {c : LadleCmd} (hc : c ∈ x.discarded.ladle.queue) :
    c.started = true ∧ c.bad.isSome = true := by
  obtain ⟨d, -, rfl⟩ := List.mem_map.1 hc
  refine ⟨rfl, ?_⟩
  show (d.bad.or (some 9)).isSome = true
  cases d.bad <;> rfl

theorem started_of_enginesIdle {t : Nat} (h : enginesIdle s t = true) (n : Fin 4) : (s.tile t).chans[n].started = [] := by
  simp only [enginesIdle, Bool.and_eq_true, List.all_eq_true, List.isEmpty_iff] at h
  exact h.1 _ (Vector.mem_toList_iff.2 (Vector.getElem_mem n.isLt))

/-! ### Cleared cores -/

/-- A tile whose queues and accumulators are as a close leaves them. -/
def Tile.emptied (x : Tile) : Prop :=
  x.chans = Vector.replicate 4 {} ∧ x.matrix.queue = [] ∧ x.matrix.accs = Vector.replicate 8 {} ∧ x.ladle.queue = []

/-- The scratchpad of a tile reads as zero, without marks. -/
def State.blank (s : State) (t : Nat) : Prop :=
  ∀ off, off < 0x80000 → s.byte (tileKey t off) = 0 ∧ s.marked (tileKey t off) = false

theorem tileKey_near {t off : Nat} (h : s.inFrame t = true) (ho : off < 0x80000) : tileKey t off < 2 ^ 44 - 0x80000 := by
  have hs : s.side ≤ 1024 := by unfold State.side; split <;> decide
  simp only [State.inFrame, Bool.and_eq_true] at h
  have hy : t / 1024 < s.side := of_decide_eq_true h.1
  unfold tileKey
  omega

theorem Assoc.get_filter {α : Type} {d : α} {f : Nat × α → Bool} {g : Nat → Bool} (hf : ∀ p, f p = g p.1) (a : Nat)
    (l : List (Nat × α)) : Assoc.get d (l.filter f) a = if g a = true then Assoc.get d l a else d := by
  induction l with
  | nil => simp [Assoc.get]
  | cons p l ih =>
    rw [List.filter_cons, hf, Assoc.get]
    by_cases h : p.1 = a
    · subst h
      by_cases hg : g p.1 = true
      · rw [if_pos hg, Assoc.get, if_pos rfl, if_pos rfl, if_pos hg]
      · rw [if_neg hg, ih, if_neg hg, if_neg hg]
    · by_cases hg : g p.1 = true
      · rw [if_pos hg, Assoc.get, if_neg h, if_neg h, ih]
      · rw [if_neg hg, if_neg h, ih]

theorem clearSpad_byte (s : State) (t k : Nat) :
    (s.clearSpad t).byte k = if tileKey t 0 ≤ k ∧ k < tileKey t 0 + 0x80000 then 0 else s.byte k := by
  refine (Assoc.get_filter (g := fun k => !(decide (tileKey t 0 ≤ k) && decide (k < tileKey t 0 + 0x80000)))
    (fun _ => rfl) k s.mem).trans ?_
  by_cases h : tileKey t 0 ≤ k ∧ k < tileKey t 0 + 0x80000
  · rw [if_pos h, if_neg (by simp [h.1, h.2])]; rfl
  · rw [if_neg h, if_pos (by simp; omega)]; rfl

theorem clearSpad_blank (s : State) (t : Nat) : (s.clearSpad t).blank t := by
  intro off ho
  have hin : tileKey t 0 ≤ tileKey t off ∧ tileKey t off < tileKey t 0 + 0x80000 := by unfold tileKey; omega
  refine ⟨(clearSpad_byte ..).trans (if_pos hin), ?_⟩
  unfold State.marked
  rw [Bool.eq_false_iff, Ne, memNat_iff]
  intro hm
  have := (List.mem_filter.1 hm).2
  simp only [Bool.not_eq_true', Bool.and_eq_false_iff] at this
  have h8 : tileKey t 0 % 8 = 0 := by unfold tileKey; omega
  have ho : tileKey t off = tileKey t 0 + off := by unfold tileKey; omega
  rcases this with h | h
  · have := of_decide_eq_false h
    omega
  · have := of_decide_eq_false h
    omega

/-- Nothing is written to the tiles' memories but zeros, and no word marked. -/
structure Quieter (s u : State) : Prop where
  byte : ∀ k, k < 2 ^ 44 → s.byte k = 0 → u.byte k = 0
  marks : ∀ k, s.marked k = false → u.marked k = false

namespace Quieter

theorem refl (s : State) : Quieter s s := ⟨fun _ _ h => h, fun _ h => h⟩
theorem trans (h : Quieter s u) (h' : Quieter u v) : Quieter s v :=
  ⟨fun k hk h0 => h'.byte k hk (h.byte k hk h0), fun k h0 => h'.marks k (h.marks k h0)⟩
theorem of_same (hm : u.mem = s.mem) (hk : u.marks = s.marks) : Quieter s u :=
  ⟨fun k _ h => (congrArg (Memory.get · k) hm).trans h, fun k h => (congrArg (memNat (k / 8)) hk).trans h⟩

theorem foldl {α : Type} {f : State → α → State} (hf : ∀ w a, Quieter w (f w a)) (l : List α) (s : State) :
    Quieter s (l.foldl f s) := by
  induction l generalizing s with
  | nil => exact refl s
  | cons a l ih => exact (hf s a).trans (ih _)

theorem closeCore (s : State) (t : Nat) : Quieter s (s.closeCore t) where
  byte k _ h := by
    refine (clearSpad_byte s t k).trans ?_
    split
    · rfl
    · exact h
  marks _ h := marked_clear (u := s.clearSpad t) h rfl

theorem rcbSet (s : State) (rcb st : Nat) : Quieter s (s.rcbSet rcb st) where
  byte _ hk h := (byte_writeN_other (.inl (Nat.lt_of_lt_of_le hk (paKey_far s rcb)))).trans h
  marks _ h := marked_clear h rfl

theorem blank {t : Nat} (h : Quieter s u) (hf : v.inFrame t = true) (hb : s.blank t) : u.blank t := fun off ho =>
  have hk := tileKey_near hf ho
  ⟨h.byte _ (by omega) (hb off ho).1, h.marks _ (hb off ho).2⟩

end Quieter

/-! ### What a cleared partition leaves -/

/-- The core's registers, channels, ladle and matrix engine of a tile. -/
def Tile.engines (x : Tile) : CoreRegs × Vector Channel 4 × Ladle × Matrix := (x.core, x.chans, x.ladle, x.matrix)

theorem Tile.emptied_of_engines {x y : Tile} (h : x.engines = y.engines) (he : y.emptied) : x.emptied := by
  obtain ⟨-, hc, hl, hm⟩ := Prod.ext_iff.1 h |>.imp id fun h => Prod.ext_iff.1 h |>.imp id fun h => Prod.ext_iff.1 h
  obtain ⟨h1, h2, h3, h4⟩ := he
  exact ⟨hc.trans h1, (congrArg Matrix.queue hm).trans h2, (congrArg Matrix.accs hm).trans h3,
    (congrArg Ladle.queue hl).trans h4⟩

/-- Every tile keeps its engines. -/
def SameEngines (s u : State) : Prop := ∀ t, (u.tile t).engines = (s.tile t).engines

namespace SameEngines

theorem of_tiles (h : u.tiles = s.tiles) : SameEngines s u := fun t =>
  congrArg (fun l => (Assoc.get {} l t : Tile).engines) h

theorem trans (h : SameEngines s u) (h' : SameEngines u v) : SameEngines s v := fun t => (h' t).trans (h t)

theorem foldl {α : Type} {f : State → α → State} (hf : ∀ w a, SameEngines w (f w a)) (l : List α) (s : State) :
    SameEngines s (l.foldl f s) := by
  induction l generalizing s with
  | nil => exact of_tiles rfl
  | cons a l ih => exact (hf s a).trans (ih _)

theorem of_screened (h : Screened s u) : SameEngines s u := fun t => (congrArg Tile.engines (h.tile t) :)

theorem modTile {t : Nat} {f : Tile → Tile} (hf : ∀ x, (f x).engines = x.engines) : SameEngines s (s.modTile t f) := by
  intro k
  by_cases e : k = t
  · subst e; rw [State.tile_modTile, hf]
  · rw [State.tile_modTile_other _ _ e]

theorem mapTiles {f : Nat × Tile → Nat × Tile} (hf : ∀ p, (f p).1 = p.1) (h : ∀ p, (f p).2.engines = p.2.engines) :
    SameEngines s { s with tiles := s.tiles.map f } := by
  intro t
  show (Assoc.get {} (s.tiles.map f) t : Tile).engines = (Assoc.get {} s.tiles t : Tile).engines
  induction s.tiles with
  | nil => rfl
  | cons p l ih =>
    rw [List.map_cons, show f p = (p.1, (f p).2) from Prod.ext (hf p) rfl, Assoc.get, Assoc.get]
    split
    · exact h p
    · exact ih

end SameEngines

/-- What no step at the tiles changes: the ordering code, memory and its marks, packages and partitions. -/
def State.outside (s : State) : OrderingCode × List Host.Cell × List Nat × List (Nat × Package) × List Part :=
  (s.code, s.mem, s.marks, s.packs, s.parts)

section
variable (h : u.outside = s.outside)
include h
theorem outside_code : u.code = s.code := (Prod.ext_iff.1 h).1
theorem outside_mem : u.mem = s.mem := (Prod.ext_iff.1 (Prod.ext_iff.1 h).2).1
theorem outside_marks : u.marks = s.marks := (Prod.ext_iff.1 (Prod.ext_iff.1 (Prod.ext_iff.1 h).2).2).1
theorem outside_packs : u.packs = s.packs := (Prod.ext_iff.1 (Prod.ext_iff.1 (Prod.ext_iff.1 (Prod.ext_iff.1 h).2).2).2).1
theorem outside_parts : u.parts = s.parts := (Prod.ext_iff.1 (Prod.ext_iff.1 (Prod.ext_iff.1 (Prod.ext_iff.1 h).2).2).2).2
end

theorem endWalk_outside (s : State) (w : Walk) : (s.endWalk w).outside = s.outside := by
  unfold State.endWalk
  dsimp only
  split <;> rfl

theorem endWalk_engines (s : State) (w : Walk) : SameEngines s (s.endWalk w) := by
  have hw (k : State) : SameEngines k (k.modTile w.tile (·.wakeTranslation (· == w.page))) := .modTile fun _ => rfl
  unfold State.endWalk
  dsimp only
  refine .trans ?_ (hw _)
  split
  · refine .trans (u := { s with walks := s.walks.filter (·.id ≠ w.id) }) (.of_tiles rfl) (.mapTiles ?_ ?_)
    · intro p; split <;> rfl
    · intro p; split <;> rfl
  · exact .of_tiles rfl

theorem dropAsid_outside (s : State) (asid : Nat) : (s.dropAsid asid).outside = s.outside :=
  foldl_keeps State.outside (f := (·.endWalk)) endWalk_outside _ s

theorem forgetFaults_engines (x : Tile) (asid : Nat) (p : Nat → Bool) : (x.forgetFaults asid p).engines = x.engines := by
  unfold Tile.forgetFaults
  split <;> rfl

theorem dropAsid_engines (s : State) (asid : Nat) : SameEngines s (s.dropAsid asid) := by
  unfold State.dropAsid
  extract_lets gone u
  have hu : SameEngines s u := SameEngines.foldl endWalk_engines _ s
  clear_value u
  refine hu.trans (.trans (u := { u with tiles := u.tiles.map fun p =>
    (p.1, { p.2.forgetFaults asid fun _ => true with tlb := p.2.tlb.filter (·.asid != asid) }) }) ?_ (.of_tiles rfl))
  exact .mapTiles (fun _ => rfl) fun p => forgetFaults_engines p.2 asid _

/-! ### Handing back -/

/-- The registers of a core given up, by the partition that then holds it. -/
def Part.handed (o : Option Part) (c : CoreRegs) : CoreRegs :=
  match o with
  | some p => p.registers p.holds c
  | none => c.freed

theorem registers_registers (p : Part) (b : Bool) (c : CoreRegs) : p.registers b (p.registers b c) = p.registers b c := by
  unfold Part.registers
  rfl
theorem registers_gy (p : Part) (b : Bool) (c : CoreRegs) : (p.registers b c).gy = c.gy := by
  unfold Part.registers
  rfl
theorem registers_gx (p : Part) (b : Bool) (c : CoreRegs) : (p.registers b c).gx = c.gx := by
  unfold Part.registers
  rfl

theorem handed_handed (o : Option Part) (c : CoreRegs) : Part.handed o (Part.handed o c) = Part.handed o c := by
  cases o with
  | none => rfl
  | some p => exact registers_registers p p.holds c
theorem handed_gy (o : Option Part) (c : CoreRegs) : (Part.handed o c).gy = c.gy := by
  cases o with
  | none => rfl
  | some p => exact registers_gy p p.holds c
theorem handed_gx (o : Option Part) (c : CoreRegs) : (Part.handed o c).gx = c.gx := by
  cases o with
  | none => rfl
  | some p => exact registers_gx p p.holds c

/-- One core of a rectangle given up. -/
def State.handCore (s : State) (q : Part) (t : Nat) : State :=
  s.modTile t fun x => { x with core := Part.handed (s.ownerAt q t) x.core, partTick := s.tick }

theorem handBack_eq (s : State) (q : Part) (ts : List Nat) : s.handBack q ts = ts.foldl (·.handCore q) s := by
  unfold State.handBack State.handCore Part.handed
  rfl

theorem handBack_outside (s : State) (q : Part) (ts : List Nat) : (s.handBack q ts).outside = s.outside := by
  rw [handBack_eq]
  exact foldl_keeps State.outside (f := (·.handCore q)) (fun _ _ => rfl) ts s

theorem ownerAt_handCore (s : State) (q : Part) (a t : Nat) : (s.handCore q a).ownerAt q t = s.ownerAt q t := by
  have h : ((s.handCore q a).tile t).core.gy = (s.tile t).core.gy ∧ ((s.handCore q a).tile t).core.gx = (s.tile t).core.gx := by
    by_cases e : t = a
    · subst e
      rw [State.handCore, State.tile_modTile]
      exact ⟨handed_gy .., handed_gx ..⟩
    · rw [State.handCore, State.tile_modTile_other _ _ e]
      exact ⟨rfl, rfl⟩
  unfold State.ownerAt
  rw [h.1, h.2]
  rfl

theorem handBack_core (s : State) (q : Part) (ts : List Nat) (t : Nat) : ((s.handBack q ts).tile t).core =
    if t ∈ ts then Part.handed (s.ownerAt q t) (s.tile t).core else (s.tile t).core := by
  rw [handBack_eq]
  induction ts generalizing s with
  | nil => rfl
  | cons a ts ih =>
    rw [List.foldl_cons, ih, ownerAt_handCore]
    by_cases e : t = a
    · subst e
      rw [State.handCore, State.tile_modTile, if_pos (List.mem_cons_self ..)]
      split
      · exact handed_handed ..
      · rfl
    · rw [State.handCore, State.tile_modTile_other _ _ e]
      simp only [List.mem_cons, e, false_or]

theorem handBack_emptied {q : Part} {ts : List Nat} {t : Nat} (h : (s.tile t).emptied) :
    ((s.handBack q ts).tile t).emptied := by
  rw [handBack_eq]
  induction ts generalizing s with
  | nil => exact h
  | cons a ts ih =>
    refine ih ?_
    unfold State.handCore
    by_cases e : t = a
    · subst e
      rw [State.tile_modTile]
      exact h
    · rw [State.tile_modTile_other _ _ e]
      exact h

/-! ### Cores cleared -/

theorem closeCore_parts (s : State) (ts : List Nat) : (ts.foldl (·.closeCore) s).parts = s.parts :=
  foldl_keeps State.parts (f := (·.closeCore)) (fun _ _ => rfl) ts s
theorem closeCore_packs (s : State) (ts : List Nat) : (ts.foldl (·.closeCore) s).packs = s.packs :=
  foldl_keeps State.packs (f := (·.closeCore)) (fun _ _ => rfl) ts s
theorem closeCore_code (s : State) (ts : List Nat) : (ts.foldl (·.closeCore) s).code = s.code :=
  foldl_keeps State.code (f := (·.closeCore)) (fun _ _ => rfl) ts s

theorem tile_closeCore_core (s : State) (a t : Nat) : ((s.closeCore a).tile t).core = (s.tile t).core := by
  unfold State.closeCore
  by_cases e : t = a
  · subst e; rw [State.tile_modTile]; rfl
  · rw [State.tile_modTile_other _ _ e]; rfl

theorem closeCore_core (s : State) (ts : List Nat) (t : Nat) : ((ts.foldl (·.closeCore) s).tile t).core = (s.tile t).core :=
  foldl_keeps (fun w => (w.tile t).core) (f := (·.closeCore)) (fun w a => tile_closeCore_core w a t) ts s

theorem closeCore_emptied {t : Nat} (s : State) : ((s.closeCore t).tile t).emptied := by
  unfold State.closeCore
  rw [State.tile_modTile]
  exact ⟨rfl, rfl, rfl, rfl⟩

theorem closeCore_foldl_emptied {ts : List Nat} {t : Nat} (ht : t ∈ ts) (s : State) :
    ((ts.foldl (·.closeCore) s).tile t).emptied := by
  refine foldl_gives (P := fun w => (w.tile t).emptied) (f := (·.closeCore)) closeCore_emptied (fun w b h => ?_) ht s
  by_cases e : t = b
  · subst e; exact closeCore_emptied w
  · unfold State.closeCore
    rw [State.tile_modTile_other _ _ e]
    exact h

theorem closeCore_foldl_blank {ts : List Nat} {t : Nat} (ht : t ∈ ts) (hf : s.inFrame t = true) :
    (ts.foldl (·.closeCore) s).blank t :=
  foldl_gives (P := (·.blank t)) (f := (·.closeCore)) (fun w => clearSpad_blank w t)
    (fun w b h => (Quieter.closeCore w b).blank hf h) ht s

/-! ### The partition that then holds a core (R62) -/

/-- A partition of the list over which no other of the list lies. -/
def Part.deepestIn (p : Part) (l : List Part) : Prop := p ∈ l ∧ ∀ c ∈ l, c.parent ≠ 0 → c.parent ≠ p.rcb

theorem find_deepest {l : List Part} {p : Part} (hp : p.deepestIn l) (hu : ∀ c : Part, c.deepestIn l → c = p) :
    (l.find? fun p => !l.any fun c => c.parent != 0 && c.parent == p.rcb) = some p := by
  have hiff (c : Part) : (!l.any fun d => d.parent != 0 && d.parent == c.rcb) = true ↔
      ∀ d ∈ l, d.parent ≠ 0 → d.parent ≠ c.rcb := by
    simp
  cases h : l.find? fun p => !l.any fun c => c.parent != 0 && c.parent == p.rcb with
  | none => exact absurd ((hiff p).2 hp.2) (List.find?_eq_none.1 h p hp.1)
  | some c =>
    have hc := List.find?_some h
    exact congrArg some (hu c ⟨List.mem_of_find?_eq_some h, (hiff c).1 hc⟩)

/-- A partition of the list, the one given up left out, whose rectangle holds the core. -/
def State.holder (s : State) (q : Part) (t : Nat) (p : Part) : Prop :=
  p ∈ s.parts ∧ p.pid ≠ q.pid ∧ p.orgY ≤ (s.tile t).core.gy ∧ (s.tile t).core.gy < p.orgY + p.height
    ∧ p.orgX ≤ (s.tile t).core.gx ∧ (s.tile t).core.gx < p.orgX + p.width

theorem ownerAt_deepest {q p : Part} {t : Nat} (hp : s.holder q t p) (h2 : p.state ≠ 2)
    (ht : ∀ c, s.holder q t c → c.state ≠ 2 → c.parent ≠ 0 → c.parent ≠ p.rcb)
    (hu : ∀ p', s.holder q t p' → p'.state ≠ 2 →
      (∀ c, s.holder q t c → c.state ≠ 2 → c.parent ≠ 0 → c.parent ≠ p'.rcb) → p' = p) :
    s.ownerAt q t = some p := by
  unfold State.ownerAt
  extract_lets y x holds deepest
  have hmem (c : Part) : c ∈ (s.parts.filter fun p => p.state != 2 && holds p) ↔ s.holder q t c ∧ c.state ≠ 2 := by
    simp only [List.mem_filter, holds, Bool.and_eq_true, bne_iff_ne, decide_eq_true_eq, State.holder]
    tauto
  have hd : deepest (s.parts.filter fun p => p.state != 2 && holds p) = some p := by
    refine find_deepest ⟨(hmem p).2 ⟨hp, h2⟩, fun c hc => ?_⟩ fun c hc => ?_
    · exact ht c ((hmem c).1 hc).1 ((hmem c).1 hc).2
    · have hc1 := (hmem c).1 hc.1
      exact hu c hc1.1 hc1.2 fun d hd1 hd2 => hc.2 d ((hmem d).2 ⟨hd1, hd2⟩)
  rw [hd]
  rfl

theorem ownerAt_none {q : Part} {t : Nat} (h : ∀ p, ¬s.holder q t p) : s.ownerAt q t = none := by
  unfold State.ownerAt
  extract_lets y x holds deepest
  have hno (p : Part) (hp : p ∈ s.parts) : holds p = false := by
    refine Bool.eq_false_iff.2 fun hh => h p ?_
    simp only [holds, Bool.and_eq_true, bne_iff_ne, decide_eq_true_eq] at hh
    exact ⟨hp, by tauto⟩
  have h1 : (s.parts.filter fun p => p.state != 2 && holds p) = [] :=
    List.filter_eq_nil_iff.2 fun p hp => by simp [hno p hp]
  have h2 : (s.parts.filter fun p => p.state == 2 && holds p && q.parent != 0
      && (s.family p.pid).any (·.rcb == q.parent)) = [] :=
    List.filter_eq_nil_iff.2 fun p hp => by simp [hno p hp]
  rw [h1, h2]
  rfl

/-! ### The partition gone -/

section
variable (s : State) (q : Part) (fam : List Part) (ts : List Nat)

theorem cleared_tiles : (s.cleared fam ts).tiles = (ts.foldl (·.closeCore) s).tiles :=
  foldl_keeps State.tiles (f := fun s (p : Part) => s.rcbSet p.rcb 4) (fun _ _ => rfl) fam _
theorem cleared_packs : (s.cleared fam ts).packs = s.packs :=
  (foldl_keeps State.packs (f := fun s (p : Part) => s.rcbSet p.rcb 4) (fun _ _ => rfl) fam _).trans (closeCore_packs s ts)
theorem cleared_code : (s.cleared fam ts).code = s.code :=
  (foldl_keeps State.code (f := fun s (p : Part) => s.rcbSet p.rcb 4) (fun _ _ => rfl) fam _).trans (closeCore_code s ts)
theorem cleared_parts : (s.cleared fam ts).parts = s.parts.filter fun p => !memNat p.pid (fam.map (·.pid)) := by
  have h := foldl_keeps State.parts (f := fun s (p : Part) => s.rcbSet p.rcb 4) (fun _ _ => rfl) fam (ts.foldl (·.closeCore) s)
  exact congrArg (List.filter _) (h.trans (closeCore_parts s ts))
theorem cleared_quieter : Quieter (ts.foldl (·.closeCore) s) (s.cleared fam ts) :=
  (Quieter.foldl (f := fun s (p : Part) => s.rcbSet p.rcb 4) (fun _ _ => .rcbSet ..) fam _).trans (.of_same rfl rfl)

theorem cleared_core (t : Nat) : ((s.cleared fam ts).tile t).core = (s.tile t).core :=
  (congrArg (fun l => (Assoc.get {} l t : Tile).core) (cleared_tiles s fam ts)).trans (closeCore_core s ts t)
theorem cleared_emptied {t : Nat} (ht : t ∈ ts) : ((s.cleared fam ts).tile t).emptied := by
  have h : (s.cleared fam ts).tile t = (ts.foldl (·.closeCore) s).tile t :=
    congrArg (fun l => (Assoc.get {} l t : Tile)) (cleared_tiles s fam ts)
  rw [h]
  exact closeCore_foldl_emptied ht s

theorem released_outside : (s.released q ts).outside = (s.cleared (s.family q.pid) ts).outside :=
  (foldl_keeps State.outside (f := fun u (p : Part) => u.dropAsid p.asid) (fun u p => dropAsid_outside u p.asid) _ _).trans
    (handBack_outside ..)
theorem released_engines : SameEngines ((s.cleared (s.family q.pid) ts).handBack q ts) (s.released q ts) :=
  .foldl (f := fun u (p : Part) => u.dropAsid p.asid) (fun u p => dropAsid_engines u p.asid) _ _

end

theorem released_wf {q : Part} {ts : List Nat} (h : s.wf) : (s.released q ts).wf := by
  have h1 : (s.cleared (s.family q.pid) ts).wf := (h.foldl (l := ts) fun _ _ h => h.closeCore).foldl fun _ _ h => h.rcbSet
  exact (State.wf.handBack h1).foldl fun _ p h => h.dropAsid (asid := p.asid)

section
variable {q : Part} {ts : List Nat} (h : s.wf)
include h

theorem closedDown_parts : (s.closedDown q ts).parts = s.parts.filter fun p => !memNat p.pid ((s.family q.pid).map (·.pid)) :=
  calc (s.closedDown q ts).parts
    _ = ((s.released q ts).screenFreed ts).parts := (served_replied ..).parts
    _ = (s.released q ts).parts := (Screened.screenFreed (released_wf h) ts).parts
    _ = (s.cleared (s.family q.pid) ts).parts := outside_parts (released_outside ..)
    _ = _ := cleared_parts ..

theorem closedDown_engines (t : Nat) : ((s.closedDown q ts).tile t).engines = ((s.released q ts).tile t).engines :=
  (congrArg Tile.engines ((served_replied ..).tile t)).trans
    (SameEngines.of_screened (Screened.screenFreed (released_wf h) ts) t)

theorem closedDown_emptied {t : Nat} (ht : t ∈ ts) : ((s.closedDown q ts).tile t).emptied :=
  Tile.emptied_of_engines ((closedDown_engines h t).trans (released_engines s q ts t))
    (handBack_emptied (cleared_emptied s _ ts ht))

theorem closedDown_core {t : Nat} (ht : t ∈ ts) : ((s.closedDown q ts).tile t).core =
    Part.handed ((s.cleared (s.family q.pid) ts).ownerAt q t) (s.tile t).core := by
  have e := (Prod.ext_iff.1 ((closedDown_engines (q := q) (ts := ts) h t).trans (released_engines s q ts t))).1
  refine Eq.trans (b := (((s.cleared (s.family q.pid) ts).handBack q ts).tile t).core) e ?_
  rw [handBack_core, if_pos ht, cleared_core]

theorem closedDown_blank {t : Nat} (ht : t ∈ ts) (hf : s.inFrame t = true) : (s.closedDown q ts).blank t := by
  have hs := Screened.screenFreed (released_wf (q := q) (ts := ts) h) ts
  have hr := served_replied ((s.released q ts).screenFreed ts) q.pid 0
  have ho := released_outside s q ts
  have q1 : Quieter (s.cleared (s.family q.pid) ts) (s.released q ts) := .of_same (outside_mem ho) (outside_marks ho)
  have q2 : Quieter (s.released q ts) ((s.released q ts).screenFreed ts) := .of_same hs.mem hs.marks
  have q3 : Quieter ((s.released q ts).screenFreed ts) (s.closedDown q ts) :=
    ⟨fun k hk h0 => (hr.byte k (by omega)).trans h0, hr.marks⟩
  exact ((cleared_quieter s _ ts).trans (q1.trans (q2.trans q3))).blank hf (closeCore_foldl_blank ht hf)

theorem closedDown_answered {p : Nat} (hp : p < s.packages) (hs : (s.pack p).mail.serving = some q.pid) :
    Answered (s.closedDown q ts) p (bits (s.pack p).mail.req 48 8) 0 0 := by
  have hsc := Screened.screenFreed (released_wf (q := q) (ts := ts) h) ts
  have ho := released_outside s q ts
  have hpack : (s.released q ts).pack p = s.pack p :=
    congrArg (fun l => (Assoc.get {} l p : Package)) ((outside_packs ho).trans (cleared_packs ..))
  have hmail : (((s.released q ts).screenFreed ts).pack p).mail = (s.pack p).mail :=
    (hsc.frame.mail p).trans (congrArg Package.mail hpack)
  have hcode : ((s.released q ts).screenFreed ts).code = s.code :=
    hsc.frame.code.trans ((outside_code ho).trans (cleared_code ..))
  have hpk : ((s.released q ts).screenFreed ts).packages = s.packages := by
    unfold State.packages
    rw [hcode]
  have := served_mail ((s.released q ts).screenFreed ts) q.pid 0 (hpk ▸ hp) (hmail ▸ hs)
  rwa [hmail] at this

end

end Sys2Proof.Machine
end

section
/-! # The bound on quiescing (R279) and the quiet samples (R68, R69) -/
namespace Sys2Proof.Machine

variable {s u v w : State}

/-! ### Partitions closed by a bound that has passed -/

theorem holdPart_keeps {β : Type} (proj : State → β) (h : ∀ u t f, proj (State.modTile u t f) = proj u) (s : State) (q : Part) :
    proj (s.holdPart q) = proj s := by
  unfold State.holdPart
  exact foldl_keeps proj (fun u t => h u t _) _ _

theorem endThreads_keeps {β : Type} (proj : State → β) (h : ∀ u t f, proj (State.modTile u t f) = proj u)
    (s : State) (t : Nat) : proj (s.endThreads t) = proj s := by
  unfold State.endThreads
  refine foldl_keeps proj (fun u i => ?_) _ _
  split
  · rfl
  · exact h u t _

/-- The core's inbox is discarded and its threads end. -/
def State.stopTile (s : State) (t : Nat) : State := (s.modTile t fun x => { x with inbox := [], halted := true }).endThreads t
/-- HOLD set and the threads of the cores stopped. -/
def State.stopped (s : State) (q : Part) : State := (s.tilesOf q).foldl (·.stopTile) (s.holdPart q)
/-- Steps 1 to 3 of a close at one partition of the family. -/
def State.closing (s : State) (q : Part) : State :=
  ((s.stopped q).rcbSet q.rcb 3).modPart q.pid fun q => { q with state := 3, stopping := none }

theorem startClose_eq (s : State) (pid : Nat) : s.startClose pid = (s.family pid).foldl (·.closing) s := rfl

theorem stopped_keeps {β : Type} (proj : State → β) (h : ∀ u t f, proj (State.modTile u t f) = proj u) (s : State) (q : Part) :
    proj (s.stopped q) = proj s :=
  (foldl_keeps proj (f := (·.stopTile)) (fun u t => (endThreads_keeps proj h _ t).trans (h u t _)) _ _).trans
    (holdPart_keeps proj h s q)

theorem closing_parts (s : State) (q : Part) :
    (s.closing q).parts = s.parts.map fun p => if p.pid = q.pid then { p with state := 3, stopping := none } else p := by
  show (s.stopped q).parts.map _ = _
  rw [stopped_keeps State.parts (fun _ _ _ => rfl) s q]
theorem closing_packs (s : State) (q : Part) : (s.closing q).packs = s.packs :=
  stopped_keeps State.packs (fun _ _ _ => rfl) s q
theorem closing_code (s : State) (q : Part) : (s.closing q).code = s.code :=
  stopped_keeps State.code (fun _ _ _ => rfl) s q

/-- Every partition of a number closes. -/
def State.closes (s : State) (pid : Nat) : Prop := ∀ p ∈ s.parts, p.pid = pid → p.state = 3

theorem closing_closes (s : State) (q : Part) : (s.closing q).closes q.pid := by
  intro p hp hpid
  rw [closing_parts] at hp
  obtain ⟨p0, -, rfl⟩ := List.mem_map.1 hp
  split at hpid <;> rename_i h
  · rw [if_pos h]
  · exact absurd hpid h

theorem closing_keeps_closes {pid : Nat} (s : State) (q : Part) (h : s.closes pid) : (s.closing q).closes pid := by
  intro p hp hpid
  rw [closing_parts] at hp
  obtain ⟨p0, h0, rfl⟩ := List.mem_map.1 hp
  split at hpid <;> rename_i h1
  · rw [if_pos h1]
  · rw [if_neg h1]
    exact h p0 h0 hpid

theorem foldl_closing_closes {pid : Nat} (l : List Part) (h : s.closes pid) : (l.foldl (·.closing) s).closes pid := by
  induction l generalizing s with
  | nil => exact h
  | cons q l ih => exact ih (closing_keeps_closes s q h)

theorem startClose_closes (s : State) (pid : Nat) : (s.startClose pid).closes pid := by
  rw [startClose_eq]
  by_cases h : ∃ p ∈ s.parts, p.pid = pid
  · obtain ⟨p, hp, rfl⟩ := h
    exact foldl_gives (P := (·.closes p.pid)) (f := (·.closing)) (fun w => closing_closes w p)
      (fun w q h => closing_keeps_closes w q h) (mem_family hp) s
  · exact foldl_closing_closes _ fun p hp e => absurd ⟨p, hp, e⟩ h

theorem startClose_packs (s : State) (pid : Nat) : (s.startClose pid).packs = s.packs :=
  foldl_keeps State.packs (f := (·.closing)) closing_packs _ s
theorem startClose_code (s : State) (pid : Nat) : (s.startClose pid).code = s.code :=
  foldl_keeps State.code (f := (·.closing)) closing_code _ s

section
variable (s : State) (pkg kind pid job core slot : Nat) (cause epc val : Dword)

theorem notice_eq : ∃ bs, s.notice pkg kind pid job core slot cause epc val =
    ((s.writeB (windowKey pkg (0x1000 + 64 * ((s.pack pkg).mail.nhead % 64))) bs).modMail pkg fun m =>
      { m with nhead := m.nhead + 1 }).sendMsix pkg 1 := ⟨_, rfl⟩

theorem notice_code : (s.notice pkg kind pid job core slot cause epc val).code = s.code := by
  obtain ⟨bs, h⟩ := notice_eq s pkg kind pid job core slot cause epc val
  rw [h, (sendMsix_replied _ _ _).code]
  rfl
theorem notice_parts : (s.notice pkg kind pid job core slot cause epc val).parts = s.parts := by
  obtain ⟨bs, h⟩ := notice_eq s pkg kind pid job core slot cause epc val
  rw [h, sendMsix_parts]
  rfl

/-- A notice takes nothing from the request in service. -/
theorem notice_mail (p : Nat) :
    ((s.notice pkg kind pid job core slot cause epc val).pack p).mail.serving = (s.pack p).mail.serving
    ∧ ((s.notice pkg kind pid job core slot cause epc val).pack p).mail.req = (s.pack p).mail.req := by
  obtain ⟨bs, h⟩ := notice_eq s pkg kind pid job core slot cause epc val
  rw [h, pack_sendMsix]
  generalize hw : s.writeB _ bs = w
  have hp : w.pack p = s.pack p := by rw [← hw]; rfl
  rw [← hp, State.modMail]
  by_cases e : p = pkg
  · subst e
    rw [State.pack_modPack]
    exact ⟨rfl, rfl⟩
  · have h : (w.modPack pkg fun k => { k with mail := { k.mail with nhead := k.mail.nhead + 1 } }).pack p = w.pack p :=
      Assoc.get_put_other _ _ _ e
    rw [h]
    exact ⟨rfl, rfl⟩

end

/-- One partition of the domain, closed with its notice. -/
def State.closedBy (s : State) (q : Part) : State :=
  (s.startClose q.pid).notice (pkgOf (s.rootTile q)) 3 q.pid q.jobid (s.tile (s.rootTile q)).lidx 0 0 0 0

theorem closedBy_keeps_closes {pid : Nat} (s : State) (q : Part) (h : s.closes pid) : (s.closedBy q).closes pid := by
  have := foldl_closing_closes (s.family q.pid) h
  rw [← startClose_eq] at this
  unfold State.closes State.closedBy
  rw [notice_parts]
  exact this

theorem closedBy_closes (s : State) (q : Part) : (s.closedBy q).closes q.pid := by
  unfold State.closes State.closedBy
  rw [notice_parts]
  exact startClose_closes s q.pid

theorem closedBy_code (s : State) (q : Part) : (s.closedBy q).code = s.code :=
  (notice_code ..).trans (startClose_code ..)

theorem closedBy_mail (s : State) (q : Part) (p : Nat) : ((s.closedBy q).pack p).mail.serving = (s.pack p).mail.serving
    ∧ ((s.closedBy q).pack p).mail.req = (s.pack p).mail.req := by
  have e : (s.startClose q.pid).pack p = s.pack p := congrArg (fun l => (Assoc.get {} l p : Package)) (startClose_packs ..)
  have h := notice_mail (s.startClose q.pid) (pkgOf (s.rootTile q)) 3 q.pid q.jobid (s.tile (s.rootTile q)).lidx 0 0 0 0 p
  rw [e] at h
  rw [State.closedBy]
  exact h

theorem closeDomain_eq (s : State) (job fdom : Nat) : s.closeDomain job fdom 0 0 0 =
    (s.parts.filter fun q => q.jobid == job && q.fdom == fdom && q.state == 1).foldl (·.closedBy) s := by
  unfold State.closeDomain State.closedBy
  rfl

theorem closeDomain_closes {p : Part} (hp : p ∈ s.parts) (h1 : p.state = 1) :
    (s.closeDomain p.jobid p.fdom 0 0 0).closes p.pid := by
  rw [closeDomain_eq]
  refine foldl_gives (P := (·.closes p.pid)) (f := (·.closedBy)) (fun w => closedBy_closes w p)
    (fun w q h => closedBy_keeps_closes w q h) (List.mem_filter.2 ⟨hp, ?_⟩) s
  simp [h1]

theorem closeDomain_code (s : State) (job fdom : Nat) : (s.closeDomain job fdom 0 0 0).code = s.code :=
  foldl_keeps State.code (f := (·.closedBy)) closedBy_code _ s
theorem closeDomain_serving (s : State) (job fdom p : Nat) :
    ((s.closeDomain job fdom 0 0 0).pack p).mail.serving = (s.pack p).mail.serving :=
  foldl_keeps (fun w => (w.pack p).mail.serving) (f := (·.closedBy)) (fun w q => (closedBy_mail w q p).1) _ s
theorem closeDomain_req (s : State) (job fdom p : Nat) :
    ((s.closeDomain job fdom 0 0 0).pack p).mail.req = (s.pack p).mail.req :=
  foldl_keeps (fun w => (w.pack p).mail.req) (f := (·.closedBy)) (fun w q => (closedBy_mail w q p).2) _ s

theorem packages_of_code (h : u.code = s.code) : u.packages = s.packages := by
  unfold State.packages
  rw [h]

theorem closeDomain_answered (s : State) (job fdom : Nat) {pid p : Nat} (hp : p < s.packages)
    (hs : (s.pack p).mail.serving = some pid) :
    Answered ((s.closeDomain job fdom 0 0 0).served pid 7) p (bits (s.pack p).mail.req 48 8) 7 0 := by
  have h := served_mail (s.closeDomain job fdom 0 0 0) pid 7 (p := p)
    (packages_of_code (closeDomain_code s job fdom) ▸ hp) ((closeDomain_serving ..).trans hs)
  rwa [closeDomain_req] at h

theorem exec_quiesceBoundExceeded {pid since : Nat} {q : Part} (hq : s.parts.find? (·.pid == pid) = some q)
    (hst : q.stopping = some since) (ht : since + 62500 < s.tick) :
    exec (.quiesceBoundExceeded pid) s = .next ((s.closeDomain q.jobid q.fdom 0 0 0).served pid 7) := by
  show execQuiesceBoundExceeded pid s = _
  unfold execQuiesceBoundExceeded
  simp only [hq, hst]
  exact if_neg (by omega)

/-! ### Quiet samples -/

/-- A sample noted with its partition. -/
def State.sampled (s : State) (pid run : Nat) (declared : Bool) : State :=
  s.modPart pid fun p => { p with quietRun := run, declared := declared }

section
variable {pid : Nat} {q : Part} (hq : s.parts.find? (·.pid == pid) = some q) (ho : q.opened < s.tick)
  (hs : (s.tick - q.opened) % 1024 = 0) (hst : q.state = 1)
include hq ho hs hst

theorem quietSample_busy (hb : s.tick < q.busy + 1024) : exec (.quietSample pid) s = .next (s.sampled pid 0 false) := by
  show execQuietSample pid s = _
  unfold execQuietSample
  simp only [hq]
  rw [if_neg (by omega), if_pos hb]
  rfl

theorem quietSample_quiet (hu : ∀ p ∈ s.parts, p.pid = pid → p = q) (hb : q.busy + 1024 ≤ s.tick) {due : Bool}
    (hd : ((s.stallOf q).getLsbD 63 && !q.declared
      && decide ((bits (s.stallOf q) 0 32 + 1023) / 1024 ≤ q.quietRun + 1)) = due) :
    exec (.quietSample pid) s =
      .next (if due then (s.sampled pid (q.quietRun + 1) true).declareStall q (bits (s.stallOf q) 0 32)
        else s.sampled pid (q.quietRun + 1) q.declared) := by
  show execQuietSample pid s = _
  unfold execQuietSample
  have hm : (s.modPart pid fun p => { p with quietRun := q.quietRun + 1, declared := p.declared || due })
      = s.sampled pid (q.quietRun + 1) (q.declared || due) := by
    refine congrArg (fun l => { s with parts := l }) (List.map_congr_left fun p hp => ?_)
    by_cases e : p.pid = pid
    · rw [if_pos e, if_pos e, hu p hp e]
    · rw [if_neg e, if_neg e]
  simp only [hq, bitAt, hd]
  rw [if_neg (by omega), if_neg (Nat.not_lt.2 hb), hm]
  cases due with
  | false => simp only [Bool.or_false, Bool.false_eq_true, if_false]
  | true => simp only [Bool.or_true, if_true]

end

/-! ### The report of a stall (R69) -/

/-- The waits of the partition's cores, as the report words them. -/
def State.stallEntries (s : State) (q : Part) : List (List Dword) :=
  (s.partCores q).flatMap fun c => (coreWaits s c.2.2).map fun w => w.words c.1 c.2.1

/-- The header and the entries of the report. -/
def State.reportWords (s : State) (q : Part) (timeout : Nat) : List Dword :=
  [nd s.tsc, nd (field 48 16 q.pid + field 0 32 q.jobid),
    nd (field 32 32 (s.stallEntries q).length + min 64 (s.stallEntries q).length), nd timeout, 0, 0, 0, 0]
    ++ ((s.stallEntries q).take (min 64 (s.stallEntries q).length)).flatten

theorem report_eq (s : State) (q : Part) (timeout : Nat) :
    s.report q timeout = s.paWrites q.report (s.reportWords q timeout) := rfl

theorem stallEntries_length {q : Part} {l : List Dword} (h : l ∈ s.stallEntries q) : l.length = 8 := by
  obtain ⟨c, -, hl⟩ := List.mem_flatMap.1 h
  obtain ⟨w, -, rfl⟩ := List.mem_map.1 hl
  rfl

theorem flatten_length_of_length {m : Nat} {ll : List (List Dword)} (h : ∀ l ∈ ll, l.length = m) :
    ll.flatten.length = m * ll.length := by
  rw [List.length_flatten, List.map_congr_left h, List.map_const', List.sum_replicate, smul_eq_mul, Nat.mul_comm]

theorem flatten_getElem?_of_length {m : Nat} {ll : List (List Dword)} (h : ∀ l ∈ ll, l.length = m) (k : Nat) {j : Nat}
    (hj : j < m) : ll.flatten[m * k + j]? = ll[k]?.bind (·[j]?) := by
  induction ll generalizing k with
  | nil => simp
  | cons l ll ih =>
    have hl : l.length = m := h l (List.mem_cons_self ..)
    rw [List.flatten_cons]
    cases k with
    | zero => rw [List.getElem?_append_left (by omega)]; simp
    | succ k =>
      have e : m * (k + 1) + j - l.length = m * k + j := by rw [Nat.mul_succ]; omega
      rw [List.getElem?_append_right (by rw [Nat.mul_succ]; omega), e, ih (fun l hl => h l (List.mem_cons_of_mem _ hl))]
      simp

theorem reportWords_length (s : State) (q : Part) (timeout : Nat) :
    (s.reportWords q timeout).length = 8 + 8 * min 64 (s.stallEntries q).length := by
  unfold State.reportWords
  rw [List.length_append, flatten_length_of_length fun l hl => stallEntries_length (List.mem_of_mem_take hl), List.length_take]
  simp

theorem reportWords_entry {q : Part} {timeout k j : Nat} (hk : k < min 64 (s.stallEntries q).length) (hj : j < 8) :
    (s.reportWords q timeout)[8 + 8 * k + j]? = some (((s.stallEntries q).getD k []).getD j 0) := by
  have hk2 : k < (s.stallEntries q).length := Nat.lt_of_lt_of_le hk (Nat.min_le_right ..)
  have h8 : ((s.stallEntries q)[k]).length = 8 := stallEntries_length (List.getElem_mem hk2)
  unfold State.reportWords
  rw [List.getElem?_append_right (by simp; omega)]
  have e : 8 + 8 * k + j - ([nd s.tsc, nd (field 48 16 q.pid + field 0 32 q.jobid),
    nd (field 32 32 (s.stallEntries q).length + min 64 (s.stallEntries q).length), nd timeout, 0, 0, 0, 0] : List Dword).length
      = 8 * k + j := by
    show 8 + 8 * k + j - 8 = _
    omega
  rw [e, flatten_getElem?_of_length (fun l hl => stallEntries_length (List.mem_of_mem_take hl)) k hj,
    List.getElem?_take_of_lt hk, List.getElem?_eq_getElem hk2, List.getD_eq_getElem _ _ hk2,
    List.getD_eq_getElem _ _ (h8 ▸ hj)]
  exact List.getElem?_eq_getElem (h8 ▸ hj)

/-- Eight words from an address, zero where the list ends. -/
def WordsAt (u : State) (a : Nat) (l : List Dword) : Prop := ∀ k : Fin 8, u.paRead (a + 8 * k.val) = l.getD k.val 0

section
variable {q : Part} {timeout : Nat} (h64 : q.report % 64 = 0) (he : q.report + 0x1040 ≤ s.hbmEnd)
include h64 he

theorem report_writes : HbmWrites (within q.report (64 + 64 * min 64 (s.stallEntries q).length)) s (s.report q timeout)
    ∧ Holds (s.report q timeout) q.report (s.reportWords q timeout) := by
  have hl := reportWords_length s q timeout
  have h := paWrites_spec (s := s) (a := q.report) (l := s.reportWords q timeout) (by omega) (by omega)
  rw [report_eq]
  refine ⟨h.1.mono fun x hx => ⟨hx.1, ?_⟩, h.2⟩
  have := hx.2
  omega

theorem report_header : WordsAt (s.report q timeout) q.report [nd s.tsc, nd (field 48 16 q.pid + field 0 32 q.jobid),
    nd (field 32 32 (s.stallEntries q).length + min 64 (s.stallEntries q).length), nd timeout] := by
  have h := (report_writes (timeout := timeout) h64 he).2
  intro k
  refine h k.val _ ?_
  unfold State.reportWords
  rw [List.getElem?_append_left k.isLt]
  match k with
  | 0 | 1 | 2 | 3 | 4 | 5 | 6 | 7 => rfl

theorem report_entry {k : Nat} (hk : k < min 64 (s.stallEntries q).length) :
    WordsAt (s.report q timeout) (q.report + 64 + 64 * k) ((s.stallEntries q).getD k []) := by
  have h := (report_writes (timeout := timeout) h64 he).2
  intro j
  have e : q.report + 64 + 64 * k + 8 * j.val = q.report + 8 * (8 + 8 * k + j.val) := by omega
  rw [e]
  exact h _ _ (reportWords_entry hk j.isLt)

theorem report_elsewhere {a : Nat} (ha : a < q.report ∨ q.report + 64 + 64 * min 64 (s.stallEntries q).length ≤ a)
    (hh : a < s.hbmEnd) : (s.report q timeout).byte (s.paKey a) = s.byte (s.paKey a) :=
  (report_writes (timeout := timeout) h64 he).1.far a hh fun hw => by
    have := hw.1
    have := hw.2
    omega

end

/-! ### A stall declared -/

section
variable (s : State) (q : Part) (timeout : Nat)

theorem paWrites_tiles (s : State) (a : Nat) (l : List Dword) : (s.paWrites a l).tiles = s.tiles := by
  induction l generalizing s a with
  | nil => rfl
  | cons w l ih => exact ih _ _
theorem paWrites_parts (s : State) (a : Nat) (l : List Dword) : (s.paWrites a l).parts = s.parts := by
  induction l generalizing s a with
  | nil => rfl
  | cons w l ih => exact ih _ _

/-- The state with its report, where one is asked for. -/
def State.reported : State := if q.report = 0 then s else s.report q timeout

theorem declareStall_eq : s.declareStall q timeout =
    ((s.reported q timeout).modPart q.pid fun q => { q with owesNotice := true }).event (s.rootTile q) 2 := rfl

theorem reported_parts : (s.reported q timeout).parts = s.parts := by
  unfold State.reported
  split
  · rfl
  · exact paWrites_parts ..
theorem reported_tiles : (s.reported q timeout).tiles = s.tiles := by
  unfold State.reported
  split
  · rfl
  · exact paWrites_tiles ..

theorem declareStall_mem : (s.declareStall q timeout).mem = (s.reported q timeout).mem := rfl
theorem declareStall_parts : (s.declareStall q timeout).parts =
    s.parts.map fun p => if p.pid = q.pid then { p with owesNotice := true } else p := by
  show (s.reported q timeout).parts.map _ = _
  rw [reported_parts]
theorem declareStall_root : (s.declareStall q timeout).tile (s.rootTile q) =
    { s.tile (s.rootTile q) with evpend := (s.tile (s.rootTile q)).evpend ||| 2 } := by
  have e : (s.reported q timeout).tile (s.rootTile q) = s.tile (s.rootTile q) :=
    congrArg (fun l => (Assoc.get {} l (s.rootTile q) : Tile)) (reported_tiles ..)
  rw [declareStall_eq, State.event, State.tile_modTile]
  exact congrArg (fun x : Tile => { x with evpend := x.evpend ||| 2 }) e

end

end Sys2Proof.Machine
end

section
/-! # One core's block of the save area (R280) -/
namespace Sys2Proof.Machine

variable {s u v w : State}

/-! ### Runs of areas -/

theorem hbm_modTile {W : Nat → Prop} {t : Nat} {f : Tile → Tile} : HbmWrites W s (s.modTile t f) := .of_mem rfl rfl rfl rfl

theorem HbmWrites.widen {a b m n : Nat} (h : HbmWrites (within b m) s u) (h1 : a ≤ b) (h2 : b + m ≤ a + n) :
    HbmWrites (within a n) s u :=
  h.mono fun _ hx => ⟨Nat.le_trans h1 hx.1, Nat.lt_of_lt_of_le hx.2 h2⟩

/-- Addresses of two ranges that lie apart. -/
theorem within_apart {a b m n x : Nat} (h : a + n ≤ b ∨ b + m ≤ a) (hx : within a n x) : ¬within b m x := fun hy => by
  have := hx.1
  have := hx.2
  have := hy.1
  have := hy.2
  omega

/-- A step that writes one area, with its words, and no tile. -/
structure AreaStep (a n : Nat) (l : List Dword) (s u : State) : Prop where
  writes : HbmWrites (within a n) s u
  holds : Holds u a l
  tiles : u.tiles = s.tiles

theorem area_paWrites {a : Nat} {l : List Dword} (h8 : a % 8 = 0) (he : a + 8 * l.length ≤ s.hbmEnd) :
    AreaStep a (8 * l.length) l s (s.paWrites a l) :=
  ⟨hbmWrites_paWrites h8 he, holds_paWrites h8 he, paWrites_tiles ..⟩

theorem AreaStep.mono {a n m : Nat} {l : List Dword} (h : AreaStep a n l s u) (hn : n ≤ m) : AreaStep a m l s u :=
  ⟨h.writes.mono fun _ hx => ⟨hx.1, Nat.lt_of_lt_of_le hx.2 (Nat.add_le_add_left hn a)⟩, h.holds, h.tiles⟩

/-- Steps that each write an area of their own leave each area with its words. -/
theorem foldl_areas {n size base : Nat} {g : State → Nat → State} {L : Nat → List Dword} (hb : base % 8 = 0) (h8 : size % 8 = 0)
    (hend : base + size * n ≤ s.hbmEnd) (hlen : ∀ i, i < n → 8 * (L i).length ≤ size)
    (hg : ∀ w i, i < n → HbmWrites (within base (size * n)) s w → w.tiles = s.tiles →
      AreaStep (base + size * i) size (L i) w (g w i)) :
    HbmWrites (within base (size * n)) s ((upTo n).foldl g s) ∧ ((upTo n).foldl g s).tiles = s.tiles
      ∧ ∀ i, i < n → Holds ((upTo n).foldl g s) (base + size * i) (L i) := by
  suffices ∀ m, m ≤ n → HbmWrites (within base (size * n)) s ((upTo m).foldl g s) ∧ ((upTo m).foldl g s).tiles = s.tiles
      ∧ ∀ i, i < m → Holds ((upTo m).foldl g s) (base + size * i) (L i) from this n (Nat.le_refl n)
  have hin (i : Nat) (hi : i < n) : size * i + size ≤ size * n := by
    rw [← Nat.mul_succ]
    exact Nat.mul_le_mul_left size hi
  intro m
  induction m with
  | zero => exact fun _ => ⟨.refl s, rfl, fun i hi => absurd hi (Nat.not_lt_zero i)⟩
  | succ m ih =>
    intro hm
    obtain ⟨hw, ht, hh⟩ := ih (Nat.le_of_succ_le hm)
    have hstep := hg _ m hm hw ht
    have hmn := hin m hm
    rw [upTo, List.range_succ, List.foldl_append]
    refine ⟨hw.trans (hstep.writes.mono fun x hx => ⟨?_, ?_⟩), hstep.tiles.trans ht, fun i hi => ?_⟩
    · have := hx.1; omega
    · have := hx.2; omega
    · rcases Nat.lt_succ_iff_lt_or_eq.1 hi with h | rfl
      · have hle : size * i + size ≤ size * m := by
          rw [← Nat.mul_succ]
          exact Nat.mul_le_mul_left size h
        have hl := hlen i (by omega)
        have hmod : size * i % 8 = 0 := by rw [Nat.mul_mod, h8, Nat.zero_mul, Nat.zero_mod]
        refine (hh i h).kept hstep.writes (by omega) (by rw [hbmEnd_of_code hw.code]; omega) fun x hx hx' => ?_
        have := hx.2
        have := hx'.1
        omega
      · exact hstep.holds

/-! ### The words of a context -/

theorem vecWords_length (v : Vec) : (vecWords v).length = 4 := by simp [vecWords, upTo]

theorem faultWords_length (r : FaultRec) : r.words.length = 8 := by simp [FaultRec.words, upTo]

theorem flatMap_length_const {α : Type} {f : α → List Dword} {m : Nat} (h : ∀ a, (f a).length = m) (l : List α) :
    (l.flatMap f).length = m * l.length := by
  rw [List.flatMap_def, flatten_length_of_length (m := m) fun x hx => ?_, List.length_map]
  obtain ⟨a, -, rfl⟩ := List.mem_map.1 hx
  exact h a

/-- The words of a context before its reserved ones. -/
def Thread.registerWords (h : Thread) : List Dword :=
  [nd (field 63 1 1 + field 62 1 (b2n (h.mode == .machine)) + field 61 1 (b2n h.uhold) + field 40 16 h.budget
      + field 32 2 h.prio + field 0 7 h.pend.length), h.pc]
    ++ (0 :: (h.x.toList.drop 1)) ++ h.v.toList.flatMap vecWords
    ++ [h.mstatus, h.mie, h.mtvec, h.mscratch, h.mepc, h.mcause, h.mtval, h.instret, h.jsrseed, h.jmcfg, h.jvcfg, h.jutvec,
      h.jutcause, h.jutepc, h.jutval, h.jmgate, h.jmgatev, h.jrmark]
    ++ h.snap.toList.drop 1

theorem context_empty {h : Thread} (hst : h.st = .empty) : h.context = [0] := if_pos hst

theorem context_eq {h : Thread} (hst : h.st ≠ .empty) :
    h.context = h.registerWords ++ List.replicate 5 0 ++ (h.pend.take 66).flatMap (·.words) := if_neg hst

theorem registerWords_length (h : Thread) : h.registerWords.length = 147 := by
  simp [Thread.registerWords, flatMap_length_const vecWords_length]

theorem context_length_le (h : Thread) : h.context.length ≤ 680 := by
  by_cases hst : h.st = .empty
  · rw [context_empty hst]; decide
  · rw [context_eq hst]
    simp only [List.length_append, registerWords_length, List.length_replicate, flatMap_length_const faultWords_length,
      List.length_take]
    omega

/-- The reserved words of a context are zero. -/
theorem context_reserved {h : Thread} {n : Nat} {x : Dword} (h1 : 147 ≤ n) (h2 : n < 152) (hx : h.context[n]? = some x) :
    x = 0 := by
  by_cases hst : h.st = .empty
  · rw [context_empty hst, List.getElem?_eq_none (by simp; omega)] at hx
    exact nomatch hx
  · rw [context_eq hst, List.append_assoc, List.getElem?_append_right (by rw [registerWords_length]; exact h1),
      List.getElem?_append_left (by rw [registerWords_length, List.length_replicate]; omega)] at hx
    exact List.eq_of_mem_replicate (List.mem_of_getElem? hx)

/-- A slot's context in its place of 0x2000 bytes. -/
theorem area_saveSlot {a : Nat} (h : Thread) (h8 : a % 8 = 0) (he : a + 0x2000 ≤ s.hbmEnd) :
    AreaStep a 0x2000 h.context s (s.saveSlot a h) := by
  have hl := context_length_le h
  have h1 := area_paWrites (s := s) (l := h.context) h8 (by omega)
  have he1 : a + 0x2000 ≤ (s.paWrites a h.context).hbmEnd := by rw [hbmEnd_of_code h1.writes.code]; exact he
  have h2 := area_paWrites (s := s.paWrites a h.context) (a := a + 0x4A0) (l := List.replicate 4 0) (by omega)
    (by rw [List.length_replicate]; omega)
  have he2 : a + 0x2000 ≤ ((s.paWrites a h.context).paWrites (a + 0x4A0) (List.replicate 4 0)).hbmEnd := by
    rw [hbmEnd_of_code h2.writes.code]; exact he1
  have h3 := area_paWrites (s := (s.paWrites a h.context).paWrites (a + 0x4A0) (List.replicate 4 0)) (a := a + 0x1540)
    (l := List.replicate 344 0) (by omega) (by rw [List.length_replicate]; omega)
  rw [List.length_replicate] at h2 h3
  refine ⟨((h1.writes.mono fun x hx => ?_).trans (h2.writes.mono fun x hx => ?_)).trans (h3.writes.mono fun x hx => ?_),
    fun n x hn => ?_, h3.tiles.trans (h2.tiles.trans h1.tiles)⟩
  · exact ⟨hx.1, by have := hx.2; omega⟩
  · exact ⟨by have := hx.1; omega, by have := hx.2; omega⟩
  · exact ⟨by have := hx.1; omega, by have := hx.2; omega⟩
  · have hn680 : n < 680 := Nat.lt_of_lt_of_le (List.getElem?_eq_some_iff.1 hn).1 hl
    have hkeep : (s.saveSlot a h).paRead (a + 8 * n) =
        ((s.paWrites a h.context).paWrites (a + 0x4A0) (List.replicate 4 0)).paRead (a + 8 * n) :=
      h3.writes.paRead (by omega) (by omega) fun x hx hx' => by
        have := hx.2
        have := hx'.1
        omega
    rw [hkeep]
    by_cases hr : 148 ≤ n ∧ n < 152
    · obtain ⟨j, rfl⟩ := Nat.exists_eq_add_of_le hr.1
      rw [context_reserved (by omega) hr.2 hn, show a + 8 * (148 + j) = a + 0x4A0 + 8 * j by omega]
      exact h2.holds j 0 (List.getElem?_replicate_of_lt (by omega))
    · rw [h2.writes.paRead (by omega) (by omega) fun x hx hx' => ?_]
      · exact h1.holds n x hn
      · have := hx.1
        have := hx.2
        have := hx'.1
        have := hx'.2
        omega

/-! ### A core's block -/

theorem area_saveWord {a k : Nat} (h8 : a % 8 = 0) (he : a + 8 ≤ s.hbmEnd) : AreaStep a 8 [s.readD k] s (s.saveWord a k) := by
  have h := area_paWrites (s := s) (l := [s.readD k]) h8 he
  have hmark : HbmWrites (within a 8) (s.paWrite a (s.readD k)) ((s.paWrite a (s.readD k)).markWord (s.paKey a)) :=
    .of_mem rfl rfl rfl rfl
  unfold State.saveWord
  dsimp only
  split
  · exact ⟨h.writes.trans hmark, h.holds, h.tiles⟩
  · exact h

/-- A core's scratchpad, contexts, accumulators and inbox, as s has them, in a block of u. -/
structure BlockSaved (s u : State) (block t : Nat) : Prop where
  spad : ∀ n, n < 0x10000 → u.paRead (block + 8 * n) = s.readD (tileKey t (8 * n))
  slots : ∀ i : Fin 8, Holds u (block + 0x80000 + 0x2000 * i.val) ((s.th t i).settled s.tsc).context
  accs : ∀ i : Fin 8, Holds u (block + 0x90000 + 0x200 * i.val) (s.acc t i.val).words
  inbox : Holds u (block + 0x93000) ((s.tile t).inbox.flatMap messageWords)

theorem accWords_length (a : AccReg) : a.words.length = 33 := by simp [AccReg.words, upTo]

theorem areaWords_length (area : Nat) (l : List Nat) : (areaWords area l).length = 512 := by simp [areaWords, upTo]

theorem inboxWords_length (l : List Message) : (l.flatMap messageWords).length = 6 * l.length :=
  flatMap_length_const (f := messageWords) (m := 6) (fun _ => rfl) l

/-- A core's threads with their interval checks settled. -/
def State.settledAt (s : State) (t : Nat) : State := s.modTile t fun x => x.mapTh (·.settled s.tsc)

theorem settledAt_th (s : State) (t : Nat) (i : Fin 8) : ((s.settledAt t).tile t).th i = (s.th t i).settled s.tsc := by
  rw [State.settledAt, State.tile_modTile]
  simp only [Tile.mapTh, Tile.th, mapV, State.th, Fin.getElem_fin, Vector.getElem_ofFn]

theorem slotIx_fin (i : Fin 8) : slotIx i.val = i := Fin.ext (Nat.mod_eq_of_lt i.isLt)

/-- The scratchpad, the slots and the accumulators of a core, one after the other. -/
def State.savedSpad (s : State) (block t : Nat) : State := (s.settledAt t).saveSpad block t
def State.savedSlots (s : State) (block t : Nat) : State :=
  (upTo 8).foldl (fun u i => u.saveSlot (block + 0x80000 + 0x2000 * i) (((s.settledAt t).tile t).th (slotIx i)))
    (s.savedSpad block t)
def State.savedAccs (s : State) (block t : Nat) : State :=
  (upTo 8).foldl (fun u i => u.paWrites (block + 0x90000 + 0x200 * i) (u.acc t i).words) (s.savedSlots block t)
/-- What the queues of a core hold, in their two areas of the block. -/
def State.savedQueues (s : State) (block t : Nat) : State :=
  let x := (s.settledAt t).tile t
  ((s.savedAccs block t).paWrites (block + 0x91000)
    (areaWords 0 (x.core.jcodewin.toNat :: x.matrix.queue.flatMap (·.numbers)))).paWrites (block + 0x92000) (areaWords 1 x.engineNumbers)

theorem saveCore_state (s : State) (q : Part) (c : Nat × Nat × Nat) : (s.saveCore q c).1 =
    (s.savedQueues (blockAt q c.1 c.2.1) c.2.2).paWrites (blockAt q c.1 c.2.1 + 0x93000)
      (((s.settledAt c.2.2).tile c.2.2).inbox.flatMap messageWords) := rfl

section
variable {block t : Nat} (h8 : block % 8 = 0) (he : block + 0x94000 ≤ s.hbmEnd) (hf : s.inFrame t = true)
include h8 he hf

theorem savedSpad_spec : HbmWrites (within block 0x80000) (s.settledAt t) (s.savedSpad block t)
    ∧ (s.savedSpad block t).tiles = (s.settledAt t).tiles
    ∧ ∀ n, n < 0x10000 → Holds (s.savedSpad block t) (block + 8 * n) [s.readD (tileKey t (8 * n))] := by
  have hs : (s.settledAt t).hbmEnd = s.hbmEnd := rfl
  unfold State.savedSpad State.saveSpad
  have hsize : 8 * 0x10000 = 0x80000 := rfl
  rw [← hsize]
  refine foldl_areas (s := s.settledAt t) (n := 0x10000) (size := 8) (L := fun n => [s.readD (tileKey t (8 * n))])
    (g := fun u i => u.saveWord (block + 8 * i) (tileKey t (8 * i))) h8 rfl (by omega)
    (fun _ _ => Nat.le_refl 8) fun w n hn hw _ => ?_
  have hk := tileKey_near hf (off := 8 * n) (by omega)
  have hr : w.readD (tileKey t (8 * n)) = s.readD (tileKey t (8 * n)) := hw.readD (by omega)
  rw [← hr]
  exact area_saveWord (by omega) (by rw [hbmEnd_of_code hw.code]; omega)

theorem savedSlots_spec : HbmWrites (within (block + 0x80000) 0x10000) (s.savedSpad block t) (s.savedSlots block t)
    ∧ (s.savedSlots block t).tiles = (s.settledAt t).tiles
    ∧ ∀ i : Fin 8, Holds (s.savedSlots block t) (block + 0x80000 + 0x2000 * i.val) ((s.th t i).settled s.tsc).context := by
  obtain ⟨h1, ht, -⟩ := savedSpad_spec h8 he hf
  have hs : (s.savedSpad block t).hbmEnd = s.hbmEnd := hbmEnd_of_code h1.code
  have h := foldl_areas (s := s.savedSpad block t) (n := 8) (size := 0x2000) (base := block + 0x80000)
    (g := fun u i => u.saveSlot (block + 0x80000 + 0x2000 * i) (((s.settledAt t).tile t).th (slotIx i)))
    (L := fun i => (((s.settledAt t).tile t).th (slotIx i)).context) (by omega) rfl (by omega)
    (fun i _ => by have := context_length_le (((s.settledAt t).tile t).th (slotIx i)); omega)
    fun w i hi hw _ => area_saveSlot _ (by omega) (by rw [hbmEnd_of_code hw.code]; omega)
  refine ⟨h.1, h.2.1.trans ht, fun i => ?_⟩
  have := h.2.2 i.val i.isLt
  rwa [slotIx_fin, settledAt_th] at this

theorem savedAccs_spec : HbmWrites (within (block + 0x90000) 0x1000) (s.savedSlots block t) (s.savedAccs block t)
    ∧ (s.savedAccs block t).tiles = (s.settledAt t).tiles
    ∧ ∀ i : Fin 8, Holds (s.savedAccs block t) (block + 0x90000 + 0x200 * i.val) (s.acc t i.val).words := by
  obtain ⟨h1, -, -⟩ := savedSpad_spec h8 he hf
  obtain ⟨h2, ht, -⟩ := savedSlots_spec h8 he hf
  have hs : (s.savedSlots block t).hbmEnd = s.hbmEnd := (hbmEnd_of_code h2.code).trans (hbmEnd_of_code h1.code)
  have hacc (i : Nat) : (s.settledAt t).acc t i = s.acc t i := by
    unfold State.acc State.settledAt
    rw [State.tile_modTile]
    rfl
  have h := foldl_areas (s := s.savedSlots block t) (n := 8) (size := 0x200) (base := block + 0x90000)
    (g := fun u i => u.paWrites (block + 0x90000 + 0x200 * i) (u.acc t i).words)
    (L := fun i => (s.acc t i).words) (by omega) rfl (by omega) (fun i _ => by rw [accWords_length]; omega)
    fun w i hi hw hwt => by
      have e : w.acc t i = s.acc t i :=
        (congrArg (fun l => (Assoc.get {} l t : Tile).matrix.accs[accIx i]) (hwt.trans ht)).trans (hacc i)
      rw [e]
      have ha := area_paWrites (s := w) (a := block + 0x90000 + 0x200 * i) (l := (s.acc t i).words) (by omega)
        (by rw [hbmEnd_of_code hw.code, accWords_length]; omega)
      exact ha.mono (by rw [accWords_length]; omega)
  exact ⟨h.1, h.2.1.trans ht, fun i => h.2.2 i.val i.isLt⟩

theorem savedQueues_spec : HbmWrites (within (block + 0x91000) 0x2000) (s.savedAccs block t) (s.savedQueues block t)
    ∧ (s.savedQueues block t).tiles = (s.settledAt t).tiles := by
  obtain ⟨h1, -, -⟩ := savedSpad_spec h8 he hf
  obtain ⟨h2, -, -⟩ := savedSlots_spec h8 he hf
  obtain ⟨h3, ht, -⟩ := savedAccs_spec h8 he hf
  have hs : (s.savedAccs block t).hbmEnd = s.hbmEnd :=
    (hbmEnd_of_code h3.code).trans ((hbmEnd_of_code h2.code).trans (hbmEnd_of_code h1.code))
  unfold State.savedQueues
  extract_lets x
  generalize hl1 : areaWords 0 _ = l1
  generalize hl2 : areaWords 1 _ = l2
  have e1 : l1.length = 512 := hl1 ▸ areaWords_length ..
  have e2 : l2.length = 512 := hl2 ▸ areaWords_length ..
  have a1 := area_paWrites (s := s.savedAccs block t) (a := block + 0x91000) (l := l1) (by omega) (by omega)
  have hs1 : ((s.savedAccs block t).paWrites (block + 0x91000) l1).hbmEnd = s.hbmEnd := (hbmEnd_of_code a1.writes.code).trans hs
  have a2 := area_paWrites (s := (s.savedAccs block t).paWrites (block + 0x91000) l1) (a := block + 0x92000) (l := l2)
    (by omega) (by omega)
  rw [e1] at a1
  rw [e2] at a2
  exact ⟨(a1.writes.widen (Nat.le_refl _) (by omega)).trans (a2.writes.widen (by omega) (by omega)),
    a2.tiles.trans (a1.tiles.trans ht)⟩

/-- Saving a core fills its block, writes nothing else, and changes no tile but by settling the core's threads. -/
theorem saveCore_spec {q : Part} {c : Nat × Nat × Nat} (hc : blockAt q c.1 c.2.1 = block) (hct : c.2.2 = t)
    (hin : (s.tile t).inbox.length ≤ 32) :
    HbmWrites (within block 0x94000) s (s.saveCore q c).1 ∧ (s.saveCore q c).1.tiles = (s.settledAt t).tiles
      ∧ BlockSaved s (s.saveCore q c).1 block t := by
  obtain ⟨h1, -, b1⟩ := savedSpad_spec h8 he hf
  obtain ⟨h2, -, b2⟩ := savedSlots_spec h8 he hf
  obtain ⟨h3, -, b3⟩ := savedAccs_spec h8 he hf
  obtain ⟨h4, ht⟩ := savedQueues_spec h8 he hf
  have hs0 : (s.settledAt t).hbmEnd = s.hbmEnd := rfl
  have hs1 : (s.savedSpad block t).hbmEnd = s.hbmEnd := hbmEnd_of_code h1.code
  have hs2 : (s.savedSlots block t).hbmEnd = s.hbmEnd := (hbmEnd_of_code h2.code).trans hs1
  have hs3 : (s.savedAccs block t).hbmEnd = s.hbmEnd := (hbmEnd_of_code h3.code).trans hs2
  have hs4 : (s.savedQueues block t).hbmEnd = s.hbmEnd := (hbmEnd_of_code h4.code).trans hs3
  have hinb : ((s.settledAt t).tile t).inbox = (s.tile t).inbox := by
    rw [State.settledAt, State.tile_modTile]
    rfl
  have hlen := inboxWords_length (s.tile t).inbox
  have a5 := area_paWrites (s := s.savedQueues block t) (a := block + 0x93000) (l := (s.tile t).inbox.flatMap messageWords)
    (by omega) (by omega)
  have h5 : HbmWrites (within (block + 0x93000) 0x600) _ _ := (a5.mono (by omega)).writes
  have e : (s.saveCore q c).1 = (s.savedQueues block t).paWrites (block + 0x93000) ((s.tile t).inbox.flatMap messageWords) := by
    rw [saveCore_state, hc, hct, hinb]
  rw [e]
  -- what is written after each part lies behind it
  have w4 := (h4.widen (n := 0x2600) (Nat.le_refl _) (by omega)).trans (h5.widen (by omega) (by omega))
  have w3 := (h3.widen (n := 0x3600) (Nat.le_refl _) (by omega)).trans (w4.widen (by omega) (by omega))
  have w2 := (h2.widen (n := 0x13600) (Nat.le_refl _) (by omega)).trans (w3.widen (by omega) (by omega))
  have w1 := (h1.widen (n := 0x94000) (Nat.le_refl _) (by omega)).trans (w2.widen (by omega) (by omega))
  refine ⟨(hbm_modTile (t := t) (f := fun x => x.mapTh (·.settled s.tsc))).trans w1, a5.tiles.trans ht,
    ⟨fun n hn => ?_, fun i => ?_, fun i => ?_, a5.holds⟩⟩
  · exact ((b1 n hn).kept w2 (by omega) (by rw [List.length_singleton]; omega)
      fun x hx => within_apart (.inl (by rw [List.length_singleton]; omega)) hx) 0 _ rfl
  · have hl := context_length_le ((s.th t i).settled s.tsc)
    have := i.isLt
    exact (b2 i).kept w3 (by omega) (by omega) fun x hx => within_apart (.inl (by omega)) hx
  · have hl := accWords_length (s.acc t i.val)
    have := i.isLt
    exact (b3 i).kept w4 (by omega) (by omega) fun x hx => within_apart (.inl (by omega)) hx

end

/-- A saved block stands while nothing is written in it. -/
theorem BlockSaved.kept {W : Nat → Prop} {block t : Nat} (h : BlockSaved s u block t) (hw : HbmWrites W u v)
    (h8 : block % 8 = 0) (he : block + 0x94000 ≤ u.hbmEnd) (hin : (s.tile t).inbox.length ≤ 32)
    (ho : ∀ x, within block 0x94000 x → ¬W x) : BlockSaved s v block t where
  spad n hn := (hw.paRead (by omega) (by omega) fun x hx => ho x ⟨by have := hx.1; omega, by have := hx.2; omega⟩).trans
    (h.spad n hn)
  slots i := by
    have hl := context_length_le ((s.th t i).settled s.tsc)
    have := i.isLt
    exact (h.slots i).kept hw (by omega) (by omega) fun x hx => ho x ⟨by have := hx.1; omega, by have := hx.2; omega⟩
  accs i := by
    have hl := accWords_length (s.acc t i.val)
    have := i.isLt
    exact (h.accs i).kept hw (by omega) (by omega) fun x hx => ho x ⟨by have := hx.1; omega, by have := hx.2; omega⟩
  inbox := by
    have hl := inboxWords_length (s.tile t).inbox
    exact h.inbox.kept hw (by omega) (by omega) fun x hx => ho x ⟨by have := hx.1; omega, by have := hx.2; omega⟩

/-- A block saved from a state in which the core is as it was before. -/
theorem BlockSaved.of_agrees {W : Nat → Prop} {block t : Nat} (h : BlockSaved v u block t) (hf : s.inFrame t = true)
    (hw : HbmWrites W s v) (ha : (v.tile t).agrees (s.tile t)) : BlockSaved s u block t where
  spad n hn := (h.spad n hn).trans (hw.readD (by have := tileKey_near hf (off := 8 * n) (by omega); omega))
  slots i := by
    have e : v.th t i = s.th t i := congrArg (fun l : Vector Thread 8 => l[i]) ha.threads
    rw [← e, ← hw.tsc]
    exact h.slots i
  accs i := by
    have e : v.acc t i.val = s.acc t i.val := congrArg (fun m : Matrix => m.accs[accIx i.val]) ha.matrix
    rw [← e]
    exact h.accs i
  inbox := by
    rw [← ha.inbox]
    exact h.inbox

end Sys2Proof.Machine
end

section
/-! # A partition's save area, and the cores it leaves (R277-R280) -/
namespace Sys2Proof.Machine

variable {s u v w : State}

/-! ### The cores of a partition -/

theorem findCore_some {row col t : Nat} {l : List (Nat × Tile)} (h : findCore row col l = some t) :
    pyOf t = row ∧ ∃ x, (t, x) ∈ l ∧ x.bound = col := by
  induction l with
  | nil => exact nomatch h
  | cons p l ih =>
    obtain ⟨k, x⟩ := p
    rw [findCore] at h
    split at h
    next hc =>
      obtain rfl := Option.some.inj h
      exact ⟨hc.1, x, List.mem_cons_self .., hc.2.2⟩
    next =>
      obtain ⟨hr, y, hy, hb⟩ := ih h
      exact ⟨hr, y, List.mem_cons_of_mem _ hy, hb⟩

theorem Assoc.get_of_mem {α : Type} {d v : α} {a : Nat} {l : List (Nat × α)} (hl : Assoc.rising l = true) (h : (a, v) ∈ l) :
    Assoc.get d l a = v := by
  induction l with
  | nil => exact nomatch h
  | cons p l ih =>
    obtain ⟨k, x⟩ := p
    simp only [Assoc.rising, Bool.and_eq_true, List.all_eq_true, decide_eq_true_eq] at hl
    rw [Assoc.get]
    rcases List.mem_cons.1 h with e | h
    · obtain ⟨rfl, rfl⟩ := Prod.mk.inj e
      exact if_pos rfl
    · rw [if_neg (Nat.ne_of_lt (hl.1 _ h)), ih hl.2 h]

theorem core_place (h : s.wf) {gy gx t : Nat} (hc : s.core gy gx = some t) : pyOf t = gy ∧ (s.tile t).bound = gx := by
  obtain ⟨hr, x, hx, hb⟩ := findCore_some hc
  exact ⟨hr, (congrArg Tile.bound (Assoc.get_of_mem h.2 hx)).trans hb⟩

theorem mem_partCores {q : Part} {c : Nat × Nat × Nat} (h : c ∈ s.partCores q) :
    c.1 < q.height ∧ c.2.1 < q.width ∧ s.core (q.orgY + c.1) (q.orgX + c.2.1) = some c.2.2
      ∧ (s.tile c.2.2).core.pid = q.pid := by
  unfold State.partCores at h
  simp only [List.mem_flatMap, List.mem_filterMap, upTo, List.mem_range] at h
  obtain ⟨y, hy, x, hx, hc⟩ := h
  split at hc
  next t ht =>
    split at hc
    next hp =>
      obtain rfl := Option.some.inj hc
      exact ⟨hy, hx, ht, hp⟩
    next => exact nomatch hc
  next => exact nomatch hc

theorem mem_tilesOf {q : Part} {t : Nat} (h : t ∈ s.tilesOf q) : (s.tile t).core.pid = q.pid := by
  obtain ⟨c, hc, rfl⟩ := List.mem_map.1 h
  exact (mem_partCores hc).2.2.2

/-- Two cores of a partition lie at two places. -/
theorem partCores_pairwise (s : State) (q : Part) : (s.partCores q).Pairwise fun c d => c.1 ≠ d.1 ∨ c.2.1 ≠ d.2.1 := by
  have one {y x : Nat} {c : Nat × Nat × Nat} (h : (match s.core (q.orgY + y) (q.orgX + x) with
      | some t => if (s.tile t).core.pid = q.pid then some (y, x, t) else none
      | none => none) = some c) : c.1 = y ∧ c.2.1 = x := by
    split at h
    · split at h
      · obtain rfl := Option.some.inj h
        exact ⟨rfl, rfl⟩
      · exact nomatch h
    · exact nomatch h
  unfold State.partCores
  refine List.pairwise_flatMap.2 ⟨fun y _ => List.pairwise_filterMap.2 ?_, ?_⟩
  · refine List.nodup_range.imp fun {x x'} hne c hc d hd => .inr ?_
    rw [(one hc).2, (one hd).2]
    exact hne
  · refine List.nodup_range.imp fun {y y'} hne c hc d hd => .inl ?_
    obtain ⟨x, -, hx⟩ := List.mem_filterMap.1 hc
    obtain ⟨x', -, hx'⟩ := List.mem_filterMap.1 hd
    rw [(one hx).1, (one hx').1]
    exact hne

/-- Two cores of a partition have two tiles. -/
theorem partCores_tiles (h : s.wf) (q : Part) :
    (s.partCores q).Pairwise fun c d => (c.1 ≠ d.1 ∨ c.2.1 ≠ d.2.1) ∧ c.2.2 ≠ d.2.2 := by
  refine (partCores_pairwise s q).imp_of_mem fun {c d} hc hd hne => ⟨hne, fun e => ?_⟩
  have h1 := core_place h (mem_partCores hc).2.2.1
  have h2 := core_place h (mem_partCores hd).2.2.1
  rw [e] at h1
  have hy := h1.1.symm.trans h2.1
  have hx := h1.2.symm.trans h2.2
  omega

/-! ### Places of the blocks in the save area -/

theorem blockAt_aligned {q : Part} (h : q.save % 4096 = 0) (y x : Nat) : blockAt q y x % 8 = 0 := by
  unfold blockAt
  omega

theorem blockAt_inside {q : Part} {y x : Nat} (hy : y < q.height) (hx : x < q.width) :
    q.save + 0x1000 ≤ blockAt q y x ∧ blockAt q y x + 0x94000 ≤ q.save + saveSize q.height q.width := by
  have h1 : (y + 1) * q.width ≤ q.height * q.width := Nat.mul_le_mul_right _ hy
  rw [Nat.succ_mul] at h1
  unfold blockAt saveSize
  omega

theorem blockAt_apart {q : Part} {y x y' x' : Nat} (hx : x < q.width) (hx' : x' < q.width) (hne : y ≠ y' ∨ x ≠ x') :
    blockAt q y x + 0x94000 ≤ blockAt q y' x' ∨ blockAt q y' x' + 0x94000 ≤ blockAt q y x := by
  have h : y * q.width + x ≠ y' * q.width + x' := by
    intro e
    have e1 : (y * q.width + x) % q.width = (y' * q.width + x') % q.width := congrArg (· % q.width) e
    have e2 : (y * q.width + x) / q.width = (y' * q.width + x') / q.width := congrArg (· / q.width) e
    have hw : 0 < q.width := Nat.lt_of_le_of_lt (Nat.zero_le x) hx
    rw [Nat.mul_comm, Nat.mul_comm y', Nat.mul_add_mod, Nat.mul_add_mod, Nat.mod_eq_of_lt hx, Nat.mod_eq_of_lt hx'] at e1
    rw [Nat.mul_comm, Nat.mul_comm y', Nat.mul_add_div hw, Nat.mul_add_div hw, Nat.div_eq_of_lt hx, Nat.div_eq_of_lt hx'] at e2
    omega
  unfold blockAt
  omega

/-! ### What saving and vacating cores leaves as it was -/

/-- One slot of a core emptied where it holds a thread. -/
def State.vacateSlot (s : State) (t i : Nat) : State := if (s.tile t).isEmpty i then s else s.emptySlot t (slotIx i)
/-- Every slot of a core emptied. -/
def State.slotsVacated (s : State) (t : Nat) : State := (upTo 8).foldl (·.vacateSlot t) s
/-- A core of which nothing is queued any more. -/
def Tile.idled (x : Tile) (n : Nat) : Tile :=
  { x with
    inbox := [], chans := mapV x.chans fun c => { c with fifo := [], gate := 0 }, ladle := {}
    matrix := { x.matrix with queue := [], burst := 0 }, halted := false, sealed := false, partTick := n }

theorem vacate_eq (s : State) (t : Nat) :
    s.vacate t = (s.slotsVacated t).modTile t fun x => x.idled (s.slotsVacated t).tick := by
  unfold State.vacate State.slotsVacated State.vacateSlot Tile.idled
  rfl

section
variable {β : Type} (proj : State → β)

theorem paWrites_keeps (h : ∀ u m k, proj { u with mem := m, marks := k } = proj u) (s : State) (a : Nat) (l : List Dword) :
    proj (s.paWrites a l) = proj s := by
  induction l generalizing s a with
  | nil => rfl
  | cons x l ih => exact (ih _ _).trans (h s _ _)

/-- Saving a core settles its threads and writes memory. -/
theorem saveCore_keeps (h : ∀ u m k, proj { u with mem := m, marks := k } = proj u) (s : State) (q : Part)
    (c : Nat × Nat × Nat) : proj (s.saveCore q c).1 = proj (s.settledAt c.2.2) := by
  have hw (u : State) (a k : Nat) : proj (u.saveWord a k) = proj u := by
    unfold State.saveWord
    dsimp only
    split
    · exact h u _ _
    · exact h u _ _
  have hs (u : State) (a : Nat) (k : Thread) : proj (u.saveSlot a k) = proj u :=
    (paWrites_keeps proj h _ _ _).trans ((paWrites_keeps proj h _ _ _).trans (paWrites_keeps proj h _ _ _))
  have h1 (b t : Nat) : proj (s.savedSpad b t) = proj (s.settledAt t) := by
    unfold State.savedSpad State.saveSpad
    exact foldl_keeps proj (fun u i => hw u _ _) _ _
  have h2 (b t : Nat) : proj (s.savedSlots b t) = proj (s.savedSpad b t) := by
    unfold State.savedSlots
    exact foldl_keeps proj (fun u i => hs u _ _) _ _
  have h3 (b t : Nat) : proj (s.savedAccs b t) = proj (s.savedSlots b t) := by
    unfold State.savedAccs
    exact foldl_keeps proj (fun u i => paWrites_keeps proj h u _ _) _ _
  have h4 (b t : Nat) : proj (s.savedQueues b t) = proj (s.savedAccs b t) :=
    (paWrites_keeps proj h _ _ _).trans (paWrites_keeps proj h _ _ _)
  rw [saveCore_state, paWrites_keeps proj h, h4, h3, h2, h1]

theorem vacate_keeps (h : ∀ u t f, proj (State.modTile u t f) = proj u) (s : State) (t : Nat) : proj (s.vacate t) = proj s := by
  have hs (u : State) (i : Nat) : proj (u.vacateSlot t i) = proj u := by
    unfold State.vacateSlot
    split
    · rfl
    · exact h u t _
  rw [vacate_eq, h, State.slotsVacated]
  exact foldl_keeps proj (f := (·.vacateSlot t)) hs (upTo 8) s

end

theorem saveCore_frame (h : s.wf) (q : Part) (c : Nat × Nat × Nat) : Frame (· = c.2.2) s (s.saveCore q c).1 := by
  have h1 : Frame (· = c.2.2) s (s.settledAt c.2.2) := .modTile h rfl rfl rfl
  refine h1.trans (.of_same h.saveCore ?_ ?_ ?_)
  · exact saveCore_keeps State.code (fun _ _ _ => rfl) s q c
  · exact saveCore_keeps State.packs (fun _ _ _ => rfl) s q c
  · exact saveCore_keeps State.tiles (fun _ _ _ => rfl) s q c

theorem vacate_frame (h : s.wf) (t : Nat) : Frame (· = t) s (s.vacate t) := by
  have h1 : Frame (· = t) s (s.slotsVacated t) := by
    unfold State.slotsVacated
    refine .foldl h fun w i _ hw => ?_
    unfold State.vacateSlot
    split
    · exact .refl hw.wf
    · exact .modTile hw.wf rfl rfl rfl
  have h2 : Frame (· = t) (s.slotsVacated t) ((s.slotsVacated t).modTile t fun x => x.idled (s.slotsVacated t).tick) := by
    generalize s.slotsVacated t = w at h1
    exact .modTile h1.wf rfl rfl rfl
  rw [vacate_eq]
  exact h1.trans h2

/-! ### Vacated cores -/

/-- The thread has ended, or can end: it does not stand in an empty slot and wait for a hold. -/
def Thread.ended (h : Thread) : Prop := h.st = .empty ∧ h.need ≠ .hold
def Thread.canEnd (h : Thread) : Prop := h.st ≠ .empty ∨ h.ended

theorem ended_afterHold {h : Thread} (he : h.ended) : (afterHold h).ended := by
  unfold afterHold
  rw [if_neg he.2]
  exact he

theorem canEnd_afterHold {h : Thread} (he : h.canEnd) : (afterHold h).canEnd := by
  unfold afterHold
  split
  · exact .inl (by simp)
  · exact he

theorem vacateSlot_keeps_ended {t i : Nat} {j : Fin 8} (h : (s.th t j).ended) : ((s.vacateSlot t i).th t j).ended := by
  unfold State.vacateSlot
  split
  next => exact h
  next hne =>
    by_cases e : j = slotIx i
    · subst e
      exact absurd (beq_iff_eq.2 h.1) hne
    · rw [emptySlot_th_other _ _ e]
      exact ended_afterHold h

theorem vacateSlot_keeps_canEnd {t i : Nat} {j : Fin 8} (h : (s.th t j).canEnd) : ((s.vacateSlot t i).th t j).canEnd := by
  unfold State.vacateSlot
  split
  next => exact h
  next hne =>
    by_cases e : j = slotIx i
    · subst e
      rw [emptySlot_th]
      exact .inr ⟨rfl, by simp⟩
    · rw [emptySlot_th_other _ _ e]
      exact canEnd_afterHold h

theorem vacateSlot_ends {t : Nat} {j : Fin 8} (h : (s.th t j).canEnd) : ((s.vacateSlot t j.val).th t j).ended := by
  unfold State.vacateSlot
  split
  next he =>
    have he : (s.th t j).st = .empty := by
      have := beq_iff_eq.1 he
      rwa [slotIx_fin] at this
    exact h.resolve_left (fun hn => hn he)
  next =>
    rw [slotIx_fin, emptySlot_th]
    exact ⟨rfl, by simp⟩

theorem vacateSlots_keep_ended {t : Nat} {j : Fin 8} (l : List Nat) (h : (s.th t j).ended) :
    ((l.foldl (·.vacateSlot t) s).th t j).ended := by
  induction l generalizing s with
  | nil => exact h
  | cons i l ih => exact ih (vacateSlot_keeps_ended h)

theorem vacateSlots_end {t : Nat} {j : Fin 8} {l : List Nat} (hj : j.val ∈ l) (h : (s.th t j).canEnd) :
    ((l.foldl (·.vacateSlot t) s).th t j).ended := by
  induction l generalizing s with
  | nil => exact nomatch hj
  | cons i l ih =>
    rcases List.mem_cons.1 hj with rfl | hj
    · exact vacateSlots_keep_ended l (vacateSlot_ends h)
    · exact ih hj (vacateSlot_keeps_canEnd h)

/-- A core as its partition's suspension leaves it: nothing queued, and the threads of the slots S ended. -/
def Tile.vacant (S : Fin 8 → Prop) (x : Tile) : Prop :=
  x.inbox = [] ∧ x.ladle = {} ∧ x.matrix.queue = [] ∧ ∀ i, S i → (x.th i).ended

theorem Tile.vacant.of_agrees {S : Fin 8 → Prop} {x y : Tile} (h : y.vacant S) (ha : x.agrees y) : x.vacant S := by
  obtain ⟨h1, h2, h3, h4⟩ := h
  refine ⟨ha.inbox.trans h1, ha.ladle.trans h2, (congrArg Matrix.queue ha.matrix).trans h3, fun i hi => ?_⟩
  have e : x.th i = y.th i := congrArg (fun l : Vector Thread 8 => l[i]) ha.threads
  rw [e]
  exact h4 i hi

theorem vacate_vacant {S : Fin 8 → Prop} {t : Nat} (h : ∀ i, S i → (s.th t i).canEnd) : ((s.vacate t).tile t).vacant S := by
  have he (i : Fin 8) (hi : S i) : ((s.slotsVacated t).th t i).ended := vacateSlots_end (List.mem_range.2 i.isLt) (h i hi)
  rw [vacate_eq, State.tile_modTile]
  generalize s.slotsVacated t = w at he
  exact ⟨rfl, rfl, rfl, he⟩

theorem vacates_vacant {S : Fin 8 → Prop} {t : Nat} {l : List (Nat × Nat × Nat)} (ht : t ∈ l.map (·.2.2))
    (hs : s.wf) (h : ∀ i, S i → (s.th t i).canEnd) : ((l.foldl (fun s c => s.vacate c.2.2) s).tile t).vacant S := by
  have keep (l : List (Nat × Nat × Nat)) (w : State) (hw : w.wf) (h : (w.tile t).vacant S) :
      ((l.foldl (fun s c => s.vacate c.2.2) w).tile t).vacant S := by
    induction l generalizing w with
    | nil => exact h
    | cons c l ih =>
      rw [List.foldl_cons]
      refine ih (w.vacate c.2.2) hw.vacate ?_
      by_cases e : t = c.2.2
      · subst e
        exact vacate_vacant fun i hi => .inr (h.2.2.2 i hi)
      · exact h.of_agrees ((vacate_frame hw c.2.2).tiles t e)
  induction l generalizing s with
  | nil => exact nomatch ht
  | cons c l ih =>
    rw [List.foldl_cons]
    by_cases e : t = c.2.2
    · subst e
      exact keep l (s.vacate c.2.2) hs.vacate (vacate_vacant h)
    · rw [List.map_cons, List.mem_cons] at ht
      refine ih (s := s.vacate c.2.2) (ht.resolve_left e) hs.vacate fun i hi => ?_
      have ha := ((vacate_frame hs c.2.2).tiles t e).threads
      have e' : (s.vacate c.2.2).th t i = s.th t i := congrArg (fun l : Vector Thread 8 => l[i]) ha
      rw [e']
      exact h i hi

end Sys2Proof.Machine
end

section
/-! # Step 6 of a suspension (R277, R280) -/
namespace Sys2Proof.Machine

variable {s u v w : State}

/-! ### The cores saved -/

/-- A partition's cores saved one after the other. -/
def State.savedCores (s : State) (q : Part) (l : List (Nat × Nat × Nat)) : State := l.foldl (fun w c => (w.saveCore q c).1) s

/-- One core saved, and what is kept of it. -/
def saveStep (q : Part) (r : State × List SavedCore) (c : Nat × Nat × Nat) : State × List SavedCore :=
  let w := r.1.saveCore q c
  (w.1, r.2 ++ [w.2])

theorem saveCores_fst (q : Part) (l : List (Nat × Nat × Nat)) (r : State × List SavedCore) :
    (l.foldl (saveStep q) r).1 = r.1.savedCores q l := by
  induction l generalizing r with
  | nil => rfl
  | cons c l ih => exact ih _

/-- What is kept of the cores names their places. -/
theorem saveCores_places (q : Part) (l : List (Nat × Nat × Nat)) (r : State × List SavedCore) :
    (l.foldl (saveStep q) r).2.map
      (fun c => (c.y, c.x)) = r.2.map (fun c => (c.y, c.x)) ++ l.map fun c => (c.1, c.2.1) := by
  induction l generalizing r with
  | nil => simp
  | cons c l ih =>
    rw [List.foldl_cons, ih, saveStep, List.map_append, List.append_assoc]
    rfl

theorem savedCores_frame (h : s.wf) (q : Part) (l : List (Nat × Nat × Nat)) :
    Frame (· ∈ l.map (·.2.2)) s (s.savedCores q l) := by
  unfold State.savedCores
  refine .foldl h fun w c hc hw => (saveCore_frame hw.wf q c).mono fun t ht => ?_
  exact List.mem_map.2 ⟨c, hc, ht.symm⟩

theorem settled_st (h : Thread) (n : Nat) : (h.settled n).st = h.st ∧ (h.settled n).need = h.need := by
  unfold Thread.settled
  dsimp only
  split
  · split <;> exact ⟨rfl, rfl⟩
  · exact ⟨rfl, rfl⟩

theorem settledAt_canEnd {t a : Nat} {i : Fin 8} (h : (s.th t i).canEnd) : ((s.settledAt a).th t i).canEnd := by
  by_cases e : t = a
  · subst e
    have e' : (s.settledAt t).th t i = (s.th t i).settled s.tsc := settledAt_th s t i
    rw [e']
    unfold Thread.canEnd Thread.ended
    rw [(settled_st _ _).1, (settled_st _ _).2]
    exact h
  · have e' : (s.settledAt a).th t i = s.th t i := congrArg (fun x : Tile => x.th i) (State.tile_modTile_other _ _ e)
    rw [e']
    exact h

theorem savedCores_canEnd {q : Part} {t : Nat} {i : Fin 8} (l : List (Nat × Nat × Nat)) (h : (s.th t i).canEnd) :
    ((s.savedCores q l).th t i).canEnd := by
  induction l generalizing s with
  | nil => exact h
  | cons c l ih =>
    refine ih (s := (s.saveCore q c).1) ?_
    have e := saveCore_keeps (fun w : State => w.th t i) (fun _ _ _ => rfl) s q c
    rw [show (s.saveCore q c).1.th t i = (s.settledAt c.2.2).th t i from e]
    exact settledAt_canEnd h

/-- The cores' blocks in the save area. -/
def inBlocks (q : Part) (l : List (Nat × Nat × Nat)) (x : Nat) : Prop := ∃ c ∈ l, within (blockAt q c.1 c.2.1) 0x94000 x

theorem savedCores_spec {q : Part} (ha : q.save % 4096 = 0) {l : List (Nat × Nat × Nat)} (h : s.wf)
    (hl : l.Pairwise fun c d => (c.1 ≠ d.1 ∨ c.2.1 ≠ d.2.1) ∧ c.2.2 ≠ d.2.2)
    (hin : ∀ c ∈ l, c.1 < q.height ∧ c.2.1 < q.width ∧ blockAt q c.1 c.2.1 + 0x94000 ≤ s.hbmEnd ∧ s.inFrame c.2.2 = true
      ∧ (s.tile c.2.2).inbox.length ≤ 32) :
    HbmWrites (inBlocks q l) s (s.savedCores q l)
      ∧ ∀ c ∈ l, BlockSaved s (s.savedCores q l) (blockAt q c.1 c.2.1) c.2.2 := by
  induction l generalizing s with
  | nil => exact ⟨.refl s, fun c hc => nomatch hc⟩
  | cons c l ih =>
    obtain ⟨hc, hl⟩ := List.pairwise_cons.1 hl
    obtain ⟨hy, hx, he, hf, hib⟩ := hin c (List.mem_cons_self ..)
    have h8 := blockAt_aligned ha c.1 c.2.1
    obtain ⟨w1, -, b1⟩ := saveCore_spec h8 he hf (q := q) (c := c) rfl rfl hib
    have f1 := saveCore_frame h q c
    have hag (d : Nat × Nat × Nat) (hd : d ∈ l) : ((s.saveCore q c).1.tile d.2.2).agrees (s.tile d.2.2) :=
      f1.tiles _ fun e => (hc d hd).2 e.symm
    have hin1 : ∀ d ∈ l, d.1 < q.height ∧ d.2.1 < q.width ∧ blockAt q d.1 d.2.1 + 0x94000 ≤ (s.saveCore q c).1.hbmEnd
        ∧ (s.saveCore q c).1.inFrame d.2.2 = true ∧ ((s.saveCore q c).1.tile d.2.2).inbox.length ≤ 32 := fun d hd => by
      obtain ⟨a1, a2, a3, a4, a5⟩ := hin d (List.mem_cons_of_mem c hd)
      refine ⟨a1, a2, by rw [hbmEnd_of_code w1.code]; exact a3, ?_, by rw [(hag d hd).inbox]; exact a5⟩
      unfold State.inFrame State.side at a4 ⊢
      rw [w1.code]
      exact a4
    obtain ⟨w2, b2⟩ := ih f1.wf hl hin1
    refine ⟨(w1.mono fun x hx => ⟨c, List.mem_cons_self .., hx⟩).trans
      (w2.mono fun x ⟨d, hd, hx⟩ => ⟨d, List.mem_cons_of_mem c hd, hx⟩), fun d hd => ?_⟩
    rcases List.mem_cons.1 hd with rfl | hd
    · refine b1.kept w2 h8 (by rw [hbmEnd_of_code w1.code]; exact he) hib fun x hx' ⟨d', hd', hx''⟩ => ?_
      exact within_apart (blockAt_apart hx (hin1 d' hd').2.1 (hc d' hd').1) hx' hx''
    · exact (b2 d hd).of_agrees (hin d (List.mem_cons_of_mem c hd)).2.2.2.1 w1 (hag d hd)

/-! ### One partition saved -/

/-- The header of a save area. -/
def State.areaHead (s : State) (q : Part) : List Dword :=
  [q.extent, nd (field 48 16 s.gen + b2n q.rolled), nd s.tsc] ++ List.replicate 509 0

/-- The partition's area written and its cores vacated. -/
def State.areaSaved (s : State) (q : Part) : State := (s.paWrites q.save (s.areaHead q)).savedCores q (s.partCores q)
def State.vacated (s : State) (q : Part) : State := (s.partCores q).foldl (fun s c => s.vacate c.2.2) (s.areaSaved q)

/-- What firmware keeps of the cores. -/
def State.noted (s : State) (q : Part) (l : List SavedCore) : State :=
  { s with saves := Assoc.put q.pid l s.saves, rounds := s.rounds.filter fun r => r.pid != q.pid }
/-- The partition suspended, with what is kept of its cores. -/
def State.suspended (s : State) (q : Part) (l : List SavedCore) : State :=
  ((s.noted q l).rcbSet q.rcb 2).modPart q.pid fun p => { p with state := 2, stopping := none }

theorem savePart_eq (s : State) (q : Part) : ∃ l : List SavedCore,
    l.map (fun c => (c.y, c.x)) = (s.partCores q).map (fun c => (c.1, c.2.1))
      ∧ s.savePart q = ((s.vacated q).suspended q l).screenFreed (s.tilesOf q) := by
  refine ⟨_, (saveCores_places q (s.partCores q) (s.paWrites q.save (s.areaHead q), [])).trans (List.nil_append _), ?_⟩
  unfold State.vacated State.areaSaved
  rw [← saveCores_fst q (s.partCores q) (s.paWrites q.save (s.areaHead q), [])]
  rfl

theorem paWrites_frame {T : Nat → Prop} (h : s.wf) (a : Nat) (l : List Dword) : Frame T s (s.paWrites a l) :=
  .of_same h.paWrites (paWrites_keeps State.code (fun _ _ _ => rfl) s a l) (paWrites_keeps State.packs (fun _ _ _ => rfl) s a l)
    (paWrites_keeps State.tiles (fun _ _ _ => rfl) s a l)

theorem areaSaved_frame (h : s.wf) (q : Part) : Frame (· ∈ s.tilesOf q) s (s.areaSaved q) := by
  have h1 := paWrites_frame (T := (· ∈ s.tilesOf q)) h q.save (s.areaHead q)
  exact h1.trans (savedCores_frame h1.wf q (s.partCores q))

theorem vacated_frame (h : s.wf) (q : Part) : Frame (· ∈ s.tilesOf q) s (s.vacated q) := by
  have h1 := areaSaved_frame h q
  refine h1.trans ?_
  unfold State.vacated
  refine .foldl h1.wf fun w c hc hw => (vacate_frame hw.wf c.2.2).mono fun t ht => ?_
  exact List.mem_map.2 ⟨c, hc, ht.symm⟩

theorem suspended_frame {T : Nat → Prop} (h : s.wf) (q : Part) (l : List SavedCore) : Frame T s (s.suspended q l) := by
  have hw : (s.noted q l).wf := h
  exact .of_same hw.rcbSet.modPart rfl rfl rfl

theorem savePart_frame (h : s.wf) (q : Part) : Frame (· ∈ s.tilesOf q) s (s.savePart q) := by
  obtain ⟨l, -, e⟩ := savePart_eq s q
  have h1 := vacated_frame h q
  have h2 := h1.trans (suspended_frame h1.wf q l)
  rw [e]
  exact h2.trans ((Screened.screenFreed h2.wf _).frame.mono fun _ hf => hf.elim)

/-- What neither the tiles nor the memory decide is as it was before the suspension of the partition. -/
theorem vacated_keeps {β : Type} (proj : State → β) (hm : ∀ u m k, proj { u with mem := m, marks := k } = proj u)
    (ht : ∀ u t f, proj (State.modTile u t f) = proj u) (s : State) (q : Part) : proj (s.vacated q) = proj s := by
  have h1 : proj (s.areaSaved q) = proj s := by
    unfold State.areaSaved State.savedCores
    refine (foldl_keeps proj (fun w c => ?_) _ _).trans (paWrites_keeps proj hm ..)
    exact (saveCore_keeps proj hm w q c).trans (ht ..)
  unfold State.vacated
  exact (foldl_keeps proj (fun w c => vacate_keeps proj ht w _) _ _).trans h1

theorem savePart_parts (h : s.wf) (q : Part) :
    (s.savePart q).parts = s.parts.map fun p => if p.pid = q.pid then { p with state := 2, stopping := none } else p := by
  obtain ⟨l, -, e⟩ := savePart_eq s q
  have h1 := vacated_frame h q
  rw [e, (Screened.screenFreed (suspended_frame (T := fun _ => False) h1.wf q l).wf _).parts]
  show (s.vacated q).parts.map _ = _
  rw [vacated_keeps State.parts (fun _ _ _ => rfl) (fun _ _ _ => rfl)]

theorem savePart_saves (h : s.wf) (q : Part) : ∃ l : List SavedCore,
    l.map (fun c => (c.y, c.x)) = (s.partCores q).map (fun c => (c.1, c.2.1))
      ∧ (s.savePart q).saves = Assoc.put q.pid l s.saves := by
  obtain ⟨l, hl, e⟩ := savePart_eq s q
  have h1 := vacated_frame h q
  refine ⟨l, hl, ?_⟩
  rw [e, (Screened.screenFreed (suspended_frame (T := fun _ => False) h1.wf q l).wf _).saves]
  show Assoc.put q.pid l (s.vacated q).saves = _
  rw [vacated_keeps State.saves (fun _ _ _ => rfl) (fun _ _ _ => rfl)]

/-- The partition's cores are vacant once it is saved. -/
theorem savePart_vacant (h : s.wf) (q : Part) {S : Fin 8 → Prop} {t : Nat} (ht : t ∈ s.tilesOf q)
    (hs : ∀ i, S i → (s.th t i).canEnd) : ((s.savePart q).tile t).vacant S := by
  obtain ⟨l, -, e⟩ := savePart_eq s q
  have h1 := vacated_frame h q
  have hc : ∀ i, S i → ((s.areaSaved q).th t i).canEnd := fun i hi => by
    refine savedCores_canEnd _ ?_
    have e' := paWrites_keeps (fun w : State => w.th t i) (fun _ _ _ => rfl) s q.save (s.areaHead q)
    rw [show (s.paWrites q.save (s.areaHead q)).th t i = s.th t i from e']
    exact hs i hi
  have hv : ((s.vacated q).tile t).vacant S := vacates_vacant ht (areaSaved_frame h q).wf hc
  rw [e]
  exact hv.of_agrees ((Screened.screenFreed (suspended_frame (T := fun _ => False) h1.wf q l).wf _).tile t)

/-! ### The save area -/

/-- Addresses of a partition's save area, and of its RCB. -/
def Part.area (q : Part) (x : Nat) : Prop := within q.save (saveSize q.height q.width) x
def Part.block (q : Part) (x : Nat) : Prop := within q.rcb 256 x

/-- The save area and the RCB lie in HBM, apart, and the cores can be saved. -/
structure State.fits (s : State) (q : Part) : Prop where
  aligned : q.save % 4096 = 0
  inside : q.save + saveSize q.height q.width ≤ s.hbmEnd
  rcbAligned : q.rcb % 256 = 0
  rcbInside : q.rcb + 256 ≤ s.hbmEnd
  apart : ∀ x, q.block x → ¬q.area x
  cores : ∀ t ∈ s.tilesOf q, s.inFrame t = true ∧ (s.tile t).inbox.length ≤ 32

/-- u holds the save area of a partition as it was in s: its header and the blocks of its cores. -/
structure AreaSaved (s u : State) (q : Part) : Prop where
  extent : u.paRead q.save = q.extent
  gen : u.paRead (q.save + 8) = nd (field 48 16 s.gen + b2n q.rolled)
  tsc : u.paRead (q.save + 16) = nd s.tsc
  blocks : ∀ c ∈ s.partCores q, BlockSaved s u (blockAt q c.1 c.2.1) c.2.2

theorem saveSize_ge (h w : Nat) : 0x1000 ≤ saveSize h w := Nat.le_add_right ..

theorem AreaSaved.kept {W : Nat → Prop} {q : Part} (h : AreaSaved s u q) (hw : HbmWrites W u v) (hf : s.fits q)
    (hc : u.code = s.code) (ho : ∀ x, q.area x → ¬W x) : AreaSaved s v q := by
  have hs := saveSize_ge q.height q.width
  have ha := hf.aligned
  have hi := hf.inside
  have hend : u.hbmEnd = s.hbmEnd := hbmEnd_of_code hc
  have head (k : Nat) (hk : k + 8 ≤ 0x1000) (x : Nat) (hx : within (q.save + k) 8 x) : ¬W x :=
    ho x ⟨by have := hx.1; omega, by have := hx.2; omega⟩
  refine ⟨?_, ?_, ?_, fun c hcm => ?_⟩
  · exact (hw.paRead (a := q.save) (by omega) (by omega) (head 0 (by omega))).trans h.extent
  · exact (hw.paRead (a := q.save + 8) (by omega) (by omega) (head 8 (by omega))).trans h.gen
  · exact (hw.paRead (a := q.save + 16) (by omega) (by omega) (head 16 (by omega))).trans h.tsc
  · obtain ⟨hy, hx, -⟩ := mem_partCores hcm
    obtain ⟨b1, b2⟩ := blockAt_inside hy hx
    refine (h.blocks c hcm).kept hw (blockAt_aligned ha _ _) (by omega) (hf.cores _ (List.mem_map.2 ⟨c, hcm, rfl⟩)).2
      fun x hx => ho x ⟨?_, ?_⟩
    · have := hx.1; omega
    · have := hx.2; omega

theorem AreaSaved.of_frame {T W : Nat → Prop} {q : Part} (h : AreaSaved v u q) (hf : s.fits q) (hw : HbmWrites W s v)
    (hfr : Frame T s v) (ht : ∀ t ∈ s.tilesOf q, ¬T t) : AreaSaved s u q where
  extent := h.extent
  gen := by rw [← hw.gen]; exact h.gen
  tsc := by rw [← hw.tsc]; exact h.tsc
  blocks c hc := by
    have hct : c.2.2 ∈ s.tilesOf q := List.mem_map.2 ⟨c, hc, rfl⟩
    exact (h.blocks c (hfr.partCores q ▸ hc)).of_agrees (hf.cores _ hct).1 hw (hfr.tiles _ (ht _ hct))

theorem inFrame_of_code (h : u.code = s.code) (t : Nat) : u.inFrame t = s.inFrame t := by
  unfold State.inFrame State.side
  rw [h]

theorem State.fits.of_frame {T : Nat → Prop} {q : Part} (h : s.fits q) (hfr : Frame T s u) (ht : ∀ t ∈ s.tilesOf q, ¬T t) :
    u.fits q where
  aligned := h.aligned
  inside := by rw [hbmEnd_of_code hfr.code]; exact h.inside
  rcbAligned := h.rcbAligned
  rcbInside := by rw [hbmEnd_of_code hfr.code]; exact h.rcbInside
  apart := h.apart
  cores t hm := by
    rw [hfr.tilesOf] at hm
    rw [inFrame_of_code hfr.code, (hfr.tiles t (ht t hm)).inbox]
    exact h.cores t hm

section
variable {q : Part} (h : s.wf) (hf : s.fits q)
include h hf

theorem areaSaved_spec : HbmWrites q.area s (s.areaSaved q) ∧ AreaSaved s (s.areaSaved q) q := by
  have hs := saveSize_ge q.height q.width
  have ha := hf.aligned
  have hi := hf.inside
  have hlen : (s.areaHead q).length = 512 := by
    rw [State.areaHead, List.length_append, List.length_replicate]
    rfl
  have a0 := area_paWrites (s := s) (a := q.save) (l := s.areaHead q) (by omega) (by omega)
  have f0 := paWrites_frame (T := fun _ => False) h q.save (s.areaHead q)
  have hend : (s.paWrites q.save (s.areaHead q)).hbmEnd = s.hbmEnd := hbmEnd_of_code f0.code
  obtain ⟨w1, b1⟩ := savedCores_spec ha f0.wf (l := s.partCores q) (partCores_tiles h q) fun c hc => by
    obtain ⟨hy, hx, -⟩ := mem_partCores hc
    have hct := hf.cores c.2.2 (List.mem_map.2 ⟨c, hc, rfl⟩)
    refine ⟨hy, hx, ?_, (inFrame_of_code f0.code _).trans hct.1, ?_⟩
    · have := (blockAt_inside hy hx).2
      omega
    · rw [(f0.tiles c.2.2 id).inbox]
      exact hct.2
  have w0 : HbmWrites (within q.save 0x1000) s (s.paWrites q.save (s.areaHead q)) :=
    a0.writes.widen (Nat.le_refl _) (by rw [hlen])
  have apart (x : Nat) (hx : within q.save 0x1000 x) : ¬inBlocks q (s.partCores q) x := by
    rintro ⟨c, hc, hx'⟩
    obtain ⟨hy, hxw, -⟩ := mem_partCores hc
    have := (blockAt_inside hy hxw).1
    have := hx.2
    have := hx'.1
    omega
  have head (k : Nat) (hk : k < 3) :
      (s.areaSaved q).paRead (q.save + 8 * k) = (s.paWrites q.save (s.areaHead q)).paRead (q.save + 8 * k) :=
    w1.paRead (by omega) (by omega) fun x hx => apart x ⟨by have := hx.1; omega, by have := hx.2; omega⟩
  have word (k : Nat) (hk : k < 3) : (s.areaHead q)[k]? =
      ([q.extent, nd (field 48 16 s.gen + b2n q.rolled), nd s.tsc] : List Dword)[k]? := List.getElem?_append_left hk
  have inside : ∀ x, inBlocks q (s.partCores q) x → q.area x := by
    rintro x ⟨c, hc, hx⟩
    obtain ⟨hy, hxw, -⟩ := mem_partCores hc
    obtain ⟨b1, b2⟩ := blockAt_inside hy hxw
    exact ⟨by have := hx.1; omega, by have := hx.2; omega⟩
  have w0' : HbmWrites q.area s (s.paWrites q.save (s.areaHead q)) := w0.widen (Nat.le_refl _) (by omega)
  refine ⟨w0'.trans (w1.mono inside), ⟨?_, ?_, ?_, fun c hc => ?_⟩⟩
  · exact (head 0 (by omega)).trans (a0.holds 0 _ ((word 0 (by omega)).trans rfl))
  · exact (head 1 (by omega)).trans (a0.holds 1 _ ((word 1 (by omega)).trans rfl))
  · exact (head 2 (by omega)).trans (a0.holds 2 _ ((word 2 (by omega)).trans rfl))
  · exact (b1 c hc).of_agrees (hf.cores c.2.2 (List.mem_map.2 ⟨c, hc, rfl⟩)).1 w0 (f0.tiles c.2.2 id)

theorem savePart_spec : HbmWrites (fun x => q.area x ∨ q.block x) s (s.savePart q) ∧ AreaSaved s (s.savePart q) q := by
  obtain ⟨w1, a1⟩ := areaSaved_spec h hf
  have f1 := vacated_frame h q
  obtain ⟨l, -, e⟩ := savePart_eq s q
  have hcode := (areaSaved_frame h q).code
  have w2 : HbmWrites (fun _ => False) (s.areaSaved q) (s.vacated q) := by
    unfold State.vacated
    refine .foldl fun w c _ _ => .of_mem ?_ ?_ ?_ ?_
    · exact vacate_keeps State.code (fun _ _ _ => rfl) w c.2.2
    · exact vacate_keeps State.gen (fun _ _ _ => rfl) w c.2.2
    · exact vacate_keeps State.tick (fun _ _ _ => rfl) w c.2.2
    · exact vacate_keeps State.mem (fun _ _ _ => rfl) w c.2.2
  have hrcb : HbmWrites (within q.rcb 8) (s.vacated q) ((s.vacated q).suspended q l) := by
    have hr := hf.rcbAligned
    have hri := hf.rcbInside
    have hend : (s.vacated q).hbmEnd = s.hbmEnd := hbmEnd_of_code f1.code
    have h1 : HbmWrites (within q.rcb 8) (s.vacated q) ((s.vacated q).noted q l) := .of_mem rfl rfl rfl rfl
    have h2 : HbmWrites (within q.rcb 8) ((s.vacated q).noted q l) (((s.vacated q).noted q l).rcbSet q.rcb 2) :=
      hbmWrites_paWrite (by omega) (by rw [hbmEnd_of_code h1.code]; omega) _
    exact h1.trans (h2.trans (.of_mem rfl rfl rfl rfl))
  have w3 : HbmWrites q.block (s.vacated q) ((s.vacated q).suspended q l) := hrcb.widen (Nat.le_refl _) (by omega)
  have w4 : HbmWrites q.block ((s.vacated q).suspended q l) (s.savePart q) := by
    rw [e]
    exact (Screened.screenFreed (suspended_frame (T := fun _ => False) f1.wf q l).wf _).hbm
  have w34 : HbmWrites q.block (s.areaSaved q) (s.savePart q) := (w2.mono fun _ hx => hx.elim).trans (w3.trans w4)
  exact ⟨(w1.mono fun _ => .inl).trans (w34.mono fun _ => .inr),
    a1.kept w34 hf hcode fun x hx hb => hf.apart x hb hx⟩

end

/-! ### The partitions of a suspension -/

/-- No two of the partitions share a number, and each one's area lies apart from the others' areas and RCBs. -/
def areasOk (l : List Part) : Prop :=
  (l.map (·.pid)).Nodup ∧ ∀ p ∈ l, ∀ p' ∈ l, p'.pid ≠ p.pid → ∀ x, p.area x → ¬(p'.area x ∨ p'.block x)

theorem saveParts_spec {l : List Part} (h : s.wf) (hok : areasOk l) (hf : ∀ p ∈ l, s.fits p) :
    HbmWrites (fun x => ∃ p ∈ l, p.area x ∨ p.block x) s (l.foldl (·.savePart) s)
      ∧ (l.foldl (·.savePart) s).wf ∧ (l.foldl (·.savePart) s).code = s.code
      ∧ ∀ p ∈ l, AreaSaved s (l.foldl (·.savePart) s) p := by
  induction l generalizing s with
  | nil => exact ⟨.refl s, h, rfl, fun p hp => nomatch hp⟩
  | cons p l ih =>
    obtain ⟨hn, ho⟩ := hok
    obtain ⟨hpl, hn⟩ := List.nodup_cons.1 hn
    have hne (p' : Part) (hp' : p' ∈ l) : p'.pid ≠ p.pid := fun e => hpl (List.mem_map.2 ⟨p', hp', e⟩)
    have hfp := hf p (List.mem_cons_self ..)
    obtain ⟨w1, a1⟩ := savePart_spec h hfp
    have f1 := savePart_frame h p
    have hout (p' : Part) (hp' : p' ∈ l) (t : Nat) (ht : t ∈ s.tilesOf p') : ¬t ∈ s.tilesOf p := fun ht' =>
      hne p' hp' ((mem_tilesOf ht).symm.trans (mem_tilesOf ht'))
    obtain ⟨w2, hwf, hcode, a2⟩ := ih f1.wf
      ⟨hn, fun a ha b hb => ho a (List.mem_cons_of_mem p ha) b (List.mem_cons_of_mem p hb)⟩
      fun p' hp' => (hf p' (List.mem_cons_of_mem p hp')).of_frame f1 (hout p' hp')
    refine ⟨(w1.mono fun x hx => ⟨p, List.mem_cons_self .., hx⟩).trans
      (w2.mono fun x ⟨p', hp', hx⟩ => ⟨p', List.mem_cons_of_mem p hp', hx⟩), hwf, hcode.trans f1.code, fun p' hp' => ?_⟩
    rcases List.mem_cons.1 hp' with rfl | hp'
    · refine a1.kept w2 hfp f1.code fun x hx ⟨b, hb, hxb⟩ => ?_
      exact ho p' (List.mem_cons_self ..) b (List.mem_cons_of_mem _ hb) (hne b hb) x hx hxb
    · exact (a2 p' hp').of_frame (hf p' (List.mem_cons_of_mem p hp')) w1 f1 (hout p' hp')

end Sys2Proof.Machine
end

section
/-! # The drain of a close and the save of a suspension (O48) -/
namespace Sys2Proof.Machine

variable {s u v w : State}

/-! ### The partitions of a suspension saved -/

/-- Before q is saved: the grid, the registers and the mail stand, and the threads that q's cores had can end. -/
structure Unsaved (s : State) (q : Part) (w : State) : Prop where
  frame : Frame (fun _ => True) s w
  canEnd : ∀ t ∈ s.tilesOf q, ∀ i, (s.th t i).st ≠ .empty → (w.th t i).canEnd

/-- Once q is saved: it is suspended, its cores are vacant, and what is kept of them names their places. -/
structure Saved (s : State) (q : Part) (w : State) : Prop where
  frame : Frame (fun _ => True) s w
  state : ∀ p ∈ w.parts, p.pid = q.pid → p.state = 2 ∧ p.stopping = none
  vacant : ∀ t ∈ s.tilesOf q, (w.tile t).vacant fun i => (s.th t i).st ≠ .empty
  places : (Assoc.get [] w.saves q.pid).map (fun c => (c.y, c.x)) = (s.partCores q).map fun c => (c.1, c.2.1)

section
variable {q p : Part}

theorem Unsaved.refl (h : s.wf) : Unsaved s q s := ⟨.refl h, fun _ _ _ => .inl⟩

theorem Saved.unsaved (h : Saved s q w) : Unsaved s q w := ⟨h.frame, fun t ht i hi => .inr ((h.vacant t ht).2.2.2 i hi)⟩

theorem Frame.savePart (h : Frame (fun _ => True) s w) : Frame (fun _ => True) s (w.savePart p) :=
  h.trans ((savePart_frame h.wf p).mono fun _ _ => trivial)

theorem Unsaved.own (h : Unsaved s q w) : Saved s q (w.savePart q) where
  frame := h.frame.savePart
  state p hp e := by
    rw [savePart_parts h.frame.wf] at hp
    obtain ⟨p0, -, rfl⟩ := List.mem_map.1 hp
    split at e <;> rename_i he
    · rw [if_pos he]; exact ⟨rfl, rfl⟩
    · exact absurd e he
  vacant t ht := savePart_vacant h.frame.wf q (h.frame.tilesOf q ▸ ht) (h.canEnd t ht)
  places := by
    obtain ⟨l, hl, e⟩ := savePart_saves h.frame.wf q
    rw [e, Assoc.get_put_same, hl, h.frame.partCores]

/-- Another partition's cores are other tiles. -/
theorem savePart_other (h : Frame (fun _ => True) s w) (hne : p.pid ≠ q.pid) {t : Nat} (ht : t ∈ s.tilesOf q) :
    ((w.savePart p).tile t).agrees (w.tile t) :=
  (savePart_frame h.wf p).tiles t fun ht' =>
    hne ((mem_tilesOf ht').symm.trans (mem_tilesOf (h.tilesOf q ▸ ht)))

theorem Unsaved.other (h : Unsaved s q w) (hne : p.pid ≠ q.pid) : Unsaved s q (w.savePart p) where
  frame := h.frame.savePart
  canEnd t ht i hi := by
    have e : (w.savePart p).th t i = w.th t i :=
      congrArg (fun l : Vector Thread 8 => l[i]) (savePart_other h.frame hne ht).threads
    rw [e]
    exact h.canEnd t ht i hi

theorem Saved.other (h : Saved s q w) (hne : p.pid ≠ q.pid) : Saved s q (w.savePart p) where
  frame := h.frame.savePart
  state k hk e := by
    rw [savePart_parts h.frame.wf] at hk
    obtain ⟨p0, hp0, rfl⟩ := List.mem_map.1 hk
    split at e <;> rename_i he
    · exact absurd (he.symm.trans e) hne
    · rw [if_neg he]; exact h.state p0 hp0 e
  vacant t ht := (h.vacant t ht).of_agrees (savePart_other h.frame hne ht)
  places := by
    obtain ⟨l, -, e⟩ := savePart_saves h.frame.wf p
    rw [e, Assoc.get_put_other _ _ _ (Ne.symm hne)]
    exact h.places

theorem Saved.foldl {l : List Part} (hl : ∀ p ∈ l, p = q ∨ p.pid ≠ q.pid) (h : Saved s q w) :
    Saved s q (l.foldl (·.savePart) w) := by
  induction l generalizing w with
  | nil => exact h
  | cons p l ih =>
    refine ih (fun p hp => hl p (List.mem_cons_of_mem _ hp)) ?_
    rcases hl p (List.mem_cons_self ..) with rfl | hne
    · exact h.unsaved.own
    · exact h.other hne

theorem Unsaved.foldl {l : List Part} (hl : ∀ p ∈ l, p = q ∨ p.pid ≠ q.pid) (hq : q ∈ l) (h : Unsaved s q w) :
    Saved s q (l.foldl (·.savePart) w) := by
  induction l generalizing w with
  | nil => exact nomatch hq
  | cons p l ih =>
    have hl' : ∀ p ∈ l, p = q ∨ p.pid ≠ q.pid := fun p hp => hl p (List.mem_cons_of_mem _ hp)
    by_cases e : p = q
    · subst e
      exact Saved.foldl (l := l) hl' h.own
    · rcases List.mem_cons.1 hq with e' | hq
      · exact absurd e'.symm e
      · exact ih hl' hq (h.other ((hl p (List.mem_cons_self ..)).resolve_left e))

end

/-! ### The steps of a suspension -/

section
variable {q : Part} (hq : s.parts.find? (·.pid == q.pid) = some q) (hst : q.stopping.isSome = true)
  (htop : (s.parts.any fun p => q.parent != 0 && p.rcb == q.parent && p.stopping.isSome) = false)
  {fam : List Part} (hfam : fam = (s.family q.pid).filter (·.stopping.isSome))
  {ts : List Nat} (hts : ts = fam.flatMap s.tilesOf)
include hq hst htop hfam hts

/-- With its threads at rest a suspension seals its tiles, discards a stalled command, waits for the engines, and saves. -/
theorem suspendSave_still
    (hstill : (ts.all fun t => (s.tile t).drained && (s.tile t).isEmpty 6 && (s.tile t).isEmpty 7 && (s.tile t).atBoundary
      && (s.tile t).threads.toList.all (fun h => h.intervals.isEmpty)) = true)
    (hthr : threadsDrained s ts = true) :
    exec (.suspendSave q.pid) s = .next
      (if (ts.any fun t => !(s.tile t).sealed) = true then s.seal ts
        else if (ts.any fun t => ((s.tile t).chans[3]).stall.isSome) = true then ts.foldl (·.discardStalled) s
        else if (!(ts.all fun t => enginesIdle s t && matrixSettled (s.tile t))) = true ∨ (!netDrained s ts) = true then s
        else (fam.foldl (·.savePart) s).served q.pid 0) := by
  subst hts hfam
  generalize hT : ((s.family q.pid).filter (·.stopping.isSome)).flatMap s.tilesOf = ts at *
  show execSuspendSave q.pid s = _
  simp only [List.all_eq_true, Bool.and_eq_true] at hstill
  have h1 : (ts.all fun t => (s.tile t).drained && (s.tile t).isEmpty 6 && (s.tile t).isEmpty 7
      && (s.tile t).atBoundary) = true := by
    simp only [List.all_eq_true, Bool.and_eq_true]
    exact fun t ht => (hstill t ht).1
  have h2 : (ts.any fun t => (s.tile t).threads.toList.any fun h => !h.intervals.isEmpty) = false := by
    simp only [List.any_eq_false, List.any_eq_true, Bool.not_eq_true', not_exists, not_and, Bool.not_eq_false]
    exact fun t ht => (hstill t ht).2
  unfold execSuspendSave
  simp only [hq, hT]
  rw [if_neg (by simp [htop, Option.ne_none_iff_isSome.2 hst]), if_neg (by simp [h1, hthr]), if_neg (Bool.eq_false_iff.1 h2)]
  split
  · rfl
  · split
    · rfl
    · split <;> rfl

theorem suspendSave_saves
    (hstill : (ts.all fun t => (s.tile t).drained && (s.tile t).isEmpty 6 && (s.tile t).isEmpty 7 && (s.tile t).atBoundary
      && (s.tile t).threads.toList.all (fun h => h.intervals.isEmpty) && (s.tile t).sealed && ((s.tile t).chans[3]).stall.isNone
      && enginesIdle s t && matrixSettled (s.tile t)) = true)
    (hthr : threadsDrained s ts = true) (hnet : netDrained s ts = true) :
    exec (.suspendSave q.pid) s = .next ((fam.foldl (·.savePart) s).served q.pid 0) := by
  have hall : ∀ t ∈ ts, _ := List.all_eq_true.1 hstill
  simp only [Bool.and_eq_true] at hall
  rw [suspendSave_still hq hst htop hfam hts ?_ hthr, if_neg, if_neg, if_neg]
  · simp only [hnet, Bool.not_true, Bool.false_eq_true, or_false, Bool.not_eq_true', Bool.not_eq_false, List.all_eq_true,
      Bool.and_eq_true]
    exact fun t ht => ⟨(hall t ht).1.2, (hall t ht).2⟩
  · simp only [Bool.not_eq_true, List.any_eq_false, Option.isSome_eq_false_iff]
    exact fun t ht => (hall t ht).1.1.2
  · simp only [Bool.not_eq_true, List.any_eq_false, Bool.not_eq_false']
    exact fun t ht => (hall t ht).1.1.1.2
  · simp only [List.all_eq_true (l := ts), Bool.and_eq_true]
    exact fun t ht => (hall t ht).1.1.1.1

end

/-- With the save areas apart each holds what its partition was. -/
theorem suspended_area {p : Part} {l : List Part} {pid : Nat} (h : s.wf)
    (hap : (l.map (·.pid)).Nodup ∧ ∀ p ∈ l, p.save % 4096 = 0 ∧ p.save + saveSize p.height p.width ≤ s.hbmEnd
      ∧ ∀ p' ∈ l, p'.rcb % 256 = 0 ∧ p'.rcb + 256 ≤ s.hbmEnd
        ∧ (p'.rcb + 256 ≤ p.save ∨ p.save + saveSize p.height p.width ≤ p'.rcb)
        ∧ (p' ≠ p → p'.save + saveSize p'.height p'.width ≤ p.save ∨ p.save + saveSize p.height p.width ≤ p'.save))
    (hts : ∀ t ∈ l.flatMap s.tilesOf, s.inFrame t = true ∧ (s.tile t).inbox.length ≤ 32) (hp : p ∈ l) :
    AreaSaved s ((l.foldl (·.savePart) s).served pid 0) p := by
  obtain ⟨hn, hap⟩ := hap
  have hfits (p : Part) (hp : p ∈ l) : s.fits p := by
    obtain ⟨h1, h2, h3⟩ := hap p hp
    obtain ⟨h4, h5, h6, -⟩ := h3 p hp
    exact ⟨h1, h2, h4, h5, fun x hx => within_apart (by omega) hx, fun t ht => hts t (List.mem_flatMap.2 ⟨p, hp, ht⟩)⟩
  have hok : areasOk l := by
    refine ⟨hn, fun a ha b hb hne x hx hx' => ?_⟩
    obtain ⟨-, -, h3⟩ := hap a ha
    obtain ⟨-, -, h6, h7⟩ := h3 b hb
    have h7 := h7 fun e => hne (congrArg Part.pid e)
    exact hx'.elim (within_apart (by omega) hx) (within_apart (by omega) hx)
  obtain ⟨-, -, hcode, ha⟩ := saveParts_spec h hok hfits
  exact (ha p hp).kept (W := fun _ => False) (served_replied ..).hbm (hfits p hp) hcode fun _ _ => id

/-! ### A stall declared at a sample -/

section
variable (s : State) (q : Part) (run timeout : Nat)

/-- A sample at which a stall is declared. -/
def State.stalled : State := (s.sampled q.pid run true).declareStall q timeout

theorem stalled_parts : (s.stalled q run timeout).parts = s.parts.map fun p =>
    if p.pid = q.pid then { p with quietRun := run, declared := true, owesNotice := true } else p := by
  rw [State.stalled, declareStall_parts]
  show (s.parts.map _).map _ = _
  rw [List.map_map]
  refine List.map_congr_left fun p _ => ?_
  by_cases e : p.pid = q.pid
  · simp only [Function.comp, if_pos e]
  · simp only [Function.comp, if_neg e]

theorem stalled_root : (s.stalled q run timeout).tile (s.rootTile q) =
    { s.tile (s.rootTile q) with evpend := (s.tile (s.rootTile q)).evpend ||| 2 } :=
  declareStall_root (s.sampled q.pid run true) q timeout

theorem stalled_mem (h : q.report = 0) : (s.stalled q run timeout).mem = s.mem := by
  rw [State.stalled, declareStall_mem, State.reported, if_pos h]
  rfl

theorem stalled_paRead (h : q.report ≠ 0) (a : Nat) :
    (s.stalled q run timeout).paRead a = ((s.sampled q.pid run true).report q timeout).paRead a := by
  have e : (s.sampled q.pid run true).reported q timeout = (s.sampled q.pid run true).report q timeout := if_neg h
  rw [← e]
  rfl

theorem stalled_byte (h : q.report ≠ 0) (k : Nat) :
    (s.stalled q run timeout).byte k = ((s.sampled q.pid run true).report q timeout).byte k := by
  have e : (s.sampled q.pid run true).reported q timeout = (s.sampled q.pid run true).report q timeout := if_neg h
  rw [← e]
  rfl

variable {s q}
variable (h0 : q.report ≠ 0) (h64 : q.report % 64 = 0) (he : q.report + 0x1040 ≤ s.hbmEnd)
include h0 h64 he

theorem stalled_header : WordsAt (s.stalled q run timeout) q.report [BitVec.ofNat 64 s.tsc,
    BitVec.ofNat 64 (q.pid % 2 ^ 16 * 2 ^ 48 + q.jobid % 2 ^ 32),
    BitVec.ofNat 64 ((s.stallEntries q).length % 2 ^ 32 * 2 ^ 32 + min 64 (s.stallEntries q).length),
    BitVec.ofNat 64 timeout] := by
  have e : field 0 32 q.jobid = q.jobid % 2 ^ 32 := Nat.mul_one _
  intro k
  have h := report_header (s := s.sampled q.pid run true) (timeout := timeout) h64 he k
  rw [e] at h
  exact (stalled_paRead s q run timeout h0 _).trans h

theorem stalled_entry {k : Nat} (hk : k < min 64 (s.stallEntries q).length) :
    WordsAt (s.stalled q run timeout) (q.report + 64 + 64 * k) ((s.stallEntries q).getD k []) := fun j =>
  (stalled_paRead s q run timeout h0 _).trans (report_entry (s := s.sampled q.pid run true) h64 he hk j)

theorem stalled_elsewhere {a : Nat} (ha : a < q.report ∨ q.report + 64 + 64 * min 64 (s.stallEntries q).length ≤ a)
    (hh : a < s.hbmEnd) : (s.stalled q run timeout).byte (s.paKey a) = s.byte (s.paKey a) :=
  (stalled_byte s q run timeout h0 _).trans (report_elsewhere (s := s.sampled q.pid run true) h64 he ha hh)

end

/-- Settles O48: each step of a close and of a suspension by what it leaves of the tiles, of HBM and of the mailboxes. The
tiles of a partition are found again after every step because the tiles are listed in order (`Frame`), and the saved
blocks stand because every later write lies outside of them (`AreaSaved.kept`). -/
theorem partitionsDrain : Obligations.PartitionsDrain := by
  unfold Obligations.PartitionsDrain
  intro s q pid fam answered topmost stopping jmstall due samples rest inside topmostAt saved outOf areasApart hwf hq hu
  refine ⟨?_, ?_, ?_, ?_, ?_, ?_, ?_⟩
  -- a close seals its tiles
  · intro ts hst htop he hs
    exact ⟨s.seal ts, closeDrain_seals hq hst htop rfl he hs, seal_sameButTiles s ts, tile_seal_mem s ts⟩
  -- and discards what has not started
  · intro ts hst htop hidle hnet hin hqd hn
    refine ⟨ts.foldl (·.discardAll) s, ?_, discardAll_parts s ts, fun t ht => ?_⟩
    · exact (closeDrain_drained hq hst htop rfl hidle hnet hin).trans (congrArg _ (if_pos hqd))
    · have hi : enginesIdle s t = true := by
        have := List.all_eq_true.1 hidle t ht
        simp only [Bool.and_eq_true] at this
        exact this.1.2
      rw [tile_discardAll hn ht]
      exact ⟨fun n => discarded_chans (started_of_enginesIdle hi n), fun c hc => discarded_ladle hc⟩
  -- and is gone
  · intro ts hst htop hidle hnet hin hqd
    refine ⟨s.closedDown q ts, ?_, fun p hp hs => closedDown_answered hwf hp hs, closedDown_parts hwf, fun t ht => ?_⟩
    · exact (closeDrain_drained hq hst htop rfl hidle hnet hin).trans (congrArg _ (if_neg (Bool.eq_false_iff.1 hqd)))
    · obtain ⟨h1, h2, h3, h4⟩ := closedDown_emptied (q := q) hwf ht
      have hcore := closedDown_core (q := q) hwf ht
      have hqf : q.pid ∈ fam.map (·.pid) := List.mem_map.2 ⟨q, mem_family (List.mem_of_find?_eq_some hq), rfl⟩
      have hin (p : Part) : (s.cleared (s.family q.pid) ts).holder q t p ↔ inside t p := by
        unfold State.holder
        rw [cleared_parts, cleared_core]
        refine ⟨fun ⟨h1, _, h3⟩ => ⟨h1, h3⟩, fun ⟨h1, h3⟩ => ⟨h1, fun e => ?_, h3⟩⟩
        have hno := (List.mem_filter.1 h1).2
        rw [e, memNat_iff.2 hqf] at hno
        exact Bool.false_ne_true hno
      refine ⟨h1, h2, h3, h4, fun hf off ho => closedDown_blank hwf ht hf off ho, fun p hp hone => ?_, fun hno => ?_⟩
      · rw [hcore, ownerAt_deepest (p := p) ((hin p).2 hp.1) hp.2.1 ?_ ?_]
        · rfl
        · exact fun c hc => hp.2.2 c ((hin c).1 hc)
        · exact fun p' hp' h2 ht => hone p' ⟨(hin p').1 hp', h2, fun c hc => ht c ((hin c).2 hc)⟩
      · rw [hcore, ownerAt_none fun p hp => hno p ((hin p).1 hp)]
        rfl
  -- a suspension saves its partitions
  · intro ts hst htop hstill hthr hnet
    have hqs : q ∈ stopping := List.mem_filter.2 ⟨mem_family (List.mem_of_find?_eq_some hq), hst⟩
    have hl : ∀ p ∈ stopping, p = q ∨ p.pid ≠ q.pid := fun p hp =>
      (Classical.em (p.pid = q.pid)).imp_left (hu p (mem_parts_of_family (List.mem_filter.1 hp).1))
    obtain ⟨hframe, hstate, hvacant, hplaces⟩ := (Unsaved.refl hwf).foldl hl hqs
    have hr := served_replied (stopping.foldl (·.savePart) s) q.pid 0
    refine ⟨(stopping.foldl (·.savePart) s).served q.pid 0, suspendSave_saves hq hst htop rfl rfl hstill hthr hnet,
      fun p hp hs => ?_, fun p hp => hstate p (hr.parts ▸ hp), fun t ht => ?_, ?_, fun hap hts p hp => ?_⟩
    · have h := served_mail (stopping.foldl (·.savePart) s) q.pid 0 (p := p) (hframe.packages ▸ hp) (hframe.mail p ▸ hs)
      rwa [hframe.mail p] at h
    · obtain ⟨h1, h2, h3, h4⟩ := hvacant t ht
      have e := hr.tile t
      refine ⟨(congrArg Tile.inbox e).trans h1, (congrArg Tile.ladle e).trans h2, (congrArg (·.matrix.queue) e).trans h3,
        (congrArg Tile.core e).trans (hframe.regs t), fun i hi => ?_⟩
      exact (congrArg (fun x : Tile => (x.th i).st) e).trans (h4 i hi).1
    · rw [hr.saves]
      exact hplaces
    · have ha := suspended_area (pid := q.pid) hwf hap hts hp
      refine ⟨ha.extent, ha.gen, ha.tsc, fun y x t hc => ?_⟩
      obtain ⟨b1, b2, b3, b4⟩ := ha.blocks (y, x, t) hc
      refine ⟨b1, fun i => ⟨fun n w hn => ?_, fun n w hn => ?_⟩, b4⟩
      · rw [← b2 i n w hn, ← Nat.add_assoc]
      · rw [← b3 i n w hn, ← Nat.add_assoc]
  -- and seals its tiles before
  · intro ts hst htop hstill hthr hs
    refine ⟨s.seal ts, ?_, seal_sameButTiles s ts, tile_seal_mem s ts⟩
    exact (suspendSave_still hq hst htop rfl rfl hstill hthr).trans (congrArg _ (if_pos hs))
  -- the bound on quiescing
  · intro since p hst ht hp hjob hdom h1
    refine ⟨(s.closeDomain q.jobid q.fdom 0 0 0).served q.pid 7, exec_quiesceBoundExceeded hq hst ht,
      fun k hk hs => closeDomain_answered s q.jobid q.fdom hk hs, ?_⟩
    rw [(served_replied ..).parts, ← hjob, ← hdom]
    exact closeDomain_closes hp h1
  -- quiet samples
  · intro ho hs hst
    refine ⟨fun hb => ?_, fun hb hd => ?_, fun hb hd => ?_⟩
    · exact ⟨_, quietSample_busy hq ho hs hst hb, rfl, rfl⟩
    · exact ⟨_, quietSample_quiet hq ho hs hst hu hb hd, rfl, rfl⟩
    · refine ⟨s.stalled q (q.quietRun + 1) (bits (s.stallOf q) 0 32), quietSample_quiet hq ho hs hst hu hb hd,
        stalled_parts .., stalled_root .., stalled_mem s q _ _, fun h0 h64 he => ?_⟩
      exact ⟨stalled_header _ _ h0 h64 he, fun k hk => stalled_entry _ _ h0 h64 he hk,
        fun a ha hh => stalled_elsewhere _ _ h0 h64 he ha hh⟩

end Sys2Proof.Machine
end

section
/-! # What the formats' operations round to

The value of an encoding, R71, rises with the encoding's magnitude, and a magnitude is a whole number of the steps of its
binade. So the magnitude that `Fmt.round` builds is the encoding of the rounded value, and it exceeds the largest one
exactly where that value does (R74). The conversions of R77 follow from this and from how an encoding is read. -/

namespace Sys2Proof.Machine

/-! ### The nearest integer (R74) -/

theorem nearest_self (n : ℤ) : Nearest n n := by
  unfold Nearest
  norm_num

theorem Nearest.neg {r : ℚ} {n : ℤ} (h : Nearest r n) : Nearest (-r) (-n) := by
  have e : |-r - ((-n : ℤ) : ℚ)| = |r - n| := by
    rw [← abs_neg]
    congr 1
    push_cast
    ring
  refine ⟨e ▸ h.1, fun ht => ?_⟩
  have := h.2 (e ▸ ht)
  omega

theorem Nearest.le_of_lt {r : ℚ} {n b : ℤ} (h : Nearest r n) (hb : r < b) : n ≤ b := by
  have := (abs_le.1 h.1).1
  have : (n : ℚ) < ((b + 1 : ℤ) : ℚ) := by push_cast; linarith
  have := Int.cast_lt.1 this
  omega

theorem Nearest.ge_of_le {r : ℚ} {n b : ℤ} (h : Nearest r n) (hb : (b : ℚ) ≤ r) : b ≤ n := by
  have := (abs_le.1 h.1).2
  have : ((b - 1 : ℤ) : ℚ) < (n : ℚ) := by push_cast; linarith
  have := Int.cast_lt.1 this
  omega

theorem nearest_of_lt {r : ℚ} {n : ℤ} (h : |r - n| < 1 / 2) : Nearest r n := ⟨h.le, fun e => absurd e h.ne⟩

theorem nearest_of_even {r : ℚ} {n : ℤ} (h : |r - n| = 1 / 2) (hn : n % 2 = 0) : Nearest r n := ⟨h.le, fun _ => hn⟩

/-- `roundShift` is the rounding of a quotient by a power of two: its remainder is below, above or at half the divisor. -/
theorem nearest_roundShift (m k : Nat) : Nearest (m / 2 ^ k) (roundShift m k) := by
  have hd : (0 : ℚ) < 2 ^ k := by positivity
  have hv : (m : ℚ) / 2 ^ k = (m / 2 ^ k : ℕ) + (m % 2 ^ k : ℕ) / 2 ^ k := by
    rw [add_div' _ _ _ hd.ne', div_left_inj' hd.ne']
    exact_mod_cast (Nat.div_add_mod' m (2 ^ k)).symm
  have hx : m % 2 ^ k < 2 ^ k := Nat.mod_lt _ (Nat.two_pow_pos k)
  rw [hv]
  unfold roundShift
  generalize m / 2 ^ k = q at *
  generalize m % 2 ^ k = x at *
  have h0 : (0 : ℚ) ≤ x / 2 ^ k := by positivity
  have h1 : (x : ℚ) / 2 ^ k < 1 := (div_lt_one hd).2 (by exact_mod_cast hx)
  dsimp only
  split
  case isTrue h =>
    have h2 : (x : ℚ) / 2 ^ k < 1 / 2 := (div_lt_div_iff₀ hd two_pos).2 (by rw [one_mul]; exact_mod_cast h)
    refine nearest_of_lt ?_
    push_cast
    exact abs_lt.2 ⟨by linarith, by linarith⟩
  case isFalse h =>
    split
    case isTrue h' =>
      have h2 : 1 / 2 < (x : ℚ) / 2 ^ k := (div_lt_div_iff₀ two_pos hd).2 (by rw [one_mul]; exact_mod_cast h')
      refine nearest_of_lt ?_
      push_cast
      exact abs_lt.2 ⟨by linarith, by linarith⟩
    case isFalse h' =>
      have h2 : (x : ℚ) / 2 ^ k = 1 / 2 := (div_eq_div_iff hd.ne' two_ne_zero).2 (by
        rw [one_mul]
        exact_mod_cast (by omega : x * 2 = 2 ^ k))
      rw [h2]
      refine nearest_of_even ?_ (by omega)
      obtain hq | hq := Nat.mod_two_eq_zero_or_one q <;> rw [hq] <;> push_cast <;> norm_num

/-! ### The value of a magnitude (R71) -/

/-- The binade of a magnitude, the subnormal values being in that of the least normal ones, and the value of a magnitude:
so many steps of its binade. -/
def binade (f : Fmt) (m : Nat) : Nat := m / 2 ^ f.frac - 1
def magValue (f : Fmt) (m : Nat) : ℚ :=
  ((m - binade f m * 2 ^ f.frac : ℕ) : ℚ) * 2 ^ ((binade f m : ℤ) + 1 - f.bias - f.frac)

/-- n steps of binade j, the last of which is the first value of the next binade. -/
theorem magValue_steps (f : Fmt) {j n : Nat} (hj : j = 0 ∨ 2 ^ f.frac ≤ n) (hn : n ≤ 2 ^ (f.frac + 1)) :
    magValue f (j * 2 ^ f.frac + n) = n * 2 ^ ((j : ℤ) + 1 - f.bias - f.frac) := by
  have hp : 0 < 2 ^ f.frac := Nat.two_pow_pos _
  have hdiv : (j * 2 ^ f.frac + n) / 2 ^ f.frac = j + n / 2 ^ f.frac := by
    rw [Nat.add_comm, Nat.add_mul_div_right _ _ hp, Nat.add_comm]
  rw [pow_succ] at hn
  obtain hlt | rfl := Nat.lt_or_eq_of_le hn
  · have hb : binade f (j * 2 ^ f.frac + n) = j := by
      unfold binade
      rw [hdiv]
      have h2 : n / 2 ^ f.frac < 2 := Nat.div_lt_of_lt_mul hlt
      obtain rfl | hj := hj
      · omega
      · have := (Nat.one_le_div_iff hp).2 hj
        omega
    rw [magValue, hb, Nat.add_sub_cancel_left]
  · have hb : binade f (j * 2 ^ f.frac + 2 ^ f.frac * 2) = j + 1 := by
      unfold binade
      rw [hdiv, Nat.mul_div_cancel_left _ hp]
      omega
    have hs : j * 2 ^ f.frac + 2 ^ f.frac * 2 - (j + 1) * 2 ^ f.frac = 2 ^ f.frac := by
      rw [Nat.add_mul]
      omega
    rw [magValue, hb, hs]
    push_cast
    rw [mul_assoc, ← zpow_one_add₀ two_ne_zero]
    ring_nf

/-- Every magnitude is a number of steps of a binade that is not the last one. -/
theorem exists_steps (f : Fmt) (m : Nat) :
    ∃ j n, m = j * 2 ^ f.frac + n ∧ (j = 0 ∨ 2 ^ f.frac ≤ n) ∧ n < 2 ^ (f.frac + 1) := by
  have hm := Nat.div_add_mod m (2 ^ f.frac)
  have hlt := Nat.mod_lt m (Nat.two_pow_pos f.frac)
  rw [pow_succ]
  obtain h0 | ⟨j, hj⟩ : m / 2 ^ f.frac = 0 ∨ ∃ j, m / 2 ^ f.frac = j + 1 :=
    (Nat.eq_zero_or_pos _).imp id fun h => ⟨_, (Nat.succ_pred_eq_of_pos h).symm⟩
  · rw [h0] at hm
    exact ⟨0, m, by omega, .inl rfl, by omega⟩
  · refine ⟨j, 2 ^ f.frac + m % 2 ^ f.frac, ?_, .inr (by omega), by omega⟩
    rw [hj, Nat.mul_add, Nat.mul_comm] at hm
    omega

theorem magValue_strictMono (f : Fmt) : StrictMono (magValue f) := by
  refine strictMono_nat_of_lt_succ fun m => ?_
  obtain ⟨j, n, rfl, hj, hn⟩ := exists_steps f m
  rw [Nat.add_assoc, magValue_steps f hj hn.le, magValue_steps f (hj.imp id (Nat.le_succ_of_le ·)) hn]
  exact mul_lt_mul_of_pos_right (by exact_mod_cast Nat.lt_succ_self n) (by positivity)

/-- An encoding stands for the value of its magnitude, with its sign. -/
theorem realOf_eq (f : Fmt) (v : Nat) :
    realOf f v = (if signField f v then -1 else 1) * magValue f (v % 2 ^ (f.frac + f.expo)) := by
  have hp : 0 < 2 ^ f.frac := Nat.two_pow_pos _
  have hp' : (2 : ℚ) ^ f.frac ≠ 0 := by positivity
  have hE : v % 2 ^ (f.frac + f.expo) / 2 ^ f.frac = expField f v := by
    rw [pow_add, Nat.mod_mul_right_div_self]
    rfl
  have hF : v % 2 ^ (f.frac + f.expo) % 2 ^ f.frac = fracField f v := by
    rw [pow_add, Nat.mod_mul_right_mod]
    rfl
  have hlt : fracField f v < 2 ^ f.frac := Nat.mod_lt _ hp
  have hm := Nat.div_add_mod (v % 2 ^ (f.frac + f.expo)) (2 ^ f.frac)
  rw [hE, hF] at hm
  unfold realOf
  congr 1
  rw [← hm]
  split
  case isTrue h0 =>
    rw [h0, mul_zero, ← zero_mul (2 ^ f.frac), magValue_steps f (.inl rfl) (by rw [pow_succ]; omega)]
    norm_num
  case isFalse h0 =>
    obtain ⟨j, hj⟩ := Nat.exists_eq_succ_of_ne_zero h0
    have hs : 2 ^ f.frac * expField f v + fracField f v = j * 2 ^ f.frac + (2 ^ f.frac + fracField f v) := by
      rw [hj, Nat.succ_eq_add_one]
      ring
    rw [hs, magValue_steps f (.inr (Nat.le_add_right _ _)) (by rw [pow_succ]; omega), hj]
    push_cast
    rw [sub_eq_add_neg _ (f.frac : ℤ), zpow_add₀ two_ne_zero, zpow_neg, zpow_natCast]
    field_simp

theorem realOf_of_lt (f : Fmt) {m : Nat} (h : m < 2 ^ (f.frac + f.expo)) : realOf f m = magValue f m := by
  have hs : signField f m = false := by
    unfold signField
    rw [Nat.div_eq_of_lt h]
    rfl
  rw [realOf_eq, hs, Nat.mod_eq_of_lt h]
  simp

/-! ### Rounding (R74) -/

/-- The factor of a sign. -/
def signFactor (neg : Bool) : ℚ := if neg then -1 else 1

theorem zero_eq_signBit (f : Fmt) {neg : Bool} {p : Prop} [Decidable p] (h : p ↔ neg = true) : f.zero neg = signBit f p := by
  simp [Fmt.zero, signBit, Fmt.sign, h]

theorem infinity_eq_infinityOf {f : Fmt} (hf : f.inf = some ((2 ^ f.expo - 1) * 2 ^ f.frac)) (ovf : Bool) {neg : Bool}
    {p : Prop} [Decidable p] (h : p ↔ neg = true) : f.infinity neg ovf = infinityOf f p := by
  simp only [Fmt.infinity, hf, infinityOf, zero_eq_signBit f h]

/-- The formats of R70. -/
def IsFormat (f : Fmt) : Prop := f ∈ [fp32, bf16, e4m3, e5m2]

theorem isFormat_cases {f : Fmt} (h : IsFormat f) : f = fp32 ∨ f = bf16 ∨ f = e4m3 ∨ f = e5m2 := by
  simpa [IsFormat] using h

theorem largest_lt {f : Fmt} (h : IsFormat f) : f.largest < 2 ^ (f.frac + f.expo) := by
  obtain rfl | rfl | rfl | rfl := isFormat_cases h <;> decide

/-- What a value beyond the largest one is encoded as. -/
theorem overflow_eq {f : Fmt} (h : IsFormat f) (ovf : Bool) {neg : Bool} {p : Prop} [Decidable p] (hp : p ↔ neg = true) :
    (if f.frac < 7 then (if ovf then f.nan else f.zero neg + f.largest) else f.infinity neg ovf) =
      if f = fp32 ∨ f = bf16 then infinityOf f p else if ovf then f.nan else signBit f p + f.largest := by
  obtain rfl | rfl | rfl | rfl := isFormat_cases h
  · exact infinity_eq_infinityOf (f := fp32) rfl ovf hp
  · exact infinity_eq_infinityOf (f := bf16) rfl ovf hp
  · rw [zero_eq_signBit _ hp]; rfl
  · rw [zero_eq_signBit _ hp]; rfl

/-- The exponent to whose binade `Fmt.round` rounds, and the whole number of steps that it rounds to. -/
def roundExp (f : Fmt) (m : Nat) (e : ℤ) : ℤ := max ((Nat.log2 m : ℤ) + e) (1 - f.bias)
def roundSteps (f : Fmt) (m : Nat) (e : ℤ) : Nat :=
  let k := roundExp f m e - f.frac - e
  if 0 ≤ k then roundShift m k.toNat else m * 2 ^ (-k).toNat
/-- The magnitude that the rounding gives. -/
def roundMag (f : Fmt) (m : Nat) (e : ℤ) : Nat := (roundExp f m e - (1 - f.bias)).toNat * 2 ^ f.frac + roundSteps f m e

theorem round_eq (f : Fmt) (ovf neg : Bool) {m : Nat} (e : ℤ) (hm : m ≠ 0) : f.round ovf neg m e =
    if roundMag f m e ≤ f.largest then f.zero neg + roundMag f m e
    else if f.frac < 7 then (if ovf then f.nan else f.zero neg + f.largest) else f.infinity neg ovf :=
  if_neg hm

theorem round_zero (f : Fmt) (ovf neg : Bool) (e : ℤ) : f.round ovf neg 0 e = f.zero neg := rfl

/-- m × 2^e to the nearest integer: a shift to the left is exact, one to the right is rounded. -/
theorem nearest_shiftLeft (m : Nat) {e : ℤ} (h : 0 ≤ e) : Nearest (m * 2 ^ e) (m * 2 ^ e.toNat : ℕ) := by
  obtain ⟨n, rfl⟩ := Int.eq_ofNat_of_zero_le h
  have hv : (m : ℚ) * 2 ^ (n : ℤ) = ((m * 2 ^ n : ℕ) : ℤ) := by
    push_cast
    rfl
  rw [hv]
  exact nearest_self _

theorem nearest_shiftRight (m : Nat) {e : ℤ} (h : 0 ≤ -e) : Nearest (m * 2 ^ e) (roundShift m (-e).toNat) := by
  obtain ⟨n, hn⟩ := Int.eq_ofNat_of_zero_le h
  rw [hn, show e = -(n : ℤ) by omega, zpow_neg, ← div_eq_mul_inv]
  exact nearest_roundShift m n

section
variable {f : Fmt} {m : Nat} {e : ℤ}

theorem nearest_roundSteps : Nearest (m * 2 ^ e / 2 ^ (roundExp f m e - f.frac)) (roundSteps f m e) := by
  rw [mul_div_assoc, ← zpow_sub₀ two_ne_zero, ← neg_sub]
  unfold roundSteps
  dsimp only
  generalize hk : roundExp f m e - f.frac - e = k
  split
  · have h := nearest_shiftRight m (e := -k) (by omega)
    rwa [neg_neg] at h
  · exact nearest_shiftLeft m (by omega)

theorem roundExp_ge : 1 - (f.bias : ℤ) ≤ roundExp f m e := le_max_right _ _

theorem lt_roundExp : (m : ℚ) * 2 ^ e < 2 ^ (roundExp f m e + 1) := by
  have h1 : (m : ℚ) < 2 ^ ((Nat.log2 m : ℤ) + 1) := by exact_mod_cast Nat.lt_log2_self
  have h2 : (Nat.log2 m : ℤ) + 1 + e ≤ roundExp f m e + 1 := by
    have : (Nat.log2 m : ℤ) + e ≤ roundExp f m e := le_max_left _ _
    omega
  calc (m : ℚ) * 2 ^ e < 2 ^ ((Nat.log2 m : ℤ) + 1) * 2 ^ e := mul_lt_mul_of_pos_right h1 (by positivity)
    _ = 2 ^ ((Nat.log2 m : ℤ) + 1 + e) := (zpow_add₀ two_ne_zero _ _).symm
    _ ≤ 2 ^ (roundExp f m e + 1) := zpow_le_zpow_right₀ one_le_two h2

theorem roundExp_cases (hm : m ≠ 0) : roundExp f m e = 1 - f.bias ∨ (2 : ℚ) ^ roundExp f m e ≤ m * 2 ^ e := by
  refine (max_choice _ _).symm.imp id fun h => ?_
  rw [roundExp, h, zpow_add₀ two_ne_zero, zpow_natCast]
  exact mul_le_mul_of_nonneg_right (by exact_mod_cast Nat.log2_self_le hm) (by positivity)

theorem roundSteps_le : roundSteps f m e ≤ 2 ^ (f.frac + 1) := by
  have h : (m : ℚ) * 2 ^ e / 2 ^ (roundExp f m e - f.frac) < ((2 ^ (f.frac + 1) : ℤ) : ℚ) := by
    rw [div_lt_iff₀ (by positivity)]
    refine (lt_roundExp (f := f)).trans_eq ?_
    push_cast
    rw [← zpow_natCast, ← zpow_add₀ two_ne_zero]
    congr 1
    push_cast
    ring
  exact_mod_cast nearest_roundSteps.le_of_lt h

theorem roundSteps_ge (h : (2 : ℚ) ^ roundExp f m e ≤ m * 2 ^ e) : 2 ^ f.frac ≤ roundSteps f m e := by
  have h : ((2 ^ f.frac : ℤ) : ℚ) ≤ (m : ℚ) * 2 ^ e / 2 ^ (roundExp f m e - f.frac) := by
    rw [le_div_iff₀ (by positivity)]
    refine Eq.trans_le ?_ h
    push_cast
    rw [← zpow_natCast, ← zpow_add₀ two_ne_zero]
    congr 1
    ring
  exact_mod_cast nearest_roundSteps.ge_of_le h

theorem magValue_roundMag (hm : m ≠ 0) :
    magValue f (roundMag f m e) = roundSteps f m e * 2 ^ (roundExp f m e - f.frac) := by
  have h0 := roundExp_ge (f := f) (m := m) (e := e)
  rw [roundMag, magValue_steps f ((roundExp_cases hm).imp (fun h => by omega) roundSteps_ge) roundSteps_le]
  congr 2
  omega

/-- `Fmt.round` is the rounding of R74. -/
theorem rounded_round (hf : IsFormat f) (ovf neg : Bool) (hm : m ≠ 0) :
    Rounded f ovf (signFactor neg * (m * 2 ^ e)) (f.round ovf neg m e) := by
  have hpos : (0 : ℚ) < m * 2 ^ e := mul_pos (by exact_mod_cast Nat.pos_of_ne_zero hm) (by positivity)
  have habs : |signFactor neg * (m * 2 ^ e)| = m * 2 ^ e := by
    rw [abs_mul, abs_of_pos hpos]
    cases neg <;> simp [signFactor]
  have hneg : signFactor neg * (m * 2 ^ e) < 0 ↔ neg = true := by
    cases neg
    · simpa [signFactor] using hpos.le
    · simpa [signFactor] using hpos
  have hl := largest_lt hf
  have hmag : (roundSteps f m e : ℚ) * 2 ^ (roundExp f m e - f.frac) ≤ realOf f f.largest ↔ roundMag f m e ≤ f.largest := by
    rw [realOf_of_lt f hl, ← magValue_roundMag hm, (magValue_strictMono f).le_iff_le]
  refine ⟨roundExp f m e, roundSteps f m e, roundExp_ge, ?_, ?_, ?_, ?_⟩
  · rw [habs]
    exact lt_roundExp
  · rw [habs]
    exact roundExp_cases hm
  · rw [habs]
    exact nearest_roundSteps
  · dsimp only
    rw [round_eq f ovf neg e hm]
    by_cases h : roundMag f m e ≤ f.largest
    · rw [if_pos (hmag.2 h), if_pos h]
      refine ⟨roundMag f m e, h, ?_, by rw [zero_eq_signBit f hneg]⟩
      rw [realOf_of_lt f (h.trans_lt hl), magValue_roundMag hm]
    · rw [if_neg (mt hmag.1 h), if_neg h]
      exact overflow_eq hf ovf hneg

end

/-! ### Reading an encoding (R71) -/

/-- The encodings past the largest finite one are an infinity and NaNs, as in FP32 and BF16. -/
structure Fmt.HasInfinity (f : Fmt) : Prop where
  ne : f ≠ e4m3
  inf : f.inf = some ((2 ^ f.expo - 1) * 2 ^ f.frac)
  largest : f.largest + 1 = (2 ^ f.expo - 1) * 2 ^ f.frac

theorem fp32_hasInfinity : fp32.HasInfinity := ⟨by decide, rfl, rfl⟩
theorem bf16_hasInfinity : bf16.HasInfinity := ⟨by decide, rfl, rfl⟩

/-- What an encoding is read as: a NaN, an infinity, or a finite value, with the sign of the encoding. -/
inductive ReadsAs (f : Fmt) (x : Nat) : FVal → Prop
  | nan (hn : isNaN f x = true) (hi : isInfinity f x = false) : ReadsAs f x .nan
  | inf (hn : isNaN f x = false) (hi : isInfinity f x = true) : ReadsAs f x (.inf (signField f x))
  | fin (hn : isNaN f x = false) (hi : isInfinity f x = false) (m : Nat) (e : ℤ)
      (hv : realOf f x = signFactor (signField f x) * (m * 2 ^ e)) : ReadsAs f x (.fin (signField f x) m e)

theorem expField_eq (f : Fmt) (x : Nat) : expField f x = x % f.sign / 2 ^ f.frac := by
  rw [Fmt.sign, pow_add, Nat.mod_mul_right_div_self]
  rfl

theorem fracField_eq (f : Fmt) (x : Nat) : fracField f x = x % f.sign % 2 ^ f.frac := by
  rw [Fmt.sign, pow_add, Nat.mod_mul_right_mod]
  rfl

/-- An encoding is past the largest finite one where its exponent field is all ones. -/
theorem largest_lt_iff {f : Fmt} (hf : f.HasInfinity) (x : Nat) :
    f.largest < x % f.sign ↔ expField f x = 2 ^ f.expo - 1 := by
  have hlt : expField f x < 2 ^ f.expo := Nat.mod_lt _ (Nat.two_pow_pos _)
  rw [Nat.lt_iff_add_one_le, hf.largest, ← Nat.le_div_iff_mul_le (Nat.two_pow_pos _), ← expField_eq]
  omega

theorem inf_eq_iff {f : Fmt} (hf : f.HasInfinity) {x : Nat} (hx : expField f x = 2 ^ f.expo - 1) :
    f.inf = some (x % f.sign) ↔ fracField f x = 0 := by
  have hm := Nat.div_add_mod (x % f.sign) (2 ^ f.frac)
  rw [← expField_eq, ← fracField_eq, hx, Nat.mul_comm] at hm
  rw [hf.inf, Option.some_inj, ← hm]
  omega

theorem read_finite {f : Fmt} {x : Nat} (h : ¬f.largest < x % f.sign) : ∃ m e,
    f.read x = .fin (signField f x) m e ∧ realOf f x = signFactor (signField f x) * (m * 2 ^ e) := by
  unfold Fmt.read
  dsimp only
  rw [if_neg h, ← expField_eq, ← fracField_eq]
  by_cases h0 : expField f x = 0
  · refine ⟨_, _, if_pos h0, ?_⟩
    rw [realOf, if_pos h0]
    rfl
  · refine ⟨_, _, if_neg h0, ?_⟩
    rw [realOf, if_neg h0, zpow_sub₀ two_ne_zero _ (f.frac : ℤ), zpow_natCast, signFactor]
    congr 1
    push_cast
    field_simp

theorem read_past_largest {f : Fmt} {x : Nat} (h : f.largest < x % f.sign) :
    f.read x = if f.inf = some (x % f.sign) then .inf (signField f x) else .nan :=
  if_pos h

theorem readsAs_read {f : Fmt} (hf : f.HasInfinity) (x : Nat) : ReadsAs f x (f.read x) := by
  by_cases h : f.largest < x % f.sign
  · have hx := (largest_lt_iff hf x).1 h
    by_cases h0 : fracField f x = 0
    · rw [read_past_largest h, if_pos ((inf_eq_iff hf hx).2 h0)]
      exact .inf (by simp [isNaN, h0, hf.ne]) (by simp [isInfinity, hx, h0, hf.ne])
    · rw [read_past_largest h, if_neg (mt (inf_eq_iff hf hx).1 h0)]
      exact .nan (by simp [isNaN, hx, h0, hf.ne]) (by simp [isInfinity, h0])
  · have hx := mt (largest_lt_iff hf x).2 h
    obtain ⟨m, e, hr, hv⟩ := read_finite h
    rw [hr]
    exact .fin (by simp [isNaN, hx]) (by simp [isInfinity, hx]) m e hv

/-! ### Conversions (R77) -/

/-- An infinity converted: E4M3 has none. -/
theorem infinity_converted {g : Fmt} (hg : IsFormat g) (ovf neg : Bool) : g.infinity neg ovf =
    if g = e4m3 then (if ovf then g.nan else signBit g (neg = true) + g.largest) else infinityOf g (neg = true) := by
  obtain rfl | rfl | rfl | rfl := isFormat_cases hg
  · exact infinity_eq_infinityOf (f := fp32) rfl ovf Iff.rfl
  · exact infinity_eq_infinityOf (f := bf16) rfl ovf Iff.rfl
  · rw [← zero_eq_signBit _ Iff.rfl]; rfl
  · exact infinity_eq_infinityOf (f := e5m2) rfl ovf Iff.rfl

theorem signFactor_ne_zero (neg : Bool) : signFactor neg ≠ 0 := by cases neg <;> simp [signFactor]

theorem convertsTo_convert {f g : Fmt} (hg : IsFormat g) (ovf : Bool) {x : Nat} {v : FVal} (hr : ReadsAs f x v) :
    ConvertsTo f g ovf x (g.convert ovf v) := by
  cases hr with
  | nan hn hi => exact ⟨fun _ => rfl, by simp [hi], by simp [hn]⟩
  | inf hn hi => exact ⟨by simp [hn], fun _ => infinity_converted hg ovf _, by simp [hi]⟩
  | fin hn hi m e hv =>
    refine ⟨by simp [hn], by simp [hi], fun _ _ => ?_⟩
    have h0 : realOf f x = 0 ↔ m = 0 := by
      rw [hv, mul_eq_zero, mul_eq_zero]
      simp [signFactor_ne_zero, zpow_ne_zero]
    rw [ne_eq, h0]
    refine ⟨fun hm => ?_, fun hm => ?_⟩
    · rw [hm, Fmt.convert, round_zero, zero_eq_signBit _ Iff.rfl]
    · rw [hv]
      exact rounded_round hg ovf _ hm

theorem Nearest.signed {r : ℚ} {a : ℤ} (h : Nearest r a) (neg : Bool) :
    Nearest (signFactor neg * r) (if neg then -a else a) := by
  cases neg
  · rwa [signFactor, if_neg (by decide), if_neg (by decide), one_mul]
  · rw [signFactor, if_pos rfl, if_pos rfl, neg_one_mul]
    exact h.neg

theorem clamp_eq {lo hi : ℤ} (t : ℤ) (h : lo ≤ hi) : (if t < lo then lo else if hi < t then hi else t) = min hi (max lo t) := by
  split
  · omega
  · split <;> omega

theorem integerOf_toInteger {f : Fmt} {x : Nat} {v : FVal} (hr : ReadsAs f x v) {lo hi : ℤ} (h : lo ≤ hi) :
    IntegerOf f x lo hi (toInteger v lo hi) := by
  cases hr with
  | nan hn hi => exact ⟨fun _ => rfl, by simp [hi], by simp [hn]⟩
  | inf hn hi => exact ⟨by simp [hn], fun _ => rfl, by simp [hi]⟩
  | fin hn hi m e hv =>
    refine ⟨by simp [hn], by simp [hi], fun _ _ => ?_⟩
    refine ⟨_, ?_, clamp_eq _ h⟩
    rw [hv]
    refine Nearest.signed ?_ _
    split
    · exact nearest_shiftLeft m ‹_›
    · exact nearest_shiftRight m (by omega)

theorem rounded_ofInteger {f : Fmt} (hf : IsFormat f) {i : ℤ} (h : i ≠ 0) : Rounded f false i (ofInteger f i) := by
  have hi : (i : ℚ) = signFactor (decide (i < 0)) * ((i.natAbs : ℕ) * 2 ^ (0 : ℤ)) := by
    rw [zpow_zero, mul_one, Nat.cast_natAbs]
    by_cases h0 : i < 0
    · rw [abs_of_neg h0]
      simp [signFactor, h0]
    · rw [abs_of_nonneg (not_lt.1 h0)]
      simp [signFactor, h0]
  rw [hi]
  exact rounded_round hf false _ (Int.natAbs_ne_zero.2 h)

theorem converts_of_hasInfinity {f : Fmt} (hf : IsFormat f) (h : f.HasInfinity) : Converts f :=
  ⟨fun _ ovf x hg _ => convertsTo_convert hg ovf (readsAs_read h x),
    fun x _ _ hlo hhi _ => integerOf_toInteger (readsAs_read h x) (hlo.trans hhi),
    fun _ => ⟨fun hi => by rw [hi]; rfl, rounded_ofInteger hf⟩⟩

end Sys2Proof.Machine
end

section
/-! # Vector registers and their elements

What a vector register made of a list of elements reads as, and the ends of a vector instruction (R248, R250, R251). -/

namespace Sys2Proof.Machine

/-! ### Elements (R248) -/

theorem ofElems_elem (w : Nat) (l : List Nat) (n : Nat) : ofElems w l / 2 ^ (w * n) % 2 ^ w = l.getD n 0 % 2 ^ w := by
  have hp : 0 < 2 ^ w := Nat.two_pow_pos w
  induction l generalizing n with
  | nil => simp [ofElems]
  | cons a l ih =>
    rw [ofElems]
    cases n with
    | zero => simp
    | succ n =>
      have hd : (a % 2 ^ w + 2 ^ w * ofElems w l) / 2 ^ w = ofElems w l := by
        rw [Nat.add_mul_div_left _ _ hp, Nat.div_eq_of_lt (Nat.mod_lt _ hp), Nat.zero_add]
      rw [Nat.mul_succ, Nat.add_comm (w * n), Nat.pow_add, ← Nat.div_div_eq_div_mul, hd, List.getD_cons_succ]
      exact ih n

/-- An element's field of a number is not cut by the width of the register it lies in. -/
theorem bits_ofNat {n lo len : Nat} (h : lo + len ≤ n) (x : Nat) : bits (BitVec.ofNat n x) lo len = x / 2 ^ lo % 2 ^ len := by
  refine Nat.eq_of_testBit_eq fun i => ?_
  simp only [bits, BitVec.toNat_ofNat, Nat.testBit_mod_two_pow, Nat.testBit_div_two_pow]
  by_cases hi : i < len
  · simp [show i + lo < n by omega]
  · simp [hi]

theorem elem_end_le {w n : Nat} (hn : n < 256 / w) : w * n + w ≤ 256 := by
  rw [← Nat.mul_succ, Nat.mul_comm]
  exact Nat.mul_le_of_le_div _ _ _ hn

theorem bits_vecOf {w n : Nat} (l : List Nat) (hn : n < 256 / w) : bits (vecOf w l) (w * n) w = l.getD n 0 % 2 ^ w := by
  rw [vecOf, bits_ofNat (elem_end_le hn), ofElems_elem]

theorem elems_length (w : Nat) (v : Vec) : (elems w v).length = 256 / w := by simp [elems, upTo]

theorem elems_getD {w n : Nat} (v : Vec) (hn : n < 256 / w) : (elems w v).getD n 0 = bits v (w * n) w := by
  simp [elems, upTo, List.getD_eq_getElem?_getD, hn]

theorem elems_lt {w x : Nat} {v : Vec} (hx : x ∈ elems w v) : x < 2 ^ w := by
  obtain ⟨i, -, rfl⟩ := List.mem_map.1 hx
  exact bits_lt v _ _

theorem elems_getD_mod (w : Nat) (v : Vec) (k : Nat) : (elems w v).getD k 0 % 2 ^ w = (elems w v).getD k 0 := by
  obtain hk | hk := Nat.lt_or_ge k (256 / w)
  · rw [elems_getD v hk, bits, Nat.mod_mod]
  · rw [List.getD_eq_default _ _ (by rwa [elems_length]), Nat.zero_mod]

theorem elems_map_getD {w n : Nat} (v : Vec) (g : Nat → Nat) (hn : n < 256 / w) :
    ((elems w v).map g).getD n 0 = g (bits v (w * n) w) := by
  simp [elems, upTo, List.getD_eq_getElem?_getD, hn]

theorem upTo_map_getD {α : Type} {k n : Nat} (g : Nat → α) (d : α) (hn : n < k) : ((upTo k).map g).getD n d = g n := by
  simp [upTo, List.getD_eq_getElem?_getD, hn]

theorem getD_take_of_lt {α : Type} {l : List α} {k n : Nat} (d : α) (hn : n < k) : (l.take k).getD n d = l.getD n d := by
  simp [List.getD_eq_getElem?_getD, hn]

theorem wBits_pos (f : Sfx) : 0 < wBits f := by cases f <;> decide
/-- A register has at least one element, and at most the 32 that the tree of R89 takes in. -/
theorem elems_pos (f : Sfx) : 0 < 256 / wBits f := by cases f <;> decide
theorem elems_le (f : Sfx) : 256 / wBits f ≤ 2 ^ 5 := by cases f <;> decide

/-! ### Ends of a vector instruction (R250, R251) -/

@[simp] theorem Thread.rv_wvIn (h : Thread) (r vd : VReg) (v : Vec) (c n : Nat) :
    (h.wvIn vd v c n).rv r = if r = vd then v else h.rv r := by
  show (h.v.set vd.toNat v vd.isLt)[r.toNat]'r.isLt = _
  by_cases e : r = vd
  · subst e; simp
  · have : vd.toNat ≠ r.toNat := fun h => e (BitVec.eq_of_toNat_eq h.symm)
    rw [if_neg e, Vector.getElem_set_ne _ _ this]
    rfl

section
variable {i : Instr} {s : State} {vd : VReg} {lat w : Nat}

theorem lateVec_of_vresult {v : Vec} (h : exec i s = vresult vd v lat s) : LateVec i s vd v lat := by
  have hr := retired_of_retireTo s (·.wvIn vd v s.here.cycle lat) (s.me.pc + 4)
  refine ⟨_, h, ?_, fun r => ?_⟩
  · rw [State.wvLate, retire_modMe rfl]
    exact hr
  · rw [State.wvLate, retire_modMe rfl, State.rv, hr.1]
    exact Thread.rv_wvIn s.me r vd v s.here.cycle lat

/-- A result in vd after a change of the thread's context. -/
theorem vresult_modMe {g : Thread → Thread} (h : (g s.me).pc = s.me.pc) (v : Vec) : vresult vd v lat (s.modMe g) =
    .next ((s.modMe fun h => (g h).wvIn vd v s.here.cycle lat).retireTo (s.me.pc + 4)) := by
  have hc : (s.modMe g).here.cycle = s.here.cycle := by rw [State.here_modMe]; rfl
  rw [vresult, State.wvLate, hc, State.modMe_modMe,
    retire_modMe (f := fun h => (g h).wvIn vd v s.here.cycle lat) h]

/-- The instruction writes to vd, to be read so many cycles later, elements of w bits, the nth of which is g n. -/
def GivesElems (i : Instr) (s : State) (vd : VReg) (lat w : Nat) (g : Nat → Nat) : Prop :=
  ∃ v : Vec, LateVec i s vd v lat ∧ ∀ n, n < 256 / w → bits v (w * n) w = g n

theorem givesElems_of_vresult {l : List Nat} {g : Nat → Nat} (h : exec i s = vresult vd (vecOf w l) lat s)
    (hg : ∀ n, n < 256 / w → l.getD n 0 % 2 ^ w = g n) : GivesElems i s vd lat w g :=
  ⟨_, lateVec_of_vresult h, fun n hn => (bits_vecOf l hn).trans (hg n hn)⟩

theorem fenced_of_needCap {b : Nat} {k : State → Outcome} (h : exec i s = needCap b s k) (hc : s.cap b = false) : Fenced i s :=
  traps_of_trap _ _ _ _ (h.trans (if_neg (by rw [hc]; decide)))

theorem needCap_held {b : Nat} (hc : s.cap b = true) (k : State → Outcome) : needCap b s k = k s := if_pos hc

theorem needCaps_held {l : List Nat} (hc : ∀ c ∈ l, s.cap c = true) (k : State → Outcome) : needCaps l s k = k s := by
  induction l with
  | nil => rfl
  | cons c l ih =>
    exact (needCap_held (hc c (List.mem_cons_self ..)) _).trans (ih fun d hd => hc d (List.mem_cons_of_mem _ hd))

@[simp] theorem State.wvLate_pc (u : State) (r : VReg) (v : Vec) (n : Nat) : (u.wvLate r v n).me.pc = u.me.pc := by
  rw [State.wvLate, State.me_modMe]
  rfl

end

/-! ### The tree of R89 and the scan of R90 -/

section
variable {α : Type} {g : Nat → Nat → Nat} {q : α → Nat → α} {P : Nat → Prop}

theorem pairUp_length (l : List Nat) : (pairUp g l).length = (l.length + 1) / 2 := by
  induction l using pairUp.induct with
  | case1 a b r ih => rw [pairUp, List.length_cons, ih, List.length_cons, List.length_cons]; omega
  | case2 l h =>
    rw [pairUp.eq_2 _ _ h]
    match l, h with
    | [], _ => rfl
    | [_], _ => simp
    | a :: b :: r, h => exact absurd rfl (h a b r)

theorem pairUp_mem (hg : ∀ a b, P a → P b → P (g a b)) {l : List Nat} (hl : ∀ x ∈ l, P x) : ∀ x ∈ pairUp g l, P x := by
  induction l using pairUp.induct with
  | case1 a b r ih =>
    rw [List.forall_mem_cons, List.forall_mem_cons] at hl
    rw [pairUp, List.forall_mem_cons]
    exact ⟨hg a b hl.1 hl.2.1, ih hl.2.2⟩
  | case2 l h => rwa [pairUp.eq_2 _ _ h]

/-- Where taking in a pair is taking in its elements one after the other, a level of pairs leaves the whole as it is. -/
theorem foldl_pairUp (hq : ∀ m a b, P a → P b → q m (g a b) = q (q m a) b) {l : List Nat} (hl : ∀ x ∈ l, P x) (z : α) :
    (pairUp g l).foldl q z = l.foldl q z := by
  induction l using pairUp.induct generalizing z with
  | case1 a b r ih =>
    rw [List.forall_mem_cons, List.forall_mem_cons] at hl
    rw [pairUp, List.foldl_cons, hq _ _ _ hl.1 hl.2.1, ih hl.2.2]
    rfl
  | case2 l h => rw [pairUp.eq_2 _ _ h]

theorem foldl_tree (hg : ∀ a b, P a → P b → P (g a b)) (hq : ∀ m a b, P a → P b → q m (g a b) = q (q m a) b) (z : α)
    {n : Nat} {l : List Nat} (h0 : l ≠ []) (hn : l.length ≤ 2 ^ n) (hl : ∀ x ∈ l, P x) :
    q z (tree g n l) = l.foldl q z := by
  induction n generalizing l with
  | zero =>
    match l, h0, hn with
    | [a], _, _ => rfl
  | succ n ih =>
    rw [tree, ih ?_ ?_ (pairUp_mem hg hl), foldl_pairUp hq hl]
    · rw [← List.length_pos_iff, pairUp_length]
      have := List.length_pos_iff.2 h0
      omega
    · rw [pairUp_length]
      rw [pow_succ] at hn
      omega

theorem tree_mem (hg : ∀ a b, P a → P b → P (g a b)) {n : Nat} {l : List Nat} (h0 : P 0) (hl : ∀ x ∈ l, P x) :
    P (tree g n l) := by
  induction n generalizing l with
  | zero =>
    cases l with
    | nil => exact h0
    | cons a l => exact hl a (List.mem_cons_self ..)
  | succ n ih => exact ih (pairUp_mem hg hl)

theorem scanFrom_length (p : Nat) (l : List Nat) : (scanFrom g p l).length = l.length + 1 := by
  induction l generalizing p with
  | nil => rfl
  | cons e r ih => exact congrArg (· + 1) (ih _)

theorem scan_length (l : List Nat) : (scan g l).length = l.length := by
  cases l with
  | nil => rfl
  | cons e r => exact scanFrom_length e r

theorem scanFrom_getD {n : Nat} (p : Nat) {l : List Nat} (hn : n ≤ l.length) :
    (scanFrom g p l).getD n 0 = (l.take n).foldl g p := by
  induction l generalizing p n with
  | nil => rw [Nat.le_zero.1 hn]; rfl
  | cons e r ih =>
    cases n with
    | zero => rfl
    | succ n => exact ih (g p e) (Nat.le_of_succ_le_succ hn)

end

end Sys2Proof.Machine
end

section
/-! # The vector instructions of R259-R263 -/

namespace Sys2Proof.Machine

/-! ### Elements as integers (R72) -/

theorem wrap_cast (w : Nat) (i : ℤ) : (wrap w i : ℤ) = i % 2 ^ w := Int.toNat_of_nonneg (Int.emod_nonneg _ (by positivity))

theorem wrap_lt (w : Nat) (i : ℤ) : wrap w i < 2 ^ w := by
  have h : (wrap w i : ℤ) < 2 ^ w := wrap_cast w i ▸ Int.emod_lt_of_pos _ (by positivity)
  exact_mod_cast h

theorem elemInt_emod (f : Sfx) (x : Nat) : elemInt f x % 2 ^ wBits f = (x : ℤ) % 2 ^ wBits f := by
  unfold elemInt
  split
  · exact_mod_cast Int.bmod_emod
  · rfl

theorem wrap_elemInt (f : Sfx) (x : Nat) : wrap (wBits f) (elemInt f x) = x % 2 ^ wBits f := by
  have h := wrap_cast (wBits f) (elemInt f x)
  rw [elemInt_emod] at h
  exact_mod_cast h

theorem wrap_add_elemInt (f : Sfx) (x y : Nat) : wrap (wBits f) (elemInt f x + elemInt f y) = (x + y) % 2 ^ wBits f := by
  have h := wrap_cast (wBits f) (elemInt f x + elemInt f y)
  rw [Int.add_emod, elemInt_emod, elemInt_emod, ← Int.add_emod] at h
  exact_mod_cast h

theorem elemInt_unsigned {f : Sfx} (h : isSigned f = false) (x : Nat) : elemInt f x = x := if_neg (by rw [h]; decide)

theorem elemInt_signed {f : Sfx} (h : isSigned f = true) (x : Nat) : elemInt f x = Int.bmod x (2 ^ wBits f) := if_pos h

theorem wrap_max_unsigned {f : Sfx} (h : isSigned f = false) {x y : Nat} (hx : x < 2 ^ wBits f) (hy : y < 2 ^ wBits f) :
    wrap (wBits f) (max (elemInt f x) (elemInt f y)) = max x y := by
  have hw := wrap_cast (wBits f) (max (elemInt f x) (elemInt f y))
  rw [elemInt_unsigned h, elemInt_unsigned h] at hw ⊢
  have : max x y % 2 ^ wBits f = max x y := Nat.mod_eq_of_lt (max_lt hx hy)
  rw [← this]
  exact_mod_cast hw

theorem bmod_emod_two_pow (i : ℤ) (w : Nat) : Int.bmod (i % 2 ^ w) (2 ^ w) = Int.bmod i (2 ^ w) := by
  exact_mod_cast Int.emod_bmod (x := i) (n := 2 ^ w)

/-- The greater of two signed elements is kept by its encoding. -/
theorem elemInt_wrap_max {f : Sfx} (h : isSigned f = true) (x y : Nat) :
    elemInt f (wrap (wBits f) (max (elemInt f x) (elemInt f y))) = max (elemInt f x) (elemInt f y) := by
  have hb (z : Nat) : Int.bmod (elemInt f z) (2 ^ wBits f) = elemInt f z := by
    rw [elemInt_signed h, Int.bmod_bmod]
  rw [elemInt_signed h (wrap _ _), wrap_cast, bmod_emod_two_pow]
  obtain e | e := max_choice (elemInt f x) (elemInt f y) <;> rw [e, hb]

theorem toInt_ofNat_elem {f : Sfx} (h : isSigned f = true) (x : Nat) : (BitVec.ofNat (wBits f) x).toInt = elemInt f x := by
  rw [elemInt_signed h]
  exact BitVec.toInt_ofNat ..

theorem elemInt_ge {f : Sfx} (h : isSigned f = true) (x : Nat) : -(2 ^ (wBits f - 1) : ℤ) ≤ elemInt f x := by
  have hb := Int.le_bmod (x := x) (m := 2 ^ wBits f) (Nat.two_pow_pos _)
  rw [elemInt_signed h]
  have hd : ((2 ^ wBits f : ℕ) : ℤ) / 2 = 2 ^ (wBits f - 1) := by cases f <;> rfl
  rwa [hd] at hb

theorem elem2_int {f : Sfx} (h : fmtOf f = none) (int : ℤ → ℤ → ℤ) (fp : Fmt → Nat → Nat → Nat) (x y : Nat) :
    elem2 f int fp x y = wrap (wBits f) (int (elemInt f x) (elemInt f y)) := by
  rw [elem2, h]

theorem elem2_fp {f : Sfx} {t : Fmt} (h : fmtOf f = some t) (int : ℤ → ℤ → ℤ) (fp : Fmt → Nat → Nat → Nat) :
    elem2 f int fp = fp t := by
  funext x y
  rw [elem2, h]

theorem map_canonicalOf_int {f : Sfx} (h : fmtOf f = none) (l : List Nat) : l.map (canonicalOf f) = l := by
  rw [show canonicalOf f = id from funext fun e => by rw [canonicalOf, h]; rfl, List.map_id]

theorem canonicalOf_fp {f : Sfx} {t : Fmt} (h : fmtOf f = some t) : canonicalOf f = t.canonical := by
  funext e
  rw [canonicalOf, h]

/-! ### Reductions and scans (R89, R90, R262) -/

theorem singleton_getD (w x n : Nat) : [x].getD n 0 % 2 ^ w = if n = 0 then x % 2 ^ w else 0 := by
  cases n <;> simp

theorem elems_ne_nil (f : Sfx) (v : Vec) : elems (wBits f) v ≠ [] := by
  rw [← List.length_pos_iff, elems_length]
  exact elems_pos f

theorem elems_length_le (f : Sfx) (v : Vec) : (elems (wBits f) v).length ≤ 2 ^ 5 := by
  rw [elems_length]
  exact elems_le f

theorem foldl_add_mod (k p : Nat) (l : List Nat) : l.foldl (fun m x => (m + x) % k) (p % k) = l.foldl (· + ·) p % k := by
  induction l generalizing p with
  | nil => rfl
  | cons x l ih => rw [List.foldl_cons, Nat.mod_add_mod, ih]; rfl

/-- The tree's sum of integer elements is their sum, wrapped. -/
theorem tree_sum {f : Sfx} (h : fmtOf f = none) (v : Vec) :
    tree (elem2 f (· + ·) Fmt.add) 5 (elems (wBits f) v) % 2 ^ wBits f =
      (elems (wBits f) v).foldl (· + ·) 0 % 2 ^ wBits f := by
  have ht := foldl_tree (P := fun _ => True) (g := elem2 f (· + ·) Fmt.add) (q := fun m x => (m + x) % 2 ^ wBits f)
    (fun _ _ _ _ => trivial)
    (fun m x y _ _ => by rw [elem2_int h, wrap_add_elemInt, Nat.add_mod_mod, Nat.mod_add_mod, Nat.add_assoc]) 0
    (elems_ne_nil f v) (elems_length_le f v) (fun _ _ => trivial)
  rw [Nat.zero_add] at ht
  exact ht.trans (foldl_add_mod _ 0 _)

theorem tree_max_unsigned {f : Sfx} (h : fmtOf f = none) (hs : isSigned f = false) (v : Vec) :
    tree (elem2 f max Fmt.max) 5 (elems (wBits f) v) % 2 ^ wBits f = (elems (wBits f) v).foldl max 0 := by
  have hg : ∀ x y, x < 2 ^ wBits f → y < 2 ^ wBits f → elem2 f max Fmt.max x y < 2 ^ wBits f := fun x y _ _ => by
    rw [elem2_int h]
    exact wrap_lt _ _
  have ht := foldl_tree (q := max) hg
    (fun m x y hx hy => by rw [elem2_int h, wrap_max_unsigned hs hx hy, max_assoc]) 0
    (elems_ne_nil f v) (elems_length_le f v) (fun _ => elems_lt)
  rw [Nat.mod_eq_of_lt (tree_mem hg (Nat.two_pow_pos _) fun _ => elems_lt)]
  exact (Nat.zero_max _).symm.trans ht

theorem fmtOf_signed {f : Sfx} (h : isSigned f = true) : fmtOf f = none := by
  revert h
  cases f <;> decide

theorem tree_max_signed {f : Sfx} (hs : isSigned f = true) (v : Vec) :
    tree (elem2 f max Fmt.max) 5 (elems (wBits f) v) % 2 ^ wBits f =
      ((elems (wBits f) v).foldl (fun m x => max m (BitVec.ofNat (wBits f) x).toInt) (-(2 ^ (wBits f - 1) : ℤ))
        % 2 ^ wBits f).toNat := by
  simp only [toInt_ofNat_elem hs]
  have ht := foldl_tree (P := fun _ => True) (g := elem2 f max Fmt.max) (q := fun (m : ℤ) x => max m (elemInt f x))
    (fun _ _ _ _ => trivial)
    (fun m x y _ _ => by rw [elem2_int (fmtOf_signed hs), elemInt_wrap_max hs, max_assoc]) (-(2 ^ (wBits f - 1) : ℤ))
    (elems_ne_nil f v) (elems_length_le f v) (fun _ _ => trivial)
  rw [max_eq_right (elemInt_ge hs _)] at ht
  rw [← ht]
  exact (wrap_elemInt f _).symm

/-- The nth element of a scan of integers is the sum of the elements up to the nth, wrapped. -/
theorem scan_sum {f : Sfx} (h : fmtOf f = none) {l : List Nat} {n : Nat} (hn : n < l.length) :
    (scan (elem2 f (· + ·) Fmt.add) l).getD n 0 % 2 ^ wBits f = (l.take (n + 1)).foldl (· + ·) 0 % 2 ^ wBits f := by
  have hf (p : Nat) (r : List Nat) :
      r.foldl (elem2 f (· + ·) Fmt.add) p % 2 ^ wBits f = r.foldl (· + ·) p % 2 ^ wBits f := by
    induction r generalizing p with
    | nil => rfl
    | cons x r ih =>
      rw [List.foldl_cons, ih, elem2_int h, wrap_add_elemInt, ← foldl_add_mod, Nat.mod_mod, foldl_add_mod]
      rfl
  cases l with
  | nil => cases hn
  | cons x r =>
    rw [scan, scanFrom_getD _ (Nat.le_of_lt_succ hn), hf, List.take_succ_cons, List.foldl_cons, Nat.zero_add]

/-- The exclusive form begins with 0 and leaves out the last sum. -/
theorem exclusive_getD {p : List Nat} {n : Nat} (hn : n < p.length) :
    (0 :: p.dropLast).getD n 0 = if n = 0 then 0 else p.getD (n - 1) 0 := by
  cases n with
  | zero => rfl
  | succ n =>
    rw [List.getD_cons_succ, if_neg (Nat.succ_ne_zero n), Nat.add_sub_cancel, List.dropLast_eq_take]
    exact getD_take_of_lt 0 (by omega)

theorem exec_vredsum (f : Sfx) (vd a : VReg) (s : State) : exec (.vredsum f vd a) s = execVredsum f vd a s := rfl
theorem exec_vredmax (f : Sfx) (vd a : VReg) (s : State) : exec (.vredmax f vd a) s = execVredmax f vd a s := rfl
theorem exec_vscan (f : Sfx) (x : Bool) (vd a : VReg) (s : State) : exec (.vscan f x vd a) s = execVscan f x vd a s := rfl

/-- The partial sums that an inclusive scan writes. -/
def runningSums (f : Sfx) (v : Vec) : List Nat := scan (elem2 f (· + ·) Fmt.add) ((elems (wBits f) v).map (canonicalOf f))

theorem runningSums_length (f : Sfx) (v : Vec) : (runningSums f v).length = 256 / wBits f := by
  rw [runningSums, scan_length, List.length_map, elems_length]

section
variable {s : State} {f : Sfx} {vd a : VReg}

theorem vec1_held (hc : s.cap (sfxCap f) = true) (lat : Nat) (g : Vec → Vec) :
    vec1 f lat vd a g s = vresult vd (g (s.rv a)) lat s := by
  rw [vec1, needCap_held hc]

theorem fenced_of_vec1 {i : Instr} {lat : Nat} {g : Vec → Vec} (h : exec i s = vec1 f lat vd a g s)
    (hc : s.cap (sfxCap f) = false) : Fenced i s :=
  fenced_of_needCap h hc

theorem reductions_fenced (hc : s.cap (sfxCap f) = false) :
    Fenced (.vredsum f vd a) s ∧ Fenced (.vredmax f vd a) s ∧ ∀ x, Fenced (.vscan f x vd a) s :=
  ⟨fenced_of_vec1 (exec_vredsum f vd a s) hc, fenced_of_vec1 (exec_vredmax f vd a s) hc,
    fun x => fenced_of_vec1 (exec_vscan f x vd a s) hc⟩

variable (hc : s.cap (sfxCap f) = true)
include hc

theorem vredsum_gives {r : Nat} (hr : tree (elem2 f (· + ·) Fmt.add) 5 (elems (wBits f) (s.rv a)) % 2 ^ wBits f = r) :
    GivesElems (.vredsum f vd a) s vd 8 (wBits f) fun n => if n = 0 then r else 0 :=
  givesElems_of_vresult ((exec_vredsum ..).trans (vec1_held hc ..)) fun _ _ => hr ▸ singleton_getD ..

theorem vredmax_gives {r : Nat} (hr : tree (elem2 f max Fmt.max) 5 (elems (wBits f) (s.rv a)) % 2 ^ wBits f = r) :
    GivesElems (.vredmax f vd a) s vd 8 (wBits f) fun n => if n = 0 then r else 0 :=
  givesElems_of_vresult ((exec_vredmax ..).trans (vec1_held hc ..)) fun _ _ => hr ▸ singleton_getD ..

theorem vscan_inclusive_gives {g : Nat → Nat}
    (hg : ∀ n, n < 256 / wBits f → (runningSums f (s.rv a)).getD n 0 % 2 ^ wBits f = g n) :
    GivesElems (.vscan f false vd a) s vd 8 (wBits f) g :=
  givesElems_of_vresult ((exec_vscan ..).trans (vec1_held hc ..)) hg

theorem vscan_exclusive_gives {g : Nat → Nat}
    (hg : ∀ n, n < 256 / wBits f → (if n = 0 then 0 else (runningSums f (s.rv a)).getD (n - 1) 0 % 2 ^ wBits f) = g n) :
    GivesElems (.vscan f true vd a) s vd 8 (wBits f) g := by
  refine givesElems_of_vresult ((exec_vscan ..).trans (vec1_held hc ..)) fun n hn => Eq.trans ?_ (hg n hn)
  have he := exclusive_getD (p := runningSums f (s.rv a)) (n := n) (by rwa [runningSums_length])
  refine (congrArg (· % 2 ^ wBits f) he).trans ?_
  split
  · exact Nat.zero_mod _
  · rfl

end

/-! ### What a scan writes (R90) -/

section
variable {f : Sfx} {v : Vec} {n : Nat}

theorem runningSums_int (h : fmtOf f = none) (hn : n < 256 / wBits f) :
    (runningSums f v).getD n 0 % 2 ^ wBits f = ((elems (wBits f) v).take (n + 1)).foldl (· + ·) 0 % 2 ^ wBits f := by
  rw [runningSums, map_canonicalOf_int h, scan_sum h (by rwa [elems_length])]

theorem runningSums_fp {t : Fmt} (h : fmtOf f = some t) :
    runningSums f v = scan t.add ((elems (wBits f) v).map t.canonical) := by
  rw [runningSums, elem2_fp h, canonicalOf_fp h]

end

end Sys2Proof.Machine
end

section
/-! # Special functions, conversions, packing and moves (R77, R84-R88, R259-R261, R263) -/

namespace Sys2Proof.Machine
section
variable {s : State} {f : Sfx} {vd a b : VReg} {r rd : Reg}

theorem exec_vcvt (dst src : Sfx) (vd a : VReg) (s : State) : exec (.vcvt dst src vd a) s = execVcvt dst src vd a s := rfl
theorem exec_vpack (f : Sfx) (m : Fp8) (vd a : VReg) (s : State) : exec (.vpack f m vd a) s = execVpack f m vd a s := rfl
theorem exec_vunpack (f : Sfx) (m : Fp8) (vd a : VReg) (s : State) :
    exec (.vunpack f m vd a) s = execVunpack f m vd a s := rfl
theorem exec_vperm (f : Sfx) (vd a b : VReg) (s : State) : exec (.vperm f vd a b) s = execVperm f vd a b s := rfl
theorem exec_vslide (f : Sfx) (vd a : VReg) (r : Reg) (s : State) : exec (.vslide f vd a r) s = execVslide f vd a r s := rfl
theorem exec_vbcast (f : Sfx) (vd : VReg) (r : Reg) (s : State) : exec (.vbcast f vd r) s = execVbcast f vd r s := rfl
theorem exec_vmvx (f : Sfx) (rd : Reg) (a : VReg) (r : Reg) (s : State) : exec (.vmvx f rd a r) s = execVmvx f rd a r s := rfl

/-! ### Special functions -/

/-- The instruction is fenced on a core without VSFU, waits for the unit while it is taken, and takes it for 4 cycles. -/
def IsSpecial (i : Instr) (s : State) (vd a : VReg) (g : FVal → Nat) : Prop :=
  (s.cap 4 = false → Fenced i s)
  ∧ (s.cap 4 = true → s.here.cycle < s.here.sfuFree → Blocks i s .unit (.result s.here.sfuFree))
  ∧ (s.cap 4 = true → s.here.sfuFree ≤ s.here.cycle → ∃ v : Vec,
    Effects i s ((s.modHere fun x => { x with sfuFree := x.cycle + 4 }).wvLate vd v 12)
      ∧ ∀ n, n < 8 → bits v (32 * n) 32 = g (fp32.read (bits (s.rv a) (32 * n) 32)) % 2 ^ 32)

@[simp] theorem State.modHere_sfuFree_me (s : State) (n : Tile → Nat) :
    (s.modHere fun x => { x with sfuFree := n x }).me = s.me := by
  show ((s.modHere _).here).th s.cur.slot = _
  rw [State.here_modHere]
  rfl

theorem special_busy {g : FVal → Nat} (hc : s.cap 4 = true) (hb : s.here.cycle < s.here.sfuFree) :
    special g vd a s = .next (s.block .unit (.result s.here.sfuFree)) := by
  rw [special, needCap_held hc]
  exact if_pos hb

theorem special_free {g : FVal → Nat} (hc : s.cap 4 = true) (hb : s.here.sfuFree ≤ s.here.cycle) :
    special g vd a s = .next ((s.modHere fun x => { x with sfuFree := x.cycle + 4 }).wvLate vd
      (vecOf 32 ((elems 32 (s.rv a)).map fun e => g (fp32.read e))) 12).retire := by
  rw [special, needCap_held hc]
  refine (if_neg (Nat.not_lt.2 hb)).trans ?_
  rw [vresult, State.rv, State.rv, State.modHere_sfuFree_me]
  rfl

theorem isSpecial_of_exec {i : Instr} {g : FVal → Nat} (h : exec i s = special g vd a s) : IsSpecial i s vd a g := by
  refine ⟨fun hc => fenced_of_needCap h hc, fun hc hb => blocks_of_block _ _ _ _ (h.trans (special_busy hc hb)),
    fun hc hb => ⟨_, effects_of_retire _ _ _ (h.trans (special_free hc hb)) ?_, fun n hn => ?_⟩⟩
  · rw [State.wvLate_pc, State.modHere_sfuFree_me]
  · rw [bits_vecOf _ hn, elems_map_getD _ _ hn]

theorem specials (s : State) (vd a : VReg) : IsSpecial (.vrcp vd a) s vd a rcp ∧ IsSpecial (.vrsq vd a) s vd a rsqrt
    ∧ IsSpecial (.vexp2 vd a) s vd a exp2 ∧ IsSpecial (.vlog2 vd a) s vd a Sys2Proof.Machine.log2 := by
  have h1 : exec (.vrcp vd a) s = execVrcp vd a s := rfl
  have h2 : exec (.vrsq vd a) s = execVrsq vd a s := rfl
  have h3 : exec (.vexp2 vd a) s = execVexp2 vd a s := rfl
  have h4 : exec (.vlog2 vd a) s = execVlog2 vd a s := rfl
  exact ⟨isSpecial_of_exec h1, isSpecial_of_exec h2, isSpecial_of_exec h3, isSpecial_of_exec h4⟩

/-! ### Conversions -/

theorem vcvt_gives {dst : Sfx} (hc : ∀ c ∈ convertCaps s dst f, s.cap c = true) (hs : s.stochastic dst f = false) :
    GivesElems (.vcvt dst f vd a) s vd 4 (wBits dst) fun n =>
      if n < 256 / max (wBits dst) (wBits f) then
        convertElem dst f (bits (s.rv a) (wBits f * n) (wBits f)) % 2 ^ wBits dst else 0 := by
  have he : exec (.vcvt dst f vd a) s = vresult vd (vecOf (wBits dst)
      (((elems (wBits f) (s.rv a)).take (256 / max (wBits dst) (wBits f))).map (convertElem dst f))) 4 s := by
    rw [exec_vcvt, execVcvt, needCaps_held hc]
    exact if_neg (by rw [hs]; decide)
  have hw : 256 / max (wBits dst) (wBits f) ≤ 256 / wBits f :=
    Nat.div_le_div_left (le_max_right _ _) (wBits_pos f)
  refine givesElems_of_vresult he fun n _ => ?_
  rw [List.map_take]
  split
  case isTrue h => rw [getD_take_of_lt _ h, elems_map_getD _ _ (h.trans_le hw)]
  case isFalse h =>
    rw [List.getD_eq_default _ _ (by rw [List.length_take]; omega), Nat.zero_mod]

theorem roundSR_lt (x : Nat) (w : Word) : (roundSR x w).1 < 2 ^ 16 := by
  unfold roundSR
  dsimp only
  split
  · exact (by decide : 0x7FC0 < 2 ^ 16)
  · dsimp only
    omega

theorem roundSRs_getD_lt (l : List Nat) (w : Word) (n : Nat) : (roundSRs l w).1.getD n 0 < 2 ^ 16 := by
  induction l generalizing w n with
  | nil => simp [roundSRs]
  | cons x l ih =>
    cases n with
    | zero => exact roundSR_lt x w
    | succ n => exact ih (roundSR x w).2 n

/-- The context in which the stochastic conversion retires: its elements in vd, and its generator's state. -/
def Thread.converted (h : Thread) (vd : VReg) (p : List Nat × Word) (cycle : Nat) : Thread :=
  ({ h with jsrseed := zext p.2 } : Thread).wvIn vd (vecOf 16 p.1) cycle 4

theorem convertCaps_stochastic (h : s.stochastic .bf .f32 = true) : convertCaps s .bf .f32 = [2, 3, 11] := by
  rw [convertCaps, h]
  rfl

theorem exec_vcvt_stochastic (hc : ∀ c ∈ convertCaps s .bf .f32, s.cap c = true) (hs : s.stochastic .bf .f32 = true)
    {p : List Nat × Word} (hp : roundSRs ((elems 32 (s.rv a)).take 8) (low32 s.me.jsrseed) = p) :
    exec (.vcvt .bf .f32 vd a) s =
      .next ((s.modMe fun h => h.converted vd p s.here.cycle).retireTo (s.me.pc + 4)) := by
  have hr : vresult vd (vecOf 16 p.1) 4 (s.modMe fun h => { h with jsrseed := zext p.2 }) =
      .next ((s.modMe fun h => h.converted vd p s.here.cycle).retireTo (s.me.pc + 4)) := vresult_modMe rfl _
  rw [exec_vcvt, execVcvt, needCaps_held hc, ← hr, ← hp]
  exact if_pos hs

theorem vcvt_stochastic (h2 : s.cap 2 = true) (h3 : s.cap 3 = true) (h11 : s.cap 11 = true)
    (hj : s.me.jvcfg.getLsbD 1 = true) :
    let p := roundSRs (elems 32 (s.rv a)) (s.me.jsrseed.extractLsb' 0 32)
    ∃ t, exec (.vcvt .bf .f32 vd a) s = .next t ∧ t.me.pc = s.me.pc + 4 ∧ t.me.x = s.me.x ∧ sameButMe s t
      ∧ t.me.jsrseed = p.2.zeroExtend 64 ∧ ∀ n, n < 16 → bits (t.rv vd) (16 * n) 16 = p.1.getD n 0 := by
  intro p
  have hs : s.stochastic .bf .f32 = true := hj
  have hc : ∀ c ∈ convertCaps s .bf .f32, s.cap c = true := by simp [convertCaps_stochastic hs, h2, h3, h11]
  obtain ⟨hm, hb⟩ := retired_of_retireTo s (·.converted vd p s.here.cycle) (s.me.pc + 4)
  have ht : (elems 32 (s.rv a)).take 8 = elems 32 (s.rv a) := List.take_of_length_le (elems_length 32 _).le
  refine ⟨_, exec_vcvt_stochastic hc hs (p := p) (by rw [ht]; rfl), congrArg Thread.pc hm, by rw [hm]; rfl, hb, congrArg Thread.jsrseed hm,
    fun n hn => ?_⟩
  have hv : ((s.modMe (·.converted vd p s.here.cycle)).retireTo (s.me.pc + 4)).rv vd = vecOf 16 p.1 := by
    rw [State.rv, hm]
    exact (Thread.rv_wvIn _ vd vd _ s.here.cycle 4).trans (if_pos rfl)
  refine (congrArg (bits · (16 * n) 16) hv).trans ?_
  rw [bits_vecOf _ hn, Nat.mod_eq_of_lt (roundSRs_getD_lt ..)]

/-! ### Packing -/

theorem packs_fenced (m : Fp8) (hc : s.cap 10 = false) : Fenced (.vpack f m vd a) s ∧ Fenced (.vunpack f m vd a) s := by
  have h1 := exec_vpack f m vd a s
  have h2 := exec_vunpack f m vd a s
  rw [execVpack, needCap, if_neg (by rw [hc]; decide)] at h1
  rw [execVunpack, needCap, if_neg (by rw [hc]; decide)] at h2
  exact ⟨traps_of_trap _ _ _ _ h1, traps_of_trap _ _ _ _ h2⟩

theorem vpack_effects (m : Fp8) (hc : s.cap 10 = true) :
    let p := packMX (packSource s f a) m (s.me.jvcfg.getLsbD 0)
    ∃ v : Vec, Effects (.vpack f m vd a) s ((s.wvLate vd v 6).wvLate (vd + 1) (BitVec.ofNat 256 p.1) 6)
      ∧ ∀ n, n < 32 → bits v (8 * n) 8 = p.2.getD n 0 % 256 := by
  intro p
  have he : exec (.vpack f m vd a) s =
      .next ((s.wvLate vd (vecOf 8 p.2) 6).wvLate (vd + 1) (BitVec.ofNat 256 p.1) 6).retire := by
    rw [exec_vpack, execVpack, needCap_held hc]
    rfl
  exact ⟨_, effects_of_retire _ _ _ he (by simp), fun n hn => bits_vecOf _ hn⟩

/-- The values of an unpacked block. -/
def unpacked (s : State) (f : Sfx) (m : Fp8) (a : VReg) : List Nat :=
  (elems 8 (s.rv a)).map fun e => unpackMX m (bits (s.rv (a + 1)) 0 8) e ((fmtOf f).getD fp32)

theorem exec_vunpack_held (m : Fp8) (hc : s.cap 10 = true) : exec (.vunpack f m vd a) s =
    .next (writeGroup (wBits f) (vgroup f vd) (unpacked s f m a) s).retire := by
  rw [exec_vunpack, execVunpack, needCap_held hc]
  rfl

/-- The register of an unpacked block whose elements are those from the kth on. -/
def unpackedPart (s : State) (f : Sfx) (m : Fp8) (a : VReg) (k : Nat) : Vec :=
  vecOf (wBits f) (((unpacked s f m a).drop k).take (256 / wBits f))

theorem bits_unpackedPart (f : Sfx) (m : Fp8) {k n : Nat} (hn : n < 256 / wBits f) (hk : k + n < 32) :
    bits (unpackedPart s f m a k) (wBits f * n) (wBits f) =
      unpackMX m (bits (s.rv (a + 1)) 0 8) (bits (s.rv a) (8 * (k + n)) 8) ((fmtOf f).getD fp32) % 2 ^ wBits f := by
  rw [unpackedPart, bits_vecOf _ hn, getD_take_of_lt _ hn, List.getD_eq_getElem?_getD, List.getElem?_drop,
    ← List.getD_eq_getElem?_getD, unpacked, elems_map_getD _ _ hk]

theorem bits_unpackedPart_zero (f : Sfx) (m : Fp8) {n : Nat} (hn : n < 256 / wBits f) :
    bits (unpackedPart s f m a 0) (wBits f * n) (wBits f) =
      unpackMX m (bits (s.rv (a + 1)) 0 8) (bits (s.rv a) (8 * n) 8) ((fmtOf f).getD fp32) % 2 ^ wBits f := by
  rw [bits_unpackedPart f m hn (by rw [Nat.zero_add]; exact hn.trans_le (elems_le f)), Nat.zero_add]

theorem vunpack_bf (m : Fp8) (hc : s.cap 10 = true) :
    let x := bits (s.rv (a + 1)) 0 8
    ∃ v v' : Vec, Effects (.vunpack .bf m vd a) s ((s.wvLate vd v 4).wvLate (vd + 1) v' 4)
      ∧ ∀ n, n < 16 → bits v (16 * n) 16 = unpackMX m x (bits (s.rv a) (8 * n) 8) bf16 % 2 ^ 16
        ∧ bits v' (16 * n) 16 = unpackMX m x (bits (s.rv a) (8 * (16 + n)) 8) bf16 % 2 ^ 16 := by
  intro x
  have he : exec (.vunpack .bf m vd a) s = .next ((s.wvLate vd (unpackedPart s .bf m a 0) 4).wvLate (vd + 1)
      (unpackedPart s .bf m a 16) 4).retire := exec_vunpack_held m hc
  exact ⟨_, _, effects_of_retire _ _ _ he (by simp), fun n hn =>
    ⟨bits_unpackedPart_zero .bf m hn, bits_unpackedPart .bf m hn (by omega)⟩⟩

theorem vunpack_f32 (m : Fp8) (hc : s.cap 10 = true) :
    let x := bits (s.rv (a + 1)) 0 8
    ∃ v0 v1 v2 v3 : Vec, Effects (.vunpack .f32 m vd a) s
        ((((s.wvLate vd v0 4).wvLate (vd + 1) v1 4).wvLate (vd + 2) v2 4).wvLate (vd + 3) v3 4)
      ∧ ∀ n, n < 8 → bits v0 (32 * n) 32 = unpackMX m x (bits (s.rv a) (8 * n) 8) fp32 % 2 ^ 32
        ∧ bits v1 (32 * n) 32 = unpackMX m x (bits (s.rv a) (8 * (8 + n)) 8) fp32 % 2 ^ 32
        ∧ bits v2 (32 * n) 32 = unpackMX m x (bits (s.rv a) (8 * (16 + n)) 8) fp32 % 2 ^ 32
        ∧ bits v3 (32 * n) 32 = unpackMX m x (bits (s.rv a) (8 * (24 + n)) 8) fp32 % 2 ^ 32 := by
  intro x
  have he : exec (.vunpack .f32 m vd a) s = .next ((((s.wvLate vd (unpackedPart s .f32 m a 0) 4).wvLate (vd + 1)
      (unpackedPart s .f32 m a 8) 4).wvLate (vd + 2) (unpackedPart s .f32 m a 16) 4).wvLate (vd + 3)
      (unpackedPart s .f32 m a 24) 4).retire := by
    rw [exec_vunpack_held m hc]
    simp only [vgroup, writeGroup, List.drop_drop]
    rfl
  exact ⟨_, _, _, _, effects_of_retire _ _ _ he (by simp), fun n hn =>
    ⟨bits_unpackedPart_zero .f32 m hn, bits_unpackedPart .f32 m hn (by omega), bits_unpackedPart .f32 m hn (by omega),
      bits_unpackedPart .f32 m hn (by omega)⟩⟩

/-! ### Moves -/

theorem vperm_gives : GivesElems (.vperm f vd a b) s vd 2 (wBits f) fun n =>
    (elems (wBits f) (s.rv a)).getD (bits (s.rv b) (wBits f * n) (wBits f) % (256 / wBits f)) 0 := by
  refine givesElems_of_vresult (exec_vperm f vd a b s) fun n hn => ?_
  rw [elems_map_getD _ _ hn, elems_getD_mod]

theorem vslide_gives : GivesElems (.vslide f vd a r) s vd 2 (wBits f) fun n =>
    if 0 ≤ (n : Int) - (s.rx r).toInt ∧ (n : Int) - (s.rx r).toInt < (256 / wBits f : Nat) then
      (elems (wBits f) (s.rv a)).getD ((n : Int) - (s.rx r).toInt).toNat 0 else 0 := by
  refine givesElems_of_vresult (exec_vslide f vd a r s) fun n hn => ?_
  rw [upTo_map_getD _ _ hn]
  split
  · exact elems_getD_mod ..
  · exact Nat.zero_mod _

theorem vbcast_gives : GivesElems (.vbcast f vd r) s vd 2 (wBits f) fun _ => (s.rx r).toNat % 2 ^ wBits f := by
  refine givesElems_of_vresult (exec_vbcast f vd r s) fun n hn => ?_
  rw [upTo_map_getD _ _ hn, bits]
  simp

theorem loadExt_elem (f : Sfx) (x : Nat) : loadExt (wBits f / 8) (isSigned f) x =
    if isSigned f then (BitVec.ofNat (wBits f) x).signExtend 64 else (BitVec.ofNat (wBits f) x).zeroExtend 64 := by
  have hw : 8 * (wBits f / 8) = wBits f := by cases f <;> rfl
  have hi : (BitVec.ofNat (wBits f) x).toInt = Int.bmod x (2 ^ wBits f) := BitVec.toInt_ofNat ..
  rw [loadExt, hw, bmod_emod_two_pow, ← hi, ← BitVec.toNat_ofNat, BitVec.ofNat_toNat]
  rfl

theorem vmvx_writes : LateWrites (.vmvx f rd a r) s rd
    (if (s.rx r).toNat < 256 / wBits f then
      (if isSigned f then (BitVec.ofNat (wBits f) ((elems (wBits f) (s.rv a)).getD (s.rx r).toNat 0)).signExtend 64
      else (BitVec.ofNat (wBits f) ((elems (wBits f) (s.rv a)).getD (s.rx r).toNat 0)).zeroExtend 64)
    else 0) 2 := by
  have he := exec_vmvx f rd a r s
  rw [execVmvx] at he
  rw [loadExt_elem] at he
  exact lateWrites_of_wxIn _ _ _ _ _ he

end

/-- Settles O35: the conversions by `converts_of_hasInfinity`, and each instruction by the lemma of its name. -/
theorem vectorWhole : Obligations.VectorWhole := by
  unfold Obligations.VectorWhole
  refine ⟨converts_of_hasInfinity (by simp [IsFormat]) fp32_hasInfinity,
    converts_of_hasInfinity (by simp [IsFormat]) bf16_hasInfinity, ?_⟩
  intro s f vd a b r rd w e l sum gives special
  obtain ⟨hrcp, hrsq, hexp, hlog⟩ := specials s vd a
  refine ⟨hrcp, hrsq, hexp, hlog, fun dst hc hs => vcvt_gives hc hs, vcvt_stochastic, fun m => packs_fenced m,
    fun m => vpack_effects m, ?_, ?_, reductions_fenced, ?_, vperm_gives, vslide_gives, vbcast_gives, vmvx_writes⟩
  · rintro m hc rfl
    exact vunpack_bf m hc
  · rintro m hc rfl
    exact vunpack_f32 m hc
  intro hc
  refine ⟨fun hf => ⟨?_, ?_, ?_⟩, fun t hf => ⟨?_, ?_, ?_, ?_⟩, fun hf hs => ?_, fun hs => ?_⟩
  -- integers
  · exact vredsum_gives hc (tree_sum hf _)
  · exact vscan_inclusive_gives hc fun n hn => runningSums_int hf hn
  · refine vscan_exclusive_gives hc fun n hn => ?_
    cases n with
    | zero => exact (Nat.zero_mod _).symm
    | succ n => exact runningSums_int hf (by omega)
  -- floating point
  · exact vredsum_gives hc (by rw [elem2_fp hf]; rfl)
  · exact vscan_inclusive_gives hc fun n hn => by rw [runningSums_fp hf]; rfl
  · exact vscan_exclusive_gives hc fun n hn => by rw [runningSums_fp hf]; rfl
  · exact vredmax_gives hc (by rw [elem2_fp hf]; rfl)
  -- the greatest integer
  · exact vredmax_gives hc (tree_max_unsigned hf hs _)
  · exact vredmax_gives hc (tree_max_signed hs _)

end Sys2Proof.Machine
end

section
/-! # Words and instructions (O54, O55, O56)

That an instruction's fields decode to it is the lemma of its name in Laws/PerInstr. The way back is here: each table of the
decoder gives an instruction only for the fields that the encoder gives that instruction. -/
namespace Sys2Proof.Laws.Encodes

/-- If the reading d gives an instruction, the fields r are that instruction's. -/
def ReadsBack (r : Raw) (d : Option Instr) : Prop := ∀ i, d = some i → encodeRaw i = some r

/-! ### Readings of fields -/

section
variable {r : Raw} {i : Instr} {f : BitVec 5} {p : Prop} [Decidable p]

theorem readsBack_none : ReadsBack r none := fun _ hj => nomatch hj
theorem readsBack_some : ReadsBack r (some i) ↔ encodeRaw i = some r :=
  ⟨fun h => h i rfl, fun h _ hj => Option.some.inj hj ▸ h⟩
theorem readsBack_ite {d : Option Instr} (h : p → ReadsBack r d) : ReadsBack r (if p then d else none) := by
  split
  · exact h ‹_›
  · exact readsBack_none
theorem readsBack_reqO {d : Option Instr} : ReadsBack r (reqO p d) ↔ (p → ReadsBack r d) :=
  ⟨fun h hp => (if_pos hp : reqO p d = d) ▸ h, readsBack_ite⟩
theorem readsBack_req : ReadsBack r (req p i) ↔ (p → encodeRaw i = some r) :=
  readsBack_reqO.trans (imp_congr_right fun _ => readsBack_some)

theorem readsBack_firstOf {a b : Option Instr} (ha : ReadsBack r a) (hb : ReadsBack r b) : ReadsBack r (firstOf a b) := by
  cases a with
  | none => exact hb
  | some i => exact ha

/-- A reading that undoes a code of a field reads back when it does so after each value that the field may be the code of. -/
theorem readsBack_code {α : Type} {n : Nat} {code : α → BitVec n} {read : BitVec n → (α → Option Instr) → Option Instr}
    (hcode : ∀ v k, read (code v) k = k v) {f : BitVec n} {k : α → Option Instr}
    (hback : (∀ v, code v = f → ReadsBack r (k v)) → ReadsBack r (read f k)) :
    ReadsBack r (read f k) ↔ ∀ v, code v = f → ReadsBack r (k v) := by
  refine ⟨?_, hback⟩
  rintro h v rfl
  rwa [hcode] at h

theorem readsBack_vregOf {k : VReg → Option Instr} : ReadsBack r (vregOf f k) ↔ ∀ v, vregF v = f → ReadsBack r (k v) := by
  have hf : ∀ f : BitVec 5, f.extractLsb' 4 1 = 0 → vregF (f.extractLsb' 0 4) = f := by decide
  exact readsBack_code vregOf_vregF fun h => readsBack_ite fun hp => h _ (hf f hp)
theorem readsBack_accOf {k : Acc → Option Instr} : ReadsBack r (accOf f k) ↔ ∀ n, accF n = f → ReadsBack r (k n) := by
  have hf : ∀ f : BitVec 5, f.extractLsb' 3 2 = 0 → accF (f.extractLsb' 0 3) = f := by decide
  exact readsBack_code accOf_accF fun h => readsBack_ite fun hp => h _ (hf f hp)
theorem readsBack_pairOf {k : Pair → Option Instr} : ReadsBack r (pairOf f k) ↔ ∀ q, pairF q = f → ReadsBack r (k q) := by
  have hf : ∀ f : BitVec 5, f.extractLsb' 0 1 = 0 → pairF (f.extractLsb' 1 4) = f := by decide
  exact readsBack_code pairOf_pairF fun h => readsBack_ite fun hp => h _ (hf f hp)
theorem readsBack_sfxOf {c : BitVec 3} {k : Sfx → Option Instr} :
    ReadsBack r (sfxOf c k) ↔ ∀ f, sfxCode f = c → ReadsBack r (k f) := by
  refine readsBack_code sfxOf_code fun h => ?_
  unfold sfxOf
  split
  case h_8 => exact readsBack_none
  all_goals exact h _ rfl
theorem readsBack_srcOf {k : Sfx → Option Instr} :
    ReadsBack r (srcOf f k) ↔ ∀ s, 0b00#2 ++ sfxCode s = f → ReadsBack r (k s) := by
  have hf : ∀ f : BitVec 5, f.extractLsb' 3 2 = 0 → 0b00#2 ++ f.extractLsb' 0 3 = f := by decide
  exact readsBack_code srcOf_code fun h => readsBack_ite fun hp => readsBack_sfxOf.2 fun s hs => h s (hs ▸ hf f hp)
theorem readsBack_fp8Of {k : Fp8 → Option Instr} : ReadsBack r (fp8Of f k) ↔ ∀ m, fp8F m = f → ReadsBack r (k m) := by
  refine readsBack_code fp8Of_fp8F fun h => ?_
  unfold fp8Of
  split
  case h_3 => exact readsBack_none
  all_goals exact h _ rfl
theorem readsBack_flagOf {k : Bool → Option Instr} : ReadsBack r (flagOf f k) ↔ ∀ b, flagF b = f → ReadsBack r (k b) := by
  refine readsBack_code flagOf_flagF fun h => ?_
  unfold flagOf
  split
  case h_3 => exact readsBack_none
  all_goals exact h _ rfl
end

/-! ### Fields read and written back -/

theorem encodeRaw_of_fields {i : Instr} {r r' : Raw} (h : encodeRaw i = some r') (e : r' = r) : encodeRaw i = some r :=
  h.trans (congrArg some e)

theorem ofI_immI (r : Raw) : Raw.ofI r.op r.f3 r.rd r.rs1 r.immI = r := by
  simp (disch := decide) only [Raw.ofI, Raw.immI, BitVec.extractLsb'_append_eq_of_le,
    BitVec.extractLsb'_append_eq_of_add_le, Nat.reduceSub, BitVec.extractLsb'_eq_self]
theorem ofU_immU (r : Raw) : Raw.ofU r.op r.rd r.immU = r := by
  simp (disch := decide) only [Raw.ofU, Raw.immU, BitVec.extractLsb'_append_eq_of_le,
    BitVec.extractLsb'_append_eq_of_add_le, Nat.reduceSub, BitVec.extractLsb'_eq_self]
theorem uOfOff_offOfU (u : BitVec 20) : uOfOff (offOfU u) = u := by
  apply BitVec.eq_of_getLsbD_eq; intro n hn
  simp only [offOfU, uOfOff, BitVec.getLsbD_append, BitVec.getLsbD_extractLsb']
  interval_cases n <;> simp
theorem bF7_offOfB (f7 : BitVec 7) (rd : BitVec 5) : bF7 (offOfB f7 rd) = f7 := by
  simp (disch := decide) only [bF7, offOfB, BitVec.extractLsb'_append_eq_of_le,
    BitVec.extractLsb'_append_eq_of_add_le, Nat.reduceSub, BitVec.extractLsb'_eq_self]
  exact BitVec.extractLsb'_append_extractLsb' (w := 1) (len := 6)
theorem bRd_offOfB (f7 : BitVec 7) (rd : BitVec 5) : bRd (offOfB f7 rd) = rd := by
  simp (disch := decide) only [bRd, offOfB, BitVec.extractLsb'_append_eq_of_le,
    BitVec.extractLsb'_append_eq_of_add_le, Nat.reduceSub, BitVec.extractLsb'_eq_self]
  exact BitVec.extractLsb'_append_extractLsb' (w := 4) (len := 1)

section
variable {f7 : BitVec 7}

theorem f7A_of_high (r : Raw) {k : BitVec 5} (h : r.f7.extractLsb' 2 5 = k) : f7A k r.aq r.rl = r.f7 := by
  have hf : ∀ f7 : BitVec 7, f7A (f7.extractLsb' 2 5) (f7.getLsbD 1) (f7.getLsbD 0) = f7 := by decide
  exact h ▸ hf r.f7
theorem append_ch (r : Raw) {k : BitVec 5} (h : r.f7.extractLsb' 2 5 = k) : k ++ r.ch = r.f7 :=
  h ▸ BitVec.extractLsb'_append_extractLsb' (w := 5) (len := 2)
theorem rs3_append (r : Raw) {k : BitVec 2} (h : r.f7.extractLsb' 0 2 = k) : r.rs3 ++ k = r.f7 :=
  h ▸ BitVec.extractLsb'_append_extractLsb' (w := 5) (len := 2)
theorem append_row {k : BitVec 4} (h : f7.extractLsb' 3 4 = k) : k ++ f7.extractLsb' 0 3 = f7 :=
  h ▸ BitVec.extractLsb'_append_extractLsb' (w := 4) (len := 3)
theorem shift_high (rs2 : BitVec 5) {k : BitVec 6} (h : f7.extractLsb' 1 6 = k) :
    k ++ (f7.extractLsb' 0 1 ++ rs2).extractLsb' 5 1 = f7 := by
  rw [BitVec.extractLsb'_append_eq_left, ← h]
  exact BitVec.extractLsb'_append_extractLsb' (w := 6) (len := 1)
end
theorem fm_append (r : Raw) {k : BitVec 4} (h : r.immI.extractLsb' 8 4 = k) :
    k ++ r.immI.extractLsb' 4 4 ++ r.immI.extractLsb' 0 4 = r.immI := by
  subst h
  simp (disch := decide) only [BitVec.extractLsb'_append_extractLsb'_eq_extractLsb']
  exact BitVec.extractLsb'_eq_self
/-- funct7 and the rs2 field of an I-format immediate. -/
theorem immI_fields (r : Raw) {c : BitVec 12} (h : r.immI = c) : c.extractLsb' 5 7 = r.f7 ∧ c.extractLsb' 0 5 = r.rs2 :=
  h ▸ ⟨BitVec.extractLsb'_append_eq_left, BitVec.extractLsb'_append_eq_right⟩

/-! ### The tables -/

section
variable {rd rs1 rs2 : BitVec 5} {f3 : BitVec 3} {f7 : BitVec 7}

theorem loadOf_readsBack :
    ReadsBack ⟨0b0000011#7, rd, f3, rs1, rs2, f7⟩ (loadOf ⟨0b0000011#7, rd, f3, rs1, rs2, f7⟩) := by
  unfold loadOf
  dsimp only
  split
  case h_8 => exact readsBack_none
  all_goals exact readsBack_some.2 (encodeRaw_of_fields rfl (ofI_immI ⟨_, _, _, _, _, _⟩))

theorem storeOf_readsBack :
    ReadsBack ⟨0b0100011#7, rd, f3, rs1, rs2, f7⟩ (storeOf ⟨0b0100011#7, rd, f3, rs1, rs2, f7⟩) := by
  unfold storeOf
  dsimp only
  split
  case h_5 => exact readsBack_none
  all_goals exact readsBack_some.2 (encodeRaw_of_fields rfl
    (by rw [BitVec.extractLsb'_append_eq_left, BitVec.extractLsb'_append_eq_right]))

theorem branchOf_readsBack :
    ReadsBack ⟨0b1100011#7, rd, f3, rs1, rs2, f7⟩ (branchOf ⟨0b1100011#7, rd, f3, rs1, rs2, f7⟩) := by
  unfold branchOf
  dsimp only
  split
  case h_7 => exact readsBack_none
  all_goals exact readsBack_some.2 (encodeRaw_of_fields rfl (by rw [bF7_offOfB, bRd_offOfB]))

theorem miscMemOf_readsBack :
    ReadsBack ⟨0b0001111#7, rd, f3, rs1, rs2, f7⟩ (miscMemOf ⟨0b0001111#7, rd, f3, rs1, rs2, f7⟩) := by
  unfold miscMemOf
  dsimp only
  split
  case h_1 =>
    refine readsBack_reqO.2 ?_
    rintro ⟨rfl, rfl⟩
    split
    case h_3 => exact readsBack_none
    all_goals
      refine readsBack_some.2 (encodeRaw_of_fields rfl ?_)
      rw [fm_append _ ‹_›]
      exact ofI_immI ⟨_, _, _, _, _, _⟩
  case h_2 =>
    refine readsBack_req.2 ?_
    rintro ⟨hi, rfl, rfl⟩
    obtain ⟨rfl, rfl⟩ := immI_fields _ hi
    rfl
  case h_3 => exact readsBack_none

theorem opImmOf_readsBack :
    ReadsBack ⟨0b0010011#7, rd, f3, rs1, rs2, f7⟩ (opImmOf ⟨0b0010011#7, rd, f3, rs1, rs2, f7⟩) := by
  have shift {k : BitVec 6} (h : f7.extractLsb' 1 6 = k) :
      Raw.mk 0b0010011#7 rd f3 rs1 ((f7.extractLsb' 0 1 ++ rs2).extractLsb' 0 5)
        (k ++ (f7.extractLsb' 0 1 ++ rs2).extractLsb' 5 1) = ⟨0b0010011#7, rd, f3, rs1, rs2, f7⟩ := by
    rw [shift_high rs2 h, BitVec.extractLsb'_append_eq_right]
  unfold opImmOf
  dsimp only
  split
  case h_7 => exact readsBack_req.2 fun h => encodeRaw_of_fields rfl (shift h)
  case h_8 =>
    exact readsBack_firstOf (readsBack_req.2 fun h => encodeRaw_of_fields rfl (shift h))
      (readsBack_req.2 fun h => encodeRaw_of_fields rfl (shift h))
  case h_9 => exact readsBack_none
  all_goals exact readsBack_some.2 (encodeRaw_of_fields rfl (ofI_immI ⟨_, _, _, _, _, _⟩))

theorem opImm32Of_readsBack :
    ReadsBack ⟨0b0011011#7, rd, f3, rs1, rs2, f7⟩ (opImm32Of ⟨0b0011011#7, rd, f3, rs1, rs2, f7⟩) := by
  unfold opImm32Of
  dsimp only
  split
  case h_1 => exact readsBack_some.2 (encodeRaw_of_fields rfl (ofI_immI ⟨_, _, _, _, _, _⟩))
  case h_4 => exact readsBack_none
  all_goals
    split
    all_goals simp only [readsBack_some, readsBack_none]
    all_goals rfl

theorem opRegOf_readsBack :
    ReadsBack ⟨0b0110011#7, rd, f3, rs1, rs2, f7⟩ (opRegOf ⟨0b0110011#7, rd, f3, rs1, rs2, f7⟩) := by
  unfold opRegOf
  dsimp only
  split
  case h_9 => exact readsBack_none
  all_goals
    split
    all_goals simp only [readsBack_some, readsBack_none]
    all_goals rfl

theorem op32Of_readsBack :
    ReadsBack ⟨0b0111011#7, rd, f3, rs1, rs2, f7⟩ (op32Of ⟨0b0111011#7, rd, f3, rs1, rs2, f7⟩) := by
  unfold op32Of
  dsimp only
  split
  case h_7 => exact readsBack_none
  all_goals
    split
    all_goals simp only [readsBack_some, readsBack_none]
    all_goals rfl

theorem amoOf_readsBack :
    ReadsBack ⟨0b0101111#7, rd, f3, rs1, rs2, f7⟩ (amoOf ⟨0b0101111#7, rd, f3, rs1, rs2, f7⟩) := by
  unfold amoOf
  dsimp only
  split
  case h_3 => exact readsBack_none
  all_goals
    split
    case h_1 => exact readsBack_req.2 fun hrs2 => encodeRaw_of_fields rfl (by rw [f7A_of_high _ ‹_›, hrs2])
    case h_12 => exact readsBack_none
    all_goals exact readsBack_some.2 (encodeRaw_of_fields rfl (by rw [f7A_of_high _ ‹_›]))

theorem custom0Of_readsBack :
    ReadsBack ⟨0b0001011#7, rd, f3, rs1, rs2, f7⟩ (custom0Of ⟨0b0001011#7, rd, f3, rs1, rs2, f7⟩) := by
  unfold custom0Of
  dsimp only
  split
  case h_2 => exact readsBack_some.2 rfl
  case h_4 =>
    split
    all_goals exact readsBack_some.2 (encodeRaw_of_fields rfl (by rw [rs3_append _ ‹_›]))
  case h_6 => exact readsBack_none
  all_goals
    split
    all_goals simp only [readsBack_some, readsBack_req, readsBack_none]
    all_goals
      intros
      exact encodeRaw_of_fields rfl (by simp only [*, BitVec.ofNat_eq_ofNat])

theorem custom1Of_readsBack :
    ReadsBack ⟨0b0101011#7, rd, f3, rs1, rs2, f7⟩ (custom1Of ⟨0b0101011#7, rd, f3, rs1, rs2, f7⟩) := by
  unfold custom1Of
  dsimp only
  split
  case h_1 =>
    split
    case h_3 => exact readsBack_none
    all_goals exact readsBack_req.2 fun hrd => encodeRaw_of_fields rfl (by rw [rs3_append _ ‹_›, hrd])
  case h_2 =>
    split
    all_goals simp only [readsBack_some, readsBack_req, readsBack_none]
    all_goals
      intros
      exact encodeRaw_of_fields rfl (by simp only [*, BitVec.ofNat_eq_ofNat])
  case h_3 =>
    split
    case h_4 =>
      refine readsBack_reqO.2 fun hch => readsBack_req.2 fun hrs2 => encodeRaw_of_fields rfl ?_
      have hf7 : 0b00011#5 ++ 0b00#2 = f7 := hch ▸ append_ch _ ‹_›
      rw [hrs2, ← hf7]
      rfl
    case h_5 => exact readsBack_none
    all_goals
      refine readsBack_req.2 fun hz => encodeRaw_of_fields rfl ?_
      rw [append_ch _ ‹_›]
      simp only [hz]
  case h_4 => exact readsBack_none

theorem custom2Of_readsBack :
    ReadsBack ⟨0b1011011#7, rd, f3, rs1, rs2, f7⟩ (custom2Of ⟨0b1011011#7, rd, f3, rs1, rs2, f7⟩) := by
  unfold custom2Of
  dsimp only
  split
  case h_2 =>
    split
    case h_10 =>
      simp only [readsBack_reqO, readsBack_req, readsBack_vregOf, readsBack_accOf]
      intros
      exact encodeRaw_of_fields rfl (by rw [append_row ‹_›]; simp only [*])
    all_goals
      simp only [readsBack_req, readsBack_accOf, readsBack_pairOf]
      intros
      exact encodeRaw_of_fields rfl (by simp only [*, BitVec.ofNat_eq_ofNat])
  case h_1 =>
    split
    case h_6 => exact readsBack_none
    all_goals
      simp only [readsBack_some, readsBack_accOf, readsBack_pairOf]
      intros
      exact encodeRaw_of_fields rfl (by simp only [*])
  case h_3 => exact readsBack_none

theorem custom3Of_readsBack :
    ReadsBack ⟨0b1111011#7, rd, f3, rs1, rs2, f7⟩ (custom3Of ⟨0b1111011#7, rd, f3, rs1, rs2, f7⟩) := by
  unfold custom3Of
  dsimp only
  split
  case h_40 => exact readsBack_none
  all_goals
    simp only [readsBack_some, readsBack_req, readsBack_vregOf, readsBack_sfxOf, readsBack_srcOf,
      readsBack_fp8Of, readsBack_flagOf]
    intros
    exact encodeRaw_of_fields rfl (by simp only [*, BitVec.ofNat_eq_ofNat])

theorem systemOf_readsBack :
    ReadsBack ⟨0b1110011#7, rd, f3, rs1, rs2, f7⟩ (systemOf ⟨0b1110011#7, rd, f3, rs1, rs2, f7⟩) := by
  unfold systemOf
  dsimp only
  split
  case h_1 =>
    refine readsBack_reqO.2 ?_
    rintro ⟨rfl, rfl⟩
    split
    case h_5 => exact readsBack_none
    all_goals
      obtain ⟨rfl, rfl⟩ := immI_fields _ ‹_›
      exact readsBack_some.2 rfl
  case h_8 => exact readsBack_none
  all_goals exact readsBack_some.2 (encodeRaw_of_fields rfl (ofI_immI ⟨_, _, _, _, _, _⟩))
end

/-- The fields of an instruction are all that a word holds. -/
theorem decodeRaw_readsBack (r : Raw) : ReadsBack r (decodeRaw r) := by
  obtain ⟨op, rd, f3, rs1, rs2, f7⟩ := r
  unfold decodeRaw
  dsimp only
  split
  · exact loadOf_readsBack
  · exact custom0Of_readsBack
  · exact miscMemOf_readsBack
  · exact opImmOf_readsBack
  · exact readsBack_some.2 (encodeRaw_of_fields rfl (ofU_immU ⟨_, _, _, _, _, _⟩))
  · exact opImm32Of_readsBack
  · exact storeOf_readsBack
  · exact custom1Of_readsBack
  · exact amoOf_readsBack
  · exact opRegOf_readsBack
  · exact readsBack_some.2 (encodeRaw_of_fields rfl (ofU_immU ⟨_, _, _, _, _, _⟩))
  · exact op32Of_readsBack
  · exact custom2Of_readsBack
  · exact branchOf_readsBack
  · refine readsBack_req.2 ?_
    rintro rfl
    exact encodeRaw_of_fields rfl (ofI_immI ⟨_, _, _, _, _, _⟩)
  · refine readsBack_some.2 (encodeRaw_of_fields rfl ?_)
    rw [uOfOff_offOfU]
    exact ofU_immU ⟨_, _, _, _, _, _⟩
  · exact systemOf_readsBack
  · exact custom3Of_readsBack
  · exact readsBack_none

/-! ### Words -/

theorem toWord_ofWord (w : Word) : (Raw.ofWord w).toWord = w := by
  simp (disch := decide) only [Raw.toWord, Raw.ofWord, BitVec.extractLsb'_append_extractLsb'_eq_extractLsb']
  exact BitVec.extractLsb'_eq_self
theorem ofWord_toWord (r : Raw) : Raw.ofWord r.toWord = r := by
  simp (disch := decide) only [Raw.ofWord, Raw.toWord, BitVec.extractLsb'_append_eq_of_le,
    BitVec.extractLsb'_append_eq_of_add_le, Nat.reduceSub, BitVec.extractLsb'_eq_self]
theorem toWord_extract (r : Raw) {lo len : Nat} (h : lo + len ≤ 7) :
    r.toWord.extractLsb' lo len = r.op.extractLsb' lo len :=
  BitVec.extractLsb'_append_eq_of_add_le h

/-- A word that decodes is 32 bits long (R100): the major opcodes all end in 0b11, and none has 0b111 above them. -/
theorem op_of_decodeRaw {r : Raw} {i : Instr} (h : decodeRaw r = some i) :
    r.op.extractLsb' 0 2 = 0b11#2 ∧ r.op.extractLsb' 2 3 ≠ 0b111#3 := by
  obtain ⟨op, rd, f3, rs1, rs2, f7⟩ := r
  unfold decodeRaw at h
  dsimp only at h ⊢
  split at h
  case h_19 => cases h
  all_goals decide

/-- When a word decodes. -/
theorem decodeWord_ok_iff {w : Word} {i : Instr} :
    decodeWord w = .ok i ↔ decodeRaw (Raw.ofWord w) = some i ∧ wellFormed i = true := by
  unfold decodeWord
  constructor
  · intro h
    split at h
    · cases h
    split at h
    · cases h
    split at h
    · split at h
      · cases h
        exact ⟨‹_›, ‹_›⟩
      · cases h
    · cases h
  · rintro ⟨hd, hw⟩
    obtain ⟨h0, h2⟩ := op_of_decodeRaw hd
    rw [← toWord_extract _ (by decide), toWord_ofWord] at h0 h2
    rw [if_neg (not_not_intro h0), if_neg h2, hd]
    exact if_pos hw

theorem decode_leBytes (w : Word) (rest : List Byte) :
    decode (leBytes 4 w.toNat ++ rest) = (decodeWord w).map (·, rest) := by
  have hw : BitVec.ofNat 8 (w.toNat / 256 / 256 / 256) ++ BitVec.ofNat 8 (w.toNat / 256 / 256)
      ++ BitVec.ofNat 8 (w.toNat / 256) ++ BitVec.ofNat 8 w.toNat = w := by
    apply BitVec.eq_of_toNat_eq
    simp only [BitVec.toNat_append, BitVec.toNat_ofNat]
    rw [← Nat.shiftLeft_add_eq_or_of_lt (by omega), ← Nat.shiftLeft_add_eq_or_of_lt (by omega),
      ← Nat.shiftLeft_add_eq_or_of_lt (by omega)]
    simp only [Nat.shiftLeft_eq]
    omega
  show (match decodeWord _ with | .ok i => _ | .error e => _) = _
  rw [hw]
  cases decodeWord w <;> rfl

theorem encodeWord_eq_some_iff {i : Instr} {w : Word} : encodeWord i = some w ↔ encodeRaw i = some (Raw.ofWord w) := by
  unfold encodeWord
  rw [Option.map_eq_some_iff]
  constructor
  · rintro ⟨r, hr, rfl⟩
    rw [hr, ofWord_toWord]
  · exact fun h => ⟨_, h, toWord_ofWord w⟩

/-! ### Every instruction -/

/-- The fields of every well-formed instruction decode to it. -/
theorem encodes (i : Instr) : Statement i := by
  cases i with
  | lui rd imm => exact lui rd imm
  | auipc rd imm => exact auipc rd imm
  | jal rd off => exact jal rd off
  | jalr rd rs1 imm => exact jalr rd rs1 imm
  | beq rs1 rs2 off => exact beq rs1 rs2 off
  | bne rs1 rs2 off => exact bne rs1 rs2 off
  | blt rs1 rs2 off => exact blt rs1 rs2 off
  | bge rs1 rs2 off => exact bge rs1 rs2 off
  | bltu rs1 rs2 off => exact bltu rs1 rs2 off
  | bgeu rs1 rs2 off => exact bgeu rs1 rs2 off
  | lb rd rs1 imm => exact lb rd rs1 imm
  | lh rd rs1 imm => exact lh rd rs1 imm
  | lw rd rs1 imm => exact lw rd rs1 imm
  | ld rd rs1 imm => exact ld rd rs1 imm
  | lbu rd rs1 imm => exact lbu rd rs1 imm
  | lhu rd rs1 imm => exact lhu rd rs1 imm
  | lwu rd rs1 imm => exact lwu rd rs1 imm
  | sb rs1 rs2 imm => exact sb rs1 rs2 imm
  | sh rs1 rs2 imm => exact sh rs1 rs2 imm
  | sw rs1 rs2 imm => exact sw rs1 rs2 imm
  | sd rs1 rs2 imm => exact sd rs1 rs2 imm
  | addi rd rs1 imm => exact addi rd rs1 imm
  | slti rd rs1 imm => exact slti rd rs1 imm
  | sltiu rd rs1 imm => exact sltiu rd rs1 imm
  | xori rd rs1 imm => exact xori rd rs1 imm
  | ori rd rs1 imm => exact ori rd rs1 imm
  | andi rd rs1 imm => exact andi rd rs1 imm
  | slli rd rs1 sh => exact slli rd rs1 sh
  | srli rd rs1 sh => exact srli rd rs1 sh
  | srai rd rs1 sh => exact srai rd rs1 sh
  | add rd rs1 rs2 => exact add rd rs1 rs2
  | sub rd rs1 rs2 => exact sub rd rs1 rs2
  | sll rd rs1 rs2 => exact sll rd rs1 rs2
  | slt rd rs1 rs2 => exact slt rd rs1 rs2
  | sltu rd rs1 rs2 => exact sltu rd rs1 rs2
  | xor rd rs1 rs2 => exact xor rd rs1 rs2
  | srl rd rs1 rs2 => exact srl rd rs1 rs2
  | sra rd rs1 rs2 => exact sra rd rs1 rs2
  | or rd rs1 rs2 => exact or rd rs1 rs2
  | and rd rs1 rs2 => exact and rd rs1 rs2
  | addiw rd rs1 imm => exact addiw rd rs1 imm
  | slliw rd rs1 sh => exact slliw rd rs1 sh
  | srliw rd rs1 sh => exact srliw rd rs1 sh
  | sraiw rd rs1 sh => exact sraiw rd rs1 sh
  | addw rd rs1 rs2 => exact addw rd rs1 rs2
  | subw rd rs1 rs2 => exact subw rd rs1 rs2
  | sllw rd rs1 rs2 => exact sllw rd rs1 rs2
  | srlw rd rs1 rs2 => exact srlw rd rs1 rs2
  | sraw rd rs1 rs2 => exact sraw rd rs1 rs2
  | mul rd rs1 rs2 => exact mul rd rs1 rs2
  | mulh rd rs1 rs2 => exact mulh rd rs1 rs2
  | mulhsu rd rs1 rs2 => exact mulhsu rd rs1 rs2
  | mulhu rd rs1 rs2 => exact mulhu rd rs1 rs2
  | div rd rs1 rs2 => exact div rd rs1 rs2
  | divu rd rs1 rs2 => exact divu rd rs1 rs2
  | rem rd rs1 rs2 => exact rem rd rs1 rs2
  | remu rd rs1 rs2 => exact remu rd rs1 rs2
  | mulw rd rs1 rs2 => exact mulw rd rs1 rs2
  | divw rd rs1 rs2 => exact divw rd rs1 rs2
  | divuw rd rs1 rs2 => exact divuw rd rs1 rs2
  | remw rd rs1 rs2 => exact remw rd rs1 rs2
  | remuw rd rs1 rs2 => exact remuw rd rs1 rs2
  | lrW rd rs1 aq rl => exact lrW rd rs1 aq rl
  | lrD rd rs1 aq rl => exact lrD rd rs1 aq rl
  | scW rd rs1 rs2 aq rl => exact scW rd rs1 rs2 aq rl
  | scD rd rs1 rs2 aq rl => exact scD rd rs1 rs2 aq rl
  | amoswapW rd rs1 rs2 aq rl => exact amoswapW rd rs1 rs2 aq rl
  | amoswapD rd rs1 rs2 aq rl => exact amoswapD rd rs1 rs2 aq rl
  | amoaddW rd rs1 rs2 aq rl => exact amoaddW rd rs1 rs2 aq rl
  | amoaddD rd rs1 rs2 aq rl => exact amoaddD rd rs1 rs2 aq rl
  | amoxorW rd rs1 rs2 aq rl => exact amoxorW rd rs1 rs2 aq rl
  | amoxorD rd rs1 rs2 aq rl => exact amoxorD rd rs1 rs2 aq rl
  | amoandW rd rs1 rs2 aq rl => exact amoandW rd rs1 rs2 aq rl
  | amoandD rd rs1 rs2 aq rl => exact amoandD rd rs1 rs2 aq rl
  | amoorW rd rs1 rs2 aq rl => exact amoorW rd rs1 rs2 aq rl
  | amoorD rd rs1 rs2 aq rl => exact amoorD rd rs1 rs2 aq rl
  | amominW rd rs1 rs2 aq rl => exact amominW rd rs1 rs2 aq rl
  | amominD rd rs1 rs2 aq rl => exact amominD rd rs1 rs2 aq rl
  | amomaxW rd rs1 rs2 aq rl => exact amomaxW rd rs1 rs2 aq rl
  | amomaxD rd rs1 rs2 aq rl => exact amomaxD rd rs1 rs2 aq rl
  | amominuW rd rs1 rs2 aq rl => exact amominuW rd rs1 rs2 aq rl
  | amominuD rd rs1 rs2 aq rl => exact amominuD rd rs1 rs2 aq rl
  | amomaxuW rd rs1 rs2 aq rl => exact amomaxuW rd rs1 rs2 aq rl
  | amomaxuD rd rs1 rs2 aq rl => exact amomaxuD rd rs1 rs2 aq rl
  | fence pred succ => exact fence pred succ
  | fenceTso pred succ => exact fenceTso pred succ
  | fenceI => exact fenceI
  | ecall => exact ecall
  | ebreak => exact ebreak
  | mret => exact mret
  | wfi => exact wfi
  | csrrw rd csr rs1 => exact csrrw rd csr rs1
  | csrrs rd csr rs1 => exact csrrs rd csr rs1
  | csrrc rd csr rs1 => exact csrrc rd csr rs1
  | csrrwi rd csr uimm => exact csrrwi rd csr uimm
  | csrrsi rd csr uimm => exact csrrsi rd csr uimm
  | csrrci rd csr uimm => exact csrrci rd csr uimm
  | quit => exact quit
  | yield => exact yield
  | hret => exact hret
  | setprio rs1 => exact setprio rs1
  | spawna rd rs1 rs2 => exact spawna rd rs1 rs2
  | capq rd rs1 => exact capq rd rs1
  | utrap rs1 => exact utrap rs1
  | rmark rs1 => exact rmark rs1
  | rwaitImm rd rs1 off tgt => exact rwaitImm rd rs1 off tgt
  | rwait rd rs1 rs2 => exact rwait rd rs1 rs2
  | radd rd rs1 rs2 => exact radd rd rs1 rs2
  | rpoison rs1 rs2 => exact rpoison rs1 rs2
  | binit rs1 rs2 => exact binit rs1 rs2
  | barv rd rs1 => exact barv rd rs1
  | bexp rd rs1 rs2 => exact bexp rd rs1 rs2
  | bpoison rs1 rs2 => exact bpoison rs1 rs2
  | spawn rd rs1 rs2 rs3 => exact spawn rd rs1 rs2 rs3
  | spawnm rd rs1 rs2 rs3 => exact spawnm rd rs1 rs2 rs3
  | amsg rd rs1 rs2 rs3 => exact amsg rd rs1 rs2 rs3
  | rwaitt rd rs1 rs2 rs3 => exact rwaitt rd rs1 rs2 rs3
  | nbsend rd rs1 rs2 => exact nbsend rd rs1 rs2
  | rcfg rs1 rs2 => exact rcfg rs1 rs2
  | capset rs1 rs2 => exact capset rs1 rs2
  | sdc rs1 rs2 rs3 => exact sdc rs1 rs2 rs3
  | swc rs1 rs2 rs3 => exact swc rs1 rs2 rs3
  | amofaddS rd rs1 rs2 => exact amofaddS rd rs1 rs2
  | amofaddBf rd rs1 rs2 => exact amofaddBf rd rs1 rs2
  | amofmaxS rd rs1 rs2 => exact amofmaxS rd rs1 rs2
  | amofminS rd rs1 rs2 => exact amofminS rd rs1 rs2
  | amoincbW rd rs1 rs2 => exact amoincbW rd rs1 rs2
  | amoincbD rd rs1 rs2 => exact amoincbD rd rs1 rs2
  | amocasD rd rs1 rs2 => exact amocasD rd rs1 rs2
  | rsig rs1 rs2 => exact rsig rs1 rs2
  | fencef rd => exact fencef rd
  | cpq rd rs1 ch => exact cpq rd rs1 ch
  | cpqn rd rs1 ch => exact cpqn rd rs1 ch
  | cpwait rs1 ch => exact cpwait rs1 ch
  | ldlq rd rs1 => exact ldlq rd rs1
  | mmaE4e4 acc a b => exact mmaE4e4 acc a b
  | mmaE4e5 acc a b => exact mmaE4e5 acc a b
  | mmaE5e4 acc a b => exact mmaE5e4 acc a b
  | mmaE5e5 acc a b => exact mmaE5e5 acc a b
  | mmaBf acc a b => exact mmaBf acc a b
  | mzero acc => exact mzero acc
  | mld acc p => exact mld acc p
  | mstF32 acc p => exact mstF32 acc p
  | mstBf acc p => exact mstBf acc p
  | mstE4m3 acc p => exact mstE4m3 acc p
  | mstE5m2 acc p => exact mstE5m2 acc p
  | mgate rs1 rs2 => exact mgate rs1 rs2
  | mburst rs1 => exact mburst rs1
  | mfence => exact mfence
  | mrowv vd acc row => exact mrowv vd acc row
  | vadd f vd vs1 vs2 => exact vadd f vd vs1 vs2
  | vsub f vd vs1 vs2 => exact vsub f vd vs1 vs2
  | vmul f vd vs1 vs2 => exact vmul f vd vs1 vs2
  | vfma f vd vs1 vs2 => exact vfma f vd vs1 vs2
  | vmax f vd vs1 vs2 => exact vmax f vd vs1 vs2
  | vmin f vd vs1 vs2 => exact vmin f vd vs1 vs2
  | vabs f vd vs1 => exact vabs f vd vs1
  | vneg f vd vs1 => exact vneg f vd vs1
  | vand vd vs1 vs2 => exact vand vd vs1 vs2
  | vor vd vs1 vs2 => exact vor vd vs1 vs2
  | vxor vd vs1 vs2 => exact vxor vd vs1 vs2
  | vsll f vd vs1 vs2 => exact vsll f vd vs1 vs2
  | vsrl f vd vs1 vs2 => exact vsrl f vd vs1 vs2
  | vsra f vd vs1 vs2 => exact vsra f vd vs1 vs2
  | vcmpeq f vd vs1 vs2 => exact vcmpeq f vd vs1 vs2
  | vcmplt f vd vs1 vs2 => exact vcmplt f vd vs1 vs2
  | vcmple f vd vs1 vs2 => exact vcmple f vd vs1 vs2
  | vsel f vd vs1 vs2 => exact vsel f vd vs1 vs2
  | vrcp vd vs1 => exact vrcp vd vs1
  | vrsq vd vs1 => exact vrsq vd vs1
  | vexp2 vd vs1 => exact vexp2 vd vs1
  | vlog2 vd vs1 => exact vlog2 vd vs1
  | vcvt dst src vd vs1 => exact vcvt dst src vd vs1
  | vpack f m vd vs1 => exact vpack f m vd vs1
  | vunpack f m vd vs1 => exact vunpack f m vd vs1
  | vredsum f vd vs1 => exact vredsum f vd vs1
  | vredmax f vd vs1 => exact vredmax f vd vs1
  | vscan f excl vd vs1 => exact vscan f excl vd vs1
  | vperm f vd vs1 vs2 => exact vperm f vd vs1 vs2
  | vslide f vd vs1 rs2 => exact vslide f vd vs1 rs2
  | vbcast f vd rs1 => exact vbcast f vd rs1
  | vmvx f rd vs1 rs2 => exact vmvx f rd vs1 rs2
  | vld vd rs1 => exact vld vd rs1
  | vlds f vd rs1 rs2 => exact vlds f vd rs1 rs2
  | vldx f vd rs1 vs2 => exact vldx f vd rs1 vs2
  | vst vs3 rs1 => exact vst vs3 rs1
  | vsts f vs3 rs1 rs2 => exact vsts f vs3 rs1 rs2
  | vstx f vs3 rs1 vs2 => exact vstx f vs3 rs1 vs2
  | vstc vs3 rs1 rs2 => exact vstc vs3 rs1 rs2
  | _ => exact noWord rfl

/-! ### The obligations -/

/-- Settles O54: the fields of every instruction decode to it (`encodes`), and a word holds six fields and no more. -/
theorem decodeInvertsEncode : Obligations.DecodeInvertsEncode := by
  unfold Obligations.DecodeInvertsEncode
  intro i w hw he
  have hd : decodeWord w = .ok i := decodeWord_ok_iff.2 ⟨encodes i _ hw (encodeWord_eq_some_iff.1 he), hw⟩
  refine ⟨hd, fun rest => ?_⟩
  rw [decode_leBytes, hd]
  rfl

/-- Settles O55: what a table reads, the encoder gives back (`decodeRaw_readsBack`). -/
theorem encodeInvertsDecode : Obligations.EncodeInvertsDecode := by
  unfold Obligations.EncodeInvertsDecode
  intro w i h
  obtain ⟨hd, hw⟩ := decodeWord_ok_iff.1 h
  exact ⟨hw, encodeWord_eq_some_iff.2 (decodeRaw_readsBack _ i hd)⟩

/-- Settles O56: the words that stand for an instruction are the ones it is encoded in. -/
theorem wordsDecode : Obligations.WordsDecode := by
  have decodes {i : Instr} {w : Word} (hw : wellFormed i = true) (he : encodeWord i = some w) : decodeWord w = .ok i :=
    (decodeInvertsEncode i w hw he).1
  unfold Obligations.WordsDecode
  refine ⟨rfl, rfl, decodes rfl rfl, decodes rfl rfl, decodes rfl rfl, decodes rfl rfl, decodes rfl rfl, decodes rfl rfl,
    decodes rfl rfl, decodes rfl rfl, ?_⟩
  simp only [List.forall_mem_cons]
  exact ⟨rfl, rfl, rfl, rfl, List.forall_mem_nil _⟩

end Sys2Proof.Laws.Encodes
end

section
/-! # Machine-only instructions (O8) -/
namespace Sys2Proof.Machine

/-! ### MRET (R140) -/

/-- The context that MRET leaves, but for the retirement. -/
def Thread.returned (h : Thread) (cycle : Nat) : Thread :=
  { h.clearResv cycle with mode := mppOf h.mstatus, mstatus := mkStatus .user true (mpieOf h.mstatus) }

section
variable (s : State) (f : Thread → Thread)

theorem me_wakeHold : (s.modHere (·.wakeHold)).me = afterHold s.me := by
  rw [State.me, State.modHere_cur, State.th, State.modHere, State.tile_modTile]
  exact Tile.wakeHold_th ..

/-- A change of the thread at the cursor, the wake-up of the threads that waited for a hold, and a retirement. -/
theorem sameButHeld_of_sameButMe {t : State} (h : sameButMe ((s.modMe f).modHere (·.wakeHold)) t) : sameButHeld s t := by
  obtain ⟨hs, ht, hh, ho⟩ := h
  have hc : sameButTiles s t := (congrArg (fun u : State => { u with tiles := s.tiles }) hs :)
  refine ⟨hc, fun u hu => (ht u hu).trans ?_, ?_, fun j hj => (ho j hj).trans ?_⟩
  · exact (State.tile_modTile_other _ _ hu).trans (State.tile_modTile_other _ _ hu)
  · rw [State.here_modHere, State.here_modMe] at hh
    exact congrArg (fun x : Tile => { x with threads := s.here.threads }) hh
  · simp only [State.modHere, State.modMe, State.modTh, State.th, State.modTile_cur, State.tile_modTile, Tile.wakeHold_th]
    exact congrArg afterHold (Tile.th_setTh_other _ _ hj)

theorem retiredThread_afterHold (h : Thread) (pc : Dword) : retiredThread s (afterHold h) pc = retiredThread s h pc := by
  unfold afterHold
  split <;> rfl
end

theorem exec_mret_machine {s : State} (hm : s.me.mode = .machine) : exec .mret s = .next s.mret := if_pos hm

theorem exec_mret {s : State} (hm : s.me.mode = .machine) :
    ∃ t, exec .mret s = .next t ∧ sameButHeld s t ∧ t.me = retiredThread s (s.me.returned s.here.cycle) s.me.mepc := by
  obtain ⟨hme, hsame⟩ := retired_of_retire ((s.modMe (·.returned s.here.cycle)).modHere (·.wakeHold)) s.me.mepc
  refine ⟨_, (exec_mret_machine hm).trans ?_, sameButHeld_of_sameButMe _ _ hsame, hme.trans ?_⟩
  · show Host.Outcome.next (State.retireTo _ (State.me _).mepc) = _
    rw [State.me_modMe]
    rfl
  · rw [me_wakeHold, State.me_modMe, retiredThread_afterHold]
    unfold retiredThread
    rw [State.here_modHere, State.here_modMe]
    rfl

/-! ### CAPSET (R147) -/

/-- The bits of m are taken from v, the others of the 18 capability bits from c. -/
def capMerge (c m v : Nat) : Dword := BitVec.ofNat 64 ((c &&& (m ^^^ (2 ^ 18 - 1))) ||| (v &&& m))

theorem exec_capset_machine {s : State} (rs1 rs2 : Reg) (hm : s.me.mode = .machine) : exec (.capset rs1 rs2) s =
    .next (s.modPortCore s.cur.tile fun c =>
      { c with jcaps := capMerge (bits c.jcaps 0 18) (bits (s.rx rs2) 0 18) (bits (s.rx rs1) 0 18) }).retire :=
  if_pos hm

theorem bits18_testBit (v : Dword) {n : Nat} (hn : n < 18) : (bits v 0 18).testBit n = v.getLsbD n := by
  rw [bits, Nat.testBit_mod_two_pow]
  simp [hn, BitVec.testBit_toNat]

theorem capMerge_bit (c m v : Dword) {n : Nat} (hn : n < 18) :
    (capMerge (bits c 0 18) (bits m 0 18) (bits v 0 18)).getLsbD n = if m.getLsbD n then v.getLsbD n else c.getLsbD n := by
  have h64 : n < 64 := by omega
  have hones : (2 ^ 18 - 1).testBit n = true := (Nat.testBit_two_pow_sub_one ..).trans (decide_eq_true hn)
  rw [capMerge, BitVec.getLsbD_ofNat, decide_eq_true h64, Bool.true_and, Nat.testBit_or, Nat.testBit_and, Nat.testBit_and,
    Nat.testBit_xor, hones, bits18_testBit _ hn, bits18_testBit _ hn, bits18_testBit _ hn]
  cases m.getLsbD n <;> simp

section
variable (s : State) (f : CoreRegs → CoreRegs)

theorem me_modPortCore : (s.modPortCore s.cur.tile f).me = s.me := by
  simp only [State.me, State.th, State.modPortCore, State.modTile_cur, State.tile_modTile]
  rfl

theorem here_modPortCore :
    (s.modPortCore s.cur.tile f).here = { s.here with core := f s.here.core, was := some s.here.portCore } := by
  simp only [State.here, State.modPortCore, State.modTile_cur, State.tile_modTile]

theorem modPortCore_congr {g : CoreRegs → CoreRegs} (h : f s.here.core = g s.here.core) :
    s.modPortCore s.cur.tile f = s.modPortCore s.cur.tile g := by
  simp only [State.modPortCore, State.modTile]
  exact congrArg _ (congrArg (fun c => ({ s.here with core := c, was := some s.here.portCore } : Tile)) h)
end

theorem sameButMe.here_was {s u : State} (h : sameButMe s u) : u.here.was = s.here.was := by
  have := congrArg Tile.was h.2.2.1
  exact this

theorem exec_capset {s : State} (rs1 rs2 : Reg) (hm : s.me.mode = .machine) :
    let caps := capMerge (bits s.here.core.jcaps 0 18) (bits (s.rx rs2) 0 18) (bits (s.rx rs1) 0 18)
    ∃ t, exec (.capset rs1 rs2) s = .next t ∧ t.here.core.jcaps = caps ∧ t.here.portCore = s.here.portCore
      ∧ Retired (s.modPortCore s.cur.tile fun c => { c with jcaps := caps }) t s.me (s.me.pc + 4) := by
  intro caps
  have hr := retired_of_retire (s.modPortCore s.cur.tile fun c => { c with jcaps := caps }) (s.me.pc + 4)
  rw [me_modPortCore] at hr
  have hcore := hr.2.here_core
  have hwas := hr.2.here_was
  rw [here_modPortCore] at hcore hwas
  refine ⟨_, (exec_capset_machine rs1 rs2 hm).trans ?_, by rw [hcore], by rw [Tile.portCore, hwas]; rfl, hr⟩
  show Host.Outcome.next (State.retireTo _ ((State.me _).pc + 4)) = _
  rw [me_modPortCore]
  exact congrArg (fun u : State => Host.Outcome.next (u.retireTo (s.me.pc + 4))) (modPortCore_congr s _ rfl)

/-- Settles O8: in U-mode `needMachine` answers the illegal-instruction trap; the effects of MRET
and CAPSET in M-mode are those of `exec_mret` and `exec_capset`. -/
theorem machineModeInstructions : Obligations.MachineModeInstructions := by
  unfold Obligations.MachineModeInstructions
  refine ⟨fun s rd rs1 rs2 hm => ?_, fun s hm => exec_mret hm, fun s rs1 rs2 hm => ?_⟩
  · have hn : s.me.mode ≠ .machine := by rw [hm]; decide
    exact ⟨traps_of_trap _ _ _ _ (if_neg hn), traps_of_trap _ _ _ _ (if_neg hn), traps_of_trap _ _ _ _ (if_neg hn),
      traps_of_trap _ _ _ _ (if_neg hn)⟩
  · obtain ⟨t, he, hcaps, hport, hret⟩ := exec_capset rs1 rs2 hm
    refine ⟨t, he, fun n hn => ?_, hport, hcaps ▸ hret⟩
    rw [hcaps, capMerge_bit _ _ _ hn]

end Sys2Proof.Machine
end

section
/-! # Control and status registers (O9, O10) -/
namespace Sys2Proof.Machine

/-! ### A CSR write leaves the pc (R97) -/

theorem wx_pc (h : Thread) (rd : Reg) (v : Dword) : (h.wx rd v).pc = h.pc := by
  unfold Thread.wx
  split <;> rfl

theorem me_modTile (s : State) (f : Tile → Tile) : (s.modTile s.cur.tile f).me = (f s.here).th s.cur.slot := by
  simp only [State.me, State.th, State.modTile_cur, State.tile_modTile]
  rfl

/-- The thread at the cursor stands at the same pc in both states. -/
def SamePc (s u : State) : Prop := u.me.pc = s.me.pc

section
variable {s : State}

theorem samePc_modMe {f : Thread → Thread} (hf : ∀ h, (f h).pc = h.pc) : SamePc s (s.modMe f) := by
  rw [SamePc, State.me_modMe, hf]
theorem samePc_modCore {f : CoreRegs → CoreRegs} : SamePc s (s.modCore s.cur.tile f) := by
  rw [SamePc, State.modCore, me_modTile]
  rfl
theorem samePc_modPortCore {f : CoreRegs → CoreRegs} : SamePc s (s.modPortCore s.cur.tile f) := by
  rw [SamePc, State.modPortCore, me_modTile]
  rfl
theorem samePc_writeMark {v : Dword} : SamePc s (s.writeMark s.cur.tile s.cur.slot v) :=
  samePc_modMe (f := (·.marked v)) fun h => (congrArg Thread.pc (h.marked_rest v) :)

theorem samePc_csrWrite {n : Nat} {v : Dword} : SamePc s (s.csrWrite n v) := by
  unfold State.csrWrite
  dsimp only
  split
  case h_8 | h_9 | h_10 | h_25 => exact samePc_modPortCore
  case h_11 | h_12 | h_13 | h_14 => exact samePc_modCore
  case h_24 => exact samePc_writeMark
  case h_26 => rfl
  all_goals exact samePc_modMe fun _ => rfl
end

/-! ### The operations (R142) -/

theorem csrLegal_iff (m : Mode) (n : BitVec 12) (wr : Bool) : csrLegal (m == .user) n wr = true ↔
    ¬(m = .user ∧ n.extractLsb' 8 2 = 0b11#2) ∧ ¬(wr = true ∧ n.extractLsb' 10 2 = 0b11#2) := by
  rw [csrLegal, Bool.and_eq_true, Bool.not_eq_true', Bool.not_eq_true', ← Bool.not_eq_true, ← Bool.not_eq_true,
    Bool.and_eq_true, Bool.and_eq_true, beq_iff_eq, beq_iff_eq, beq_iff_eq]

/-- The value that a CSR instruction writes, of the old one and its source. -/
def CsrOp.new (op : CsrOp) (src old : Dword) : Dword :=
  match op with
  | .w => src
  | .s => old ||| src
  | .c => old &&& ~~~src

section
variable {i : Instr} {s : State} {op : CsrOp} {rd : Reg} {n : BitVec 12} {src : Dword} {wr : Bool}

theorem csrOp_legal {old : Dword} (hr : s.csrRead n.toNat = some old) (hl : csrLegal (s.me.mode == .user) n wr = true) :
    csrOp op rd n src wr s =
      .next ((if wr then s.csrWrite n.toNat (op.new src old) else s).wx rd old).retire := by
  unfold csrOp
  rw [hr]
  exact if_pos hl

theorem csrOp_illegal (h : s.csrRead n.toNat = none ∨ ¬csrLegal (s.me.mode == .user) n wr = true) :
    csrOp op rd n src wr s = .next s.illegal := by
  unfold csrOp
  split
  · rfl
  next old hr => exact if_neg (h.resolve_left (by rw [hr]; exact Option.some_ne_none _))

/-- x[rd] is written, and the thread goes on at the next word. -/
theorem retired_wx {u : State} (h : SamePc s u) (rd : Reg) (v : Dword) :
    Retired u (u.wx rd v).retire (u.me.wx rd v) (s.me.pc + 4) := by
  have hpc : (u.wx rd v).me.pc = s.me.pc := by rw [State.wx, State.me_modMe, wx_pc, h]
  rw [State.retire, hpc]
  exact retired_of_retireTo u (·.wx rd v) _

/-- An instruction that is a CsrOp: an allowed access, and one that is not. -/
theorem csr_accesses (he : exec i s = csrOp op rd n src wr s) :
    let allowed := ¬(s.me.mode = .user ∧ n.extractLsb' 8 2 = 0b11#2) ∧ ¬(wr = true ∧ n.extractLsb' 10 2 = 0b11#2)
    (∀ old, s.csrRead n.toNat = some old → allowed →
      ∃ t, exec i s = .next t
        ∧ let u := if wr then s.csrWrite n.toNat (op.new src old) else s
          Retired u t (u.me.wx rd old) (s.me.pc + 4))
    ∧ (s.csrRead n.toNat = none ∨ ¬allowed → Illegal i s) := by
  refine ⟨fun old hr ha =>
    ⟨_, he.trans (csrOp_legal hr ((csrLegal_iff ..).2 ha)), retired_wx ?_ rd old⟩, fun h => ?_⟩
  · split
    · exact samePc_csrWrite
    · rfl
  · exact traps_of_trap _ _ _ _ (he.trans (csrOp_illegal (h.imp_right (mt (csrLegal_iff ..).1))))
end

/-- Settles O9: each of the six instructions is a CsrOp (`csr_accesses`). -/
theorem csrOperations : Obligations.CsrOperations := by
  unfold Obligations.CsrOperations
  intro s rd rs1 csr uimm
  exact ⟨csr_accesses (op := .w) rfl, csr_accesses (op := .w) rfl, csr_accesses (op := .s) rfl,
    csr_accesses (op := .s) rfl, csr_accesses (op := .c) rfl, csr_accesses (op := .c) rfl⟩

/-! ### Reading what was written (R97-R99) -/

section
variable {s : State} {n : Nat} {v : Dword}

theorem reads_of_me {f : Thread → Thread} (g : Thread → Dword) {w : Dword} (hw : s.csrWrite n v = s.modMe f)
    (hr : ∀ u : State, u.csrRead n = some (g u.me)) (hg : g (f s.me) = w) : (s.csrWrite n v).csrRead n = some w := by
  rw [hw, hr, State.me_modMe, hg]

theorem reads_of_core {f : CoreRegs → CoreRegs} (g : CoreRegs → Dword) {w : Dword}
    (hw : s.csrWrite n v = s.modCore s.cur.tile f) (hr : ∀ u : State, u.csrRead n = some (g u.here.core))
    (hg : g (f s.here.core) = w) : (s.csrWrite n v).csrRead n = some w := by
  rw [hw, hr, ← hg]
  exact congrArg (fun x : Tile => some (g x.core)) (State.here_modHere s _)
theorem reads_of_portCore {f : CoreRegs → CoreRegs} (g : CoreRegs → Dword) {w : Dword}
    (hw : s.csrWrite n v = s.modPortCore s.cur.tile f) (hr : ∀ u : State, u.csrRead n = some (g u.here.core))
    (hg : g (f s.here.core) = w) : (s.csrWrite n v).csrRead n = some w := by
  rw [hw, hr, ← hg]
  exact congrArg (fun x : Tile => some (g x.core)) (State.here_modHere s _)
end

/-- The CSRs that a write leaves as they are. -/
theorem csrWrite_readOnly (s : State) (v : Dword) : ∀ n ∈ [0x301, 0x344, 0x7C7, 0x7C8, 0xC00, 0xC01, 0xC02, 0xCC0, 0xCC1,
    0xCC2, 0xCC3, 0xCC4, 0xCC5, 0xCC6, 0xCC7, 0xCC8, 0xCC9, 0xCCA, 0xCCB, 0xCCC, 0xCCD, 0xCCE, 0xCCF, 0xCD0, 0xCD1, 0xCD2,
    0xCD3, 0xCD4, 0xF14], s.csrWrite n v = s ∧ (s.csrRead n).isSome = true := by
  simp only [List.forall_mem_cons, List.not_mem_nil, false_imp_iff, implies_true, and_true]
  and_intros
  all_goals rfl

/-- Settles O10: each register that a write changes by its field, and the read-only ones by `csrWrite_readOnly`. -/
theorem csrFields : Obligations.CsrFields := by
  unfold Obligations.CsrFields
  intro s v
  exact ⟨reads_of_me (·.mstatus) rfl (fun _ => rfl) rfl, reads_of_me (·.mie) rfl (fun _ => rfl) rfl,
    reads_of_me (·.mtvec) rfl (fun _ => rfl) rfl, reads_of_me (·.mscratch) rfl (fun _ => rfl) rfl,
    reads_of_me (·.mepc) rfl (fun _ => rfl) rfl, reads_of_me (·.mcause) rfl (fun _ => rfl) rfl,
    reads_of_me (·.mtval) rfl (fun _ => rfl) rfl,
    reads_of_portCore (f := fun c => { c with jmpart0 := _ }) (·.jmpart0) rfl (fun _ => rfl) rfl,
    reads_of_portCore (f := fun c => { c with jmpart1 := _ }) (·.jmpart1) rfl (fun _ => rfl) rfl,
    reads_of_portCore (f := fun c => { c with jmrcb := _ }) (·.jmrcb) rfl (fun _ => rfl) rfl,
    reads_of_core (f := fun c => { c with jmstall := _ }) (·.jmstall) rfl (fun _ => rfl) rfl,
    reads_of_core (f := fun c => { c with jmtrace := _, jmtrhead := _ }) (·.jmtrace) rfl (fun _ => rfl) rfl,
    reads_of_core (f := fun c => { c with jmtrhead := _ }) (·.jmtrhead) rfl (fun _ => rfl) rfl,
    reads_of_core (f := fun c => { c with jmdeleg := _ }) (·.jmdeleg) rfl (fun _ => rfl) rfl,
    reads_of_me (·.jsrseed) rfl (fun _ => rfl) rfl, reads_of_me (·.jmcfg) rfl (fun _ => rfl) rfl,
    reads_of_me (·.jvcfg) rfl (fun _ => rfl) rfl, reads_of_me (·.jutvec) rfl (fun _ => rfl) rfl,
    reads_of_me (·.jutcause) rfl (fun _ => rfl) rfl, reads_of_me (·.jutepc) rfl (fun _ => rfl) rfl,
    reads_of_me (·.jutval) rfl (fun _ => rfl) rfl, reads_of_me (·.jmgate) rfl (fun _ => rfl) rfl,
    reads_of_me (·.jmgatev) rfl (fun _ => rfl) rfl, reads_of_me (f := (·.marked v)) (·.jrmark) rfl (fun _ => rfl) rfl,
    reads_of_portCore (f := fun c => { c with jcodewin := _ }) (·.jcodewin) rfl (fun _ => rfl) rfl,
    congrArg Thread.uhold (State.me_modMe s _), csrWrite_readOnly s v, rfl, rfl⟩

end Sys2Proof.Machine
end

section
/-! # The state after reset (O57) -/
namespace Sys2Proof.Machine

theorem coreReset_th (x : Tile) (t : Nat) (i : Fin 8) : (x.coreReset t).th i = {} := by
  simp [Tile.th, Tile.coreReset]

/-- Settles O57: the reset state's fields as they are written, and a core's slots by `coreReset_th`. -/
theorem resetIsWellFormed : Obligations.ResetIsWellFormed := by
  unfold Obligations.ResetIsWellFormed
  refine ⟨⟨rfl, rfl⟩, rfl, rfl, rfl, rfl, rfl, fun p => ⟨rfl, rfl, rfl⟩, fun i => ⟨rfl, rfl⟩, fun x t i => ?_⟩
  dsimp only
  rw [coreReset_th]
  exact ⟨rfl, rfl, rfl, rfl, rfl, rfl, rfl, rfl, rfl, rfl, rfl, rfl, rfl, rfl, rfl, rfl⟩

end Sys2Proof.Machine
end

section
/-! # What a write step at a port leaves (R135, R136, R154, R182)

`PortStep s u t` says once what may differ after a step at tile t's port: bytes and marks, messages to the host, and of the
tile what its threads and engines see of the write. -/
namespace Sys2Proof.Machine

/-- From h to k a thread has seen writes at its tile's port: its wait may have ended, and its reservation. -/
def SeenThread (h k : Thread) : Prop :=
  { k with st := h.st, need := h.need, woken := h.woken, resv := h.resv, lastHold := h.lastHold, holdEnd := h.holdEnd } = h
    ∧ (h.resv = none → k.resv = none)

/-- From x to y a tile has seen writes at its port: its threads may have changed as `SeenThread` says, and commands and
entries may have evaluated their gates. -/
def SeenTile (x y : Tile) : Prop :=
  { y with threads := x.threads, chans := x.chans, ladle := x.ladle, matrix := x.matrix } = x
    ∧ y.matrix.accs = x.matrix.accs ∧ ∀ i, SeenThread (x.th i) (y.th i)

/-- What a step at tile t's port leaves as it was. -/
structure PortStep (s u : State) (t : Nat) : Prop where
  rest : { u with tiles := s.tiles, mem := s.mem, marks := s.marks, msix := s.msix } = s
  other : ∀ v, v ≠ t → u.tile v = s.tile v
  seen : SeenTile (s.tile t) (u.tile t)

/-! ### Threads and tiles -/

namespace SeenThread

theorem refl (h : Thread) : SeenThread h h := ⟨rfl, id⟩

theorem trans {h k l : Thread} (a : SeenThread h k) (b : SeenThread k l) : SeenThread h l :=
  ⟨(congrArg (fun m : Thread => { m with
      st := h.st, need := h.need, woken := h.woken, resv := h.resv, lastHold := h.lastHold, holdEnd := h.holdEnd }) b.1).trans
      a.1, fun e => b.2 (a.2 e)⟩

theorem clearResv (h : Thread) (cycle : Nat) : SeenThread h (h.clearResv cycle) := ⟨rfl, fun _ => rfl⟩

theorem afterHold (h : Thread) : SeenThread h (afterHold h) := by
  unfold Machine.afterHold
  split
  · exact ⟨rfl, id⟩
  · exact refl h

section
variable {h k : Thread} (a : SeenThread h k)
include a

theorem sameRegs : sameRegs h k := by
  obtain ⟨e, -⟩ := a
  rw [← e]
  exact ⟨rfl, rfl, rfl, rfl, rfl, rfl, rfl, rfl, rfl, rfl, rfl, rfl, rfl, rfl, rfl, rfl, rfl, rfl, rfl, rfl, rfl, rfl, rfl⟩

theorem pc : k.pc = h.pc := by
  have := congrArg Thread.pc a.1
  exact this

theorem epoch : k.epoch = h.epoch := by
  have := congrArg Thread.epoch a.1
  exact this

theorem acquire : k.acquire = h.acquire := by
  have := congrArg Thread.acquire a.1
  exact this

theorem x : k.x = h.x := by
  have := congrArg Thread.x a.1
  exact this

theorem rx (r : Reg) : k.rx r = h.rx r := by
  unfold Thread.rx
  simp only [a.x]
end

end SeenThread

theorem seenThread_threadSees (s : State) (t cycle : Nat) (w : Writer) (off n i : Nat) (h : Thread) :
    SeenThread h (threadSees s t cycle w off n i h) := by
  unfold threadSees
  extract_lets k
  have hk : SeenThread h k := by
    dsimp only [k]
    split
    · split
      · exact .clearResv ..
      · exact .refl _
    · exact .refl _
  clear_value k
  refine hk.trans ?_
  split
  · split
    · exact ⟨rfl, id⟩
    · exact .refl _
  · exact .refl _

namespace SeenTile

theorem refl (x : Tile) : SeenTile x x := ⟨rfl, rfl, fun _ => .refl _⟩

theorem trans {x y z : Tile} (a : SeenTile x y) (b : SeenTile y z) : SeenTile x z :=
  ⟨(congrArg (fun w : Tile => { w with
      threads := x.threads, chans := x.chans, ladle := x.ladle, matrix := x.matrix }) b.1).trans a.1,
    b.2.1.trans a.2.1, fun i => (a.2.2 i).trans (b.2.2 i)⟩

section
variable {x y : Tile} (a : SeenTile x y)
include a

theorem core : y.core = x.core := by
  have := congrArg Tile.core a.1
  exact this

theorem reqs : y.reqs = x.reqs := by
  have := congrArg Tile.reqs a.1
  exact this

theorem cycle : y.cycle = x.cycle := by
  have := congrArg Tile.cycle a.1
  exact this

theorem lidx : y.lidx = x.lidx := by
  unfold Tile.lidx
  rw [a.core]
end

end SeenTile

theorem sees_th (x : Tile) (s : State) (t : Nat) (w : Writer) (off n : Nat) (i : Fin 8) :
    (x.sees s t w off n).th i = afterHold (threadSees s t x.cycle w off n i.val (x.th i)) := by
  refine (Tile.wakeHold_th _ i).trans (congrArg afterHold ?_)
  simp only [Tile.th, Fin.getElem_fin, Vector.getElem_mapFinIdx]

theorem seenTile_sees (x : Tile) (s : State) (t : Nat) (w : Writer) (off n : Nat) : SeenTile x (x.sees s t w off n) :=
  ⟨rfl, rfl, fun i => by rw [sees_th]; exact (seenThread_threadSees ..).trans (.afterHold _)⟩

/-! ### Steps -/

namespace PortStep

theorem refl (s : State) (t : Nat) : PortStep s s t := ⟨rfl, fun _ _ => rfl, .refl _⟩

theorem trans {s u v : State} {t : Nat} (a : PortStep s u t) (b : PortStep u v t) : PortStep s v t where
  rest := (congrArg (fun w : State => { w with tiles := s.tiles, mem := s.mem, marks := s.marks, msix := s.msix })
    b.rest).trans a.rest
  other n hn := (b.other n hn).trans (a.other n hn)
  seen := a.seen.trans b.seen

theorem foldl {α : Type} {t : Nat} {f : State → α → State} (hf : ∀ s a, PortStep s (f s a) t) (l : List α) (s : State) :
    PortStep s (l.foldl f s) t := by
  induction l generalizing s with
  | nil => exact refl s t
  | cons a l ih => exact (hf s a).trans (ih _)

theorem writeB (s : State) (t k : Nat) (bs : List Byte) : PortStep s (s.writeB k bs) t := ⟨rfl, fun _ _ => rfl, .refl _⟩

theorem modTile (s : State) (t : Nat) {f : Tile → Tile} (hf : ∀ x, SeenTile x (f x)) : PortStep s (s.modTile t f) t :=
  ⟨rfl, fun _ hn => State.tile_modTile_other s f hn, by rw [State.tile_modTile]; exact hf _⟩

theorem sendMsix (s : State) (t pkg v : Nat) : PortStep s (s.sendMsix pkg v) t := by
  unfold State.sendMsix
  split
  · exact writeB ..
  · exact ⟨rfl, fun _ _ => rfl, .refl _⟩

theorem hostRisers (s : State) (t : Nat) (pieces : List (Nat × List Byte)) : PortStep s (s.hostRisers t pieces) t := by
  refine foldl (fun s e => ?_) _ s
  split
  · exact sendMsix ..
  · exact refl s t

section
variable {s u : State} {t : Nat} (a : PortStep s u t)
include a

theorem cur : u.cur = s.cur := by
  have := congrArg State.cur a.rest
  exact this

theorem net : u.net = s.net := by
  have := congrArg State.net a.rest
  exact this

theorem fabricOut : u.fabricOut = s.fabricOut := by
  have := congrArg State.fabricOut a.rest
  exact this

theorem code : u.code = s.code := by
  have := congrArg State.code a.rest
  exact this

theorem core (v : Nat) : (u.tile v).core = (s.tile v).core := by
  by_cases h : v = t
  · rw [h]; exact a.seen.core
  · rw [a.other v h]

theorem homeIndex (h : Home) : homeIndex u h = homeIndex s h := by
  have hl (v : Nat) : (u.tile v).lidx = (s.tile v).lidx := by unfold Tile.lidx; rw [a.core v]
  have hf (v : Nat) : u.inFrame v = s.inFrame v := by unfold State.inFrame State.side; rw [a.code]
  cases h with
  | tile v => simp only [Machine.homeIndex, hl, hf]
  | chan g => exact hl _
  | mgmt | host | module => rfl
end

end PortStep

/-! ### Bytes -/

theorem Memory.write_append (m : List Host.Cell) (k : Nat) (a b : List Byte) :
    Memory.write (Memory.write m k a) (k + a.length) b = Memory.write m k (a ++ b) := by
  induction a generalizing m k with
  | nil => rfl
  | cons c a ih =>
    rw [List.length_cons, Nat.add_comm a.length, ← Nat.add_assoc]
    exact ih _ _

theorem leBytes_getD (n v i : Nat) (h : i < n) : (leBytes n v).getD i 0 = BitVec.ofNat 8 (v / 256 ^ i) := by
  induction n generalizing v i with
  | zero => exact absurd h (Nat.not_lt_zero i)
  | succ n ih =>
    cases i with
    | zero => simp [leBytes]
    | succ i =>
      rw [leBytes, List.getD_cons_succ, ih _ _ (Nat.lt_of_succ_lt_succ h), Nat.div_div_eq_div_mul, Nat.pow_succ']

theorem byte_writeB (s : State) (k : Nat) (bs : List Byte) (j : Nat) :
    (s.writeB k bs).byte j = if k ≤ j ∧ j < k + bs.length then bs.getD (j - k) 0 else s.byte j := by
  refine (Memory.get_write s.mem k bs j).trans ?_
  split
  next h => rw [List.getD_eq_getElem]
  next => rfl

/-- The pieces of a write step, in memory. -/
def State.withPieces (s : State) (t : Nat) (pieces : List (Nat × List Byte)) : State :=
  pieces.foldl (fun s p => s.writeB (tileKey t p.1) p.2) s

/-- Keys below those of the packages' windows, where pending bits of masked vectors lie (R298). -/
theorem byte_sendMsix (s : State) (pkg v : Nat) {k : Nat} (hk : k < 2 ^ 62) : (s.sendMsix pkg v).byte k = s.byte k := by
  unfold State.sendMsix
  split
  · refine byte_writeN_other (.inl (Nat.lt_of_lt_of_le hk ?_))
    unfold pendingKey windowKey
    omega
  · rfl

theorem byte_hostRisers (s : State) (t : Nat) (pieces : List (Nat × List Byte)) {k : Nat} (hk : k < 2 ^ 62) :
    (s.hostRisers t pieces).byte k = s.byte k := by
  unfold State.hostRisers
  generalize (s.tile t).hriser.toList = l
  induction l generalizing s with
  | nil => rfl
  | cons e l ih =>
    refine (ih _).trans ?_
    dsimp only
    split
    · exact byte_sendMsix s _ _ hk
    · rfl

theorem mem_foldl_sees (l : List (Nat × List Byte)) (t : Nat) (w : Writer) (s : State) :
    (l.foldl (fun s p => s.modTile t fun x => x.sees s t w p.1 p.2.length) s).mem = s.mem := by
  induction l generalizing s with
  | nil => rfl
  | cons p l ih => exact (ih _).trans rfl

/-- A step that the trace ring does not take (R200). -/
def Untraced (s : State) (t : Nat) (w : Writer) (off : Nat) : Prop :=
  w.logged = false ∨ (s.tile t).core.jmtrace.getLsbD 63 = false ∨ mramBase ≤ off

theorem trace_of_untraced {s : State} {t : Nat} {w : Writer} {off : Nat} (h : Untraced s t w off) : s.trace t w off = s := by
  refine if_neg fun ⟨hw, hj, ho⟩ => ?_
  rcases h with h | h | h
  · exact Bool.false_ne_true (h.symm.trans hw)
  · exact Bool.false_ne_true (h.symm.trans hj)
  · exact Nat.not_lt.2 h ho

section
variable {s : State} {t : Nat} {pieces : List (Nat × List Byte)} {w : Writer} {off : Nat}

theorem Untraced.of_portStep {u : State} (h : Untraced s t w off) (a : PortStep s u t) : Untraced u t w off := by
  unfold Untraced
  rw [a.core]
  exact h

theorem portStep_withPieces : PortStep s (s.withPieces t pieces) t := .foldl (fun _ _ => .writeB ..) _ _

theorem portStep_sees {s : State} :
    PortStep s (pieces.foldl (fun (s : State) p => s.modTile t fun x => x.sees s t w p.1 p.2.length) s) t :=
  .foldl (fun _ _ => .modTile _ _ fun _ => seenTile_sees ..) _ _

theorem stepWrite_eq (h : Untraced s t w off) : s.stepWrite t pieces w off =
    (pieces.foldl (fun (s : State) p => s.modTile t fun x => x.sees s t w p.1 p.2.length)
      (s.withPieces t pieces)).hostRisers t pieces :=
  congrArg (·.hostRisers t pieces) (trace_of_untraced (h.of_portStep (portStep_withPieces.trans portStep_sees)))

theorem portStep_stepWrite (h : Untraced s t w off) : PortStep s (s.stepWrite t pieces w off) t := by
  rw [stepWrite_eq h]
  exact (portStep_withPieces.trans portStep_sees).trans (.hostRisers ..)

theorem byte_stepWrite (h : Untraced s t w off) {k : Nat} (hk : k < 2 ^ 62) :
    (s.stepWrite t pieces w off).byte k = (s.withPieces t pieces).byte k := by
  rw [stepWrite_eq h, byte_hostRisers _ _ _ hk]
  exact congrArg (Memory.get · k) (mem_foldl_sees ..)

/-- A step of one run of bytes. -/
theorem wrote_stepWrite (h : Untraced s t w off) {a : Nat} {bs : List Byte}
    (hp : (s.withPieces t pieces).mem = Memory.write s.mem (tileKey t a) bs) : Wrote s (s.stepWrite t pieces w off) t a bs := by
  intro k hk
  rw [byte_stepWrite h hk, ← byte_writeB]
  exact congrArg (Memory.get · k) hp
end

end Sys2Proof.Machine
end

section
/-! # Integer results (O1)

Each result is written by `result`, so `writes_result` is all the state knows of them; the rest is arithmetic of words. -/
namespace Sys2Proof.Machine

/-! ### Shift amounts and results -/

theorem bits_low_toNat (v : Dword) (n : Nat) : bits v 0 n = (v.extractLsb' 0 n).toNat := by
  rw [bits, Nat.pow_zero, Nat.div_one, BitVec.extractLsb'_toNat, Nat.shiftRight_zero]

theorem amount_mod {n : Nat} (v : BitVec n) : v.toNat % 2 ^ n = v.toNat := Nat.mod_eq_of_lt v.isLt

section
variable {s : State} {rd : Reg} {v w : Dword} {i : Instr}

theorem writes_result (h : exec i s = result rd w s) (hv : w = v) : Writes i s rd v :=
  writes_of_result i s rd v (hv ▸ h)

/-- The shifts of 64 bits take six bits of amount. -/
theorem writes_shift64 {f : Nat → Dword} {n : Nat} (sh : BitVec 6) (h : exec i s = result rd (f (n % 64)) s) (hn : n = sh.toNat) :
    Writes i s rd (f sh.toNat) :=
  writes_result h (by rw [hn]; exact congrArg f (amount_mod sh))

/-- The shifts of 32 bits take five bits of amount. -/
theorem writes_shift32 {f : Nat → Word} {n : Nat} (sh : BitVec 5) (h : exec i s = result rd (sext (f (n % 32))) s)
    (hn : n = sh.toNat) : Writes i s rd ((f sh.toNat).signExtend 64) :=
  writes_result h (by rw [hn]; exact congrArg (fun k => sext (f k)) (amount_mod sh))
end

/-! ### Words -/

theorem toWord_ofI (op : BitVec 7) (f3 : BitVec 3) (rd rs1 : BitVec 5) (imm : BitVec 12) :
    (Raw.ofI op f3 rd rs1 imm).toWord = imm ++ rs1 ++ f3 ++ rd ++ op :=
  congrArg (fun i : BitVec 12 => i ++ rs1 ++ f3 ++ rd ++ op) (Laws.Encodes.cat12 imm)

theorem toWord_ofU (op : BitVec 7) (rd : BitVec 5) (imm : BitVec 20) : (Raw.ofU op rd imm).toWord = imm ++ rd ++ op :=
  congrArg (fun i : BitVec 20 => i ++ rd ++ op) (Laws.Encodes.immU_ofU op rd imm)

theorem shiftField_low : ∀ sh : BitVec 6,
    (0b000000#6 ++ sh.extractLsb' 5 1) ++ sh.extractLsb' 0 5 = 0b000000#6 ++ sh := by decide
theorem shiftField_high : ∀ sh : BitVec 6,
    (0b010000#6 ++ sh.extractLsb' 5 1) ++ sh.extractLsb' 0 5 = 0b010000#6 ++ sh := by decide

section
variable (rd rs1 : Reg) (sh : BitVec 6)

theorem encodeWord_slli : encodeWord (.slli rd rs1 sh) = some (0b000000#6 ++ sh ++ rs1 ++ 0b001#3 ++ rd ++ 0b0010011#7) :=
  congrArg (fun i : BitVec 12 => some (i ++ rs1 ++ 0b001#3 ++ rd ++ 0b0010011#7)) (shiftField_low sh)
theorem encodeWord_srli : encodeWord (.srli rd rs1 sh) = some (0b000000#6 ++ sh ++ rs1 ++ 0b101#3 ++ rd ++ 0b0010011#7) :=
  congrArg (fun i : BitVec 12 => some (i ++ rs1 ++ 0b101#3 ++ rd ++ 0b0010011#7)) (shiftField_low sh)
theorem encodeWord_srai : encodeWord (.srai rd rs1 sh) = some (0b010000#6 ++ sh ++ rs1 ++ 0b101#3 ++ rd ++ 0b0010011#7) :=
  congrArg (fun i : BitVec 12 => some (i ++ rs1 ++ 0b101#3 ++ rd ++ 0b0010011#7)) (shiftField_high sh)
end

/-- Settles O1: the results by `writes_result` and the two lemmas on shifts, the words by the lemma of their format. -/
theorem integerResults : Obligations.IntegerResults := by
  unfold Obligations.IntegerResults
  intro s rd rs1 rs2 imm up sh sw a b i upper w aw n6 n5
  have h6 : bits b 0 6 = n6 := bits_low_toNat b 6
  have h5 : bits b 0 5 = n5 := bits_low_toNat b 5
  have word (op : BitVec 7) (f3 : BitVec 3) := congrArg some (toWord_ofI op f3 rd rs1 imm)
  exact ⟨writes_result rfl rfl, writes_result rfl rfl,
    writes_shift64 (f := (a <<< ·)) _ rfl h6, writes_shift64 (f := (a >>> ·)) _ rfl h6,
    writes_shift64 (f := (a.sshiftRight ·)) _ rfl h6,
    writes_result rfl rfl, writes_result rfl rfl, writes_result rfl rfl, writes_result rfl rfl, writes_result rfl rfl,
    writes_result rfl rfl, writes_result rfl rfl, writes_result rfl rfl, writes_result rfl rfl, writes_result rfl rfl,
    writes_result rfl rfl,
    writes_shift64 (f := (a <<< ·)) sh rfl rfl, writes_shift64 (f := (a >>> ·)) sh rfl rfl,
    writes_shift64 (f := (a.sshiftRight ·)) sh rfl rfl,
    writes_result rfl rfl, writes_result rfl rfl,
    writes_shift32 (f := (aw <<< ·)) _ rfl h5, writes_shift32 (f := (aw >>> ·)) _ rfl h5,
    writes_shift32 (f := (aw.sshiftRight ·)) _ rfl h5,
    writes_result rfl rfl,
    writes_shift32 (f := (aw <<< ·)) sw rfl rfl, writes_shift32 (f := (aw >>> ·)) sw rfl rfl,
    writes_shift32 (f := (aw.sshiftRight ·)) sw rfl rfl,
    writes_result rfl rfl, writes_result rfl rfl,
    rfl, rfl, rfl, rfl, rfl, rfl, rfl, rfl, rfl, rfl, rfl, rfl, rfl, rfl, rfl,
    word .., word .., word .., word .., word .., word .., word ..,
    encodeWord_slli .., encodeWord_srli .., encodeWord_srai .., rfl, rfl, rfl,
    congrArg some (toWord_ofU ..), congrArg some (toWord_ofU ..)⟩

end Sys2Proof.Machine
end

section
/-! # Multiplies and divisions (O2, O3) -/
namespace Sys2Proof.Machine

section
variable {s : State} {rd : Reg} {v : Dword} {i : Instr} {n : Nat}

theorem needCap_fenced {b : Nat} (hc : s.cap b = false) (k : State → Outcome) : needCap b s k = .next s.fenced :=
  if_neg (by rw [hc]; decide)

theorem multiply_late (hi : exec i s = multiply rd v s) (hc : s.cap 0 = true) : LateWrites i s rd v 3 :=
  lateWrites_of_wxIn _ _ _ _ _ (hi.trans (needCap_held hc _))

theorem multiply_fenced (hi : exec i s = multiply rd v s) (hc : s.cap 0 = false) : Fenced i s :=
  traps_of_trap _ _ _ _ (hi.trans (needCap_fenced hc _))

/-- The divider is taken with a division's result (R121). -/
def State.dividesFor (s : State) (n : Nat) (rd : Reg) (v : Dword) : State :=
  s.modHere fun x => { x with divider := some (x.cycle + n, s.cur.slot.val, s.me.epoch, rd, v) }

theorem me_dividesFor (s : State) (n : Nat) (rd : Reg) (v : Dword) : (s.dividesFor n rd v).me = s.me :=
  congrArg (·.th s.cur.slot) (State.here_modHere s _)

theorem divide_takes (hi : exec i s = divide n rd v s) (hc : s.cap 0 = true) (hd : s.here.divider = none) :
    Effects i s (s.dividesFor n rd v) := by
  refine effects_of_retire _ _ _ (hi.trans ((needCap_held hc _).trans ?_)) (congrArg Thread.pc (me_dividesFor ..))
  rw [hd]
  rfl

theorem divide_waits (hi : exec i s = divide n rd v s) (hc : s.cap 0 = true) (hd : s.here.divider.isSome = true) :
    Blocks i s .unit .divider := by
  obtain ⟨d, hd⟩ := Option.isSome_iff_exists.1 hd
  refine blocks_of_block _ _ _ _ (hi.trans ((needCap_held hc _).trans ?_))
  rw [hd]

theorem divide_fenced (hi : exec i s = divide n rd v s) (hc : s.cap 0 = false) : Fenced i s :=
  traps_of_trap _ _ _ _ (hi.trans (needCap_fenced hc _))
end

/-- Settles O2: the five multiplies are `multiply` of their products. -/
theorem multiplies : Obligations.Multiplies := by
  unfold Obligations.Multiplies
  intro s rd rs1 rs2 a b
  exact ⟨fun hc => ⟨multiply_late rfl hc, multiply_late rfl hc, multiply_late rfl hc, multiply_late rfl hc, multiply_late rfl hc⟩,
    fun hc => ⟨multiply_fenced rfl hc, multiply_fenced rfl hc, multiply_fenced rfl hc, multiply_fenced rfl hc,
      multiply_fenced rfl hc⟩⟩

/-! ### The end of a division (R121) -/

theorem mapTh_th (x : Tile) (f : Thread → Thread) (i : Fin 8) : (x.mapTh f).th i = f (x.th i) := by
  unfold Tile.mapTh Tile.th mapV
  simp only [Fin.getElem_fin, Vector.getElem_ofFn]

theorem wakeDivider_rx (x : Tile) (i : Fin 8) (r : Reg) : (x.wakeDivider.th i).rx r = (x.th i).rx r := by
  rw [Tile.wakeDivider, mapTh_th]
  split <;> rfl

/-- The tile that the end of a division of the slot's thread leaves. -/
def Tile.divided (x : Tile) (i : Fin 8) (rd : Reg) (v : Dword) : Tile :=
  { x.modTh i (·.wx rd v) with divider := none }.wakeDivider

theorem exec_divideComplete {s : State} {t : Nat} {i : Fin 8} {c : Nat} {rd : Reg} {v : Dword} (hf : s.inFrame t = true)
    (hd : (s.tile t).divider = some (c, i.val, (s.th t i).epoch, rd, v)) (hst : (s.th t i).st ≠ .empty)
    (hc : c ≤ (s.tile t).cycle + 1) : exec (.divideComplete t) s = .next (s.modTile t (·.divided i rd v)) := by
  refine (onTile_of_inFrame hf _).trans ?_
  dsimp only
  rw [hd]
  dsimp only
  rw [if_pos hc, slotIx_val, if_pos ⟨rfl, hst⟩]
  rfl

/-- Settles O3: the eight divisions are `divide` of their results, and the end of a division by `exec_divideComplete`. -/
theorem divisions : Obligations.Divisions := by
  unfold Obligations.Divisions
  refine ⟨fun s rd rs1 rs2 => ⟨fun hc hd => ?_, fun hc hd => ?_, fun hc => ?_⟩, fun s t i c rd v hf hd hst hc => ?_⟩
  · exact ⟨divide_takes rfl hc hd, divide_takes rfl hc hd, divide_takes rfl hc hd, divide_takes rfl hc hd,
      divide_takes rfl hc hd, divide_takes rfl hc hd, divide_takes rfl hc hd, divide_takes rfl hc hd⟩
  · exact ⟨divide_waits rfl hc hd, divide_waits rfl hc hd, divide_waits rfl hc hd, divide_waits rfl hc hd,
      divide_waits rfl hc hd, divide_waits rfl hc hd, divide_waits rfl hc hd, divide_waits rfl hc hd⟩
  · exact ⟨divide_fenced rfl hc, divide_fenced rfl hc, divide_fenced rfl hc, divide_fenced rfl hc,
      divide_fenced rfl hc, divide_fenced rfl hc, divide_fenced rfl hc, divide_fenced rfl hc⟩
  · refine ⟨_, exec_divideComplete hf hd hst hc, ?_, fun r => ?_, rfl, fun _ hn => State.tile_modTile_other _ _ hn⟩
    · rw [State.tile_modTile]; rfl
    · simp only [State.th, State.tile_modTile, Tile.divided]
      rw [wakeDivider_rx, ← Thread.rx_wx]
      exact congrArg (·.rx r) (Tile.th_setTh ..)

end Sys2Proof.Machine
end

section
/-! # Jumps, fences, hints and environment calls (O4, O5, O6) -/
namespace Sys2Proof.Machine

/-! ### Jumps and branches (R122, R123) -/

theorem wx_zero (h : Thread) (v : Dword) : h.wx 0 v = h := if_pos rfl

section
variable {s : State} {rd : Reg} {target : Dword} {i : Instr}

theorem jump_aligned (hi : exec i s = jump rd target s) (ht : target.getLsbD 1 = false) :
    ∃ t, exec i s = .next t ∧ Retired s t (s.me.wx rd (s.me.pc + 4)) target :=
  ⟨_, hi.trans (if_neg (by rw [bitAt, ht]; exact Bool.false_ne_true)), retired_of_retireTo s (·.wx rd (s.me.pc + 4)) target⟩

theorem jump_misaligned (hi : exec i s = jump rd target s) (ht : target.getLsbD 1 = true) : Traps i s 0 target :=
  traps_of_trap _ _ _ _ (hi.trans (if_pos ht))

/-- A branch, by its condition and its target. -/
theorem branch_cases {taken : Bool} {off : BitVec 12} (hi : exec i s = branch taken off s) :
    let bt := s.me.pc + bOff off
    (taken = true → bt.getLsbD 1 = false → GoesTo i s bt) ∧ (taken = true → bt.getLsbD 1 = true → Traps i s 0 bt)
      ∧ (taken = false → GoesTo i s (s.me.pc + 4)) := by
  intro bt
  have hj (h : taken = true) : exec i s = jump 0 bt s := hi.trans (if_pos h)
  refine ⟨fun h ht => ?_, fun h ht => jump_misaligned (hj h) ht, fun h => goesTo_of_retireTo _ _ _ (hi.trans ?_)⟩
  · obtain ⟨t, he, hr⟩ := jump_aligned (hj h) ht
    rw [wx_zero] at hr
    exact ⟨t, he, hr⟩
  · exact if_neg (by rw [h]; exact Bool.false_ne_true)
end

/-- Settles O4: JAL and JALR are `jump`, and the six branches `branch` of their conditions. -/
theorem jumpsAndBranches : Obligations.JumpsAndBranches := by
  unfold Obligations.JumpsAndBranches
  intro s rd rs1 rs2 j imm off a b jt rt bt links branches
  exact ⟨⟨jump_aligned rfl, jump_misaligned rfl⟩, ⟨jump_aligned rfl, jump_misaligned rfl⟩,
    branch_cases rfl, branch_cases rfl, branch_cases rfl, branch_cases rfl, branch_cases rfl, branch_cases rfl⟩

/-! ### Fences (R137, R138) -/

section
variable {s : State} {i : Instr} {k : State → Outcome}

theorem awaitAll_none (h : s.myEntries = []) : awaitAll s k = k s := if_pos (by rw [h]; rfl)

theorem awaitAll_some (h : s.myEntries ≠ []) : awaitAll s k = .next (s.block .score .entry) :=
  if_neg (by rw [List.isEmpty_iff]; exact h)

theorem awaitAll_blocks (hi : exec i s = awaitAll s k) (h : s.myEntries ≠ []) : Blocks i s .score .entry :=
  blocks_of_block _ _ _ _ (hi.trans (awaitAll_some h))

theorem awaitAll_goes (hi : exec i s = awaitAll s fun s => .next s.retire) (h : s.myEntries = []) : GoesTo i s (s.me.pc + 4) :=
  goesTo_of_retireTo _ _ _ (hi.trans (awaitAll_none h))
end

/-! ### The turn (R47, R49) -/

theorem retiredTile_lastOf (x : Tile) (i : Fin 8) (h : Thread) {n : Nat} (hn : n < 4) :
    (retiredTile x i h).lastOf n = if i.val < 6 ∧ n = x.eprio h then i.val else x.lastOf n := by
  have hp : x.eprio h < 4 := Nat.lt_of_le_of_lt (Nat.min_le_right ..) (bits_lt x.core.jmpart1 0 2)
  unfold retiredTile
  dsimp only
  rw [show (x.setTh i { h with wait := 0, lastIssue := x.cycle }).eprio h = x.eprio h from rfl]
  by_cases hi : i.val < 6
  · rw [if_pos hi]
    simp only [hi, true_and]
    generalize x.eprio h = p at hp
    interval_cases p <;> interval_cases n <;> rfl
  · rw [if_neg hi, if_neg fun e => hi e.1]
    interval_cases n <;> rfl

theorem retireTo_lastOf (s : State) (pc : Dword) {n : Nat} (hn : n < 4) :
    (s.retireTo pc).here.lastOf n =
      if s.cur.slot.val < 6 ∧ n = min s.me.prio s.here.core.pcap then s.cur.slot.val else s.here.lastOf n := by
  rw [State.retireTo, State.noteIssue_eq, State.here, State.setTile_cur, State.tile_setTile, State.me_modMe, State.here_modMe]
  exact (retiredTile_lastOf _ _ _ hn).trans (by cases n <;> rfl)

/-- Settles O5: the fences through `awaitAll`; WFI and YIELD retire, and `retireTo_lastOf` says whose turn has been. -/
theorem fencesAndHints : Obligations.FencesAndHints := by
  unfold Obligations.FencesAndHints
  intro s p q next level gives
  have hg {i : Instr} (hi : exec i s = .next s.retire) : gives i :=
    ⟨_, hi, retired_of_retire s _, fun _ hn => retireTo_lastOf s _ hn⟩
  have hf : exec .fenceI s = awaitAll s fun s => .next (s.modMe fun h => { h with fbuf := [] }).retire := rfl
  refine ⟨fun h => ⟨awaitAll_goes rfl h, awaitAll_goes rfl h, _, hf.trans (awaitAll_none h), ?_⟩,
    fun h => ⟨awaitAll_blocks (k := (.next ·.retire)) rfl h, awaitAll_blocks (k := (.next ·.retire)) rfl h,
      awaitAll_blocks hf h⟩, hg rfl, hg rfl⟩
  rw [retire_modMe rfl]
  exact retired_of_retireTo s (fun h => { h with fbuf := [] }) _

/-- Settles O6: both instructions are traps. -/
theorem environmentTraps : Obligations.EnvironmentTraps := by
  unfold Obligations.EnvironmentTraps
  exact fun s => ⟨traps_of_trap _ _ _ _ rfl, traps_of_trap _ _ _ _ rfl⟩

end Sys2Proof.Machine
end

section
/-! # Loads and stores at the own tile (O13, O14, O15) -/
namespace Sys2Proof.Machine

/-! ### Little-endian values (R7, R125) -/

theorem toNat_append_eq {n m : Nat} (a : BitVec n) (b : BitVec m) : (a ++ b).toNat = a.toNat * 2 ^ m + b.toNat := by
  rw [BitVec.toNat_append, ← Nat.shiftLeft_add_eq_or_of_lt b.isLt, Nat.shiftLeft_eq]

theorem readN_succ (s : State) (k n : Nat) : s.readN k (n + 1) = (s.byte k).toNat + 256 * s.readN (k + 1) n := rfl

section
variable (s : State) (k : Nat)

theorem readN_1 : s.readN k 1 = (s.byte k).toNat := by
  rw [readN_succ]
  rfl

theorem readN_2 : s.readN k 2 = (s.byte (k + 1) ++ s.byte k).toNat := by
  rw [readN_succ, readN_1, toNat_append_eq]
  omega

theorem readN_add (m n : Nat) : s.readN k (m + n) = s.readN k m + 256 ^ m * s.readN (k + m) n := by
  induction m generalizing k with
  | zero => simp [State.readN, Memory.read, leVal]
  | succ m ih =>
    rw [Nat.add_right_comm, readN_succ, readN_succ, ih, Nat.pow_succ, show k + 1 + m = k + (m + 1) by omega]
    ring

theorem readN_4 : s.readN k 4 = (s.byte (k + 3) ++ s.byte (k + 2) ++ (s.byte (k + 1) ++ s.byte k)).toNat := by
  rw [readN_add s k 2 2, readN_2, readN_2, toNat_append_eq (s.byte (k + 3) ++ _), Nat.add_comm, Nat.mul_comm]
  rfl

theorem toNat_append_bytes (a b c d : Byte) : (a ++ b ++ c ++ d).toNat = (a ++ b ++ (c ++ d)).toNat := by
  rw [toNat_append_eq (a ++ b ++ c) d, toNat_append_eq (a ++ b) c, toNat_append_eq (a ++ b) (c ++ d), toNat_append_eq c d]
  omega

theorem readN_8 : s.readN k 8 = (s.byte (k + 7) ++ s.byte (k + 6) ++ s.byte (k + 5) ++ s.byte (k + 4)
    ++ (s.byte (k + 3) ++ s.byte (k + 2) ++ (s.byte (k + 1) ++ s.byte k))).toNat := by
  rw [readN_add s k 4 4, readN_4, readN_4, toNat_append_eq (_ ++ s.byte (k + 4)), toNat_append_bytes, Nat.add_comm, Nat.mul_comm]
  rfl
end

theorem loadExt_signed {n : Nat} (size : Nat) (w : BitVec n) (h : n = 8 * size) :
    loadExt size true w.toNat = w.signExtend 64 := by
  subst h
  rw [loadExt, if_pos rfl, BitVec.signExtend, BitVec.toInt_eq_toNat_bmod]
  norm_cast
  rw [Nat.mod_eq_of_lt w.isLt]

theorem loadExt_unsigned {n : Nat} (size : Nat) (w : BitVec n) (h : n = 8 * size) :
    loadExt size false w.toNat = w.zeroExtend 64 := by
  subst h
  rw [loadExt, if_neg Bool.false_ne_true, Nat.mod_eq_of_lt w.isLt]
  exact BitVec.ofNat_toNat 64 w

/-! ### Loads (R127) -/

section
variable {s : State} {i : Instr} {size off : Nat} {l : Loc} {rd rs1 rs2 : Reg} {imm : BitVec 12}

theorem localMark_plain {a : Dword} {k : State → Outcome} (h : s.markedIn (s.myKey off) size = false) :
    localMark s a off size k = k s := if_neg (by rw [State.myKey] at h; rw [h]; exact Bool.false_ne_true)

theorem load_local {signed : Bool} {v : Dword} (hi : exec i s = load size signed rd rs1 imm s) (ho : l.localOff = some off)
    (hv : loadExt size signed (s.readN (s.myKey off) size) = v)
    (hc : checkAddr s s.me.mode (s.rx rs1 + sext imm) size size = .ok l) (hm : s.markedIn (s.myKey off) size = false) :
    LateWrites i s rd v 3 := by
  refine lateWrites_of_wxIn _ _ _ _ _ (hi.trans ((checked_ok hc).trans ?_))
  rw [ho]
  dsimp only
  rw [localMark_plain hm, hv]
  rfl
end

/-- Settles O13: the bytes read are those of `readN_1` to `readN_8`, and `load_local` says what is done with them. -/
theorem localLoads : Obligations.LocalLoads := by
  unfold Obligations.LocalLoads
  intro s rd rs1 imm l off a k ho loads h w d
  have hh : s.readN k 2 = h.toNat := readN_2 s k
  have hw : s.readN k 4 = w.toNat := readN_4 s k
  have hd : s.readN k 8 = d.toNat := readN_8 s k
  exact ⟨load_local rfl ho (readN_1 s k ▸ loadExt_signed 1 _ rfl), load_local rfl ho (readN_1 s k ▸ loadExt_unsigned 1 _ rfl),
    load_local rfl ho (hh ▸ loadExt_signed 2 h rfl), load_local rfl ho (hh ▸ loadExt_unsigned 2 h rfl),
    load_local rfl ho (hw ▸ loadExt_signed 4 w rfl), load_local rfl ho (hw ▸ loadExt_unsigned 4 w rfl),
    load_local rfl ho (hd ▸ (loadExt_signed 8 d rfl).trans (BitVec.signExtend_eq d))⟩

/-! ### Stores (R127) -/

section
variable (s : State) (off size v : Nat)

theorem untraced_localWriter (n t o : Nat) : Untraced s t (s.localWriter n) o := .inl rfl

theorem portStep_storeLocal : PortStep s (s.storeLocal off size v) s.cur.tile := portStep_stepWrite (untraced_localWriter ..)

theorem seenThread_me {s u : State} (h : PortStep s u s.cur.tile) : SeenThread s.me u.me := by
  unfold State.me State.th
  rw [h.cur]
  exact h.seen.2.2 _

theorem seenTile_here {s u : State} (h : PortStep s u s.cur.tile) : SeenTile s.here u.here := by
  unfold State.here
  rw [h.cur]
  exact h.seen

theorem byte_storeLocal {k : Nat} (hk : k < 2 ^ 62) : (s.storeLocal off size v).byte k =
    if s.myKey off ≤ k ∧ k < s.myKey off + size then BitVec.ofNat 8 (v / 256 ^ (k - s.myKey off)) else s.byte k := by
  have h : Wrote s (s.storeLocal off size v) s.cur.tile off (leBytes size v) := wrote_stepWrite (untraced_localWriter ..) rfl
  rw [h k hk, leBytes_length, ← State.myKey]
  split
  next hin => exact leBytes_getD _ _ _ (by omega)
  next => rfl
end

section
variable {s : State} {i : Instr} {size off : Nat} {l : Loc} {rs1 rs2 : Reg} {imm : BitVec 12}

theorem portFree_held {k : State → Outcome} (hf : s.here.held s.cur.tile (s.localWriter size) off size = true) :
    portFree s off size k = .next (s.block .unit .hold) := if_pos hf

theorem store_local (hi : exec i s = store size rs1 rs2 imm s) (ho : l.localOff = some off)
    (hc : checkAddr s s.me.mode (s.rx rs1 + sext imm) size size = .ok l) :
    let held := s.here.held s.cur.tile (s.localWriter size) off size
    (held = false → Effects i s (s.storeLocal off size ((s.rx rs2).toNat % 2 ^ (8 * size))))
      ∧ (held = true → Blocks i s .unit .hold) := by
  have hs : exec i s = portFree s off size fun u =>
      .next (u.storeLocal off size ((s.rx rs2).toNat % 2 ^ (8 * size))).retire := by
    refine hi.trans ((checked_ok hc).trans ?_)
    rw [ho]
  exact ⟨fun h => effects_of_retire _ _ _ (hs.trans (portFree_open h)) (seenThread_me (portStep_storeLocal ..)).pc,
    fun h => blocks_of_block _ _ _ _ (hs.trans (portFree_held h))⟩
end

/-- Settles O14: the four stores by `store_local`. -/
theorem localStores : Obligations.LocalStores := by
  unfold Obligations.LocalStores
  intro s rs1 rs2 imm l off a ho stores
  exact ⟨store_local rfl ho, store_local rfl ho, store_local rfl ho, store_local rfl ho⟩

theorem registersKept_of_portStep {s u : State} (h : PortStep s u s.cur.tile) : RegistersKept s u :=
  ⟨fun i => (h.seen.2.2 i).sameRegs, (seenTile_here h).core, (seenTile_here h).2.1, (seenTile_here h).reqs, h.net, h.fabricOut,
    h.other⟩

/-- Settles O15: the bytes by `byte_storeLocal`, all else by `portStep_storeLocal`. -/
theorem storeFrame : Obligations.StoreFrame := by
  unfold Obligations.StoreFrame
  intro s off size v t
  have h : PortStep s t s.cur.tile := portStep_storeLocal ..
  exact ⟨fun k hk => byte_storeLocal s off size v hk, registersKept_of_portStep h, fun i => (h.seen.2.2 i).pc⟩

end Sys2Proof.Machine
end


section
/-! # Atomics, LR and SC at the own tile (O18, O19) -/
namespace Sys2Proof.Machine

/-! ### Entries and acquires (R134) -/

theorem myEntries_congr {s u : State} (hc : u.cur = s.cur) (hr : u.here.reqs = s.here.reqs) (he : u.me.epoch = s.me.epoch) :
    u.myEntries = s.myEntries := by
  unfold State.myEntries
  rw [hc, hr, he]

theorem acquireIf_cases (s : State) (aq : Bool) :
    s.acquireIf aq = if aq = true ∧ s.myEntries ≠ [] then s.modMe fun h => { h with acquire := true } else s := by
  unfold State.acquireIf
  simp only [Bool.not_eq_true', List.isEmpty_eq_false_iff]

theorem acquireIf_me (s : State) (aq : Bool) :
    (s.acquireIf aq).me = { s.me with acquire := s.me.acquire || (aq && !s.myEntries.isEmpty) } := by
  unfold State.acquireIf
  by_cases h : aq = true ∧ (!s.myEntries.isEmpty) = true
  · rw [if_pos h, State.me_modMe, h.1, h.2, Bool.and_true, Bool.or_true]
  · rw [if_neg h]
    have h' : (aq && !s.myEntries.isEmpty) = false := by
      rw [← Bool.not_eq_true, Bool.and_eq_true]
      exact h
    rw [h', Bool.or_false]

theorem acquireIf_mem (s : State) (aq : Bool) : (s.acquireIf aq).mem = s.mem := by
  unfold State.acquireIf
  split <;> rfl

theorem acquireIf_cur (s : State) (aq : Bool) : (s.acquireIf aq).cur = s.cur := by
  unfold State.acquireIf
  split <;> rfl

section
variable {s : State} {rl : Bool} {k : State → Outcome}

theorem release_passes (h : rl = true → s.myEntries = []) : release rl s k = k s := by
  cases rl with
  | false => rfl
  | true => exact awaitAll_none (h rfl)

theorem release_blocks (hr : rl = true) (h : s.myEntries ≠ []) : release rl s k = .next (s.block .score .entry) := by
  subst hr
  exact awaitAll_some h
end

/-! ### Base atomics (R127, R133) -/

section
variable {s : State} {i : Instr} {op : AmoOp} {size off : Nat} {l : Loc} {rd rs1 rs2 : Reg} {aq rl : Bool}

theorem wxIn_pc (h : Thread) (rd : Reg) (v : Dword) (c n : Nat) : (h.wxIn rd v c n).pc = h.pc := by
  unfold Thread.wxIn Thread.wx
  split <;> rfl

theorem wxIn_epoch (h : Thread) (rd : Reg) (v : Dword) (c n : Nat) : (h.wxIn rd v c n).epoch = h.epoch := by
  unfold Thread.wxIn Thread.wx
  split <;> rfl

theorem localAmo_free {a src cmp old : Dword} {new : Nat}
    (hr : amoCalc op size (s.readN (s.myKey off) size) src cmp = (new, old))
    (hf : s.here.held s.cur.tile (s.localWriter size) off size = false) (hm : s.markedIn (s.myKey off) size = false) :
    localAmo op size rd a src cmp off aq s =
      .next (((s.storeLocal off size new).wxLate rd old).acquireIf aq).retire := by
  refine (portFree_open hf).trans ((localMark_plain hm).trans ?_)
  dsimp only
  rw [hr, hm]
  rfl

/-- The entries of the thread after a local write and its late result. -/
theorem myEntries_storeLocal (v : Nat) (w : Dword) : ((s.storeLocal off size v).wxLate rd w).myEntries = s.myEntries := by
  have h := portStep_storeLocal s off size v
  refine myEntries_congr h.cur ?_ ?_
  · unfold State.wxLate State.wxIn
    rw [State.here_modMe]
    exact (seenTile_here h).reqs
  · unfold State.wxLate State.wxIn
    rw [State.me_modMe, wxIn_epoch]
    exact (seenThread_me h).epoch

theorem amo_local (hi : exec i s = amo op size rd rs1 rs2 aq rl s) (ho : l.localOff = some off) {new : Nat} {old : Dword}
    (hr : amoCalc op size (s.readN (s.myKey off) size) (s.rx rs2) 0 = (new, old))
    (hc : checkAddr s s.me.mode (s.rx rs1) size size = .ok l) :
    let held := s.here.held s.cur.tile (s.localWriter size) off size
    let u := (s.storeLocal off size new).wxLate rd old
    (rl = true → s.myEntries ≠ [] → Blocks i s .score .entry)
      ∧ ((rl = true → s.myEntries = []) → held = true → Blocks i s .unit .hold)
      ∧ ((rl = true → s.myEntries = []) → held = false → s.markedIn (s.myKey off) size = false →
        Effects i s (if aq = true ∧ s.myEntries ≠ [] then u.modMe fun h => { h with acquire := true } else u)) := by
  intro held u
  have hs : exec i s = release rl s fun u => localAmo op size rd (s.rx rs1) (u.rx rs2) 0 off aq u := by
    refine hi.trans ((checked_ok hc).trans ?_)
    cases l with
    | own o => cases ho; rfl
    | mram o => cases ho; rfl
    | mesh | global | fabric | abs | mgmt | host => cases ho
  refine ⟨fun h he => blocks_of_block _ _ _ _ (hs.trans (release_blocks h he)),
    fun h hh => blocks_of_block _ _ _ _ (hs.trans ((release_passes h).trans (portFree_held hh))), fun h hf hm => ?_⟩
  have he : u.acquireIf aq = if aq = true ∧ s.myEntries ≠ [] then u.modMe fun h => { h with acquire := true } else u := by
    rw [acquireIf_cases, myEntries_storeLocal]
  have hx : exec i s = .next (u.acquireIf aq).retire := by
    rw [hs, release_passes h, localAmo_free hr hf hm]
  rw [← he]
  refine effects_of_retire _ _ _ hx ?_
  rw [acquireIf_me]
  refine (congrArg Thread.pc (State.me_modMe ..)).trans ((wxIn_pc ..).trans ?_)
  exact (seenThread_me (portStep_storeLocal ..)).pc
end

/-! ### What they compute (R133) -/

/-- What a base atomic computes of n-bit values, which returns the old one. -/
def IsBaseAmo {n : Nat} (op : AmoOp) (f : BitVec n → BitVec n → BitVec n) : Prop :=
  ∀ m v, amoInt op m v 0 = some (f m v) ∧ amoReturn op m v = m

theorem amoCalc_word {op : AmoOp} {f : Word → Word → Word} (h : IsBaseAmo op f) (m : Nat) (src : Dword) :
    amoCalc op 4 m src 0 = ((f (BitVec.ofNat 32 m) (low32 src)).toNat, sext (BitVec.ofNat 32 m)) := by
  obtain ⟨hn, hr⟩ := h (BitVec.ofNat 32 m) (low32 src)
  have h4 : amo32 op (BitVec.ofNat 32 m) (low32 src) 0 = (f (BitVec.ofNat 32 m) (low32 src), BitVec.ofNat 32 m) := by
    unfold amo32
    simp only [hn, hr]
  unfold amoCalc
  rw [if_pos rfl, show low32 0 = 0 from rfl, h4]

theorem amoCalc_dword {op : AmoOp} {f : Dword → Dword → Dword} (h : IsBaseAmo op f) (m : Nat) (src : Dword) :
    amoCalc op 8 m src 0 = ((f (BitVec.ofNat 64 m) src).toNat, BitVec.ofNat 64 m) := by
  obtain ⟨hn, hr⟩ := h (BitVec.ofNat 64 m) src
  have h8 : amo64 op (BitVec.ofNat 64 m) src 0 = (f (BitVec.ofNat 64 m) src, BitVec.ofNat 64 m) := by
    unfold amo64
    simp only [hn, hr]
  unfold amoCalc
  rw [if_neg (by decide), if_neg (by decide), h8]

/-- A thread past an AQ point holds back the memory instructions (R134, log 91). -/
theorem holdOf_acquire {s : State} {x : Tile} {j : Fin 8} {h : Thread} {throttle : Nat} {i : Instr} (ha : h.acquire = true)
    (hm : isMemory i = true) : holdOf s x j h throttle i = some (.score, .none) := by
  unfold holdOf
  dsimp only
  split
  · rfl
  · exact if_pos ⟨ha, hm⟩


/-- Settles O18: each atomic by `amo_local` and what it computes; the flag of AQ by `holdOf_acquire`. -/
theorem localAtomics : Obligations.LocalAtomics := by
  unfold Obligations.LocalAtomics
  intro s rd rs1 rs2 aq rl l off a b does m4 m8 w d
  refine ⟨fun ho => ?_, fun h throttle i ha hm => holdOf_acquire ha hm⟩
  have hw {op : AmoOp} {i : Instr} {f : Word → Word → Word} (h : IsBaseAmo op f)
      (hi : exec i s = amo op 4 rd rs1 rs2 aq rl s) : w i f := amo_local hi ho (amoCalc_word h _ _)
  have hd {op : AmoOp} {i : Instr} {f : Dword → Dword → Dword} (h : IsBaseAmo op f)
      (hi : exec i s = amo op 8 rd rs1 rs2 aq rl s) : d i f := amo_local hi ho (amoCalc_dword h _ _)
  clear_value w d
  exact ⟨hw (op := .swap) (fun _ _ => ⟨rfl, rfl⟩) rfl, hd (op := .swap) (fun _ _ => ⟨rfl, rfl⟩) rfl,
    hw (op := .add) (fun _ _ => ⟨rfl, rfl⟩) rfl, hd (op := .add) (fun _ _ => ⟨rfl, rfl⟩) rfl,
    hw (op := .xor) (fun _ _ => ⟨rfl, rfl⟩) rfl, hd (op := .xor) (fun _ _ => ⟨rfl, rfl⟩) rfl,
    hw (op := .and) (fun _ _ => ⟨rfl, rfl⟩) rfl, hd (op := .and) (fun _ _ => ⟨rfl, rfl⟩) rfl,
    hw (op := .or) (fun _ _ => ⟨rfl, rfl⟩) rfl, hd (op := .or) (fun _ _ => ⟨rfl, rfl⟩) rfl,
    hw (op := .min) (fun _ _ => ⟨rfl, rfl⟩) rfl, hd (op := .min) (fun _ _ => ⟨rfl, rfl⟩) rfl,
    hw (op := .max) (fun _ _ => ⟨rfl, rfl⟩) rfl, hd (op := .max) (fun _ _ => ⟨rfl, rfl⟩) rfl,
    hw (op := .minu) (fun _ _ => ⟨rfl, rfl⟩) rfl, hd (op := .minu) (fun _ _ => ⟨rfl, rfl⟩) rfl,
    hw (op := .maxu) (fun _ _ => ⟨rfl, rfl⟩) rfl, hd (op := .maxu) (fun _ _ => ⟨rfl, rfl⟩) rfl⟩

end Sys2Proof.Machine
end

section
/-! # LR and SC (O19) -/
namespace Sys2Proof.Machine

/-! ### Late results and holds -/

theorem wxIn_acquire (h : Thread) (rd : Reg) (v : Dword) (c n : Nat) : (h.wxIn rd v c n).acquire = h.acquire := by
  unfold Thread.wxIn Thread.wx
  split <;> rfl

theorem wxIn_resv (h : Thread) (rd : Reg) (v : Dword) (c n : Nat) : (h.wxIn rd v c n).resv = h.resv := by
  unfold Thread.wxIn Thread.wx
  split <;> rfl

theorem wxIn_rx (h : Thread) (rd r : Reg) (v : Dword) (c n : Nat) :
    (h.wxIn rd v c n).rx r = if r = rd ∧ r ≠ 0 then v else h.rx r := by
  rw [← Thread.rx_wx]
  unfold Thread.wxIn
  split
  next h0 => rw [h0, wx_zero]
  next => rfl

theorem retired_wxLate (u : State) (rd : Reg) (v : Dword) :
    Retired u (u.wxLate rd v).retire (u.me.wxIn rd v u.here.cycle 3) (u.me.pc + 4) := by
  unfold State.wxLate State.wxIn
  rw [retire_modMe (wxIn_pc ..)]
  exact retired_of_retireTo u (·.wxIn rd v u.here.cycle 3) _

section
variable (u : State) (rd : Reg) (v : Dword)

theorem rx_wxLate_retire (r : Reg) : (u.wxLate rd v).retire.rx r = if r = rd ∧ r ≠ 0 then v else u.rx r :=
  (congrArg (·.rx r) (retired_wxLate u rd v).1).trans (wxIn_rx ..)

theorem acquire_wxLate_retire : (u.wxLate rd v).retire.me.acquire = u.me.acquire :=
  (congrArg Thread.acquire (retired_wxLate u rd v).1).trans (wxIn_acquire ..)

theorem resv_wxLate_retire : (u.wxLate rd v).retire.me.resv = u.me.resv :=
  (congrArg Thread.resv (retired_wxLate u rd v).1).trans (wxIn_resv ..)

theorem pc_wxLate_retire : (u.wxLate rd v).retire.me.pc = u.me.pc + 4 := congrArg Thread.pc (retired_wxLate u rd v).1

theorem mem_wxLate_retire : (u.wxLate rd v).retire.mem = u.mem := (retired_wxLate u rd v).2.mem
end

/-- The acquire of R134, of the entries of s. -/
def State.acquires (s : State) (aq : Bool) : Bool := s.me.acquire || (aq && !s.myEntries.isEmpty)

/-! ### LR (R135) -/

section
variable {s : State} {i : Instr} {size off : Nat} {l : Loc} {rd rs1 rs2 : Reg} {aq rl : Bool}

/-- The state in which LR has reserved. -/
def State.reserved (s : State) (off size : Nat) (aq : Bool) : State :=
  ((s.acquireIf aq).modHere (·.wakeHold)).modMe (·.reserve off size (s.acquireIf aq).here.cycle)

theorem reserved_me :
    (s.reserved off size aq).me = (afterHold (s.acquireIf aq).me).reserve off size (s.acquireIf aq).here.cycle := by
  rw [State.reserved, State.me_modMe, me_wakeHold]

theorem lr_waits (hi : exec i s = loadReserved size rd rs1 aq rl s) (ho : l.localOff = some off)
    (hc : checkAddr s s.me.mode (s.rx rs1) size size = .ok l) (hr : rl = true)
    (he : s.myEntries ≠ []) : Blocks i s .score .entry := by
  refine blocks_of_block _ _ _ _ (hi.trans ((checked_ok hc).trans ?_))
  rw [ho]
  exact release_blocks hr he

theorem lr_reserves {v : Dword} (hi : exec i s = loadReserved size rd rs1 aq rl s) (ho : l.localOff = some off)
    (hv : loadExt size true (s.readN (s.myKey off) size) = v)
    (hc : checkAddr s s.me.mode (s.rx rs1) size size = .ok l) (he : rl = true → s.myEntries = [])
    (hm : s.markedIn (s.myKey off) size = false) :
    ∃ t, exec i s = .next t ∧ (∀ r, t.rx r = if r = rd ∧ r ≠ 0 then v else s.rx r) ∧ t.me.acquire = s.acquires aq
      ∧ t.me.resv = some { granule := off / 8 * 8, size := size } ∧ t.me.pc = s.me.pc + 4 ∧ t.mem = s.mem := by
  have hx : exec i s = .next ((s.reserved off size aq).wxLate rd v).retire := by
    refine hi.trans ((checked_ok hc).trans ?_)
    rw [ho]
    refine (release_passes he).trans ((localMark_plain hm).trans ?_)
    dsimp only
    rw [← hv, State.readN, acquireIf_mem, State.myKey, acquireIf_cur]
    rfl
  have hk : SeenThread (s.acquireIf aq).me (afterHold (s.acquireIf aq).me) := .afterHold _
  refine ⟨_, hx, fun r => ?_, ?_, ?_, ?_, ?_⟩
  · rw [rx_wxLate_retire, State.rx, reserved_me]
    exact congrArg (fun w => if r = rd ∧ r ≠ 0 then v else w) ((hk.rx r).trans (congrArg (·.rx r) (acquireIf_me s aq)))
  · rw [acquire_wxLate_retire, reserved_me]
    exact hk.acquire.trans (congrArg Thread.acquire (acquireIf_me s aq))
  · rw [resv_wxLate_retire, reserved_me]
    rfl
  · rw [pc_wxLate_retire, reserved_me]
    exact congrArg (· + 4) (hk.pc.trans (by rw [acquireIf_me]))
  · rw [mem_wxLate_retire]
    exact acquireIf_mem s aq

/-! ### SC (R136) -/

/-- The state in which SC has ended its thread's reservation. -/
def State.unreserved (s : State) (aq : Bool) : State :=
  ((s.acquireIf aq).modMe (·.clearResv (s.acquireIf aq).here.cycle)).modHere (·.wakeHold)

theorem unreserved_me : SeenThread (s.acquireIf aq).me (s.unreserved aq).me := by
  rw [State.unreserved, me_wakeHold, State.me_modMe]
  exact (SeenThread.clearResv ..).trans (.afterHold _)

theorem unreserved_resv : (s.unreserved aq).me.resv = none := by
  rw [State.unreserved, me_wakeHold, State.me_modMe]
  exact (SeenThread.afterHold _).2 rfl

theorem unreserved_mem : (s.unreserved aq).mem = s.mem := acquireIf_mem s aq

theorem unreserved_myKey : (s.unreserved aq).myKey off = s.myKey off :=
  congrArg (fun c : Cursor => tileKey c.tile off) (acquireIf_cur s aq)

theorem sc_waits (hi : exec i s = storeConditional size rd rs1 rs2 aq rl s) (ho : l.localOff = some off)
    (hc : checkAddr s s.me.mode (s.rx rs1) size size = .ok l) (hr : rl = true)
    (he : s.myEntries ≠ []) : Blocks i s .score .entry := by
  refine blocks_of_block _ _ _ _ (hi.trans ((checked_ok hc).trans ?_))
  rw [ho]
  exact release_blocks hr he

/-- What SC leaves in u, whose thread has seen no more than its own write, with its answer. -/
theorem sc_leaves {u : State} (hu : SeenThread (s.unreserved aq).me u.me) (v : Dword) :
    let t := (u.wxLate rd v).retire
    (t.me.resv = none ∧ t.me.pc = s.me.pc + 4 ∧ t.me.acquire = s.acquires aq)
      ∧ ∀ r, t.rx r = if r = rd ∧ r ≠ 0 then v else s.rx r := by
  have hk : SeenThread (s.acquireIf aq).me u.me := unreserved_me.trans hu
  refine ⟨⟨?_, ?_, ?_⟩, fun r => ?_⟩
  · rw [resv_wxLate_retire]
    exact hu.2 unreserved_resv
  · rw [pc_wxLate_retire, hk.pc, acquireIf_me]
  · rw [acquire_wxLate_retire, hk.acquire, acquireIf_me]
    rfl
  · rw [rx_wxLate_retire, State.rx, hk.rx, acquireIf_me]
    rfl

/-- The bytes of a value cut to its size. -/
theorem ofNat_mod_div (b size i : Nat) (h : i < size) :
    BitVec.ofNat 8 (b % 2 ^ (8 * size) / 256 ^ i) = BitVec.ofNat 8 (b / 256 ^ i) := by
  apply BitVec.eq_of_toNat_eq
  have e : (2 : Nat) ^ (8 * size) = 256 ^ i * (2 ^ 8 * 256 ^ (size - i - 1)) := by
    rw [Nat.pow_mul, show (2 : Nat) ^ 8 = 256 from rfl, ← Nat.pow_succ', ← Nat.pow_add]
    congr 1
    omega
  rw [BitVec.toNat_ofNat, BitVec.toNat_ofNat, e, Nat.mod_mul_right_div_self, Nat.mod_mul_right_mod]

theorem sc_answers (hi : exec i s = storeConditional size rd rs1 rs2 aq rl s) (ho : l.localOff = some off)
    (hc : checkAddr s s.me.mode (s.rx rs1) size size = .ok l) (he : rl = true → s.myEntries = []) :
    let b := (s.rx rs2).toNat
    let held := s.here.held s.cur.tile (s.localWriter size) off size
    (held = true → Blocks i s .unit .hold)
      ∧ (held = false → ∃ t, exec i s = .next t ∧ t.me.resv = none ∧ t.me.pc = s.me.pc + 4 ∧ t.me.acquire = s.acquires aq
        ∧ (s.me.resv = some { granule := off / 8 * 8, size := size } →
          (∀ r, t.rx r = if r = rd ∧ r ≠ 0 then 0 else s.rx r)
          ∧ ∀ k, k < 2 ^ 62 → t.byte k =
            if s.myKey off ≤ k ∧ k < s.myKey off + size then BitVec.ofNat 8 (b / 256 ^ (k - s.myKey off)) else s.byte k)
        ∧ (s.me.resv ≠ some { granule := off / 8 * 8, size := size } →
          (∀ r, t.rx r = if r = rd ∧ r ≠ 0 then 1 else s.rx r) ∧ t.mem = s.mem)) := by
  intro b held
  have hs : exec i s = portFree s off size fun u =>
      let c := u.unreserved aq
      if (u.acquireIf aq).me.resv == some { granule := off / 8 * 8, size := size } then
        .next ((c.storeLocal off size (((u.acquireIf aq).rx rs2).toNat % 2 ^ (8 * size))).wxLate rd 0).retire
      else .next (c.wxLate rd 1).retire := by
    refine hi.trans ((checked_ok hc).trans ?_)
    rw [ho]
    exact release_passes he
  have hv : (s.acquireIf aq).rx rs2 = s.rx rs2 := by
    rw [State.rx, acquireIf_me]
    rfl
  have hr : (s.acquireIf aq).me.resv = s.me.resv := by rw [acquireIf_me]
  refine ⟨fun h => blocks_of_block _ _ _ _ (hs.trans (portFree_held h)), fun h => ?_⟩
  replace hs := hs.trans (portFree_open h)
  dsimp only at hs
  rw [hv, hr] at hs
  by_cases hq : s.me.resv = some { granule := off / 8 * 8, size := size }
  · rw [if_pos (beq_iff_eq.2 hq)] at hs
    obtain ⟨⟨hn, hp, ha⟩, hx⟩ := sc_leaves (rd := rd) (aq := aq)
      (seenThread_me (portStep_storeLocal (s.unreserved aq) off size (b % 2 ^ (8 * size)))) 0
    refine ⟨_, hs, hn, hp, ha, fun _ => ⟨hx, fun k hk => ?_⟩, fun hne => absurd hq hne⟩
    rw [State.byte, mem_wxLate_retire]
    refine (byte_storeLocal (s.unreserved aq) off size _ hk).trans ?_
    rw [State.byte, unreserved_mem, unreserved_myKey]
    refine ite_congr rfl (fun hin => ofNat_mod_div _ _ _ (by omega)) fun _ => rfl
  · rw [if_neg fun e => hq (beq_iff_eq.1 e)] at hs
    obtain ⟨⟨hn, hp, ha⟩, hx⟩ := sc_leaves (rd := rd) (aq := aq) (SeenThread.refl (s.unreserved aq).me) 1
    exact ⟨_, hs, hn, hp, ha, fun e => absurd e hq, fun _ => ⟨hx, (mem_wxLate_retire ..).trans unreserved_mem⟩⟩
end

/-- Settles O19: LR by `lr_waits` and `lr_reserves`, SC by `sc_waits` and `sc_answers`. -/
theorem loadReservedStoreConditional : Obligations.LoadReservedStoreConditional := by
  unfold Obligations.LoadReservedStoreConditional
  intro s rd rs1 rs2 aq rl l off a b ho waits acquires lr sc
  have hw : loadExt 4 true (s.readN (s.myKey off) 4) = (BitVec.ofNat 32 (s.readN (s.myKey off) 4)).signExtend 64 := by
    rw [readN_4, BitVec.ofNat_toNat, BitVec.setWidth_eq]
    exact loadExt_signed 4 _ rfl
  have hd : loadExt 8 true (s.readN (s.myKey off) 8) = BitVec.ofNat 64 (s.readN (s.myKey off) 8) := by
    rw [readN_8, BitVec.ofNat_toNat, BitVec.setWidth_eq]
    exact (loadExt_signed 8 _ rfl).trans (BitVec.signExtend_eq _)
  exact ⟨⟨lr_waits rfl ho, lr_reserves rfl ho hw⟩, ⟨lr_waits rfl ho, lr_reserves rfl ho hd⟩,
    ⟨sc_waits rfl ho, sc_answers rfl ho⟩, ⟨sc_waits rfl ho, sc_answers rfl ho⟩⟩

end Sys2Proof.Machine
end

section
/-! # Routed accesses (O16) -/
namespace Sys2Proof.Machine

/-! ### What an access reaches (R126, R130, R285) -/

/-- The home, place and class that an access of such a location has in s, and the state in which it is sent: at once, or
with its page in the core's table. -/
def Reaches (s s1 : State) (l : Loc) (home : Home) (off cls : Nat) (write : Bool) : Prop :=
  (routeOf s s.cur.tile l = some (home, off, cls) ∧ s1 = s)
    ∨ ∃ va e, l = .global va ∧ tlbFind s.here.tlb s.here.core.asid (va / 4096) = some e
      ∧ ¬(s.me.mode = .machine ∧ s.here.core.width = 0) ∧ ptePool e.leaf = false ∧ pteIlv e.leaf ≠ 3
      ∧ permitted e.leaf (s.me.mode == .user) write = true ∧ leafPa e.leaf va < s.hbmEnd
      ∧ home = .chan (interleave s (pteIlv e.leaf) (leafPa e.leaf va)).1
      ∧ off = (interleave s (pteIlv e.leaf) (leafPa e.leaf va)).2 ∧ cls = 3
      ∧ s1 = (s.fillCore s.cur.tile e).modMe fun h => { h with walkFault := none }

section
variable {s u : State} {a : Dword} {va : Nat} {write : Bool} {k : Home → Nat → Nat → State → Outcome} {e : TlbEntry}

theorem translated_outside (h : s.me.mode = .machine ∧ s.here.core.width = 0) :
    translated s a va write k = .next (s.trap (if write then 7 else 5) a) := if_pos h

theorem translated_unmapped (ho : ¬(s.me.mode = .machine ∧ s.here.core.width = 0)) {v : Trans × State}
    (hl : lookup s s.cur.tile va = v) (hm : v = (.miss, s)) : translated s a va write k =
      if s.me.walkFault = some (va / 4096) then
        .next ((s.modMe fun h => { h with walkFault := none }).trap (if write then 15 else 13) a)
      else .next ((s.startWalk s.cur.tile va none).block .queue (.translation (va / 4096))) := by
  refine (if_neg ho).trans ?_
  rw [hl, hm]

/-- What comes of an access whose leaf is found, in the state u that the tables have then. -/
theorem translated_found (ho : ¬(s.me.mode = .machine ∧ s.here.core.width = 0))
    (hl : lookup s s.cur.tile va = (.page e.leaf (leafPa e.leaf va), u)) : translated s a va write k =
      if ptePool e.leaf ∨ pteIlv e.leaf = 3 then .next (u.trap (if write then 7 else 5) a)
      else if !permitted e.leaf (s.me.mode == .user) write then .next (u.trap (if write then 15 else 13) a)
      else if u.hbmEnd ≤ leafPa e.leaf va then .next (u.trap (if write then 15 else 13) a)
      else k (.chan (interleave u (pteIlv e.leaf) (leafPa e.leaf va)).1) (interleave u (pteIlv e.leaf) (leafPa e.leaf va)).2 3
        (u.modMe fun h => { h with walkFault := none }) := by
  refine (if_neg ho).trans ?_
  rw [hl]

theorem translated_permitted (ho : ¬(s.me.mode = .machine ∧ s.here.core.width = 0))
    (hl : lookup s s.cur.tile va = (.page e.leaf (leafPa e.leaf va), u)) (hp : ptePool e.leaf = false) (hi : pteIlv e.leaf ≠ 3)
    (hq : permitted e.leaf (s.me.mode == .user) write = true) (hh : leafPa e.leaf va < u.hbmEnd) : translated s a va write k =
      k (.chan (interleave u (pteIlv e.leaf) (leafPa e.leaf va)).1) (interleave u (pteIlv e.leaf) (leafPa e.leaf va)).2 3
        (u.modMe fun h => { h with walkFault := none }) := by
  rw [translated_found ho hl, if_neg (by rw [hp]; exact fun h => h.elim Bool.false_ne_true hi), hq,
    Bool.not_true, if_neg Bool.false_ne_true, if_neg (Nat.not_le.2 hh)]

theorem lookup_core {t : Nat} (h : tlbFind (s.tile t).tlb (s.tile t).core.asid (va / 4096) = some e) :
    lookup s t va = (.page e.leaf (leafPa e.leaf va), s.fillCore t e) := by
  unfold lookup
  dsimp only
  rw [h]

theorem lookup_die {t : Nat} (hc : tlbFind (s.tile t).tlb (s.tile t).core.asid (va / 4096) = none)
    (h : tlbFind (Assoc.get [] s.dieTlb (globalDie t)) (s.tile t).core.asid (va / 4096) = some e) :
    lookup s t va = (.page e.leaf (leafPa e.leaf va), (s.fillCore t e).fillDie (globalDie t) e) := by
  unfold lookup
  dsimp only
  rw [hc]
  dsimp only
  rw [h]

theorem lookup_miss {t : Nat} (hc : tlbFind (s.tile t).tlb (s.tile t).core.asid (va / 4096) = none)
    (h : tlbFind (Assoc.get [] s.dieTlb (globalDie t)) (s.tile t).core.asid (va / 4096) = none) :
    lookup s t va = (.miss, s) := by
  unfold lookup
  dsimp only
  rw [hc]
  dsimp only
  rw [h]

theorem here_fillCore (s : State) (e : TlbEntry) :
    (s.fillCore s.cur.tile e).here = { s.here with tlb := tlbTouch s.here.tlb e 16 } := State.here_modHere s _

theorem me_fillCore (s : State) (e : TlbEntry) : (s.fillCore s.cur.tile e).me = s.me :=
  congrArg (·.th s.cur.slot) (here_fillCore s e)

theorem withHome_routed {l : Loc} {home : Home} {off cls : Nat} (h : routeOf s s.cur.tile l = some (home, off, cls)) :
    withHome s a l write k = k home off cls s := by
  unfold withHome
  cases l with
  | global va => cases h
  | own | mram | mesh | fabric | abs | mgmt | host =>
    dsimp only
    rw [h]
end

section
variable {s s1 : State} {l : Loc} {home : Home} {off cls : Nat} {write : Bool}

theorem Reaches.withHome (h : Reaches s s1 l home off cls write) (a : Dword) (k : Home → Nat → Nat → State → Outcome) :
    withHome s a l write k = k home off cls s1 := by
  obtain ⟨hr, rfl⟩ | ⟨va, e, rfl, ht, ho, hp, hi, hq, hh, rfl, rfl, rfl, rfl⟩ := h
  · exact withHome_routed hr
  · exact translated_permitted ho (lookup_core ht) hp hi hq hh

theorem Reaches.pc (h : Reaches s s1 l home off cls write) : s1.me.pc = s.me.pc := by
  obtain ⟨-, rfl⟩ | ⟨va, e, -, -, -, -, -, -, -, -, -, -, rfl⟩ := h
  · rfl
  · rw [State.me_modMe, me_fillCore]
end

/-! ### Requests and posts (R128) -/

theorem acquireIf_false (s : State) : s.acquireIf false = s := if_neg fun h => Bool.false_ne_true h.1

section
variable {s s1 : State} {i : Instr} {l : Loc} {home : Home} {off cls : Nat} {write : Bool} {op : Op} {a : Dword} {rd : Reg}
  {size : Nat} {signed : Bool}

theorem acquireIf_pc (s : State) (aq : Bool) : (s.acquireIf aq).me.pc = s.me.pc := by rw [acquireIf_me]

theorem asks_acquire {keep : Bool} (hi : exec i s = request s op a l write rd size signed fun s => (s.acquireIf keep).retire)
    (hr : Reaches s s1 l home off cls write) :
    (s.entryFree = true → Effects i s
      ((s1.issue op home off cls a { rd := if rd = 0 then none else some rd, size := size, signed := signed }).acquireIf keep))
      ∧ (s.entryFree = false → Blocks i s .queue .entry) := by
  refine ⟨fun hf => effects_of_retire _ _ _ (hi.trans ((needEntry_free hf _).trans (hr.withHome _ _))) ?_,
    fun hf => blocks_of_block _ _ _ _ (hi.trans (needEntry_full hf _))⟩
  rw [acquireIf_pc, issue_me, hr.pc]

theorem asks_plain (hi : exec i s = request s op a l write rd size signed (·.retire)) (hr : Reaches s s1 l home off cls write) :
    (s.entryFree = true → Effects i s
      ((s1.issue op home off cls a { rd := if rd = 0 then none else some rd, size := size, signed := signed }).acquireIf false))
      ∧ (s.entryFree = false → Blocks i s .queue .entry) :=
  asks_acquire (hi.trans (congrArg _ (funext fun u => by rw [acquireIf_false]))) hr

theorem posts_plain (hi : exec i s = post s op a l (·.retire)) (hr : Reaches s s1 l home off cls true) :
    (s.entryFree = true → (∀ m y x, home ≠ .module m y x) → Effects i s (s1.issue op home off cls a {}))
      ∧ (s.entryFree = false → Blocks i s .queue .entry) := by
  refine ⟨fun hf hn => effects_of_retire _ _ _ (hi.trans ((needEntry_free hf _).trans ((hr.withHome _ _).trans ?_))) ?_,
    fun hf => blocks_of_block _ _ _ _ (hi.trans (needEntry_full hf _))⟩
  · cases home with
    | module m y x => exact absurd rfl (hn m y x)
    | tile | chan | mgmt | host => rfl
  · rw [issue_me, hr.pc]
end

/-! ### Loads, stores and base atomics at another home (R126) -/

section
variable {s : State} {i : Instr} {l : Loc} {size : Nat} {rd rs1 rs2 : Reg} {imm : BitVec 12}

theorem load_routed {signed : Bool} (hi : exec i s = load size signed rd rs1 imm s)
    (hc : checkAddr s s.me.mode (s.rx rs1 + sext imm) size size = .ok l) (ho : l.localOff = none)
    (hp : (∀ p r, l ≠ .mgmt p r) ∨ (4 ≤ size ∧ signed = true)) :
    exec i s = request s (.load size) (s.rx rs1 + sext imm) l false rd size signed (·.retire) := by
  refine hi.trans ((checked_ok hc).trans ?_)
  rw [ho]
  cases l with
  | mgmt p r => exact if_pos (hp.resolve_left fun h => h p r rfl)
  | own | mram => cases ho
  | mesh | global | fabric | abs | host => rfl

theorem store_routed (hi : exec i s = store size rs1 rs2 imm s)
    (hc : checkAddr s s.me.mode (s.rx rs1 + sext imm) size size = .ok l) (ho : l.localOff = none)
    (hp : (∀ p r, l ≠ .mgmt p r) ∨ 4 ≤ size) :
    exec i s = post s (.store size ((s.rx rs2).toNat % 2 ^ (8 * size))) (s.rx rs1 + sext imm) l (·.retire) := by
  refine hi.trans ((checked_ok hc).trans ?_)
  rw [ho]
  cases l with
  | mgmt p r => exact if_pos (hp.resolve_left fun h => h p r rfl)
  | own | mram => cases ho
  | mesh | global | fabric | abs | host => rfl

theorem load_mgmt_traps {signed : Bool} (hi : exec i s = load size signed rd rs1 imm s)
    (hc : checkAddr s s.me.mode (s.rx rs1 + sext imm) size size = .ok l) (hl : ∃ p r, l = .mgmt p r)
    (hn : ¬(4 ≤ size ∧ signed = true)) : Traps i s 5 (s.rx rs1 + sext imm) := by
  obtain ⟨p, r, rfl⟩ := hl
  exact traps_of_trap _ _ _ _ (hi.trans ((checked_ok hc).trans (if_neg hn)))

theorem store_mgmt_traps (hi : exec i s = store size rs1 rs2 imm s)
    (hc : checkAddr s s.me.mode (s.rx rs1 + sext imm) size size = .ok l) (hl : ∃ p r, l = .mgmt p r) (hn : ¬4 ≤ size) :
    Traps i s 7 (s.rx rs1 + sext imm) := by
  obtain ⟨p, r, rfl⟩ := hl
  exact traps_of_trap _ _ _ _ (hi.trans ((checked_ok hc).trans (if_neg hn)))

theorem lr_elsewhere {aq rl : Bool} (hi : exec i s = loadReserved size rd rs1 aq rl s)
    (hc : checkAddr s s.me.mode (s.rx rs1) size size = .ok l) (ho : l.localOff = none) : Traps i s 5 (s.rx rs1) := by
  refine traps_of_trap _ _ _ _ (hi.trans ((checked_ok hc).trans ?_))
  rw [ho]

theorem sc_elsewhere {aq rl : Bool} (hi : exec i s = storeConditional size rd rs1 rs2 aq rl s)
    (hc : checkAddr s s.me.mode (s.rx rs1) size size = .ok l) (ho : l.localOff = none) : Traps i s 7 (s.rx rs1) := by
  refine traps_of_trap _ _ _ _ (hi.trans ((checked_ok hc).trans ?_))
  rw [ho]

theorem amo_routed {op : AmoOp} {aq rl : Bool} (hi : exec i s = amo op size rd rs1 rs2 aq rl s)
    (hc : checkAddr s s.me.mode (s.rx rs1) size size = .ok l) (ho : l.localOff = none) (hp : ∀ p r, l ≠ .mgmt p r)
    (hh : ∀ p r, l ≠ .host p r) (he : rl = true → s.myEntries = []) :
    exec i s = request s (.amo op size (s.rx rs2) 0) (s.rx rs1) l true rd size true fun s => (s.acquireIf aq).retire := by
  refine hi.trans ((checked_ok hc).trans ?_)
  cases l with
  | mgmt p r => exact absurd rfl (hp p r)
  | host p h => exact absurd rfl (hh p h)
  | own | mram => cases ho
  | mesh | global | fabric | abs => exact release_passes he

theorem amo_traps {op : AmoOp} {aq rl : Bool} (hi : exec i s = amo op size rd rs1 rs2 aq rl s)
    (hc : checkAddr s s.me.mode (s.rx rs1) size size = .ok l) (hl : ∃ p r, l = .mgmt p r ∨ l = .host p r) :
    Traps i s 7 (s.rx rs1) := by
  refine traps_of_trap _ _ _ _ (hi.trans ((checked_ok hc).trans ?_))
  obtain ⟨p, r, rfl | rfl⟩ := hl <;> rfl
end

/-! ### Risers, barriers and device atomics at another home (R150, R173) -/

section
variable {s : State} {i : Instr} {l : Loc} {a : Dword} {size align : Nat} {k : Loc → Outcome}

/-- The spaces of risers other than the own tile. -/
theorem riserSpace_routed (hs : l.riserSpace = true) (ho : l.localOff = none) {r : Loc → Outcome}
    (hm : ∀ y x o, k (.mesh y x o) = r (.mesh y x o)) (hf : ∀ m y x o, k (.fabric m y x o) = r (.fabric m y x o))
    (ha : ∀ y x o, k (.abs y x o) = r (.abs y x o)) : k l = r l := by
  cases l with
  | mesh y x o => exact hm y x o
  | fabric m y x o => exact hf m y x o
  | abs y x o => exact ha y x o
  | own => cases ho
  | mram | global | mgmt | host => cases hs

theorem riser_routed (hi : exec i s = riserChecked s a size align k) (hc : checkAddr s s.me.mode a size align = .ok l)
    (hs : l.riserSpace = true) : exec i s = k l := hi.trans ((checked_ok hc).trans (if_pos hs))

theorem riser_elsewhere (hi : exec i s = riserChecked s a size align k) (hs : l.riserSpace = false)
    (hc : checkAddr s s.me.mode a size align = .ok l) : Traps i s 7 a :=
  traps_of_trap _ _ _ _ (hi.trans ((checked_ok hc).trans (if_neg (by rw [hs]; exact Bool.false_ne_true))))

theorem countedBytes_routed {v : Nat} {r : Dword} (hi : exec i s = countedBytes size v a r s)
    (hc : checkAddr s s.me.mode a size size = .ok l) (hs : l.riserSpace = true) (ho : l.localOff = none) (h0 : bits r 0 3 = 0)
    (h1 : bits r 19 45 = 0) : exec i s = post s (.counted size v r.toNat) a l (·.retire) := by
  have hn : ¬(bits r 0 3 ≠ 0 ∨ bits r 19 45 ≠ 0) := by rw [h0, h1]; exact fun h => h.elim (absurd rfl) (absurd rfl)
  refine (riser_routed hi hc hs).trans ((if_neg hn).trans ?_)
  cases l with
  | mesh | fabric | abs => rfl
  | own => cases ho
  | mram | global | mgmt | host => cases hs

theorem locate_of_ok {m : Mode} (h : checkAddr s m a size align = .ok l) : locate s m a = some l := by
  cases hl : locate s m a with
  | none =>
    rw [checkAddr_none hl] at h
    cases h
  | some k =>
    rw [checkAddr_some hl] at h
    split at h
    · cases h
    · split at h <;> cases h
      rfl

/-- A riser's or barrier's request from another home, which is the same in each of its spaces. -/
theorem riser_request {op : Op} {rd : Reg} {signed : Bool} (hi : exec i s = riserChecked s a align align k)
    (hc : checkAddr s s.me.mode a align align = .ok l) (hs : l.riserSpace = true) (ho : l.localOff = none)
    (hm : ∀ y x o, k (.mesh y x o) = request s op a (.mesh y x o) true rd size signed (·.retire))
    (hf : ∀ m y x o, k (.fabric m y x o) = request s op a (.fabric m y x o) true rd size signed (·.retire))
    (ha : ∀ y x o, k (.abs y x o) = request s op a (.abs y x o) true rd size signed (·.retire)) :
    exec i s = request s op a l true rd size signed (·.retire) :=
  (riser_routed hi hc hs).trans <|
    riserSpace_routed (r := fun l => request s op a l true rd size signed (·.retire)) hs ho hm hf ha

theorem riser_post {op : Op} (hi : exec i s = riserChecked s a align align k)
    (hc : checkAddr s s.me.mode a align align = .ok l) (hs : l.riserSpace = true) (ho : l.localOff = none)
    (hm : ∀ y x o, k (.mesh y x o) = post s op a (.mesh y x o) (·.retire))
    (hf : ∀ m y x o, k (.fabric m y x o) = post s op a (.fabric m y x o) (·.retire))
    (ha : ∀ y x o, k (.abs y x o) = post s op a (.abs y x o) (·.retire)) :
    exec i s = post s op a l (·.retire) :=
  (riser_routed hi hc hs).trans <| riserSpace_routed (r := fun l => post s op a l (·.retire)) hs ho hm hf ha
/-- A device atomic at another home is not fenced where it issues (R173). -/
theorem deviceAmo_routed {op : AmoOp} {rd rs1 rs2 : Reg} {cmp : Dword} (hi : exec i s = deviceAmo op size rd rs1 rs2 cmp s)
    (hc : checkAddr s s.me.mode (s.rx rs1) size size = .ok l) (hs : l.riserSpace = true) (ho : l.localOff = none) :
    exec i s = request s (.amo op size (s.rx rs2) cmp) (s.rx rs1) l true rd size true (·.retire) := by
  have hspace : bits (s.rx rs1) 60 4 ≠ 0 := by
    intro h0
    have hl := locate_of_ok hc
    rw [locate_own h0] at hl
    split at hl <;> cases hl
    cases ho
  exact riser_request (hi.trans (if_neg fun h => hspace h.2.1)) hc hs ho (fun _ _ _ => rfl) (fun _ _ _ _ => rfl) fun _ _ _ => rfl
end

end Sys2Proof.Machine
end

section
/-! # Requests sent and pages translated (O16) -/
namespace Sys2Proof.Machine

/-! ### Sending (R128) -/

/-- What sending leaves: one entry, one packet, and nothing else. -/
theorem issue_changes (s : State) (op : Op) (home : Home) (off cls : Nat) (a : Dword) (e : ReqEntry) :
    let t := s.issue op home off cls a e
    let p := s.packetOf op home off cls a e
    ((∀ m y x, home ≠ .module m y x) → t.net = s.net ++ [p] ∧ t.fabricOut = s.fabricOut)
      ∧ (∀ m y x, home = .module m y x → t.fabricOut = s.fabricOut ++ [p] ∧ t.net = s.net)
      ∧ t.here.reqs = s.here.reqs ++ [s.entryOf a e] ∧ { t.here with reqs := s.here.reqs } = s.here
      ∧ { t with tiles := s.tiles, net := s.net, fabricOut := s.fabricOut, nextId := s.nextId } = s
      ∧ ∀ u, u ≠ s.cur.tile → t.tile u = s.tile u := by
  intro t p
  refine ⟨fun h => ?_, fun m y x h => ?_, ?_, ?_, ?_, fun u hu => ?_⟩
  · cases home with
    | module m y x => exact absurd rfl (h m y x)
    | tile | chan | mgmt | host => exact ⟨rfl, rfl⟩
  · subst h
    exact ⟨rfl, rfl⟩
  · exact congrArg Tile.reqs (issue_here ..)
  · rw [show t.here = _ from issue_here ..]
  · rw [show t = _ from issue_eq ..]
    rfl
  · rw [show t = _ from issue_eq ..]
    show (s.withEntry (s.entryOf a e)).tile u = s.tile u
    exact State.tile_modTile_other { s with nextId := s.nextId + 1 } (fun x => { x with reqs := x.reqs ++ [s.entryOf a e] }) hu

/-! ### Traps of another state -/

section
variable (s : State)

theorem noteIssue_me : s.noteIssue.me = { s.me with wait := 0, lastIssue := s.here.cycle } := by
  rw [State.noteIssue_eq]
  exact (congrArg (·.th s.cur.slot) (State.tile_setTile ..)).trans ((retiredTile_th ..).trans (if_pos rfl))

theorem trap_me (cause : Nat) (val : Dword) : (s.trap cause val).me = trappedThread s cause s.me.pc val false := by
  have hn : afterHold (s.me.trapped (s.delegated cause s.me.pc false) s.here.cycle cause s.me.pc val false) = _ :=
    if_neg (by rw [trapped_need]; decide)
  refine (noteIssue_me _).trans ?_
  rw [me_wakeHold, State.me_modMe, State.here_modHere, State.here_modMe, hn]
  exact trapped_eq s cause s.me.pc val false
end

/-- A trap's context comes of the thread's own, which need not recall a page fault, and of its core. -/
theorem trappedThread_congr {s u : State} {w : Option Nat} (hm : u.me = { s.me with walkFault := w }) (hc : u.cur = s.cur)
    (hx : u.here.core = s.here.core) (hy : u.here.cycle = s.here.cycle) (cause : Nat) (epc val : Dword) :
    trappedThread u cause epc val false = trappedThread s cause epc val false := by
  unfold trappedThread State.delegated
  rw [hm, hc, hx, hy]
  rfl

/-! ### Space 0x2 (R285, R287) -/

/-- From s to u only TLBs differ. -/
structure TlbsOnly (s u : State) : Prop where
  me : u.me = s.me
  here : { u.here with tlb := s.here.tlb } = s.here
  rest : { u with tiles := s.tiles, dieTlb := s.dieTlb } = s

theorem tlbsOnly_fillCore (s : State) (e : TlbEntry) : TlbsOnly s (s.fillCore s.cur.tile e) :=
  ⟨me_fillCore s e, by rw [here_fillCore], rfl⟩

section
variable {s u : State} {i : Instr} {a : Dword} {va : Nat} {write : Bool} {k : Home → Nat → Nat → State → Outcome} {e : TlbEntry}

theorem TlbsOnly.mem (h : TlbsOnly s u) : u.mem = s.mem := by
  have := congrArg State.mem h.rest
  exact this

theorem TlbsOnly.hbmEnd (h : TlbsOnly s u) : u.hbmEnd = s.hbmEnd := by
  rw [← h.rest]
  rfl

theorem TlbsOnly.interleave (h : TlbsOnly s u) (n pa : Nat) : interleave u n pa = interleave s n pa := by
  rw [← h.rest]
  rfl

theorem TlbsOnly.trap_me (h : TlbsOnly s u) (cause : Nat) (val : Dword) :
    (u.trap cause val).me = trappedThread s cause s.me.pc val false := by
  have hc : u.cur = s.cur := by
    have := congrArg State.cur h.rest
    exact this
  have hx : u.here.core = s.here.core := by
    have := congrArg Tile.core h.here
    exact this
  have hy : u.here.cycle = s.here.cycle := by
    have := congrArg Tile.cycle h.here
    exact this
  rw [Machine.trap_me, h.me]
  exact trappedThread_congr h.me hc hx hy ..

/-- A trap of the access, of which only the TLBs and the fault found may have gone another way before. -/
theorem translated_traps (h : TlbsOnly s u) {cause : Nat} (hi : exec i s = .next (u.trap cause a)) :
    ∃ t, exec i s = .next t ∧ t.mem = s.mem ∧ t.me = trappedThread s cause s.me.pc a false :=
  ⟨_, hi, h.mem, h.trap_me ..⟩

variable (hi : exec i s = translated s a va write k) (ho : ¬(s.me.mode = .machine ∧ s.here.core.width = 0))
include hi ho

theorem translated_pooled (hl : lookup s s.cur.tile va = (.page e.leaf (leafPa e.leaf va), u)) (hu : TlbsOnly s u)
    (hp : ptePool e.leaf = true ∨ pteIlv e.leaf = 3) : ∃ t, exec i s = .next t ∧ t.mem = s.mem
      ∧ t.me = trappedThread s (if write then 7 else 5) s.me.pc a false :=
  translated_traps hu (hi.trans ((translated_found ho hl).trans (if_pos hp)))

theorem translated_faulty (hl : lookup s s.cur.tile va = (.page e.leaf (leafPa e.leaf va), u)) (hu : TlbsOnly s u)
    (hp : ptePool e.leaf = false) (hv : pteIlv e.leaf ≠ 3)
    (hb : permitted e.leaf (s.me.mode == .user) write = false ∨ s.hbmEnd ≤ leafPa e.leaf va) :
    ∃ t, exec i s = .next t ∧ t.mem = s.mem
      ∧ t.me = trappedThread s (if write then 15 else 13) s.me.pc a false := by
  refine translated_traps hu (hi.trans ((translated_found ho hl).trans ?_))
  rw [if_neg (by rw [hp]; exact fun h => h.elim Bool.false_ne_true hv), hu.hbmEnd]
  by_cases hq : permitted e.leaf (s.me.mode == .user) write = true
  · rw [hq, Bool.not_true, if_neg Bool.false_ne_true]
    exact if_pos (hb.resolve_left (by rw [hq]; decide))
  · exact if_pos (by rw [Bool.not_eq_true] at hq; rw [hq]; rfl)

theorem translated_walkFault (hc : tlbFind s.here.tlb s.here.core.asid (va / 4096) = none)
    (hd : tlbFind (Assoc.get [] s.dieTlb (globalDie s.cur.tile)) s.here.core.asid (va / 4096) = none)
    (hw : s.me.walkFault = some (va / 4096)) : ∃ t, exec i s = .next t ∧ t.mem = s.mem
      ∧ t.me = trappedThread s (if write then 15 else 13) s.me.pc a false := by
  refine ⟨_, hi.trans ((translated_unmapped ho (lookup_miss hc hd) rfl).trans (if_pos hw)), rfl, ?_⟩
  have hm := State.me_modMe s fun h => { h with walkFault := none }
  rw [trap_me, hm]
  exact trappedThread_congr hm rfl (by rw [State.here_modMe]; rfl) (by rw [State.here_modMe]; rfl) ..

/-- With no leaf for the page, the access waits for a walk. -/
theorem translated_waits (hc : tlbFind s.here.tlb s.here.core.asid (va / 4096) = none)
    (hd : tlbFind (Assoc.get [] s.dieTlb (globalDie s.cur.tile)) s.here.core.asid (va / 4096) = none)
    (hw : s.me.walkFault ≠ some (va / 4096)) :
    exec i s = .next ((s.startWalk s.cur.tile va none).block .queue (.translation (va / 4096))) :=
  hi.trans ((translated_unmapped ho (lookup_miss hc hd) rfl).trans (if_neg hw))
end

/-! ### The start of a walk (R287) -/

section
variable (s : State) (va : Nat)

theorem startWalk_eq (t : Nat) (engine : Option Nat) : ∃ n w, s.startWalk t va engine = { s with nextId := n, walks := w } := by
  unfold State.startWalk
  extract_lets x die page same add
  split
  · exact ⟨s.nextId, _, rfl⟩
  · split
    · exact ⟨s.nextId, s.walks, rfl⟩
    · exact ⟨_, _, rfl⟩

/-- The first walk of a die's service. -/
theorem startWalk_first (t : Nat) (h : s.walks = []) : (s.startWalk t va none).walks =
    [{ id := s.nextId, tile := t, die := globalDie t, asid := (s.tile t).core.asid, root := (s.tile t).core.ptroot
       page := va / 4096, level := 0, table := (s.tile t).core.ptroot, engines := [] }] := by
  unfold State.startWalk
  extract_lets x die page same add
  have hs : s.walks.any same = false := by rw [h]; rfl
  have hf : s.walksFull die = false := by
    unfold State.walksFull State.walksOf
    rw [h]
    rfl
  rw [hs, hf, if_neg Bool.false_ne_true, if_neg Bool.false_ne_true, h]
  rfl

/-- A thread that waits for the walk of its page. -/
theorem waits_translation {i : Instr}
    (hi : exec i s = .next ((s.startWalk s.cur.tile va none).block .queue (.translation (va / 4096)))) :
    ∃ t, exec i s = .next t
      ∧ t.me = { s.me with st := .queue, need := .translation (va / 4096), sleepTs := s.tsc } ∧ t.mem = s.mem ∧ t.net = s.net
      ∧ { t with walks := s.walks, nextId := s.nextId, tiles := s.tiles } = s
      ∧ (s.walks = [] → ∃ w, t.walks = [w] ∧ w.tile = s.cur.tile ∧ w.page = va / 4096 ∧ w.asid = s.here.core.asid
        ∧ w.die = globalDie s.cur.tile ∧ w.level = 0 ∧ w.table = s.here.core.ptroot ∧ w.engines = []) := by
  obtain ⟨n, w, he⟩ := startWalk_eq s va s.cur.tile none
  have hw := startWalk_first s va s.cur.tile
  rw [he] at hi hw
  refine ⟨_, hi, State.me_modMe .., rfl, rfl, rfl, fun h => ⟨_, hw h, rfl, rfl, rfl, rfl, rfl, rfl, rfl⟩⟩
end

/-! ### A leaf that the die holds -/

theorem withHome_global {s : State} {a : Dword} {va : Nat} {write : Bool} {k : Home → Nat → Nat → State → Outcome} :
    withHome s a (.global va) write k = translated s a va write k := rfl

theorem tlbTouch_head (l : List TlbEntry) (e : TlbEntry) {cap : Nat} (h : 0 < cap) : (tlbTouch l e cap).head? = some e := by
  cases cap with
  | zero => exact absurd h (Nat.lt_irrefl 0)
  | succ n => rfl

/-- A retirement leaves the thread's tile its TLB. -/
theorem retire_tlb (s : State) : s.retire.here.tlb = s.here.tlb := by
  have := congrArg Tile.tlb (retired_of_retire s (s.me.pc + 4)).2.2.2.1
  exact this

/-- An access that the die's tables translate is sent, and the core's and the die's tables then hold its leaf. -/
theorem translated_die {s : State} {i : Instr} {a : Dword} {va : Nat} {write : Bool} {k : Home → Nat → Nat → State → Outcome}
    {e : TlbEntry} {op : Op} {en : ReqEntry} (hi : exec i s = translated s a va write k)
    (hk : ∀ g off cls v, k (.chan g) off cls v = .next (v.issue op (.chan g) off cls a en).retire)
    (ho : ¬(s.me.mode = .machine ∧ s.here.core.width = 0))
    (hc : tlbFind s.here.tlb s.here.core.asid (va / 4096) = none)
    (hd : tlbFind (Assoc.get [] s.dieTlb (globalDie s.cur.tile)) s.here.core.asid (va / 4096) = some e)
    (hp : ptePool e.leaf = false) (hv : pteIlv e.leaf ≠ 3)
    (hb : ¬(permitted e.leaf (s.me.mode == .user) write = false ∨ s.hbmEnd ≤ leafPa e.leaf va)) :
    ∃ t p, exec i s = .next t ∧ t.net = s.net ++ [p] ∧ t.me.pc = s.me.pc + 4 ∧ t.mem = s.mem
      ∧ p.home = .chan (interleave s (pteIlv e.leaf) (leafPa e.leaf va)).1
      ∧ p.off = (interleave s (pteIlv e.leaf) (leafPa e.leaf va)).2 ∧ p.op = op
      ∧ t.here.tlb.head? = some e ∧ (Assoc.get [] t.dieTlb (globalDie s.cur.tile)).head? = some e := by
  have hu : TlbsOnly s ((s.fillCore s.cur.tile e).fillDie (globalDie s.cur.tile) e) :=
    ⟨me_fillCore s e, congrArg (fun x : Tile => { x with tlb := s.here.tlb }) (here_fillCore s e), rfl⟩
  have ht : ((s.fillCore s.cur.tile e).fillDie (globalDie s.cur.tile) e).here.tlb = tlbTouch s.here.tlb e 16 :=
    congrArg Tile.tlb (here_fillCore s e)
  have hl := lookup_die hc hd
  have hdie : Assoc.get [] ((s.fillCore s.cur.tile e).fillDie (globalDie s.cur.tile) e).dieTlb (globalDie s.cur.tile) =
      tlbTouch (Assoc.get [] s.dieTlb (globalDie s.cur.tile)) e 8192 := Assoc.get_put_same ..
  have hn : ((s.fillCore s.cur.tile e).fillDie (globalDie s.cur.tile) e).net = s.net := rfl
  generalize (s.fillCore s.cur.tile e).fillDie (globalDie s.cur.tile) e = u at hu ht hl hdie hn
  obtain ⟨hq, hh⟩ := not_or.1 hb
  have hx := hi.trans ((translated_permitted ho hl hp hv (Bool.not_eq_false _ ▸ hq) (hu.hbmEnd ▸ Nat.not_le.1 hh)).trans (hk ..))
  rw [hu.interleave] at hx
  let v := u.modMe fun h => { h with walkFault := none }
  let home := Home.chan (interleave s (pteIlv e.leaf) (leafPa e.leaf va)).1
  let off := (interleave s (pteIlv e.leaf) (leafPa e.leaf va)).2
  have hpc : (v.issue op home off 3 a en).me.pc = s.me.pc := by rw [issue_me, State.me_modMe, hu.me]
  refine ⟨(v.issue op home off 3 a en).retire, v.packetOf op home off 3 a en, hx, ?_, ?_, ?_, rfl, rfl, rfl, ?_, ?_⟩
  · exact congrArg (· ++ [v.packetOf op home off 3 a en]) hn
  · rw [State.retire, hpc]
    exact congrArg Thread.pc (retired_of_retire (v.issue op home off 3 a en) (s.me.pc + 4)).1
  · exact hu.mem
  · rw [retire_tlb, issue_here, State.here_modMe]
    exact (congrArg List.head? ht).trans (tlbTouch_head _ _ (by decide))
  · exact (congrArg List.head? hdie).trans (tlbTouch_head _ _ (by decide))

end Sys2Proof.Machine
end

section
/-! # Routed accesses of every kind (O16) -/
namespace Sys2Proof.Machine

/-- Settles O16: requests by `asks_acquire` and `asks_plain`, posts by `posts_plain`, pages by the lemmas
on `translated` and what sending leaves by `issue_changes`. -/
theorem routedAccesses : Obligations.RoutedAccesses := by
  unfold Obligations.RoutedAccesses
  refine ⟨?_, ?_, issue_changes⟩
  case refine_2 =>
    intro s rd rs1 rs2 imm va a die page asid outside both bad hc hf write
    cases write with
    | false =>
      have hi := (load_routed (i := .ld rd rs1 imm) rfl hc rfl (.inr ⟨by decide, rfl⟩)).trans
        ((needEntry_free hf _).trans withHome_global)
      exact ⟨fun ho => traps_of_trap _ _ _ _ (hi.trans (translated_outside ho)),
        fun ho h1 h2 => ⟨fun hw => waits_translation s va (translated_waits hi ho h1 h2 hw), translated_walkFault hi ho h1 h2⟩,
        fun e ho h => ⟨translated_pooled hi ho (lookup_core h) (tlbsOnly_fillCore s e),
          translated_faulty hi ho (lookup_core h) (tlbsOnly_fillCore s e)⟩,
        fun e ho h1 h2 hp hv hb => translated_die hi (fun _ _ _ _ => rfl) ho h1 h2 hp hv hb⟩
    | true =>
      have hi := (store_routed (i := .sd rs1 rs2 imm) rfl hc rfl (.inr (by decide))).trans
        ((needEntry_free hf _).trans withHome_global)
      rw [Nat.mod_eq_of_lt (s.rx rs2).isLt] at hi
      exact ⟨fun ho => traps_of_trap _ _ _ _ (hi.trans (translated_outside ho)),
        fun ho h1 h2 => ⟨fun hw => waits_translation s va (translated_waits hi ho h1 h2 hw), translated_walkFault hi ho h1 h2⟩,
        fun e ho h => ⟨translated_pooled hi ho (lookup_core h) (tlbsOnly_fillCore s e),
          translated_faulty hi ho (lookup_core h) (tlbsOnly_fillCore s e)⟩,
        fun e ho h1 h2 hp hv hb => translated_die hi (fun _ _ _ _ => rfl) ho h1 h2 hp hv hb⟩
  intro s s1 rd rs1 rs2 rs3 vs imm aq rl l home off cls ea a b score plain inside reaches asks posts loads stores amos device count
    tag ho
  have hload {i : Instr} {size : Nat} {signed : Bool} (hi : exec i s = load size signed rd rs1 imm s)
      (hp : plain ∨ (4 ≤ size ∧ signed = true)) : loads i size signed :=
    fun hc hr => asks_plain (load_routed hi hc ho hp) hr
  have hstore {i : Instr} {size : Nat} (hi : exec i s = store size rs1 rs2 imm s) (hp : plain ∨ 4 ≤ size) : stores i size :=
    fun hc hr => posts_plain (store_routed hi hc ho hp) hr
  have hamo {op : AmoOp} {w d : Instr} (hp : plain) (hh : ∀ p h, l ≠ .host p h) (he : rl = true → s.myEntries = [])
      (hw : exec w s = amo op 4 rd rs1 rs2 aq rl s) (hd : exec d s = amo op 8 rd rs1 rs2 aq rl s) : amos op w d :=
    ⟨fun hc hr => asks_acquire (amo_routed hw hc ho hp hh he) hr, fun hc hr => asks_acquire (amo_routed hd hc ho hp hh he) hr⟩
  have hask {i : Instr} {op : Op} {at_ : Dword} {size align : Nat} {k : Loc → Outcome} (hs : l.riserSpace = true)
      (hi : exec i s = riserChecked s at_ align align k)
      (hm : ∀ y x o, k (.mesh y x o) = request s op at_ (.mesh y x o) true rd size false (·.retire))
      (hf : ∀ m y x o, k (.fabric m y x o) = request s op at_ (.fabric m y x o) true rd size false (·.retire))
      (ha : ∀ y x o, k (.abs y x o) = request s op at_ (.abs y x o) true rd size false (·.retire)) :
      asks i op at_ size align false true false :=
    fun hc hr => asks_plain (riser_request hi hc hs ho hm hf ha) hr
  have hpost {i : Instr} {op : Op} {at_ : Dword} {align : Nat} {k : Loc → Outcome} (hs : l.riserSpace = true)
      (hi : exec i s = riserChecked s at_ align align k)
      (hm : ∀ y x o, k (.mesh y x o) = post s op at_ (.mesh y x o) (·.retire))
      (hf : ∀ m y x o, k (.fabric m y x o) = post s op at_ (.fabric m y x o) (·.retire))
      (ha : ∀ y x o, k (.abs y x o) = post s op at_ (.abs y x o) (·.retire)) : posts i op at_ align :=
    fun hc hr => posts_plain (riser_post hi hc hs ho hm hf ha) hr
  have hcount {i : Instr} {size v : Nat} {r : Reg} (hs : l.riserSpace = true)
      (hi : exec i s = countedBytes size v a (s.rx r) s) : count i size v r :=
    fun h0 h1 hc hr => posts_plain (countedBytes_routed hi hc hs ho h0 h1) hr
  have hdevice {i : Instr} {op : AmoOp} {size : Nat} {cmp : Dword} (hs : l.riserSpace = true)
      (hi : exec i s = deviceAmo op size rd rs1 rs2 cmp s) : device i op size cmp :=
    fun hc hr => asks_plain (deviceAmo_routed hi hc hs ho) hr
  clear_value loads stores amos device count
  refine ⟨fun hp => ⟨hload rfl (.inl hp), hload rfl (.inl hp), hload rfl (.inl hp), hload rfl (.inl hp), hload rfl (.inl hp)⟩,
    hload rfl (.inr ⟨by decide, rfl⟩), hload rfl (.inr ⟨by decide, rfl⟩),
    fun hp => ⟨hstore rfl (.inl hp), hstore rfl (.inl hp)⟩, hstore rfl (.inr (by decide)), hstore rfl (.inr (by decide)),
    fun hp hh he => ⟨hamo hp hh he rfl rfl, hamo hp hh he rfl rfl, hamo hp hh he rfl rfl, hamo hp hh he rfl rfl,
      hamo hp hh he rfl rfl, hamo hp hh he rfl rfl, hamo hp hh he rfl rfl, hamo hp hh he rfl rfl, hamo hp hh he rfl rfl⟩,
    fun hl => ⟨fun hc => ?_, fun hc => ?_, fun hc => ?_⟩, fun hc => ⟨lr_elsewhere rfl hc ho, sc_elsewhere rfl hc ho⟩,
    fun hc => ⟨lr_elsewhere rfl hc ho, sc_elsewhere rfl hc ho⟩,
    fun hl => ⟨fun hc => amo_traps (op := .add) (size := 4) (rd := rd) (rs2 := rs2) (aq := aq) (rl := rl) rfl hc hl,
      fun hc => amo_traps (op := .add) (size := 8) (rd := rd) (rs2 := rs2) (aq := aq) (rl := rl) rfl hc hl⟩,
    fun hs => ?_, fun hs => ?_⟩
  · exact ⟨load_mgmt_traps rfl hc hl (by decide), load_mgmt_traps rfl hc hl (by decide), store_mgmt_traps rfl hc hl (by decide)⟩
  · exact ⟨load_mgmt_traps rfl hc hl (by decide), load_mgmt_traps rfl hc hl (by decide), store_mgmt_traps rfl hc hl (by decide)⟩
  · exact load_mgmt_traps rfl hc hl (by decide)
  · have hbinit : exec (.binit rs1 rs2) s = barrierPost (.init (s.rx rs2) (s.rx (rs2 + 1)))
        (.binit (s.rx rs2) (s.rx (rs2 + 1))) a s := by
      rw [← rgroup_zero s rs2]
      rfl
    refine ⟨hask hs rfl (fun _ _ _ => rfl) (fun _ _ _ _ => rfl) fun _ _ _ => rfl,
      hpost hs rfl (fun _ _ _ => rfl) (fun _ _ _ _ => rfl) fun _ _ _ => rfl,
      hpost hs rfl (fun _ _ _ => rfl) (fun _ _ _ _ => rfl) fun _ _ _ => rfl,
      hcount hs ?_, hcount hs rfl, hcount hs rfl,
      hpost hs hbinit (fun _ _ _ => rfl) (fun _ _ _ _ => rfl) fun _ _ _ => rfl,
      hpost hs rfl (fun _ _ _ => rfl) (fun _ _ _ _ => rfl) fun _ _ _ => rfl,
      hask hs rfl (fun _ _ _ => rfl) (fun _ _ _ _ => rfl) fun _ _ _ => rfl,
      fun he => hask hs rfl (fun _ _ _ => awaitAll_none he) (fun _ _ _ _ => awaitAll_none he) fun _ _ _ => awaitAll_none he,
      hdevice hs rfl, hdevice hs rfl, hdevice hs rfl, hdevice hs rfl, hdevice hs rfl, hdevice hs rfl, hdevice hs rfl⟩
    exact congrArg (fun v => countedBytes 8 v a (s.rx rs3) s) (Nat.mod_eq_of_lt b.isLt)
  · have trap {i : Instr} {at_ : Dword} {align : Nat} {k : Loc → Outcome} (hc : checkAddr s s.me.mode at_ align align = .ok l)
        (hi : exec i s = riserChecked s at_ align align k) : Traps i s 7 at_ := riser_elsewhere hi hs hc
    have fp {i : Instr} {op : AmoOp} (hq : s.cap 17 = true) (hc : checkAddr s s.me.mode a 4 4 = .ok l)
        (hi : exec i s = deviceAmo op 4 rd rs1 rs2 0 s) : Traps i s 7 a := trap hc (hi.trans (deviceAmo_checked fun _ => hq))
    have int {i : Instr} {op : AmoOp} {size : Nat} {cmp : Dword} (hn : amoIsFp op = false)
        (hc : checkAddr s s.me.mode a size size = .ok l) (hi : exec i s = deviceAmo op size rd rs1 rs2 cmp s) : Traps i s 7 a :=
      trap hc (hi.trans (deviceAmo_checked fun h => absurd (hn.symm.trans h) Bool.false_ne_true))
    simp only [List.forall_mem_cons, List.not_mem_nil, false_imp_iff, implies_true, and_true]
    exact ⟨fun hc => ⟨trap hc rfl, trap hc rfl, trap hc rfl, trap hc rfl, int (op := .incb) (cmp := 0) rfl hc rfl,
        int (op := .cas) (cmp := s.rx rd) rfl hc rfl⟩,
      fun hc => ⟨trap hc rfl, int (op := .incb) (cmp := 0) rfl hc rfl⟩, fun hc => ⟨trap hc rfl, trap hc rfl, trap hc rfl⟩,
        fun hc => trap hc rfl,
      fun hq hc => ⟨fp hq hc rfl, fp hq hc rfl, fp hq hc rfl, fp hq hc rfl⟩, fun hc => trap hc rfl⟩

end Sys2Proof.Machine
end

section
/-! # Tile-to-tile links (O30) -/
namespace Sys2Proof.Machine

/-! ### NBSEND (R144) -/

theorem bits_lt_pow {v : Dword} {n : Nat} (h : v.toNat < 2 ^ n) (len : Nat) : bits v n len = 0 := by
  rw [bits, Nat.div_eq_of_lt h, Nat.zero_mod]

theorem bits_of_lt {v : Dword} {n : Nat} (h : v.toNat < 2 ^ n) : bits v 0 n = v.toNat := by
  rw [bits, Nat.pow_zero, Nat.div_one, Nat.mod_eq_of_lt h]

theorem needMachine_machine {s : State} (h : s.me.mode = .machine) (k : State → Outcome) : needMachine s k = k s := if_pos h

theorem mod_of_checkAddr {s : State} {m : Mode} {a : Dword} {size align : Nat} {l : Loc}
    (h : checkAddr s m a size align = .ok l) : a.toNat % align = 0 := by
  have hl := locate_of_ok h
  rw [checkAddr_some hl] at h
  split at h
  · cases h
  · split at h
    next => cases h
    next hm => exact not_not.1 hm

/-- A place of the machine RAM is named by an address of space 0x5 (R30). -/
theorem space_of_locate_mram {s : State} {m : Mode} {a : Dword} {off : Nat} (h : locate s m a = some (.mram off)) :
    bits a 60 4 = 5 := by
  by_contra h5
  obtain h0 | h1 | h2 | h3 | h4 | h6 | h7 | h8 : bits a 60 4 = 0 ∨ bits a 60 4 = 1 ∨ bits a 60 4 = 2 ∨ bits a 60 4 = 3
      ∨ bits a 60 4 = 4 ∨ bits a 60 4 = 6 ∨ bits a 60 4 = 7 ∨ 8 ≤ bits a 60 4 := by omega
  · cases (Option.ite_none_right_eq_some.1 (locate_own h0 ▸ h)).2
  · cases (Option.ite_none_right_eq_some.1 (locate_mesh h1 ▸ h)).2
  · cases (Option.ite_none_right_eq_some.1 (locate_global h2 ▸ h)).2
  · by_cases hm : bits a 48 12 = s.here.core.jmod
    · cases (Option.ite_none_right_eq_some.1 (locate_ownModule h3 hm ▸ h)).2
    · cases (Option.ite_none_right_eq_some.1 (locate_otherModule h3 hm ▸ h)).2
  · cases (Option.ite_none_right_eq_some.1 (locate_abs h4 ▸ h)).2
  · cases (Option.ite_none_right_eq_some.1 (locate_mgmt h6 ▸ h)).2
  · cases (Option.ite_none_right_eq_some.1 (locate_host h7 ▸ h)).2
  · cases (locate_reserved h8).symm.trans h

/-- An aligned address of the machine RAM names an aligned offset. -/
theorem mram_aligned {s : State} {a : Dword} {off : Nat} (h : checkAddr s .machine a 64 64 = .ok (.mram off)) : off % 64 = 0 := by
  have ha := mod_of_checkAddr h
  have hl := locate_of_ok h
  have hoff : off = bits a 0 15 := by
    have h5 := space_of_locate_mram hl
    rw [locate_mram h5] at hl
    split at hl <;> cases hl
    rfl
  rw [hoff, bits]
  omega

section
variable {s : State} {rd rs1 rs2 : Reg} {off : Nat}

theorem nbsend_sends (hm : s.me.mode = .machine) (hc : checkAddr s .machine (s.rx rs1) 64 64 = .ok (.mram off))
    (hd : (s.rx rs2).toNat < 4) (hf : s.entryFree = true) (hk : s.markedIn (s.myKey (mramBase + off)) 64 = false) :
    Effects (.nbsend rd rs1 rs2) s (s.issue (.nb (Memory.read s.mem (s.myKey (mramBase + off)) 64) (s.rx rs2).toNat 0)
      (.tile s.cur.tile) 0 0 (s.rx rs1) { rd := if rd = 0 then none else some rd }) := by
  refine effects_of_retire _ _ _ ?_ (congrArg Thread.pc (issue_me ..))
  show execNbsend rd rs1 rs2 s = _
  refine (needMachine_machine hm _).trans ?_
  dsimp only
  rw [hm, locate_of_ok hc]
  dsimp only
  rw [if_neg (by rw [mram_aligned hc]; decide), needEntry_free hf, localMark_plain hk,
    if_neg (by rw [bits_lt_pow (n := 2) hd]; decide), bits_of_lt (n := 2) hd]
  rfl

/-! ### RCFG (R146) -/

theorem rcfg_noPort (hm : s.me.mode = .machine) (hd : 4 < (s.rx rs2).toNat) : Traps (.rcfg rs1 rs2) s 7 (s.rx rs2) := by
  refine traps_of_trap _ _ _ _ ?_
  show execRcfg rs1 rs2 s = _
  exact (needMachine_machine hm _).trans (if_pos hd)

/-- What RCFG leaves its thread while it waits for tile n's router. -/
def Thread.waitsRouter (h : Thread) (n : Nat) (w d : Dword) (ts : Nat) : Thread :=
  { h with rcfg := some (n, w, d), st := .unit, need := .acknowledge, sleepTs := ts }

theorem rcfg_waits (hm : s.me.mode = .machine) (hd : s.rx rs2 = 0) : ∃ t, exec (.rcfg rs1 rs2) s = .next t ∧ sameButMe s t
    ∧ t.me.st = .unit ∧ t.me.need = .acknowledge ∧ t.me.pc = s.me.pc ∧ t.me.rcfg = some (s.cur.tile, s.rx rs1, s.rx rs2)
    ∧ t.me.x = s.me.x := by
  have h := noteIssue_modMe s fun h => h.waitsRouter s.cur.tile (s.rx rs1) (s.rx rs2) s.tsc
  have hx : exec (.rcfg rs1 rs2) s =
      .next (s.modMe fun h => h.waitsRouter s.cur.tile (s.rx rs1) (s.rx rs2) s.tsc).noteIssue := by
    show execRcfg rs1 rs2 s = _
    refine (needMachine_machine hm _).trans ?_
    dsimp only
    rw [hd, if_neg (by decide), if_pos rfl, State.block, State.modMe_modMe]
    rfl
  obtain ⟨hme, hs⟩ := h
  refine ⟨_, hx, hs, ?_, ?_, ?_, ?_, ?_⟩
  all_goals rw [hme]; rfl
end

/-! ### The acknowledgement (R146) -/

theorem noteIssue_router (s : State) : s.noteIssue.here.router = s.here.router := by
  have h := congrArg Tile.router (retiredTile_rest s.here s.cur.slot s.me)
  rw [State.noteIssue_eq]
  exact (congrArg Tile.router (State.tile_setTile ..)).trans h

theorem trap_router (s : State) (cause : Nat) (val : Dword) : (s.trap cause val).here.router = s.here.router := by
  refine (noteIssue_router _).trans ?_
  rw [State.here_modHere, State.here_modMe]
  rfl

theorem bits_keep_tstate (v : Dword) : bits (keep routerMask v) 0 2 = bits v 0 2 := by
  rw [bits_low_toNat, bits_low_toNat, keep, BitVec.extractLsb'_and]
  exact congrArg BitVec.toNat (BitVec.and_allOnes (x := v.extractLsb' 0 2))

section
variable {s : State} {n : Nat} {w d : Dword} (hf : s.inFrame s.cur.tile = true) (hr : s.me.rcfg = some (n, w, d))
include hf hr

theorem rcfgAck_eq : exec (.rcfgAck s.cur.tile s.cur.slot.val) s =
    if !rcfgReaches s s.cur.tile n d ∨ routerLocked (s.tile n) then .next (s.trap 7 d)
    else .next ((s.modTile n fun x => writeRouter x w).modTh s.cur.tile s.cur.slot fun h =>
      { h.finish (h.pc + 4) (decide (6 ≤ s.cur.slot.val)) with rcfg := none }) := by
  refine (onTile_of_inFrame hf _).trans ?_
  dsimp only
  rw [slotIx_val, show s.th s.cur.tile s.cur.slot = s.me from rfl, hr]
  rfl

theorem rcfgAck_traps (h : rcfgReaches s s.cur.tile n d = false ∨ routerLocked (s.tile n) = true) :
    exec (.rcfgAck s.cur.tile s.cur.slot.val) s = .next (s.trap 7 d) :=
  (rcfgAck_eq hf hr).trans (if_pos (h.imp (fun e => by rw [e]; rfl) id))
end

/-- A core reaches its own router. -/
theorem rcfgReaches_own {s : State} {t : Nat} (hf : s.inFrame t = true) (d : Dword) : rcfgReaches s t t d = true := by
  rw [rcfgReaches, hf, beq_self_eq_true]
  rfl

theorem rcfgAck_writes {s : State} {w d : Dword} (hf : s.inFrame s.cur.tile = true) (hr : s.me.rcfg = some (s.cur.tile, w, d))
    (hl : s.here.router.getLsbD 63 = false) (hw : bits w 0 2 = 2) (hu : s.here.fused = false) :
    ∃ t, exec (.rcfgAck s.cur.tile s.cur.slot.val) s = .next t ∧ t.here.tstate = 2 ∧ t.me.rcfg = none
      ∧ t.me.pc = s.me.pc + 4 ∧ t.me.st = .ready ∧ t.me.x = s.me.x := by
  have hk : bits (keep routerMask w) 0 2 = 2 := (bits_keep_tstate w).trans hw
  have hx : exec (.rcfgAck s.cur.tile s.cur.slot.val) s = .next ((s.modHere fun x => writeRouter x w).modMe fun h =>
      { h.finish (h.pc + 4) (decide (6 ≤ s.cur.slot.val)) with rcfg := none }) := by
    refine (rcfgAck_eq hf hr).trans (if_neg ?_)
    rw [rcfgReaches_own hf, routerLocked, show s.tile s.cur.tile = s.here from rfl, bitAt, hl]
    exact fun h => h.elim Bool.false_ne_true Bool.false_ne_true
  have hp : writeRouter s.here w = { s.here with router := keep routerMask w } :=
    writeRouter_plain _ _ (by rw [hk]; decide) fun _ => hu
  have hme : (s.modHere fun x => writeRouter x w).me = s.me := by
    show (State.here _).th s.cur.slot = _
    rw [State.here_modHere, hp]
    rfl
  refine ⟨_, hx, ?_, ?_, ?_, ?_, ?_⟩
  · rw [State.here_modMe, State.here_modHere, hp]
    exact hk
  · rw [State.me_modMe]
  all_goals
    rw [State.me_modMe, hme]
    rfl

/-- Settles O30: NBSEND by `nbsend_sends`, RCFG by `rcfg_waits`, and its acknowledgement by `rcfgAck_writes` and
`rcfgAck_traps`. -/
theorem tileLinks : Obligations.TileLinks := by
  unfold Obligations.TileLinks
  intro s rd rs1 rs2 off a d hm
  refine ⟨nbsend_sends hm, rcfg_noPort hm, rcfg_waits hm, rcfgAck_writes, fun hf hr hl => ?_, fun n hf hn hr => ?_⟩
  · refine ⟨_, rcfgAck_traps hf hr (.inr hl), ?_, trap_me ..⟩
    exact trap_router s 7 d
  · exact ⟨_, rcfgAck_traps hf hr (.inl (by rw [rcfgReaches, hn]; rfl)), rfl, trap_me ..⟩

end Sys2Proof.Machine
end

section
/-! # Answers at the source (O41) -/
namespace Sys2Proof.Machine

/-! ### Faults join those pending (R268) -/

/-- The faults pending after f has arrived at those of l, as the claim says it. -/
def Joins (l : List FaultRec) (f : FaultRec) (m : List FaultRec) : Prop :=
  ((∀ g ∈ l, g.cycle = f.cycle → g.age ≤ f.age) → m = l ++ [f])
    ∧ ∀ a g, l = a ++ [g] → (∀ k ∈ a, k.cycle = f.cycle → k.age ≤ f.age) → g.cycle = f.cycle → f.age < g.age → m = a ++ [f, g]

/-- A fault goes behind those before it that are not younger requests' of its cycle. -/
theorem insertFault_append (f : FaultRec) {a : List FaultRec} (h : ∀ g ∈ a, g.cycle = f.cycle → g.age ≤ f.age)
    (r : List FaultRec) : insertFault f (a ++ r) = a ++ insertFault f r := by
  induction a with
  | nil => rfl
  | cons g a ih =>
    have hg : ¬(g.cycle = f.cycle ∧ f.age < g.age) := fun e => Nat.not_lt.2 (h g (List.mem_cons_self ..) e.1) e.2
    rw [List.cons_append, insertFault, if_neg hg, ih fun k hk => h k (List.mem_cons_of_mem g hk), List.cons_append]

theorem joins_insertFault (f : FaultRec) (l : List FaultRec) : Joins l f (insertFault f l) := by
  refine ⟨fun h => ?_, fun a g hl ha hc hg => ?_⟩
  · have := insertFault_append f h []
    rwa [List.append_nil] at this
  · rw [hl, insertFault_append f ha, insertFault, if_pos ⟨hc, hg⟩]

/-! ### One thread changes, and an entry is freed -/

/-- From s to u the thread in slot i of tile t has become k, and nothing else of its tile's requests and core, of other
tiles, or of the module differs. -/
structure OnlyThread (s u : State) (t : Nat) (i : Fin 8) (k : Thread) : Prop where
  rest : { u with tiles := s.tiles } = s
  thread : u.th t i = k
  reqs : (u.tile t).reqs = (s.tile t).reqs
  core : (u.tile t).core = (s.tile t).core
  cycle : (u.tile t).cycle = (s.tile t).cycle
  other : ∀ v, v ≠ t → u.tile v = s.tile v

section
variable {s u : State} {t : Nat} {i : Fin 8} {k : Thread}

theorem OnlyThread.refl (s : State) (t : Nat) (i : Fin 8) : OnlyThread s s t i (s.th t i) :=
  ⟨rfl, rfl, rfl, rfl, rfl, fun _ _ => rfl⟩

theorem th_modTh (s : State) (t : Nat) (i : Fin 8) (f : Thread → Thread) : (s.modTh t i f).th t i = f (s.th t i) :=
  (congrArg (Tile.th · i) (State.tile_modTile ..)).trans (Tile.th_setTh ..)

theorem OnlyThread.modTh (h : OnlyThread s u t i k) (f : Thread → Thread) : OnlyThread s (u.modTh t i f) t i (f k) where
  rest := h.rest
  thread := by rw [th_modTh, h.thread]
  reqs := (congrArg Tile.reqs (State.tile_modTile ..)).trans h.reqs
  core := (congrArg Tile.core (State.tile_modTile ..)).trans h.core
  cycle := (congrArg Tile.cycle (State.tile_modTile ..)).trans h.cycle
  other v hv := (State.tile_modTile_other _ _ hv).trans (h.other v hv)

theorem OnlyThread.net (h : OnlyThread s u t i k) : u.net = s.net := by
  have := congrArg State.net h.rest
  exact this

theorem OnlyThread.mem (h : OnlyThread s u t i k) : u.mem = s.mem := by
  have := congrArg State.mem h.rest
  exact this

theorem OnlyThread.tsc (h : OnlyThread s u t i k) : u.tsc = s.tsc := by
  rw [← h.rest]
  rfl

theorem freed_pend (x : Tile) (id : Nat) (i : Fin 8) : ((x.freed id).th i).pend = (x.th i).pend := by
  unfold Tile.freed Tile.wakeEntries
  rw [mapTh_th, apply_ite Thread.pend, ite_self]
  simp only [Tile.th, Fin.getElem_fin, Vector.getElem_mapFinIdx]
  split <;> rfl

theorem tile_freeEntry (s : State) (t id : Nat) : (s.freeEntry t id).tile t = (s.tile t).freed id := State.tile_modTile ..

/-- A thread whose x registers are another's reads the same. -/
theorem rx_congr {h k : Thread} (e : k.x = h.x) (r : Reg) : k.rx r = h.rx r := by
  unfold Thread.rx
  rw [e]
end

section
variable {s u : State} {p : Packet} {t : Nat} {i : Fin 8} {e : ReqEntry} {k : Thread} {ev : Instr}

/-- What is left when an answer has been taken, of which the thread has become k, and its entry is free. -/
theorem freed_of_onlyThread (hx : exec ev s = .next (u.freeEntry t e.id)) (hu : OnlyThread (s.dropPkt p.id) u t i k)
    (hpc : k.pc = ((s.tile t).th i).pc) {q : Thread → Prop} (hq : ∀ l : Thread, (∀ r, l.rx r = k.rx r) → l.pend = k.pend → q l) :
    ∃ u, exec ev s = .next u ∧ u.net = s.net.filter (·.id != p.id) ∧ (u.tile t).reqs = (s.tile t).reqs.filter (·.id != e.id)
      ∧ q ((u.tile t).th i) ∧ ((u.tile t).th i).pc = ((s.tile t).th i).pc ∧ u.mem = s.mem ∧ (u.tile t).core = (s.tile t).core
      ∧ ∀ v, v ≠ t → u.tile v = s.tile v := by
  obtain ⟨hrx, hp⟩ := freed_th (u.tile t) e.id i
  have hk : (u.tile t).th i = k := hu.thread
  refine ⟨_, hx, hu.net, ?_, ?_, ?_, hu.mem, ?_, fun v hv => (State.tile_modTile_other _ _ hv).trans (hu.other v hv)⟩
  · rw [tile_freeEntry]
    exact congrArg (List.filter (·.id != e.id)) hu.reqs
  · rw [tile_freeEntry]
    exact hq _ (fun r => by rw [rx_congr hrx, hk]) ((freed_pend ..).trans (congrArg Thread.pend hk))
  · rw [tile_freeEntry, hp, hk, hpc]
  · rw [tile_freeEntry]
    exact hu.core

theorem pendFault_pends {f : FaultRec} {slot epoch : Nat} (hs : slot = i.val) (he : (s.th t i).epoch = epoch)
    (hl : (s.th t i).st ≠ .empty) (h28 : f.cause ≠ 28) (h29 : f.cause ≠ 29) : s.pendFault t slot epoch false f =
      s.modTh t i fun h => { h with pend := insertFault { f with cycle := (s.tile t).cycle } h.pend } := by
  subst hs
  unfold State.pendFault
  extract_lets j h log
  have hj : j = i := slotIx_val i
  clear_value j
  subst hj
  have hh : ¬(h.epoch ≠ epoch ∨ h.st = .empty) := fun o => o.elim (fun o => o he) hl
  rw [if_neg hh, if_neg Bool.false_ne_true, if_neg fun o => h28 o.1, if_neg fun o => h29 o.1]

/-- The faults' context after one has arrived. -/
def Thread.pended (h : Thread) (f : FaultRec) : Thread := { h with pend := insertFault f h.pend }

/-! ### The answers (R128, R131) -/

theorem returned_takes (hp : s.pkt p.id = some p) (ht : p.org.party = .thread) {ok : Packet → Bool} (ho : ok p = true) :
    returned s p.id ok = .next (threadReply s p) := by
  unfold returned
  rw [hp]
  dsimp only
  rw [if_pos ho, takeReply, ht]

section
variable (he : (s.tile p.org.tile).reqs.find? (·.id == p.req) = some e) (hg : e.group = none)
include he hg

theorem threadReply_result {d n : Nat} (ho : p.op = .result d n) : threadReply s p =
    let w := (s.dropPkt p.id).writeResult p.org.tile e (loadExt e.size e.signed d)
    (if n = 0 then w else w.pendFault p.org.tile e.slot e.epoch e.quiet
      (replyFault w e 26 n p.src (otherModule (w.tile p.org.tile) e.target))).freeEntry p.org.tile e.id := by
  unfold threadReply
  dsimp only
  rw [show ((s.dropPkt p.id).tile p.org.tile).reqs.find? (·.id == p.req) = some e from he]
  dsimp only
  rw [ho, hg]

theorem threadReply_complete (ho : p.op = .complete) : threadReply s p = (s.dropPkt p.id).freeEntry p.org.tile e.id := by
  unfold threadReply
  dsimp only
  rw [show ((s.dropPkt p.id).tile p.org.tile).reqs.find? (·.id == p.req) = some e from he]
  dsimp only
  rw [ho, hg]

theorem threadReply_reject {r remote : Nat} {fab : Bool} (ho : p.op = .reject r remote fab) : threadReply s p =
    ((s.dropPkt p.id).pendFault p.org.tile e.slot e.epoch e.quiet (replyFault (s.dropPkt p.id) e 25 r remote fab)).freeEntry
      p.org.tile e.id := by
  unfold threadReply
  dsimp only
  rw [show ((s.dropPkt p.id).tile p.org.tile).reqs.find? (·.id == p.req) = some e from he]
  dsimp only
  rw [ho, hg]

theorem threadReply_status {v : Nat} (ho : p.op = .status v) : threadReply s p =
    ((s.dropPkt p.id).writeResult p.org.tile e (nd v)).freeEntry p.org.tile e.id := by
  unfold threadReply
  dsimp only
  rw [show ((s.dropPkt p.id).tile p.org.tile).reqs.find? (·.id == p.req) = some e from he]
  dsimp only
  rw [ho, hg]
end

theorem threadReply_storeRejected {r remote : Nat} {fab : Bool} (he : (s.tile p.org.tile).reqs.find? (·.id == p.req) = none)
    (ho : p.op = .reject r remote fab) : threadReply s p = (s.dropPkt p.id).storeRejected p r remote fab := by
  unfold threadReply
  dsimp only
  rw [show ((s.dropPkt p.id).tile p.org.tile).reqs.find? (·.id == p.req) = none from he]
  dsimp only
  rw [ho]
end

/-- What answers wait for: an entry of a live thread, of no vector access. -/
structure Awaited (s : State) (p : Packet) (i : Fin 8) (e : ReqEntry) : Prop where
  pkt : s.pkt p.id = some p
  party : p.org.party = .thread
  entry : (s.tile p.org.tile).reqs.find? (·.id == p.req) = some e
  slot : e.slot = i.val
  epoch : e.epoch = ((s.tile p.org.tile).th i).epoch
  live : ((s.tile p.org.tile).th i).st ≠ .empty
  kept : e.discard = false
  group : e.group = none

section
variable {s : State} {p : Packet} {i : Fin 8} {e : ReqEntry} (h : Awaited s p i e)
include h

theorem Awaited.written {rd : Reg} (hrd : e.rd = some rd) (v : Dword) :
    (s.dropPkt p.id).writeResult p.org.tile e v = (s.dropPkt p.id).modTh p.org.tile i (·.wx rd v) :=
  writeResult_live (s := s.dropPkt p.id) h.slot hrd h.kept h.epoch v

theorem Awaited.onlyWritten {rd : Reg} (hrd : e.rd = some rd) (v : Dword) :
    OnlyThread (s.dropPkt p.id) ((s.dropPkt p.id).writeResult p.org.tile e v) p.org.tile i
      (((s.tile p.org.tile).th i).wx rd v) := by
  rw [h.written hrd]
  exact (OnlyThread.refl ..).modTh (·.wx rd v)

/-- A fault that finds its thread joins those pending there. -/
theorem Awaited.onlyPended {u : State} {k : Thread} {f : FaultRec} (hu : OnlyThread (s.dropPkt p.id) u p.org.tile i k)
    (hk : k.epoch = ((s.tile p.org.tile).th i).epoch ∧ k.st = ((s.tile p.org.tile).th i).st) (hq : e.quiet = false)
    (h28 : f.cause ≠ 28) (h29 : f.cause ≠ 29) :
    OnlyThread (s.dropPkt p.id) (u.pendFault p.org.tile e.slot e.epoch e.quiet f) p.org.tile i
      (k.pended { f with cycle := (s.tile p.org.tile).cycle }) := by
  rw [hq, pendFault_pends h.slot (by rw [hu.thread, hk.1, h.epoch]) (by rw [hu.thread, hk.2]; exact h.live) h28 h29, hu.cycle]
  exact hu.modTh (·.pended _)
end

theorem wx_pend (h : Thread) (r : Reg) (v : Dword) : (h.wx r v).pend = h.pend := by
  unfold Thread.wx
  split <;> rfl

theorem wx_live (h : Thread) (r : Reg) (v : Dword) : (h.wx r v).epoch = h.epoch ∧ (h.wx r v).st = h.st := by
  unfold Thread.wx
  split <;> exact ⟨rfl, rfl⟩

theorem rx_wx_same (h : Thread) {r : Reg} (h0 : r ≠ 0) (v : Dword) : (h.wx r v).rx r = v :=
  (Thread.rx_wx ..).trans (if_pos ⟨rfl, h0⟩)

theorem rx_wx_other (h : Thread) {r q : Reg} (hq : q ≠ r) (v : Dword) : (h.wx r v).rx q = h.rx q :=
  (Thread.rx_wx ..).trans (if_neg fun e => hq e.1)

/-- Settles O41: each answer's `threadReply`, whose effect on the thread is a written register or a pended fault; what
that leaves is said once by `freed_of_onlyThread`. -/
theorem answersReturn : Obligations.AnswersReturn := by
  unfold Obligations.AnswersReturn
  intro s p t i e x h pends joins hp hparty ht hfab
  subst ht
  refine ⟨fun he hs hep hl hd hg => ?_, fun r remote fab he ho hg hm hs h6 hep hl => ?_⟩
  · intro frees keeps
    have hfrees {u : State} {k : Thread} {ev : Instr} {q : Thread → Prop} (hx : exec ev s = .next (u.freeEntry p.org.tile e.id))
        (hu : OnlyThread (s.dropPkt p.id) u p.org.tile i k) (hpc : k.pc = h.pc)
        (hq : ∀ l : Thread, (∀ r, l.rx r = k.rx r) → l.pend = k.pend → q l) : frees ev q :=
      freed_of_onlyThread hx hu hpc hq
    clear_value frees
    have ha : Awaited s p i e := ⟨hp, hparty, he, hs, hep, hl, hd, hg⟩
    refine ⟨fun d rd ho hrd h0 => ?_, fun ho => ?_, fun r remote ho hq => ?_, fun d n rd ho hn hq hrd h0 => ?_,
      fun v rd ho hrd h0 hsp => ?_⟩
    · have hx : exec (.responseReturn p.id) s = _ := returned_takes hp hparty (by rw [ho])
      rw [threadReply_result he hg ho] at hx
      refine hfrees hx (ha.onlyWritten hrd _) (Thread.wx_pc ..) fun l hr hl => ⟨?_, fun r hne => ?_, ?_⟩
      · rw [hr, rx_wx_same _ h0]
      · rw [hr, rx_wx_other _ hne]
      · rw [hl, wx_pend]
    · have hx : exec (.storeCompletionReturn p.id) s = _ := returned_takes hp hparty (by rw [ho])
      rw [threadReply_complete he hg ho] at hx
      exact hfrees hx (OnlyThread.refl ..) rfl fun l hr hl => ⟨hr, hl⟩
    · have hx : exec (.impreciseFaultArrival p.id) s = _ := returned_takes hp hparty (by rw [ho])
      rw [threadReply_reject he hg ho] at hx
      refine hfrees hx
        (ha.onlyPended (OnlyThread.refl ..) ⟨rfl, rfl⟩ hq (show 25 ≠ 28 by decide) (show 25 ≠ 29 by decide)) rfl
        fun l hr hl => ⟨hr, ?_⟩
      rw [hl]
      exact joins_insertFault ..
    · have hx : exec (.impreciseFaultArrival p.id) s = _ := returned_takes hp hparty (by rw [ho]; exact bne_iff_ne.2 hn)
      rw [threadReply_result he hg ho] at hx
      dsimp only at hx
      rw [if_neg hn] at hx
      have hw := ha.onlyWritten hrd (loadExt e.size e.signed d)
      refine hfrees hx (ha.onlyPended hw (wx_live ..) hq (show 26 ≠ 28 by decide) (show 26 ≠ 29 by decide)) (Thread.wx_pc ..)
        fun l hr hl => ⟨(hr rd).trans (rx_wx_same _ h0 _), ?_⟩
      rw [hl]
      show Joins h.pend _ (insertFault _ (Thread.pend (Thread.wx _ _ _)))
      unfold replyFault otherModule
      rw [wx_pend, hw.core, hw.tsc]
      exact joins_insertFault ..
    · have hx : exec (.nbsendStatusReturn p.id) s = .next (threadReply s p) := by
        show execNbsendStatusReturn p.id s = _
        unfold execNbsendStatusReturn
        rw [hp]
        dsimp only
        rw [ho, hsp]
        rfl
      rw [threadReply_status he hg ho] at hx
      exact hfrees hx (ha.onlyWritten hrd _) (Thread.wx_pc ..) fun l hr hl =>
        ⟨(hr rd).trans (rx_wx_same _ h0 _), fun r hne => (hr r).trans (rx_wx_other _ hne _)⟩
  · have hx : exec (.impreciseFaultArrival p.id) s = _ := returned_takes hp hparty (by rw [ho])
    have hquiet : (p.org.machine || decide (6 ≤ p.org.slot)) = false := by
      rw [hm, hs, Bool.false_or, decide_eq_false (Nat.not_le.2 h6)]
    rw [threadReply_storeRejected he ho, State.storeRejected, hg] at hx
    let f : FaultRec :=
      { cause := 25, val := p.addr, opc := p.opc, target := p.addr, reason := r, fab := fab, remote := remote, ts := s.tsc,
        age := p.req }
    have hu : OnlyThread (s.dropPkt p.id) _ p.org.tile i (h.pended { f with cycle := x.cycle }) :=
      (OnlyThread.refl (s.dropPkt p.id) p.org.tile i).modTh (·.pended { f with cycle := x.cycle })
    have hx' : exec (.impreciseFaultArrival p.id) s =
        .next ((s.dropPkt p.id).modTh p.org.tile i (·.pended { f with cycle := x.cycle })) := hx.trans
          (congrArg Host.Outcome.next ((congrArg (State.pendFault _ _ _ _ · f) hquiet).trans
      (pendFault_pends (s := s.dropPkt p.id) hs hep.symm hl (show 25 ≠ 28 by decide) (show 25 ≠ 29 by decide))))
    refine ⟨_, hx', hu.net, hu.mem, fun k => ?_, ?_⟩
    · show (State.th _ _ i).rx k = h.rx k
      rw [hu.thread]
      rfl
    · show Joins h.pend _ (State.th _ _ i).pend
      rw [hu.thread]
      exact joins_insertFault ..

end Sys2Proof.Machine
end

section
/-! # Packets, counts and walks (O42) -/
namespace Sys2Proof.Machine

/-! ### A port without holds (R136) -/

theorem held_none {x : Tile} (h : ∀ i, (x.th i).holdEnd = none) (t : Nat) (w : Writer) (off n : Nat) :
    x.held t w off n = false := by
  unfold Tile.held
  rw [List.any_eq_false]
  intro p hp
  obtain ⟨j, hj, he⟩ := List.getElem_of_mem (List.fst_mem_of_mem_zipIdx hp)
  have hn : p.1.holdEnd = none := by
    rw [← he]
    exact h ⟨j, by simpa using hj⟩
  rw [hn]
  split <;> simp_all

theorem portBlocked_idle {s : State} {t : Nat} (hd : (s.tile t).delayed = []) (h : ∀ i, ((s.tile t).th i).holdEnd = none)
    (who : Waiter) (w : Writer) (spans : List (Nat × Nat)) : s.portBlocked t who w spans = false := by
  unfold State.portBlocked
  dsimp only
  rw [hd, List.takeWhile_nil, List.any_nil, Bool.or_false, List.any_eq_false]
  exact fun b _ => by rw [held_none h]; exact Bool.false_ne_true

theorem atPort_open {s0 s : State} {t : Nat} {who : Waiter} {w : Writer} {spans : List (Nat × Nat)} {k : State → State}
    (h : s.portBlocked t who w spans = false) :
    s0.atPort s t who w spans k = k (s.modTile t fun x => { x with delayed := x.delayed.filter (·.1 != who) }) := by
  unfold State.atPort
  exact if_neg (by rw [h]; exact Bool.false_ne_true)

/-! ### Bytes of a step at a port -/

section
variable {s u : State} {t a : Nat} {bs : List Byte}

theorem Wrote.read (h : Wrote s u t a bs) (hk : tileKey t a + bs.length ≤ 2 ^ 62) :
    Memory.read u.mem (tileKey t a) bs.length = bs := by
  refine Memory.read_eq fun j hj => ?_
  refine (h (tileKey t a + j) (by omega)).trans ?_
  rw [if_pos ⟨Nat.le_add_right .., Nat.add_lt_add_left hj _⟩, Nat.add_sub_cancel_left, List.getD_eq_getElem]

theorem Wrote.read_other {k n : Nat} (h : Wrote s u t a bs) (hk : k + n ≤ 2 ^ 62)
    (ho : k + n ≤ tileKey t a ∨ tileKey t a + bs.length ≤ k) : Memory.read u.mem k n = Memory.read s.mem k n :=
  Memory.read_congr fun j h1 h2 => (h j (by omega)).trans (if_neg (by omega))

theorem Wrote.readD {w : Dword} (h : Wrote s u t a (leBytes 8 w.toNat)) (hk : tileKey t a + 8 ≤ 2 ^ 62) :
    u.readD (tileKey t a) = w := by
  have hr := h.read (by rw [leBytes_length]; exact hk)
  rw [leBytes_length] at hr
  rw [State.readD, State.readN, hr, leVal_leBytes, show 256 ^ 8 = 2 ^ 64 from rfl, Nat.mod_eq_of_lt w.isLt, BitVec.ofNat_toNat,
    BitVec.setWidth_eq]
end

/-! ### Answers after such a step -/

theorem homeIndex_congr {s u : State} (hc : u.code = s.code) (hx : ∀ v, (u.tile v).core = (s.tile v).core) (h : Home) :
    homeIndex u h = homeIndex s h := by
  have hl (v : Nat) : (u.tile v).lidx = (s.tile v).lidx := by
    unfold Tile.lidx
    rw [hx v]
  have hf (v : Nat) : u.inFrame v = s.inFrame v := by
    unfold State.inFrame State.side
    rw [hc]
  cases h with
  | tile v => simp only [homeIndex, hl, hf]
  | chan g => exact hl _
  | mgmt | host | module => rfl

/-- The answer to one of this module's own threads or engines, in any later state. -/
theorem reply_net {s u : State} {p : Packet} (hf : p.org.fab = false) (hh : p.org.party ≠ .host) (op : Op)
    (hn : u.net = s.net.filter (·.id != p.id)) (hi : homeIndex u p.home = homeIndex s p.home) :
    u.reply p op = { u with net := answered s p op } := by
  have h1 : ¬(p.org.party = .host ∧ (!isSpawn p.op) = true) := fun h => hh h.1
  have h2 : ¬p.org.fab = true := by rw [hf]; exact Bool.false_ne_true
  refine (if_neg h1).trans ((if_neg h2).trans ?_)
  unfold State.sendPkt answered
  rw [hn, hi]

theorem core_modTile (s : State) (t : Nat) {f : Tile → Tile} (hf : ∀ x, (f x).core = x.core) (v : Nat) :
    ((s.modTile t f).tile v).core = (s.tile v).core := by
  by_cases h : v = t
  · rw [h, State.tile_modTile, hf]
  · rw [State.tile_modTile_other _ _ h]

theorem homeIndex_modTile (s : State) (t : Nat) {f : Tile → Tile} (hf : ∀ x, (f x).core = x.core) (h : Home) :
    homeIndex (s.modTile t f) h = homeIndex s h :=
  homeIndex_congr (u := s.modTile t f) (s := s) rfl (core_modTile s t hf) h

/-! ### Tile-to-tile packets (R144, R145) -/

theorem receiver_dropPkt (s : State) (id n t dir skip : Nat) :
    receiver (s.dropPkt id) n t dir skip = receiver s n t dir skip := by
  induction n generalizing t skip with
  | zero => rfl
  | succ n ih =>
    unfold receiver
    simp only [ih]
    rfl

theorem packetOff_eq (n : Nat) : packetOff n = 0x87E00 + 64 * n := by
  unfold packetOff mramBase
  rfl

theorem headerOff_eq (n : Nat) : headerOff n = 0x87F00 + 8 * n := by
  unfold headerOff mramBase
  rfl

theorem freePacket_lt {s : State} {u n : Nat} (h : freePacket s u = some n) : n < 4 := by
  have := List.mem_of_find?_eq_some h
  revert this
  show n ∈ [0, 1, 2, 3] → n < 4
  simp only [List.mem_cons, List.not_mem_nil, or_false]
  omega

section
variable (s : State) {u n : Nat} (hn : n < 4) (hu : u < 2 ^ 40) {bytes : List Byte} (hl : bytes.length = 64) (dir skip : Nat)
  {w : Writer} (hw : w.logged = false)
include hw

/-- What storing a packet leaves: the step of its bytes, the step of its header, and the event. -/
theorem storePacket_steps : ∃ a b, Wrote s a u (packetOff n) bytes
    ∧ Wrote a b u (headerOff n) (leBytes 8 (field 63 1 1 + field 16 8 skip + field 8 2 dir)) ∧ PortStep s b u
    ∧ s.storePacket u n bytes dir skip w = b.event u 1 :=
  ⟨_, _, wrote_stepWrite (.inl hw) rfl, wrote_stepWrite (.inl hw) rfl,
    (portStep_stepWrite (.inl hw)).trans (portStep_stepWrite (.inl hw)), rfl⟩

include hn hu hl

theorem storePacket_leaves :
    let v := s.storePacket u n bytes dir skip w
    Memory.read v.mem (tileKey u (packetOff n)) 64 = bytes
      ∧ v.readD (tileKey u (headerOff n)) = BitVec.ofNat 64 (2 ^ 63 + skip % 2 ^ 8 * 2 ^ 16 + dir % 4 * 2 ^ 8)
      ∧ (v.tile u).evpend.getLsbD 0 = true ∧ v.net = s.net ∧ ∀ h, homeIndex v h = homeIndex s h := by
  obtain ⟨a, b, hp, hh, hs, he⟩ := storePacket_steps s dir skip (u := u) (n := n) (bytes := bytes) hw
  rw [he]
  have hk : tileKey u (headerOff n) + 8 ≤ 2 ^ 62 := by unfold tileKey headerOff mramBase; omega
  have hkp : tileKey u (packetOff n) + 64 ≤ tileKey u (headerOff n) := by unfold tileKey packetOff headerOff mramBase; omega
  have hfield : field 63 1 1 + field 16 8 skip + field 8 2 dir < 2 ^ 64 := by
    unfold field
    norm_num
    omega
  refine ⟨?_, ?_, ?_, hs.net,
    fun h => (homeIndex_modTile b u (f := fun x => { x with evpend := x.evpend ||| 1 }) (fun _ => rfl) h).trans (hs.homeIndex h)⟩
  · have h1 := hh.read_other (k := tileKey u (packetOff n)) (n := 64) (by omega) (.inl hkp)
    have h2 := hp.read (by omega)
    rw [hl] at h2
    exact h1.trans h2
  · rw [← Nat.mod_eq_of_lt hfield, ← BitVec.toNat_ofNat] at hh
    refine (hh.readD hk).trans ?_
    unfold field
    norm_num
  · rw [State.event, State.tile_modTile]
    simp
end

section
variable {s : State} {p : Packet} {bytes : List Byte} {dir : Nat} (hp : s.pkt p.id = some p) (ho : p.op = .nb bytes dir 0)
include hp ho

theorem exec_nbsendReceive_lost (hr : receiver s s.side p.org.tile dir 0 = none) :
    exec (.nbsendReceive p.id) s = .next ((s.dropPkt p.id).reply p (.status 2)) := by
  show execNbsendReceive p.id s = _
  unfold execNbsendReceive
  rw [hp]
  dsimp only
  rw [ho]
  dsimp only
  rw [show receiver (s.dropPkt p.id) (s.dropPkt p.id).side p.org.tile dir 0 = none from (receiver_dropPkt ..).trans hr]

section
variable {u skip : Nat} (hr : receiver s s.side p.org.tile dir 0 = some (u, skip)) (ha : s.awake u = true)
include hr ha

theorem exec_nbsendReceive_full (hf : freePacket s u = none) :
    exec (.nbsendReceive p.id) s = .next ((s.dropPkt p.id).reply p (.status 1)) := by
  show execNbsendReceive p.id s = _
  unfold execNbsendReceive
  rw [hp]
  dsimp only
  rw [ho]
  dsimp only
  rw [show receiver (s.dropPkt p.id) (s.dropPkt p.id).side p.org.tile dir 0 = _ from (receiver_dropPkt ..).trans hr]
  dsimp only
  rw [show (s.dropPkt p.id).awake u = true from ha, show freePacket (s.dropPkt p.id) u = none from hf]
  rfl

/-- The writer of a packet's bytes, which no trace takes. -/
def nbWriter (p : Packet) : Writer := { kind := 0, org := p.org, logged := false, lsize := 6 }

theorem exec_nbsendReceive_stored {n : Nat} (hf : freePacket s u = some n) (hd : (s.tile u).delayed = [])
    (hh : ∀ i, ((s.tile u).th i).holdEnd = none) :
    exec (.nbsendReceive p.id) s = .next
      ((((s.dropPkt p.id).modTile u fun x => { x with delayed := x.delayed.filter (·.1 != .packet p.id) }).storePacket u n bytes
        dir skip (nbWriter p)).reply p (.status 0)) := by
  show execNbsendReceive p.id s = _
  unfold execNbsendReceive
  rw [hp]
  dsimp only
  rw [ho]
  dsimp only
  rw [show receiver (s.dropPkt p.id) (s.dropPkt p.id).side p.org.tile dir 0 = _ from (receiver_dropPkt ..).trans hr]
  dsimp only
  rw [show (s.dropPkt p.id).awake u = true from ha, show freePacket (s.dropPkt p.id) u = some n from hf, Bool.not_true,
    if_neg Bool.false_ne_true]
  dsimp only
  rw [atPort_open (portBlocked_idle (s := s.dropPkt p.id) hd hh ..)]
  rfl
end
end


/-! ### Counts at the gateway (R176, R177) -/

theorem countStore_one {s : State} {p : Packet} {e : Receive} (hr : s.receive = [e]) (hs : sameSource p e = true)
    (hg : e.gateway = p.port) (n : Nat) :
    s.countStore p n = { s with receive := [{ e with count := e.count + n }] } := by
  unfold State.countStore
  rw [hr, if_pos (by simp [hs, hg]), List.map_singleton, if_pos ⟨hs, hg⟩]

section
variable {s : State} {p : Packet} (hp : s.pkt p.id = some p)
include hp

theorem exec_fabricStoreReceive {q : Packet} {e : Receive} {m y x : Nat} (hh : p.home = .module m y x)
    (hf : fabricStore p = true) (hq : routedIn s p = some q) (hr : s.receive = [e]) (hs : sameSource p e = true)
    (hg : e.gateway = p.port) : exec (.fabricStoreReceive p.id false) s =
      .next ({ s with receive := [{ e with count := e.count + 1 }] }.replacePkt p.id q) := by
  show execFabricStoreReceive p.id false s = _
  unfold execFabricStoreReceive
  rw [hp]
  dsimp only
  rw [hh]
  dsimp only
  rw [if_pos hf, if_neg Bool.false_ne_true, hq, countStore_one hr hs hg 1]

theorem exec_intervalCheckArrival {m sent : Nat} (ho : p.op = .check m sent) (hf : p.org.fab = true)
    (hs : storesPending s p = false) : exec (.intervalCheckArrival p.id) s = .next { s.dropPkt p.id with
      receive := s.receive.filter fun e => !sameSource p e
      uncounted := s.uncounted.filter fun e => !sameSource p e
      fabricOut := s.fabricOut ++ [{ p with op := checkAnswer s p sent, home := .module p.org.omod 0 0, id := p.extId }] } := by
  show execIntervalCheckArrival p.id s = _
  unfold execIntervalCheckArrival
  rw [hp]
  dsimp only
  rw [ho]
  dsimp only
  rw [hf, hs, if_neg (by decide)]
  rfl

theorem exec_intervalCheckAnswer {kind rcvd : Nat} (ho : p.op = .answer kind rcvd) (hy : p.org.party = .thread)
    (hl : (s.tile p.org.tile).lateChecks = []) : exec (.intervalCheckAnswer p.id) s =
      .next ((s.dropPkt p.id).modTile p.org.tile fun x => x.mapTh (·.answered p.req kind rcvd)) := by
  show execIntervalCheckAnswer p.id s = _
  unfold execIntervalCheckAnswer
  rw [hp]
  dsimp only
  rw [ho]
  dsimp only
  rw [if_neg (fun h => h hy), show ((State.modTile _ _ _).tile p.org.tile).lateChecks = [] from
    (congrArg Tile.lateChecks (State.tile_modTile ..)).trans hl]
  rfl
end

theorem checkAnswer_counted {s : State} {p : Packet} {e : Receive} (hu : s.uncounted = []) (hr : s.receive = [e])
    (hs : sameSource p e = true) (hg : e.gateway = p.port) (sent : Nat) :
    checkAnswer s p sent = .answer (if e.count = sent then 0 else 1) e.count := by
  unfold checkAnswer
  rw [hu, hr, if_neg (by simp [hg])]
  have hf : [e].find? (fun e => sameSource p e && e.gateway == p.port) = some e := by simp [hs, hg]
  rw [hf]
  dsimp only
  split <;> rfl

theorem answered_alone {h : Thread} {c : Check} {id kind rcvd : Nat} (hc : h.checks = [c]) (hi : c.id = id)
    (hn : h.need = .intervalCheck) : h.answered id kind rcvd =
      { h with checks := [{ c with answer := some (kind, rcvd) }], st := .ready, need := .none } := by
  unfold Thread.answered
  dsimp only
  rw [hc, List.map_singleton, if_pos hi, if_pos ⟨hn, rfl⟩]

/-! ### A walk's last step (R285, R287) -/

section
variable {s : State} {w : Walk} (hw : s.walks = [w])
include hw

/-- The only walk of the module is at a walker. -/
theorem walkComplete_alone : walkComplete s w.id =
    match walkLevel s w with
    | .down a => { s with walks := s.walks.map fun v => if v.id = w.id then { v with level := v.level + 1, table := a } else v }
    | .leaf e => ((s.fillDie w.die (tlbOf w e)).fillCore w.tile (tlbOf w e)).endWalk w
    | .fault => (s.modTile w.tile (·.pageFault w)).endWalk w := by
  have hf : s.walks.find? (·.id = w.id) = some w := by rw [hw]; simp
  have ha : ((s.walksOf w.die).take 128).any (·.id = w.id) = true := by
    unfold State.walksOf
    rw [hw]
    simp
  unfold walkComplete
  rw [hf]
  dsimp only
  rw [ha]
  exact if_neg Bool.false_ne_true

theorem walkComplete_leaf {e : Dword} (h : walkLevel s w = .leaf e) : exec (.pageWalkComplete w.id) s =
    .next (((s.fillDie w.die (tlbOf w e)).fillCore w.tile (tlbOf w e)).endWalk w) := by
  refine (congrArg Host.Outcome.next (walkComplete_alone hw)).trans ?_
  rw [h]

theorem walkComplete_down {a : Nat} (h : walkLevel s w = .down a) : exec (.pageWalkComplete w.id) s =
    .next { s with walks := [{ w with level := w.level + 1, table := a }] } := by
  refine (congrArg Host.Outcome.next (walkComplete_alone hw)).trans ?_
  rw [h, hw]
  dsimp only
  rw [List.map_singleton, if_pos rfl]

theorem walkComplete_fault (h : walkLevel s w = .fault) : exec (.pageWalkComplete w.id) s =
    .next ((s.modTile w.tile (·.pageFault w)).endWalk w) := by
  refine (congrArg Host.Outcome.next (walkComplete_alone hw)).trans ?_
  rw [h]
end

theorem endWalk_alone {s : State} {w : Walk} (hw : s.walks = [w]) :
    s.endWalk w = { s with walks := [] }.modTile w.tile (·.wakeTranslation (· == w.page)) := by
  have hf : s.walksFull w.die = false := by
    unfold State.walksFull State.walksOf
    rw [hw]
    simp
  unfold State.endWalk
  dsimp only
  rw [hf, if_neg Bool.false_ne_true, hw]
  simp

theorem wakeTranslation_th (x : Tile) (p : Nat → Bool) (i : Fin 8) : (x.wakeTranslation p).th i =
    match (x.th i).need with
    | .translation page => if (x.th i).st = .queue ∧ p page then { x.th i with st := .ready, need := .none } else x.th i
    | _ => x.th i := mapTh_th ..

theorem wakeTranslation_woken {x : Tile} {i : Fin 8} {page : Nat} (hs : (x.th i).st = .queue)
    (hn : (x.th i).need = .translation page) :
    (x.wakeTranslation (· == page)).th i = { x.th i with st := .ready, need := .none } := by
  rw [wakeTranslation_th, hn]
  exact if_pos ⟨hs, beq_self_eq_true page⟩

theorem wakeTranslation_waits {x : Tile} {i : Fin 8} {page other : Nat} (hn : (x.th i).need = .translation other)
    (ho : other ≠ page) : (x.wakeTranslation (· == page)).th i = x.th i := by
  rw [wakeTranslation_th, hn]
  exact if_neg fun h => ho (beq_iff_eq.1 h.2)

theorem pageFault_th (x : Tile) (w : Walk) (i : Fin 8) : (x.pageFault w).th i =
    if (x.th i).st = .queue ∧ (x.th i).need = .translation w.page then { x.th i with walkFault := some w.page } else x.th i :=
  mapTh_th x (fun h => if h.st = .queue ∧ h.need = .translation w.page then { h with walkFault := some w.page } else h) i

/-- A fault found for its page lets a waiting thread issue again, and is kept for it. -/
theorem pageFault_woken {x : Tile} {i : Fin 8} {w : Walk} (hs : (x.th i).st = .queue) (hn : (x.th i).need = .translation w.page) :
    ((x.pageFault w).wakeTranslation (· == w.page)).th i =
      { x.th i with walkFault := some w.page, st := .ready, need := .none } := by
  have hp : (x.pageFault w).th i = { x.th i with walkFault := some w.page } := (pageFault_th ..).trans (if_pos ⟨hs, hn⟩)
  rw [wakeTranslation_woken (by rw [hp]; exact hs) (by rw [hp]; exact hn), hp]

theorem pageFault_waits {x : Tile} {i : Fin 8} {w : Walk} {page : Nat} (hn : (x.th i).need = .translation page)
    (ho : page ≠ w.page) : ((x.pageFault w).wakeTranslation (· == w.page)).th i = x.th i := by
  have hp : (x.pageFault w).th i = x.th i := (pageFault_th ..).trans <| if_neg fun h => ho (by
    rw [hn] at h
    exact Need.translation.inj h.2)
  rw [wakeTranslation_waits (by rw [hp]; exact hn) ho, hp]

theorem tile_fillCore (s : State) (t : Nat) (e : TlbEntry) :
    (s.fillCore t e).tile t = { s.tile t with tlb := tlbTouch (s.tile t).tlb e 16 } := State.tile_modTile ..

/-- Settles O42: each event's outcome, by the lemma of its name. -/
theorem countsAndWalks : Obligations.CountsAndWalks := by
  unfold Obligations.CountsAndWalks
  intro s p t
  refine ⟨fun bytes dir u skip n hp ho hf hh hr ha hl => ⟨fun hn => ?_, fun hn hu hd he => ?_⟩, fun dir hp ho hf hh hr => ?_,
    fun q m y x e hp hh hf hq hr hs hg => ?_, fun m sent e hp ho hf hs hu hr hsrc hg => ?_,
    fun i kind rcvd c hp ho hy ht hc hi hn hl => ?_, fun w e hw he => ?_, fun w a hw ha => ?_, fun w hw hfault => ?_⟩
  · exact ⟨_, exec_nbsendReceive_full hp ho hr ha hn, by rw [reply_answered hf hh], by rw [reply_answered hf hh]⟩
  · have hx := exec_nbsendReceive_stored hp ho hr ha hn hd he
    obtain ⟨hb, hw, hev, hnet, hidx⟩ := storePacket_leaves
      ((s.dropPkt p.id).modTile u fun x => { x with delayed := x.delayed.filter (·.1 != .packet p.id) }) (freePacket_lt hn) hu hl
      dir skip (w := nbWriter p) rfl
    generalize State.storePacket _ _ _ _ _ _ _ = v at hx hb hw hev hnet hidx
    rw [packetOff_eq] at hb
    rw [headerOff_eq] at hw
    have hopen := homeIndex_modTile (s.dropPkt p.id) u
      (f := fun x => { x with delayed := x.delayed.filter (·.1 != .packet p.id) })
      (fun _ => rfl) p.home
    rw [reply_net (s := s) hf hh _ hnet ((hidx _).trans hopen)] at hx
    exact ⟨_, hx, rfl, hb, hw, hev⟩
  · obtain ⟨bytes, ho⟩ := ho
    rw [exec_nbsendReceive_lost hp ho hr, reply_answered hf hh]
  · exact ⟨_, exec_fabricStoreReceive hp hh hf hq hr hs hg, rfl, rfl, rfl, rfl⟩
  · refine ⟨_, exec_intervalCheckArrival hp ho hf hs, rfl, ?_, ?_⟩
    · simp [hr, hsrc]
    · rw [checkAnswer_counted hu hr hsrc hg]
  · subst ht
    have ha := answered_alone (kind := kind) (rcvd := rcvd) hc hi hn
    have hth : ((s.dropPkt p.id).modTile p.org.tile fun x => x.mapTh (·.answered p.req kind rcvd)).th p.org.tile i =
        (s.th p.org.tile i).answered p.req kind rcvd :=
      (congrArg (Tile.th · i) (State.tile_modTile ..)).trans (mapTh_th ..)
    rw [ha] at hth
    exact ⟨_, exec_intervalCheckAnswer hp ho hy hl, rfl, by rw [hth], by rw [hth], by rw [hth], by rw [hth]⟩
  · have hx := walkComplete_leaf hw he
    rw [endWalk_alone (s := (s.fillDie w.die (tlbOf w e)).fillCore w.tile (tlbOf w e)) hw] at hx
    refine ⟨_, hx, rfl, rfl, ?_, ?_, fun i hs hn => ?_⟩
    · rw [State.tile_modTile]
      exact (congrArg (fun x : Tile => x.tlb.head?) (tile_fillCore ..)).trans (tlbTouch_head _ _ (by decide))
    · exact (congrArg List.head? (Assoc.get_put_same ..)).trans (tlbTouch_head _ _ (cap := 8192) (by decide))
    · have hth : ((s.fillDie w.die (tlbOf w e)).fillCore w.tile (tlbOf w e)).th w.tile i = s.th w.tile i := by
        rw [State.th, tile_fillCore]
        rfl
      rw [State.th, State.tile_modTile]
      exact congrArg Thread.st (wakeTranslation_woken (by rw [← hth] at hs; exact hs) (by rw [← hth] at hn; exact hn))
  · exact walkComplete_down hw ha
  · have hx := walkComplete_fault hw hfault
    rw [endWalk_alone (s := s.modTile w.tile (·.pageFault w)) hw] at hx
    have ht : (State.modTile { s.modTile w.tile (·.pageFault w) with walks := [] } w.tile
        (·.wakeTranslation (· == w.page))).tile w.tile = ((s.tile w.tile).pageFault w).wakeTranslation (· == w.page) :=
      (State.tile_modTile ..).trans (congrArg (Tile.wakeTranslation · (· == w.page))
        (State.tile_modTile s w.tile (·.pageFault w)))
    refine ⟨_, hx, rfl, rfl, (congrArg Tile.tlb ht).trans rfl, (congrArg Tile.engineFaults ht).trans rfl,
      fun i hs => ⟨fun hn => ?_, fun page hn ho => ?_⟩⟩
    · have hth := (congrArg (Tile.th · i) ht).trans (pageFault_woken hs hn)
      exact ⟨congrArg Thread.st hth, congrArg Thread.walkFault hth⟩
    · exact (congrArg (Tile.th · i) ht).trans (pageFault_waits hn ho)

end Sys2Proof.Machine
end

section
/-! # Requests at a tile's port (O39) -/
namespace Sys2Proof.Machine

/-! ### A request taken from the network -/

theorem descends_dropPkt (s : State) (id n d a : Nat) : descends (s.dropPkt id) n d a = descends s n d a := by
  induction n generalizing d with
  | zero => rfl
  | succ n ih =>
    unfold descends
    simp only [ih]
    rfl

theorem rejection_dropPkt (s : State) (p : Packet) (id t : Nat) (write : Bool) (spans : List (Nat × Nat)) (fp : Bool) :
    rejection (s.dropPkt id) p t write spans fp = rejection s p t write spans fp := by
  unfold rejection
  simp only [descends_dropPkt]
  rfl

theorem rejection_unreached {s : State} {p : Packet} {t : Nat} (h : reached s p t = false) (write : Bool)
    (spans : List (Nat × Nat)) (fp : Bool) : rejection s p t write spans fp = some 3 := by
  unfold rejection
  rw [h]
  rfl

/-- A step in the scratchpad is rejected as an access to it is. -/
theorem wordRejection_low {s : State} {p : Packet} (hoff : p.off < 0x80000) (id t : Nat) (write : Bool) (spans : List (Nat × Nat))
    (fp : Bool) : wordRejection (s.dropPkt id) p t write spans fp = rejection s p t write spans fp := by
  unfold wordRejection
  rw [rejection_dropPkt]
  have hlow : ¬(p.absolute = true ∧ mramBase ≤ p.off
      ∧ (((s.dropPkt id).tile t).enabled = true ∨ mramBase + 0x8000 ≤ p.off)) := fun h => Nat.not_le.2 hoff h.2.1
  rw [if_neg hlow]
  cases h : reached (s.dropPkt id) p t with
  | false => exact (rejection_unreached (s := s) h ..).symm
  | true => rfl

theorem namesReg_low {p : Packet} (hoff : p.off < 0x80000) : namesReg p = false := by
  unfold namesReg mramBase
  rw [Bool.and_eq_false_iff]
  exact .inr (decide_eq_false (by omega))

theorem waiterLive_dropPkt {s : State} {id : Nat} {w : Waiter} (h : (s.dropPkt id).waiterLive w = true) :
    s.waiterLive w = true := by
  cases w with
  | packet k =>
    obtain ⟨q, hq, he⟩ := List.any_eq_true.1 h
    exact List.any_eq_true.2 ⟨q, (List.mem_filter.1 hq).1, he⟩
  | copyPiece | copyStep | copyEnd | ladlePiece | ladleRiser | ladleEnd | matrixStep | lattice => exact h

/-- No hold, and no write delayed before it, keeps a write from its port. -/
def PortFree (s : State) (p : Packet) (t : Nat) (w : Writer) (spans : List (Nat × Nat)) : Prop :=
  (∀ b ∈ spans, (s.tile t).held t w b.1 b.2 = false)
    ∧ ∀ d ∈ (s.tile t).delayed.takeWhile (·.1 != .packet p.id), s.waiterLive d.1 = true → spansMeet d.2 spans = false

theorem portBlocked_free {s : State} {p : Packet} {t : Nat} {w : Writer} {spans : List (Nat × Nat)} (h : PortFree s p t w spans) :
    (s.dropPkt p.id).portBlocked t (.packet p.id) w spans = false := by
  obtain ⟨hh, hd⟩ := h
  unfold State.portBlocked
  rw [Bool.or_eq_false_iff, List.any_eq_false, List.any_eq_false]
  refine ⟨fun b hb => by rw [Bool.not_eq_true]; exact hh b hb, fun d hm hl => ?_⟩
  obtain ⟨hlive, hmeet⟩ := Bool.and_eq_true_iff.1 hl
  exact Bool.false_ne_true ((hd d hm (waiterLive_dropPkt hlive)).symm.trans hmeet)

theorem portBlocked_held {s : State} {p : Packet} {t off n : Nat} {w : Writer} (h : (s.tile t).held t w off n = true) :
    (s.dropPkt p.id).portBlocked t (.packet p.id) w [(off, n)] = true := by
  unfold State.portBlocked
  rw [Bool.or_eq_true, List.any_cons, Bool.or_eq_true]
  exact .inl (.inl h)

/-- The state in which a write's turn at its port has come. -/
def State.opened (s : State) (p : Packet) (t : Nat) : State :=
  (s.dropPkt p.id).modTile t fun x => { x with delayed := x.delayed.filter (·.1 != .packet p.id) }

theorem atPort_free {s : State} {p : Packet} {t : Nat} {w : Writer} {spans : List (Nat × Nat)} (h : PortFree s p t w spans)
    (k : State → State) : s.atPort (s.dropPkt p.id) t (.packet p.id) w spans k = k (s.opened p t) :=
  atPort_open (portBlocked_free h)

section
variable {s u : State} {p : Packet} {t : Nat}

theorem opened_core (v : Nat) : ((s.opened p t).tile v).core = (s.tile v).core :=
  core_modTile (s.dropPkt p.id) t (f := fun x => { x with delayed := x.delayed.filter (·.1 != .packet p.id) }) (fun _ => rfl) v

theorem opened_other {v : Nat} (h : v ≠ t) : (s.opened p t).tile v = s.tile v := State.tile_modTile_other _ _ h

theorem opened_homeIndex (h : Home) : homeIndex (s.opened p t) h = homeIndex s h :=
  homeIndex_modTile (s.dropPkt p.id) t (f := fun x => { x with delayed := x.delayed.filter (·.1 != .packet p.id) })
    (fun _ => rfl) h

theorem untraced_opened (h : (s.tile t).core.jmtrace.getLsbD 63 = false) (w : Writer) (off : Nat) :
    Untraced (s.opened p t) t w off := by
  refine .inr (.inl ?_)
  rw [opened_core]
  exact h

theorem Wrote.of_mem {a v : State} {off : Nat} {bs : List Byte} (h : Wrote a u t off bs) (hs : a.mem = s.mem)
    (hv : v.mem = u.mem) :
    Wrote s v t off bs := by
  unfold Wrote State.byte at *
  rw [hv, ← hs]
  exact h

/-! ### What a request performed leaves -/

section
variable {i : Instr} {q : State → Prop} (hu : PortStep (s.opened p t) u t)
include hu

/-- A step at the port, and the request's answer. -/
theorem performed_answered {a : Op} (hf : p.org.fab = false) (hh : p.org.party ≠ .host) (hx : exec i s = .next (u.reply p a))
    (hq : ∀ v, v.mem = u.mem → q v) : ∃ v, exec i s = .next v ∧ q v ∧ v.net = answered s p a
      ∧ (v.tile t).core = (s.tile t).core ∧ ∀ n, n ≠ t → v.tile n = s.tile n := by
  rw [reply_net (s := s) hf hh a hu.net ((hu.homeIndex _).trans (opened_homeIndex _))] at hx
  exact ⟨_, hx, hq _ rfl, rfl, (hu.core t).trans (opened_core t), fun n hn => (hu.other n hn).trans (opened_other hn)⟩

theorem performed_silent (hx : exec i s = .next u) (hq : ∀ v, v.mem = u.mem → q v) : ∃ v, exec i s = .next v ∧ q v
    ∧ v.net = s.net.filter (·.id != p.id) ∧ (v.tile t).core = (s.tile t).core ∧ ∀ n, n ≠ t → v.tile n = s.tile n :=
  ⟨_, hx, hq _ rfl, hu.net, (hu.core t).trans (opened_core t), fun n hn => (hu.other n hn).trans (opened_other hn)⟩
end

/-! ### What a rejection leaves (R272) -/

section
variable {i : Instr} {r kind : Nat} (hin : s.inFrame t = true)
include hin

theorem logRejection_tile : ((s.dropPkt p.id).logRejection p t kind r).mem = s.mem
    ∧ (((s.dropPkt p.id).logRejection p t kind r).tile t).threads = (s.tile t).threads
    ∧ (((s.dropPkt p.id).logRejection p t kind r).tile t).elhead = ((s.tile t).elhead + 1) % 2 ^ 64
    ∧ ((s.dropPkt p.id).logRejection p t kind r).net = s.net.filter (·.id != p.id)
    ∧ (∀ v, (((s.dropPkt p.id).logRejection p t kind r).tile v).core = (s.tile v).core)
    ∧ (∀ n, n ≠ t → ((s.dropPkt p.id).logRejection p t kind r).tile n = s.tile n)
    ∧ ((s.dropPkt p.id).logRejection p t kind r).code = s.code := by
  have he : (s.dropPkt p.id).logRejection p t kind r =
      (s.dropPkt p.id).logError t kind (sourceIndex p.org) p.org.fab (slotField p.org) r (nd p.off) 0 := if_pos hin
  rw [he]
  unfold State.logError
  extract_lets ts
  refine ⟨rfl, ?_, ?_, rfl, ?_, fun n hn => State.tile_modTile_other _ _ hn, rfl⟩
  · rw [State.tile_modTile]
    rfl
  · rw [State.tile_modTile]
    rfl
  · intro v
    by_cases h : v = t
    · rw [h, State.tile_modTile]
      rfl
    · rw [State.tile_modTile_other _ _ h]
      rfl

theorem rejected_told (hp : p.home = .tile t) (hf : p.org.fab = false) (hh : p.org.party ≠ .host)
    (hx : exec i s = .next ((s.dropPkt p.id).refuse p r)) :
    ∃ u, exec i s = .next u ∧ (u.mem = s.mem ∧ (u.tile t).threads = (s.tile t).threads
        ∧ (u.tile t).elhead = ((s.tile t).elhead + 1) % 2 ^ 64)
      ∧ u.net = answered s p (.reject r (s.tile t).lidx false) ∧ (u.tile t).core = (s.tile t).core
      ∧ ∀ v, v ≠ t → u.tile v = s.tile v := by
  obtain ⟨hm, ht, he, hn, hc, ho, hcode⟩ := logRejection_tile (p := p) (r := r) (kind := if poisonStep p then 5 else 1) hin
  have hidx : homeIndex s p.home = (s.tile t).lidx := by rw [hp]; exact if_pos hin
  unfold State.refuse at hx
  rw [hp] at hx
  dsimp only at hx
  generalize (s.dropPkt p.id).logRejection p t (if poisonStep p then 5 else 1) r = l at *
  have hl : homeIndex l p.home = homeIndex s p.home := homeIndex_congr hcode hc _
  have hun : l.uncount p = l := if_neg fun h => by rw [hf] at h; exact Bool.false_ne_true h.1
  rw [hun, ← hp, hl, hidx, hf, reply_net (s := s) hf hh _ hn hl] at hx
  exact ⟨_, hx, ⟨hm, ht, he⟩, rfl, hc t, ho⟩

theorem rejected_untold (hx : exec i s = .next ((s.dropPkt p.id).logRejection p t kind r)) :
    ∃ u, exec i s = .next u ∧ (u.mem = s.mem ∧ (u.tile t).threads = (s.tile t).threads
        ∧ (u.tile t).elhead = ((s.tile t).elhead + 1) % 2 ^ 64)
      ∧ u.net = s.net.filter (·.id != p.id) ∧ (u.tile t).core = (s.tile t).core ∧ ∀ v, v ≠ t → u.tile v = s.tile v := by
  obtain ⟨hm, ht, he, hn, hc, ho, -⟩ := logRejection_tile (p := p) (r := r) (kind := kind) hin
  exact ⟨_, hx, ⟨hm, ht, he⟩, hn, hc t, ho⟩
end
end

end Sys2Proof.Machine
end

section
/-! # Requests performed at a tile's port (O39) -/
namespace Sys2Proof.Machine

/-! ### Pieces of one run of bytes -/

/-- Pieces written to a tile's storage, as bytes of memory alone. -/
def Memory.writePieces (m : List Host.Cell) (t : Nat) (pieces : List (Nat × List Byte)) : List Host.Cell :=
  pieces.foldl (fun m p => Memory.write m (tileKey t p.1) p.2) m

theorem withPieces_mem (s : State) (t : Nat) (pieces : List (Nat × List Byte)) :
    (s.withPieces t pieces).mem = Memory.writePieces s.mem t pieces := by
  induction pieces generalizing s with
  | nil => rfl
  | cons p l ih => exact ih _

theorem writePieces_join (m : List Host.Cell) (t off : Nat) {n : Nat} (a b : List Byte) (hn : n = off + a.length)
    (ps : List (Nat × List Byte)) :
    Memory.writePieces m t ((off, a) :: (n, b) :: ps) = Memory.writePieces m t ((off, a ++ b) :: ps) := by
  have h : Memory.write (Memory.write m (tileKey t off) a) (tileKey t n) b = Memory.write m (tileKey t off) (a ++ b) := by
    rw [← Memory.write_append, show tileKey t n = tileKey t off + a.length by rw [hn]; exact (Nat.add_assoc ..).symm]
  exact congrArg (Memory.writePieces · t ps) h

theorem withPieces_two (s : State) (t off : Nat) (a b : List Byte) {n : Nat} (hn : n = off + a.length) :
    (s.withPieces t [(off, a), (n, b)]).mem = Memory.write s.mem (tileKey t off) (a ++ b) := by
  rw [withPieces_mem, writePieces_join _ _ _ _ _ hn]
  rfl

/-- The four halves of two words are one run of their bytes. -/
theorem writePieces_halves (m : List Host.Cell) (t off : Nat) {a b : List Byte} (ha : a.length = 8) (hb : b.length = 8) :
    Memory.writePieces m t [(off, a.take 4), (off + 4, a.drop 4), (off + 8, b.take 4), (off + 12, b.drop 4)] =
      Memory.write m (tileKey t off) (a ++ b) := by
  rw [writePieces_join _ _ _ _ _ (by simp [ha]), List.take_append_drop, writePieces_join _ _ _ _ _ (by rw [ha]),
    writePieces_join _ _ _ _ _ (by simp [ha, hb]), List.append_assoc, List.take_append_drop]
  rfl

/-- A barrier's step is one run of its two words' bytes. -/
theorem barPieces_mem (s : State) (t off : Nat) (e : BarEvent) (b : BarOut) : (s.withPieces t (barPieces e off b)).mem =
    Memory.write s.mem (tileKey t off) (leBytes 8 b.w0.toNat ++ leBytes 8 b.w1.toNat) := by
  rw [withPieces_mem]
  cases e with
  | init => rfl
  | arrive | expect | inDone | outDone | poison => exact writePieces_halves _ _ _ (leBytes_length ..) (leBytes_length ..)

/-! ### Steps at the port -/

section
variable {s : State} {p : Packet} {t : Nat} (hj : (s.tile t).core.jmtrace.getLsbD 63 = false)
include hj

theorem portStep_opened (pieces : List (Nat × List Byte)) (w : Writer) (off : Nat) :
    PortStep (s.opened p t) ((s.opened p t).stepWrite t pieces w off) t := portStep_stepWrite (untraced_opened hj w off)

theorem wrote_opened {pieces : List (Nat × List Byte)} {w : Writer} {off a : Nat} {bs : List Byte}
    (hp : ((s.opened p t).withPieces t pieces).mem = Memory.write s.mem (tileKey t a) bs) :
    Wrote s ((s.opened p t).stepWrite t pieces w off) t a bs :=
  wrote_stepWrite (s := s.opened p t) (untraced_opened hj w off) hp
end

/-! ### Releases (R168) -/

theorem sendReleases_mem (s : State) (t : Nat) (w0 w1 : Dword) (n : Nat) : (s.sendReleases t w0 w1 n).mem = s.mem := by
  unfold State.sendReleases
  extract_lets x org
  generalize releaseCores x.core w1 = l
  clear_value org
  clear x
  induction l generalizing s with
  | nil => rfl
  | cons c l ih => exact ih _

theorem barrierStep_mem (s : State) (t off : Nat) (e : BarEvent) (w : Writer) : (s.barrierStep t off e w).1.mem =
    (s.stepWrite t (barPieces e off (barStep (s.readD (tileKey t off)) (s.readD (tileKey t (off + 8))) e)) w off).mem := by
  unfold State.barrierStep
  extract_lets b u v
  show v.mem = u.mem
  dsimp only [v]
  split
  · exact sendReleases_mem ..
  · rfl

theorem barrierStep_quiet {s : State} {t off : Nat} {e : BarEvent} {w : Writer}
    (h : (barStep (s.readD (tileKey t off)) (s.readD (tileKey t (off + 8))) e).release = none) : (s.barrierStep t off e w).1 =
      s.stepWrite t (barPieces e off (barStep (s.readD (tileKey t off)) (s.readD (tileKey t (off + 8))) e)) w off := by
  unfold State.barrierStep
  dsimp only
  rw [h]

theorem reply_mem {s : State} {p : Packet} (hf : p.org.fab = false) (hh : p.org.party ≠ .host) (op : Op) :
    (s.reply p op).mem = s.mem := by
  have h1 : ¬(p.org.party = .host ∧ (!isSpawn p.op) = true) := fun h => hh h.1
  have h2 : ¬p.org.fab = true := by rw [hf]; exact Bool.false_ne_true
  unfold State.reply
  dsimp only
  rw [if_neg h1, if_neg h2]
  rfl

end Sys2Proof.Machine
end

section
/-! # What each request's home makes of it (O39)

Each kind of request arrives as its `perform` function (`exec_…`), which refuses a rejected one and takes its turn at the port
with an admitted one (`perform…_rejected`, `perform…_admitted`). -/
namespace Sys2Proof.Machine

/-! ### Arrivals -/

section
variable {s : State} {p : Packet} {t : Nat} (hA : Arrives s p t)
include hA

theorem exec_load {size : Nat} (ho : p.op = .load size) :
    exec (.routedLoadArrival p.id) s = .next (performLoad p size (s.dropPkt p.id)) := by
  show execRoutedLoadArrival p.id s = _
  unfold execRoutedLoadArrival
  rw [arrive_tile hA (by rw [ho])]
  rw [ho]

theorem exec_store {size data : Nat} (ho : p.op = .store size data) :
    exec (.routedStoreArrival p.id) s = .next (performStore s p size data (s.dropPkt p.id)) := by
  show execRoutedStoreArrival p.id s = _
  unfold execRoutedStoreArrival
  rw [arrive_tile hA (by rw [ho])]
  rw [ho]

theorem exec_amo {op : AmoOp} {size : Nat} {src cmp : Dword} (ho : p.op = .amo op size src cmp) :
    exec (.routedAmoArrival p.id) s = .next (performAmo s p op size src cmp (s.dropPkt p.id)) := by
  show execRoutedAmoArrival p.id s = _
  unfold execRoutedAmoArrival
  rw [arrive_tile hA (by rw [ho])]
  rw [ho]

/-- The operations of a riser step. -/
def RiserOp (op : Op) : Prop := ∃ n, op = .radd n ∨ op = .rsig n ∨ op = .rpoison n

theorem exec_riser (ho : RiserOp p.op) :
    exec (.riserStepArrival p.id) s = .next (performRiser s p (s.dropPkt p.id)) := by
  show execRiserStepArrival p.id s = _
  unfold execRiserStepArrival
  rw [arrive_tile hA (by obtain ⟨n, h | h | h⟩ := ho <;> rw [h])]

theorem exec_counted {size data roff : Nat} (ho : p.op = .counted size data roff) :
    exec (.countedStoreArrival p.id) s = .next (performCounted s p size data roff (s.dropPkt p.id)) := by
  show execCountedStoreArrival p.id s = _
  unfold execCountedStoreArrival
  rw [arrive_tile hA (by rw [ho])]
  rw [ho]

/-- The operations on a barrier but for the transfer completion. -/
def BarrierOp (op : Op) : Prop := ∃ a b n k, op = .binit a b ∨ op = .barv n ∨ op = .bexp n k ∨ op = .bpoison n

theorem exec_barrier (ho : BarrierOp p.op) :
    exec (.barrierStepArrival p.id) s = .next (performBarrier s p (s.dropPkt p.id)) := by
  show execBarrierStepArrival p.id s = _
  unfold execBarrierStepArrival
  rw [arrive_tile hA (by obtain ⟨a, b, n, k, h | h | h | h⟩ := ho <;> rw [h])]

theorem exec_done {i f : Bool} (ho : p.op = .done i f) :
    exec (.transferCompletionStep p.id) s = .next (performDone s p (s.dropPkt p.id)) := by
  show execTransferCompletionStep p.id s = _
  unfold execTransferCompletionStep
  rw [arrive_tile hA (by rw [ho])]
  rw [ho]

theorem exec_release {n cls : Nat} {poison : Bool} (ho : p.op = .release n poison cls) :
    exec (.releaseSignalArrival p.id) s = .next (performRelease s p n poison cls (s.dropPkt p.id)) := by
  show execReleaseSignalArrival p.id s = _
  unfold execReleaseSignalArrival
  rw [arrive_tile hA (by rw [ho])]
  rw [ho]

theorem exec_capq_rejected {k r : Nat} (ho : p.op = .capq k) (hr : rejection s p t false [] false = some r) :
    exec (.capqArrival p.id) s = .next ((s.dropPkt p.id).refuse p r) := by
  show execCapqArrival p.id s = _
  unfold execCapqArrival
  rw [arrive_tile hA (by rw [ho]), hA.2.1, ho]
  dsimp only
  rw [rejection_dropPkt, hr]

theorem exec_capq_admitted {k : Nat} (ho : p.op = .capq k) (hr : rejection s p t false [] false = none) :
    exec (.capqArrival p.id) s = .next ((s.dropPkt p.id).reply p (.result ((s.tile t).capAnswer k).toNat 0)) := by
  show execCapqArrival p.id s = _
  unfold execCapqArrival
  rw [arrive_tile hA (by rw [ho]), hA.2.1, ho]
  dsimp only
  rw [rejection_dropPkt, hr]
  exact rfl
end

/-! ### Rejected (R271) -/

/-- An atomic's reasons are those of an access to the scratchpad, be it a device atomic or not. -/
theorem amo_rejection {s : State} {p : Packet} {t : Nat} (hoff : p.off < 0x80000) (op : AmoOp) (size : Nat) :
    (if deviceOp op then wordRejection else rejection) (s.dropPkt p.id) p t true
    [(p.off, size)] (amoIsFp op) = rejection s p t true [(p.off, size)] (amoIsFp op) := by
  cases deviceOp op with
  | false => exact rejection_dropPkt ..
  | true => exact wordRejection_low hoff ..

theorem barEvent_done (i f : Bool) : ∃ e, barEvent (.done i f) = some e := by
  cases i <;> exact ⟨_, rfl⟩

theorem barEvent_barrierOp {op : Op} (h : BarrierOp op) : ∃ e, barEvent op = some e := by
  obtain ⟨a, b, n, k, rfl | rfl | rfl | rfl⟩ := h <;> exact ⟨_, rfl⟩

section
variable {s : State} {p : Packet} {t r : Nat} (hh : p.home = .tile t) (hoff : p.off < 0x80000)
include hh hoff

theorem performLoad_rejected {size : Nat} (hr : rejection s p t false [(p.off, size)] false = some r) :
    performLoad p size (s.dropPkt p.id) = (s.dropPkt p.id).refuse p r := by
  unfold performLoad
  rw [hh]
  dsimp only
  rw [namesReg_low hoff, if_neg Bool.false_ne_true, rejection_dropPkt, hr]

theorem performStore_rejected {size data : Nat} (hr : rejection s p t true [(p.off, size)] false = some r) :
    performStore s p size data (s.dropPkt p.id) = (s.dropPkt p.id).refuse p r := by
  unfold performStore
  rw [hh]
  dsimp only
  rw [namesReg_low hoff, if_neg Bool.false_ne_true, rejection_dropPkt, hr]

theorem performAmo_rejected {op : AmoOp} {size : Nat} {src cmp : Dword}
    (hr : rejection s p t true [(p.off, size)] (amoIsFp op) = some r) :
    performAmo s p op size src cmp (s.dropPkt p.id) = (s.dropPkt p.id).refuse p r := by
  unfold performAmo
  rw [hh]
  dsimp only
  rw [namesReg_low hoff, if_neg fun h => Bool.false_ne_true h.1, amo_rejection hoff, hr]

theorem performRiser_rejected (hr : rejection s p t true [(p.off, 8)] false = some r) :
    performRiser s p (s.dropPkt p.id) = (s.dropPkt p.id).refuse p r := by
  unfold performRiser
  rw [hh]
  dsimp only
  rw [wordRejection_low hoff, hr]

theorem performCounted_rejected {size data roff : Nat} (hr : rejection s p t true [(p.off, size), (roff, 8)] false = some r) :
    performCounted s p size data roff (s.dropPkt p.id) = (s.dropPkt p.id).refuse p r := by
  unfold performCounted
  rw [hh]
  dsimp only
  rw [wordRejection_low hoff, hr]

theorem performBarrier_rejected {e : BarEvent} (he : barEvent p.op = some e)
    (hr : rejection s p t true [(p.off, 16)] false = some r) :
    performBarrier s p (s.dropPkt p.id) = (s.dropPkt p.id).refuse p r := by
  unfold performBarrier
  rw [hh, he]
  dsimp only
  rw [wordRejection_low hoff, hr]

theorem performDone_rejected {e : BarEvent} (he : barEvent p.op = some e)
    (hr : rejection s p t true [(p.off, 16)] false = some r) :
    performDone s p (s.dropPkt p.id) = (s.dropPkt p.id).refuse p r := by
  unfold performDone
  rw [hh, he]
  dsimp only
  rw [wordRejection_low hoff, hr]

omit hoff in
theorem performRelease_rejected {n cls : Nat} {poison : Bool} (hr : rejection s p t true [(p.off, 8)] false = some r) :
    performRelease s p n poison cls (s.dropPkt p.id) = (s.dropPkt p.id).logRejection p t 5 r := by
  unfold performRelease
  rw [hh]
  dsimp only
  rw [rejection_dropPkt, hr]
end

/-! ### Admitted (R182, R183) -/

theorem tilePoison_low {off : Nat} (h : off < 0x80000) (s : State) (t size : Nat) :
    tilePoison s t off size = if s.markedIn (tileKey t off) size then 2 else 0 := if_neg (Nat.not_le.2 h)

theorem ramRead_low {off : Nat} (h : off < 0x80000) (s : State) (t size : Nat) (a : Dword) : s.ramRead t off size a = s :=
  if_neg fun e => Nat.not_le.2 h e.1

theorem markedIn_congr {s u : State} (h : u.marks = s.marks) (k n : Nat) : u.markedIn k n = s.markedIn k n := by
  induction n with
  | zero => rfl
  | succ n ih => rw [State.markedIn, State.markedIn, ih, State.marked, State.marked, h]

/-- What a riser step leaves, and its answer. -/
def riserDone (p : Packet) (t : Nat) (u : State) : State :=
  match p.op with
  | .radd n => (u.riserAdvance t p.off n (writerOf p 2 3)).reply p (.result (u.readN (tileKey t p.off) 8) 0)
  | .rsig n => (u.riserAdvance t p.off n (writerOf p 2 3)).reply p .complete
  | .rpoison c => (u.riserPoisoned t p.off c p.org.lidx (writerOf p 2 3)).reply p .complete
  | _ => u

/-- The answer of a barrier step. -/
def barAnswer (r : Option Dword) : Op :=
  match r with
  | some v => .result v.toNat 0
  | none => .complete

/-- What a barrier at off of tile t becomes by an event. -/
def State.barOut (s : State) (t off : Nat) (e : BarEvent) : BarOut :=
  barStep (s.readD (tileKey t off)) (s.readD (tileKey t (off + 8))) e

section
variable {s : State} {p : Packet} {t : Nat} (hh : p.home = .tile t) (hoff : p.off < 0x80000)
include hh hoff

theorem performLoad_admitted {size : Nat} (hr : rejection s p t false [(p.off, size)] false = none) :
    performLoad p size (s.dropPkt p.id) = (s.dropPkt p.id).reply p
      (.result (s.readN (tileKey t p.off) size) (if s.markedIn (tileKey t p.off) size then 2 else 0)) := by
  unfold performLoad
  rw [hh]
  dsimp only
  rw [namesReg_low hoff, if_neg Bool.false_ne_true, rejection_dropPkt, hr]
  dsimp only
  rw [ramRead_low hoff, tilePoison_low hoff, dropPkt_markedIn]
  rfl

theorem performStore_admitted {size data : Nat} (hr : rejection s p t true [(p.off, size)] false = none) :
    performStore s p size data (s.dropPkt p.id) = s.atPort (s.dropPkt p.id) t (.packet p.id) (writerOf p 0 (Nat.log2 size))
      [(p.off, size)] fun u =>
        (u.stepWrite t [(p.off, leBytes size data)] (writerOf p 0 (Nat.log2 size)) p.off).reply p .complete := by
  unfold performStore
  rw [hh]
  dsimp only
  rw [namesReg_low hoff, if_neg Bool.false_ne_true, rejection_dropPkt, hr]

theorem performAmo_admitted {op : AmoOp} {size : Nat} {src cmp : Dword}
    (hr : rejection s p t true [(p.off, size)] (amoIsFp op) = none)
    (hf : PortFree s p t (writerOf p 3 (Nat.log2 size)) [(p.off, size)]) :
    performAmo s p op size src cmp (s.dropPkt p.id) =
      if s.markedIn (tileKey t p.off) size then (s.opened p t).reply p (.result (s.readN (tileKey t p.off) size) 2)
      else ((s.opened p t).stepWrite t [(p.off, leBytes size (amoCalc op size (s.readN (tileKey t p.off) size) src cmp).1)]
        (writerOf p 3 (Nat.log2 size)) p.off).reply p
          (.result (amoCalc op size (s.readN (tileKey t p.off) size) src cmp).2.toNat 0) := by
  have hk : (s.opened p t).markedIn (tileKey t p.off) size = s.markedIn (tileKey t p.off) size :=
    markedIn_congr (u := s.opened p t) (s := s) rfl ..
  have hv : (s.opened p t).readN (tileKey t p.off) size = s.readN (tileKey t p.off) size := rfl
  unfold performAmo
  rw [hh]
  dsimp only
  rw [namesReg_low hoff, if_neg fun h => Bool.false_ne_true h.1, amo_rejection hoff, hr]
  dsimp only
  rw [atPort_free hf, ramRead_low hoff, tilePoison_low hoff, hk, hv]
  split <;> rfl

theorem performRiser_admitted (hr : rejection s p t true [(p.off, 8)] false = none)
    (hf : PortFree s p t (writerOf p 2 3) [(p.off, 8)]) :
    performRiser s p (s.dropPkt p.id) = riserDone p t (s.opened p t) := by
  unfold performRiser
  rw [hh]
  dsimp only
  rw [wordRejection_low hoff, hr]
  dsimp only
  rw [atPort_free hf]
  rfl

theorem performCounted_admitted {size data roff : Nat} (hr : rejection s p t true [(p.off, size), (roff, 8)] false = none)
    (hf : PortFree s p t (writerOf p 1 (Nat.log2 size)) [(p.off, size), (roff, 8)]) :
    performCounted s p size data roff (s.dropPkt p.id) = ((s.opened p t).countedStep t p.off roff (leBytes size data)
      (writerOf p 1 (Nat.log2 size))).reply p .complete := by
  unfold performCounted
  rw [hh]
  dsimp only
  rw [wordRejection_low hoff, hr]
  dsimp only
  rw [atPort_free hf]

theorem performBarrier_admitted {e : BarEvent} (he : barEvent p.op = some e)
    (hr : rejection s p t true [(p.off, 16)] false = none) (hf : PortFree s p t (writerOf p 7 4) [(p.off, 16)]) :
    performBarrier s p (s.dropPkt p.id) = ((s.opened p t).barrierStep t p.off e (writerOf p 7 4)).1.reply p
      (barAnswer (s.barOut t p.off e).result) := by
  unfold performBarrier
  rw [hh, he]
  dsimp only
  rw [wordRejection_low hoff, hr]
  dsimp only
  rw [atPort_free hf, show ((s.opened p t).barrierStep t p.off e (writerOf p 7 4)).2.1 = (s.barOut t p.off e).result from rfl]
  cases (s.barOut t p.off e).result <;> rfl

theorem performDone_admitted {e : BarEvent} (he : barEvent p.op = some e) (hr : rejection s p t true [(p.off, 16)] false = none)
    (hf : PortFree s p t (writerOf p 7 4) [(p.off, 16)]) (h0 : (s.barOut t p.off e).held = 0) :
    performDone s p (s.dropPkt p.id) = ((s.opened p t).barrierStep t p.off e (writerOf p 7 4)).1.reply p .complete := by
  unfold performDone
  rw [hh, he]
  dsimp only
  rw [wordRejection_low hoff, hr]
  dsimp only
  rw [atPort_free hf, show ((s.opened p t).barrierStep t p.off e (writerOf p 7 4)).2.2 = (s.barOut t p.off e).held from rfl,
    if_pos h0]

omit hoff in
theorem performRelease_admitted {n cls : Nat} {poison : Bool} (hr : rejection s p t true [(p.off, 8)] false = none)
    (hf : PortFree s p t (writerOf p 8 3) [(p.off, 8)]) : performRelease s p n poison cls (s.dropPkt p.id) =
      (s.opened p t).riserSignal t p.off n (if poison then some (cls, p.org.lidx) else none) (writerOf p 8 3) := by
  unfold performRelease
  rw [hh]
  dsimp only
  rw [rejection_dropPkt, hr]
  dsimp only
  rw [atPort_free hf]
end

end Sys2Proof.Machine
end

section
/-! # Requests at their home port (O39) -/
namespace Sys2Proof.Machine

/-! ### Bounds of what is admitted (R34, R271) -/

theorem inFrame_bound {s : State} {t : Nat} (h : s.inFrame t = true) : t < 2 ^ 20 := by
  have hside : s.side ≤ 1024 := by
    unfold State.side
    split <;> decide
  obtain ⟨hy, -⟩ := Bool.and_eq_true_iff.1 h
  have hy := of_decide_eq_true hy
  unfold pyOf at hy
  omega

theorem rejection_none {s : State} {p : Packet} {t : Nat} {write fp : Bool} {spans : List (Nat × Nat)}
    (h : rejection s p t write spans fp = none) : t < 2 ^ 20 ∧ ∀ b ∈ spans, b.1 + b.2 ≤ mramBase + 0x8000 := by
  have hr : reached s p t = true := by
    by_contra hn
    rw [rejection_unreached (Bool.not_eq_true _ ▸ hn)] at h
    cases h
  refine ⟨inFrame_bound (Bool.and_eq_true_iff.1 hr).1, fun b hb => ?_⟩
  by_contra hlt
  rw [Nat.not_le] at hlt
  have habs : spans.any (fun b => decide (mramBase + 0x8000 < b.1 + b.2)) = true :=
    List.any_eq_true.2 ⟨b, hb, decide_eq_true hlt⟩
  have hrel : spans.any (fun b => decide (mramBase < b.1 + b.2)) = true :=
    List.any_eq_true.2 ⟨b, hb, decide_eq_true (Nat.lt_of_le_of_lt (Nat.le_add_right ..) hlt)⟩
  unfold rejection at h
  rw [hr, habs, hrel] at h
  cases hp : p.absolute with
  | true => simp [hp] at h
  | false =>
    simp only [hp] at h
    cases he : (s.tile t).enabled <;> simp [he] at h

/-! ### Counted stores (R158) -/

theorem readN_lt (s : State) (k n : Nat) : s.readN k n < 256 ^ n := by
  induction n generalizing k with
  | zero => exact Nat.one_pos
  | succ n ih =>
    have := ih (k + 1)
    have hb := (s.byte k).isLt
    rw [readN_succ, Nat.pow_succ]
    omega

theorem toNat_readD (s : State) (k : Nat) : (s.readD k).toNat = s.readN k 8 := by
  rw [State.readD, BitVec.toNat_ofNat]
  exact Nat.mod_eq_of_lt (readN_lt s k 8)

/-- A riser's word by its COUNT bytes and the others. -/
theorem readN_word (s : State) (k : Nat) : s.readN k 8 = s.readN k 5 + 2 ^ 40 * s.readN (k + 5) 3 := readN_add s k 5 3

theorem riserCount_readD (s : State) (k : Nat) : riserCount (s.readD k) = s.readN k 5 := by
  rw [riserCount, bits, toNat_readD, readN_word, Nat.pow_zero, Nat.div_one, Nat.add_mul_mod_self_left]
  exact Nat.mod_eq_of_lt (readN_lt s k 5)

/-- New COUNT bytes change the count alone. -/
theorem readD_count {s u : State} {k n : Nat} (hc : Memory.read u.mem k 5 = leBytes 5 (riserCount (s.readD k) + n))
    (ho : Memory.read u.mem (k + 5) 3 = Memory.read s.mem (k + 5) 3) :
    u.readD k = BitVec.ofNat 64 ((s.readD k).toNat / 2 ^ 40 * 2 ^ 40 + ((s.readD k).toNat + n) % 2 ^ 40) := by
  have h5 : u.readN k 5 = (s.readN k 5 + n) % 2 ^ 40 := by
    rw [State.readN, hc, leVal_leBytes, riserCount_readD, show 256 ^ 5 = 2 ^ 40 from rfl]
  have h3 : u.readN (k + 5) 3 = s.readN (k + 5) 3 := congrArg leVal ho
  have hlt : s.readN k 5 < 2 ^ 40 := readN_lt s k 5
  rw [toNat_readD, State.readD, readN_word u, readN_word s, h5, h3]
  congr 1
  omega

section
variable {s : State} {t off roff size : Nat} {data : List Byte} {w : Writer} (hl : data.length = size)
  (hu : Untraced s t w off) (hd : roff + 8 ≤ off)
include hl hu hd

/-- A counted store's bytes, and the count of the riser below them. -/
theorem byte_countedStep {k : Nat} (h : k < 2 ^ 62) : (s.countedStep t off roff data w).byte k =
    if tileKey t roff ≤ k ∧ k < tileKey t roff + 5 then
      (leBytes 5 (riserCount (s.readD (tileKey t roff)) + 1)).getD (k - tileKey t roff) 0
    else if tileKey t off ≤ k ∧ k < tileKey t off + size then data.getD (k - tileKey t off) 0 else s.byte k := by
  have hword : (s.writeB (tileKey t off) data).readD (tileKey t roff) = s.readD (tileKey t roff) :=
    State.readD_congr fun j h1 h2 => (byte_writeB ..).trans (if_neg (by unfold tileKey at *; omega))
  have hcount : countPiece (s.writeB (tileKey t off) data) t roff 1 =
      (roff, leBytes 5 (riserCount (s.readD (tileKey t roff)) + 1)) := by rw [countPiece, hword]
  refine (byte_stepWrite hu h).trans ?_
  rw [hcount]
  refine (byte_writeB ..).trans ?_
  dsimp only
  rw [byte_writeB, hl, leBytes_length]

theorem read_countedStep_data (hk : tileKey t off + size ≤ 2 ^ 62) : ∀ k, tileKey t off ≤ k → k < tileKey t off + size →
    (s.countedStep t off roff data w).byte k = data.getD (k - tileKey t off) 0 := by
  intro k h1 h2
  rw [byte_countedStep hl hu hd (by omega), if_neg (by unfold tileKey at *; omega), if_pos ⟨h1, h2⟩]

theorem readD_countedStep (hk : tileKey t off + size ≤ 2 ^ 62) :
    (s.countedStep t off roff data w).readD (tileKey t roff) = BitVec.ofNat 64
    ((s.readD (tileKey t roff)).toNat / 2 ^ 40 * 2 ^ 40 + ((s.readD (tileKey t roff)).toNat + 1) % 2 ^ 40) := by
  have hkey : tileKey t roff + 8 ≤ tileKey t off := by unfold tileKey; omega
  refine readD_count ?_ (Memory.read_congr fun j h1 h2 => ?_)
  · have h := Memory.read_eq (m := (s.countedStep t off roff data w).mem) (k := tileKey t roff)
      (bs := leBytes 5 (riserCount (s.readD (tileKey t roff)) + 1)) fun j hj => ?_
    · rwa [leBytes_length] at h
    · have hj5 : j < 5 := by rwa [leBytes_length] at hj
      refine (byte_countedStep hl hu hd (by omega)).trans ?_
      rw [if_pos (by omega), Nat.add_sub_cancel_left, List.getD_eq_getElem]
  · refine (byte_countedStep hl hu hd (by omega)).trans ?_
    rw [if_neg (by omega), if_neg (by omega)]
    rfl
end

/-! ### What waits at a port (R136) -/

theorem waitAt_delayed (s : State) (t : Nat) (who : Waiter) (spans : List (Nat × Nat)) :
    ∃ d ∈ ((s.waitAt t who spans).tile t).delayed, d.1 = who := by
  unfold State.waitAt
  rw [State.tile_modTile]
  split
  next h =>
    obtain ⟨d, hd, he⟩ := List.any_eq_true.1 h
    exact ⟨d, hd, beq_iff_eq.1 he⟩
  next => exact ⟨(who, spans), List.mem_append_right _ (List.mem_singleton_self _), rfl⟩

/-! ### The claim -/

theorem poisonTop_eq (cls src : Nat) : poisonTop cls src = 2 ^ 23 + cls % 8 * 2 ^ 20 + src % 2 ^ 20 := by
  unfold poisonTop field
  omega

/-- The events of a barrier are those of its operations and of a transfer's completion. -/
theorem barrierOp_of_barEvent {op : Op} {e : BarEvent} (hd : ∀ i f, op ≠ .done i f) (he : barEvent op = some e) :
    BarrierOp op := by
  cases op with
  | binit a b => exact ⟨a, b, 0, 0, .inl rfl⟩
  | barv n => exact ⟨0, 0, n, 0, .inr (.inl rfl)⟩
  | bexp n k => exact ⟨0, 0, n, k, .inr (.inr (.inl rfl))⟩
  | bpoison n => exact ⟨0, 0, n, 0, .inr (.inr (.inr rfl))⟩
  | done i f => exact absurd rfl (hd i f)
  | _ => cases he

theorem barStep_eq (s : State) (t off : Nat) (e : BarEvent) :
    barStep (s.readD (tileKey t off)) (s.readD (tileKey t off + 8)) e = s.barOut t off e := by
  rw [State.barOut, show tileKey t (off + 8) = tileKey t off + 8 from (Nat.add_assoc ..).symm]

section
variable {s : State} {p : Packet} {t : Nat} (hj : (s.tile t).core.jmtrace.getLsbD 63 = false)
include hj

/-- A riser's COUNT bytes after an advance. -/
theorem wrote_riserAdvance (n : Nat) (w : Writer) : Wrote s ((s.opened p t).riserAdvance t p.off n w) t p.off
    (leBytes 5 (bits (s.readD (tileKey t p.off)) 0 40 + n)) := wrote_opened hj rfl

theorem wrote_riserPoisoned (c : Nat) (w : Writer) : Wrote s ((s.opened p t).riserPoisoned t p.off c p.org.lidx w) t (p.off + 5)
    (leBytes 3 (2 ^ 23 + c % 8 * 2 ^ 20 + p.org.lidx % 2 ^ 20)) := by
  rw [← poisonTop_eq]
  exact wrote_opened hj rfl

theorem wrote_riserSignal_poison (n c : Nat) (w : Writer) :
    Wrote s ((s.opened p t).riserSignal t p.off n (some (c, p.org.lidx)) w) t p.off
      (leBytes 5 (bits (s.readD (tileKey t p.off)) 0 40 + n) ++ leBytes 3 (2 ^ 23 + c % 8 * 2 ^ 20 + p.org.lidx % 2 ^ 20)) := by
  rw [← poisonTop_eq]
  exact wrote_opened hj (withPieces_two _ _ _ _ _ (by rw [leBytes_length]))

/-- A barrier's words after a step. -/
theorem wrote_barrierStep (e : BarEvent) (w : Writer) : Wrote s ((s.opened p t).barrierStep t p.off e w).1 t p.off
    (leBytes 8 (s.barOut t p.off e).w0.toNat ++ leBytes 8 (s.barOut t p.off e).w1.toNat) :=
  (wrote_opened (w := w) (off := p.off) hj (barPieces_mem (s.opened p t) t p.off e (s.barOut t p.off e))).of_mem rfl
    (barrierStep_mem ..)

theorem portStep_barrierStep {e : BarEvent} (w : Writer) (h : (s.barOut t p.off e).release = none) :
    PortStep (s.opened p t) ((s.opened p t).barrierStep t p.off e w).1 t := by
  rw [barrierStep_quiet (s := s.opened p t) h]
  exact portStep_opened hj ..
end

theorem tileKey_bound {t off n : Nat} (ht : t < 2 ^ 20) (h : off + n ≤ mramBase + 0x8000) : tileKey t off + n ≤ 2 ^ 62 := by
  have hm : mramBase = 0x80000 := rfl
  rw [hm] at h
  unfold tileKey
  omega

/-- Settles O39: each request arrives as its `perform` function, which refuses it (`rejected_told`) or takes its step at the
port (`performed_answered`). -/
theorem requestsPerformed : Obligations.RequestsPerformed := by
  unfold Obligations.RequestsPerformed
  intro s p t key word free admitted runs refuses hA hf hh hj hoff
  have hhome : p.home = .tile t := hA.2.1
  have hrefuse {i : Instr} {write fp : Bool} {spans : List (Nat × Nat)}
      (h : ∀ r, rejection s p t write spans fp = some r → exec i s = .next ((s.dropPkt p.id).refuse p r)) :
      refuses i true write spans fp := fun r hr hin => rejected_told hin hhome hf hh (h r hr)
  have hruns {i : Instr} {u : State} {a : Op} {q : State → Prop} (hu : PortStep (s.opened p t) u t)
      (hx : exec i s = .next (u.reply p a)) (hq : ∀ v, v.mem = u.mem → q v) : runs i (some a) q :=
    performed_answered hu hf hh hx hq
  have hsilent {i : Instr} {u : State} {q : State → Prop} (hu : PortStep (s.opened p t) u t) (hx : exec i s = .next u)
      (hq : ∀ v, v.mem = u.mem → q v) : runs i none q := performed_silent hu hx hq
  have hat {i : Instr} {a : Op} {q : State → Prop} (hx : exec i s = .next ((s.dropPkt p.id).reply p a))
      (hq : q { s with net := answered s p a }) : runs i (some a) q := by
    rw [reply_answered hf hh] at hx
    exact ⟨_, hx, hq, rfl, rfl, fun _ _ => rfl⟩
  refine ⟨?load, ?loadMarked, ?loadRej, ?store, ?storeRej, ?storeHeld, ?amo, ?amoMarked, ?amoRej, ?riserRej, ?countedRej,
    ?barrierRej, ?doneRej, ?releaseRej, ?capqRej, ?radd, ?rsig, ?rpoison, ?counted, ?barrier, ?done, ?release, ?releasePoison,
    ?capq⟩
  case load =>
    intro size ho hr hm
    refine hat ((exec_load hA ho).trans (congrArg Host.Outcome.next ?_)) ⟨rfl, rfl⟩
    rw [performLoad_admitted hhome hoff hr, hm, if_neg Bool.false_ne_true]
  case loadMarked =>
    intro size ho hr hm
    refine hat ((exec_load hA ho).trans (congrArg Host.Outcome.next ?_)) ⟨rfl, rfl⟩
    rw [performLoad_admitted hhome hoff hr, hm, if_pos rfl]
  case loadRej =>
    intro size r ho hr hin
    exact rejected_told hin hhome hf hh
      ((exec_load hA ho).trans (congrArg Host.Outcome.next (performLoad_rejected hhome hoff hr)))
  case store =>
    intro size data ho hr hfree
    refine hruns (portStep_opened hj [(p.off, leBytes size data)] (writerOf p 0 (Nat.log2 size)) p.off)
      ((exec_store hA ho).trans (congrArg Host.Outcome.next ?_)) fun v hv => (wrote_opened hj rfl).of_mem rfl hv
    rw [performStore_admitted hhome hoff hr, atPort_free hfree]
  case storeRej =>
    intro size data r ho hr hin
    obtain ⟨u, hx, ⟨hm, ht, -⟩, hrest⟩ := rejected_told hin hhome hf hh
      ((exec_store hA ho).trans (congrArg Host.Outcome.next (performStore_rejected hhome hoff hr)))
    exact ⟨u, hx, ⟨hm, ht⟩, hrest⟩
  case storeHeld =>
    intro size data ho hr hheld
    refine ⟨_, (exec_store hA ho).trans (congrArg Host.Outcome.next ((performStore_admitted hhome hoff hr).trans
      (if_pos (portBlocked_held hheld)))), rfl, rfl, State.tile_waitAt_threads .., waitAt_delayed ..,
      fun v hv => State.tile_waitAt_other _ _ _ hv⟩
  case amo =>
    intro op size src cmp ho hr hfree hm
    refine hruns (portStep_opened hj
        [(p.off, leBytes size (amoCalc op size (s.readN (tileKey t p.off) size) src cmp).1)] (writerOf p 3 (Nat.log2 size)) p.off)
      ((exec_amo hA ho).trans (congrArg Host.Outcome.next ?_)) fun v hv => (wrote_opened hj rfl).of_mem rfl hv
    rw [performAmo_admitted hhome hoff hr hfree, hm, if_neg Bool.false_ne_true]
  case amoMarked =>
    intro op size src cmp ho hr hfree hm
    refine hruns (PortStep.refl ..) ((exec_amo hA ho).trans (congrArg Host.Outcome.next ?_)) fun v hv => hv
    rw [performAmo_admitted hhome hoff hr hfree, hm, if_pos rfl]
  case amoRej =>
    exact fun op size src cmp ho => hrefuse fun r hr =>
      (exec_amo hA ho).trans (congrArg Host.Outcome.next (performAmo_rejected hhome hoff hr))
  case riserRej =>
    exact fun ho => hrefuse fun r hr =>
      (exec_riser hA ho).trans (congrArg Host.Outcome.next (performRiser_rejected hhome hoff hr))
  case countedRej =>
    exact fun size data roff ho => hrefuse fun r hr =>
      (exec_counted hA ho).trans (congrArg Host.Outcome.next (performCounted_rejected hhome hoff hr))
  case barrierRej =>
    intro ho
    obtain ⟨e, he⟩ := barEvent_barrierOp ho
    exact hrefuse fun r hr =>
      (exec_barrier hA ho).trans (congrArg Host.Outcome.next (performBarrier_rejected hhome hoff he hr))
  case doneRej =>
    intro i f ho
    obtain ⟨e, he⟩ := barEvent_done i f
    exact hrefuse fun r hr =>
      (exec_done hA ho).trans (congrArg Host.Outcome.next (performDone_rejected hhome hoff (by rw [ho, he]) hr))
  case releaseRej =>
    exact fun n b c ho r hr hin => rejected_untold hin
      ((exec_release hA ho).trans (congrArg Host.Outcome.next (performRelease_rejected hhome hr)))
  case capqRej => exact fun k ho => hrefuse fun r hr => exec_capq_rejected hA ho hr
  case radd =>
    intro n ho hr hfree
    refine hruns (u := (s.opened p t).riserAdvance t p.off n (writerOf p 2 3)) (portStep_opened hj ..)
      ((exec_riser hA ⟨n, .inl ho⟩).trans (congrArg Host.Outcome.next ?_))
      fun v hv => (wrote_riserAdvance hj n _).of_mem rfl hv
    rw [performRiser_admitted hhome hoff hr hfree, riserDone, ho, toNat_readD]
    rfl
  case rsig =>
    intro n ho hr hfree
    refine hruns (u := (s.opened p t).riserAdvance t p.off n (writerOf p 2 3)) (portStep_opened hj ..)
      ((exec_riser hA ⟨n, .inr (.inl ho)⟩).trans (congrArg Host.Outcome.next ?_))
      fun v hv => (wrote_riserAdvance hj n _).of_mem rfl hv
    rw [performRiser_admitted hhome hoff hr hfree, riserDone, ho]
  case rpoison =>
    intro c ho hr hfree
    refine hruns (u := (s.opened p t).riserPoisoned t p.off c p.org.lidx (writerOf p 2 3)) (portStep_opened hj ..)
      ((exec_riser hA ⟨c, .inr (.inr ho)⟩).trans (congrArg Host.Outcome.next ?_))
      fun v hv => (wrote_riserPoisoned hj c _).of_mem rfl hv
    rw [performRiser_admitted hhome hoff hr hfree, riserDone, ho]
  case counted =>
    intro size data roff ho hr hfree hd
    obtain ⟨ht, hb⟩ := rejection_none hr
    have hk := tileKey_bound ht (hb _ (List.mem_cons_self ..))
    have hu := untraced_opened (p := p) hj (writerOf p 1 (Nat.log2 size)) p.off
    refine hruns (u := (s.opened p t).countedStep t p.off roff (leBytes size data) (writerOf p 1 (Nat.log2 size)))
      (portStep_opened hj ..) ((exec_counted hA ho).trans (congrArg Host.Outcome.next ?_)) fun v hv => ⟨fun k h1 h2 => ?_, ?_⟩
    · rw [performCounted_admitted hhome hoff hr hfree]
    · rw [State.byte, hv]
      exact read_countedStep_data (leBytes_length ..) hu hd hk k h1 h2
    · rw [State.readD, State.readN, hv]
      exact readD_countedStep (leBytes_length ..) hu hd hk
  case barrier =>
    intro e he hd hr hfree
    rw [barStep_eq]
    intro b
    have hop : BarrierOp p.op := barrierOp_of_barEvent (fun i f ho => by rw [ho] at hd; cases hd) he
    have hx := (exec_barrier hA hop).trans (congrArg Host.Outcome.next (performBarrier_admitted hhome hoff he hr hfree))
    have hw := wrote_barrierStep (p := p) hj e (writerOf p 7 4)
    refine ⟨fun hn => ?_, _, hx, hw.of_mem rfl (reply_mem hf hh _)⟩
    exact hruns (portStep_barrierStep hj (writerOf p 7 4) hn) hx fun v hv => hw.of_mem rfl hv
  case done =>
    intro i f e ho he hr hfree
    rw [barStep_eq]
    intro b hn h0
    exact hruns (portStep_barrierStep hj (writerOf p 7 4) hn)
      ((exec_done hA ho).trans (congrArg Host.Outcome.next (performDone_admitted hhome hoff he hr hfree h0)))
      fun v hv => (wrote_barrierStep hj e _).of_mem rfl hv
  case release =>
    intro n c ho hr hfree
    exact hsilent (portStep_opened hj ..)
      ((exec_release hA ho).trans (congrArg Host.Outcome.next (performRelease_admitted hhome hr hfree)))
      fun v hv => (wrote_riserAdvance hj n _).of_mem rfl hv
  case releasePoison =>
    intro n c ho hr hfree
    exact hsilent (portStep_opened hj ..)
      ((exec_release hA ho).trans (congrArg Host.Outcome.next (performRelease_admitted hhome hr hfree)))
      fun v hv => (wrote_riserSignal_poison hj n c _).of_mem rfl hv
  case capq => exact fun k ho hr => hat (exec_capq_admitted hA ho hr) ⟨rfl, rfl⟩

end Sys2Proof.Machine
end
